-- ==== Sys2Proof/Word.lean ====
section
/-! DEFINITION. The word types of the model and the type of its sparse tables. -/
namespace Sys2Proof

/-- One byte. -/
abbrev Byte := BitVec 8

/-- A sparse table: pairs of a key and an entry, keys strictly rising. What a key that is not listed reads as is
given where the table is read. -/
abbrev Tab (α : Type) := List (Nat × α)

end Sys2Proof
end

