-- ==== Sys2Proof/Syntax.lean ====
section
/-! DEFINITION. The commands of the NGZ-9640: the operand types and Instr, one constructor for each row of
spec/opcode_table.json. A command is what reaches the device from outside (a pin, a rail, a bus, an object access) or what one
of its own units reports done. -/
namespace Sys2Proof

/-- How an object access reaches the firmware (15 R644): CAN FD, MCTP over I3C, MCTP over PCIe VDM, the Goith
port, or the device itself (plan, stored parameters, scheduler). -/
inductive Path where | can | i3c | vdm | goith | internal
  deriving DecidableEq, Repr

/-- A requester of an object access: its path, its address on the path (node ID or EID), and the tenant view it
goes through, if any (15 R677). -/
structure Req where
  path : Path
  addr : Byte
  view : Option (Fin 16)
  deriving DecidableEq, Repr

/-- The monitored rails (02 R71). -/
inductive MonRail where | vccfab | vcceng | vccbase | vcclane | vccddr | vccaux
  deriving DecidableEq, Repr

/-- A port of a RAM (07 R299). -/
inductive Port where | a | b
  deriving DecidableEq, Repr

/-- A leaf or deep RAM of a die by its number (07 R297). -/
structure RamId where
  deep : Bool
  die : Fin 8
  num : Fin 2560
  deriving DecidableEq, Repr

/-- Read-during-write rule of a port (07 R301). -/
inductive Rdw where | writeFirst | readFirst | noChange
  deriving DecidableEq, Repr

/-! ## What frames configure (06, 07; log entry 80) -/

/-- The clock that a register or a port selects: a global tree, or a regional clock of a die (06 R259; 07 R299). -/
inductive ClkSel where | glob (n : Fin 24) | reg (d : Fin 8) (n : Fin 32)
  deriving DecidableEq, Repr
/-- Source of a clock tree: synthesizer 4d + k, the clock-capable pair of a partition, the recovered clock of lane 96 + l (Q24 to Q31)
(03 R140, R141; 06 R273, R283). -/
inductive ClkSrc where | synth (i : Fin 32) | pair (p : Fin 128) | lane (l : Fin 32)
  deriving DecidableEq, Repr
/-- A tile (06 R256). -/
structure TileId where
  die : Fin 8
  col : Fin 384
  row : Fin 512
  deriving DecidableEq, Repr
/-- One of the 16 logic cells of a tile, counted from north to south (06 R256, R260). -/
structure CellId where
  tile : TileId
  n : Fin 16
  deriving DecidableEq, Repr
/-- Length of a segment in tiles (06 R265). -/
inductive SegLen where | one | two | four | twelve | express48
  deriving DecidableEq, Repr
inductive Heading where | north | east | south | west
  deriving DecidableEq, Repr
/-- The end of a segment, at a tile: the heading in which the segment runs into it, its length, its number there (06 R265). -/
structure SegEnd where
  tile : TileId
  heading : Heading
  len : SegLen
  n : Fin 64
  deriving DecidableEq, Repr
/-- A seam signal: seam 0 to 5 the east-west ones (F0-F1, F1-F2, F2-F3, F4-F5, F5-F6, F6-F7), 6 to 9 the north-south ones (F0-F4 to F3-F7);
toward the higher die or back; its number, 48 for a tile row or 64 for a tile column (06 R267). -/
structure SeamId where
  seam : Fin 10
  back : Bool
  n : Fin 24576
  deriving DecidableEq, Repr
/-- A multiply cell of a die (06 R257, R263). -/
structure MulId where
  die : Fin 8
  n : Fin 6144
  deriving DecidableEq, Repr
/-- A crossing cell in user logic: its partition and number there (03 R144). -/
structure XId where
  part : Fin 128
  n : Fin 65536
  deriving DecidableEq, Repr

/-- Where a signal of the fabric comes from: a constant; a cell's LUT, carry-stage sum or carry out, or one of its flip-flops; a used or
bypassed segment end; a boundary port; a seam crossing register; a bit of a multiply cell's P, or OVF as bit 58; a pin as its input register gives it
(second: the falling-edge bit of double data rate); a deserialised bit of a pair; a RAM port's output bit, SBE as bit 72, DBE as bit 73; an output of a queue block (numbered at
`qbBit`); outputs of a
crossing cell (XTOGGLE: BUSY, OVERRUN, the destination's pulse as bit 0; XCOUNT: bits of DELTA; XHOLD: REQ or ACK high, DROPPED, bits of the delivered word, VALID as bit
128); a signal that another hardened unit gives the partition's logic. -/
inductive Sig where
  | zero | one
  | lut (c : CellId) | sum (c : CellId) | cout (c : CellId) | ff (c : CellId) (k : Fin 2)
  | seg (e : SegEnd)
  | port (n : Nat)
  | seam (x : SeamId)
  | mul (m : MulId) (bit : Fin 59)
  | pin (pin : Fin 832) (second : Bool)
  | des (pair : Fin 416) (k : Fin 8)
  | ram (r : RamId) (p : Port) (bit : Fin 74)
  | qb (b : Fin 1024) (n : Fin 256)
  | busy (x : XId) | overrun (x : XId) | xbit (x : XId) (bit : Fin 129)
  | unit (p : Fin 128) (n : Nat)
  deriving DecidableEq, Repr

/-- A flip-flop: D from the bypass input in place of the LUT, which clock of the tile, clock enable, local set/reset, INIT, SRVAL, GMODE is RESTORE,
GTREE (06 R258, R259, R261). -/
structure FfCfg where
  byp : Bool
  clk : Fin 2
  en : Option (Fin 4)
  sr : Option (Fin 2)
  init : Bool
  srval : Bool
  restore : Bool
  tree : Fin 8
  deriving DecidableEq, Repr
/-- A logic cell: LUT contents, its six inputs, bypass input, its flip-flops (06 R258). -/
structure CellCfg where
  lut : BitVec 64
  ins : Vector Sig 6
  byp : Sig
  ff0 : Option FfCfg
  ff1 : Option FfCfg
  deriving DecidableEq, Repr
/-- What a tile gives its flip-flops: two clocks, four clock enables, two local set/resets with whether each is asynchronous (06 R259). -/
structure TileCfg where
  clk : Vector (Option ClkSel) 2
  en : Vector Sig 4
  sr : Vector Sig 2
  async : Vector Bool 2
  deriving DecidableEq, Repr
/-- Pre-adder of a multiply cell: none, D + A, D - A; what P takes the product to (06 R263). -/
inductive PreAdd where | none | add | sub deriving DecidableEq, Repr
inductive MulBase where | p | c | cascade deriving DecidableEq, Repr
/-- A multiply cell: operands (27, 27, 27 and 58 signals, bit 0 first; a missing one is 0), pre-adder, base, subtraction, input and product and accumulator registers
used, clock, clock enable, local set/reset, reset tree (06 R263, R264). -/
structure MulCfg where
  a : List Sig
  b : List Sig
  d : List Sig
  c : List Sig
  pre : PreAdd
  base : MulBase
  sub : Bool
  inReg : Bool
  prodReg : Bool
  accReg : Bool
  clk : ClkSel
  en : Option Sig
  sr : Option Sig
  tree : Fin 8
  deriving DecidableEq, Repr
/-- A segment end: what drives the segment, its hop register used, which clock of the tile, INIT, reset tree of that clock's domain (06 R265). -/
structure SegCfg where
  src : Sig
  used : Bool
  clk : Fin 2
  init : Bool
  tree : Fin 8
  deriving DecidableEq, Repr

/-- Standards of user pins (06 R284). -/
inductive PinStd where
  | lvcmos18 | hstl18i | hstl18ii | sstl18i | lvds | diffHstl18
  | lvcmos15 | hstl15i | hstl15ii | sstl15 | diffSstl15
  | lvcmos12 | hstl12 | sstl12 | pod12 | diffPod12 | slvs400
  | lvcmos10
  deriving DecidableEq, Repr
/-- Nominal VCCIO of a bank (06 R284). -/
inductive Vccio where | v18 | v15 | v12 | v10 deriving DecidableEq, Repr
inductive Pull where | none | up | down | keeper deriving DecidableEq, Repr
/-- On-die termination: none, 40, 50 or 60 ohm to VCCIO / 2, 100 ohm across a differential input; drive of LVCMOS in mA (06 R285). -/
inductive Term where | none | r40 | r50 | r60 | d100 deriving DecidableEq, Repr
inductive Drive where | ma4 | ma8 | ma12 deriving DecidableEq, Repr
/-- A register of a pin: none, single or double data rate (06 R285). -/
inductive PinReg where | none | single | double deriving DecidableEq, Repr
/-- A user pin: standard, whether it is used as an output, the output and its enable (second: the falling-edge bits), the three registers and their
clock, the delays in taps, termination, drive, slew, pull (06 R284, R285). -/
structure PinCfg where
  std : PinStd
  output : Bool
  out : Sig
  out2 : Sig
  oe : Sig
  oe2 : Sig
  inReg : PinReg
  outReg : PinReg
  oeReg : PinReg
  clk : Option ClkSel
  inDelay : Fin 512
  outDelay : Fin 512
  term : Term
  drive : Drive
  fast : Bool
  pull : Pull
  deriving DecidableEq, Repr
/-- The 8:1 serialiser and deserialiser of a pair: used, bit clock, the eight bits to be sent (06 R285). -/
structure SerCfg where
  ser : Bool
  des : Bool
  clk : ClkSel
  bits : Vector Sig 8
  deriving DecidableEq, Repr

/-- User source of a reset tree: a fabric signal of a partition, a user pin (06 R274). -/
inductive TreeSrc where | logic (p : Fin 128) (x : Sig) | pin (n : Fin 832) deriving DecidableEq, Repr
/-- What a side of a queue block is attached to: fabric logic of the home partition, or an engine's stream port, SP1 on the producer side and SP0 on
the consumer side (07 R317; 08 R379). -/
inductive QbSide where | fabric | engine (e : Fin 768) deriving DecidableEq, Repr
/-- A port of a RAM: reads, writes, width in bits, read-during-write rule, output register, clock (07 R298 to R301). -/
structure RamPort where
  reads : Bool
  writes : Bool
  width : Nat
  rdw : Rdw
  outReg : Bool
  clk : ClkSel
  deriving DecidableEq, Repr
/-- A crossing cell of user logic (03 R146, R149, R151): kind, source and destination clocks; the event input of an XCOUNT. -/
inductive XKind where | toggle | count (ce : Sig) | hold deriving DecidableEq, Repr

/-- What the opaque frames of a partition configure (05 R222; log entry 80): the model takes it as an operand of the command
that reports the frames written. `home` is the partition whose frames set what belongs to no partition. -/
inductive DesignItem where
  /-- A tile, a logic cell, a multiply cell, a segment end (06 R258 to R265). -/
  | tile (t : TileId) (c : TileCfg)
  | cell (c : CellId) (f : CellCfg)
  | mul (m : MulId) (c : MulCfg)
  | seg (e : SegEnd) (c : SegCfg)
  /-- A boundary port from one partition to another, and what drives it (06 R266). -/
  | port (n : Nat) (frm dest : Fin 128) (src : Sig)
  /-- The clock and reset tree of a group of seam signals; what drives a seam signal (06 R267, R268). -/
  | seamGroup (home : Fin 128) (seam : Fin 10) (back : Bool) (g : Fin 24) (clk : Fin 24) (tree : Fin 8)
  | seam (x : SeamId) (src : Sig)
  /-- A user bank: nominal VCCIO, reference at 0.70 x VCCIO in place of 0.50 (06 R284); a user pin; a pair's serialisers; a pin marked spare (06 R292). -/
  | bank (home : Fin 128) (b : Fin 16) (v : Vccio) (ref70 : Bool)
  | pin (n : Fin 832) (c : PinCfg)
  | serdes (pair : Fin 416) (c : SerCfg)
  | spare (pin : Fin 832)
  /-- A probe tap of a partition names a flip-flop (06 R290). -/
  | tap (p : Fin 128) (n : Fin 2048) (c : CellId) (k : Fin 2)
  /-- Source of a clock tree (06 R273). -/
  | clock (home : Fin 128) (c : ClkSel) (src : ClkSrc)
  /-- Reset tree `g`: user source and release clock (06 R274). -/
  | tree (home : Fin 128) (g : Fin 8) (src : Option TreeSrc) (release : Fin 24)
  /-- A crossing cell (03 R144). -/
  | cross (x : XId) (kind : XKind) (src dst : ClkSel)
  /-- A RAM: ECC mode, ports A and B, scrub enabled, frame address and byte offset of its word 0 in the partition's memory map (07 R298 to R304). -/
  | ram (ram : RamId) (ecc : Bool) (a b : RamPort) (scrub : Bool) (frame : BitVec 19) (off : Fin 4096)
  /-- A queue block: PACKET framing, FLUSH and DROP permitted, AFULL threshold, producer and consumer side, their clocks (07 R316 to R324). -/
  | qb (b : Fin 1024) (packet flush drop : Bool) (thr : Nat) (prod cons : QbSide) (wclk rclk : ClkSel)
  deriving DecidableEq, Repr

/-- Who injects a request into the Vent network (10 R499 of 11): an access point, an engine (one of its DMA channels), a CXL port,
a guest gate with the tenant of the window, a privileged initiator on its own account, or a cascade port with the tenant and the source fields (SRC_DEV, SRC_X,
SRC_Y, SRC_PORT, SRC_SUB) that the header carries (10 R430). -/
inductive Init where
  | ap (p : Fin 128)
  | eng (e : Fin 768) (ch : Fin 4)
  | cxl (port : Fin 4)
  | gate (g : Fin 2) (t : Fin 16)
  | mgmt
  | cfg (t : Option (Fin 16))
  | crypto
  | mirror
  | dbg (t : Option (Fin 16))
  | casc (port : Fin 4) (t : Fin 16) (src : BitVec 27)
  deriving DecidableEq, Repr

/-- How a packet reaches the unit that takes it (10 R428, R431, R435): as sent; with a reserved CMD or VN value, a non-zero reserved bit, or a command on a VN
other than its own (what its CMD and VN fields then hold); or at a port to which its local ID does not belong, a unit's or an empty slot (10 R425, R428). -/
inductive Odd where
  | fine
  | reserved (cmd : BitVec 8) (vn : BitVec 3)
  | misaddressed (port : Fin 512)
  deriving DecidableEq, Repr
/-- An octal flash as discovery finds it on a chip select: its JEDEC ID as read, whether its SFDP describes an 8D-8D-8D mode, its capacity in bytes, and the
bytes of it that are not 0xFF, by physical offset (05 R194 to R196). -/
structure FlashChip where
  jedec : BitVec 24
  octal : Bool
  cap : Nat
  cells : List (Nat × BitVec 8)
  deriving DecidableEq, Repr

/-- A packet's way: what the check bits of its header find (0 nothing, 1 corrected, 2 uncorrectable), at which router of its route counted from 0, the receiving unit
beyond the last (10 R431), how it arrives, and its dateline channel where it comes over a cascade link (10 R430, 14 R603). -/
structure Pkt where
  herr : Fin 3 := 0
  hop : Fin 32 := 0
  odd : Odd := .fine
  dvc : Bool := false
  deriving DecidableEq, Repr

/-- A network management packet (10 R429, R433): a fetch of a SAM entry returns; an update of a replica, its entry in the packet's one data flit; an
invalidation; a tracker credit. -/
inductive Mgmt where
  | fetch
  | replica (e : Fin 256) (flit : BitVec 512)
  | invalidate
  | credit
  deriving DecidableEq, Repr

/-- The fields of a request's header that its sender chooses (10 R430, R433), and the packet's way. -/
structure VHdr where
  init : Init
  txn : BitVec 16
  addr : BitVec 52
  be : BitVec 64
  len : Fin 17
  aux : BitVec 64
  qos : BitVec 2 := 0#2
  hint : BitVec 2
  pk : Pkt
  deriving DecidableEq, Repr

/-- How a Goith transaction arrived (17 R706, R707): header parity good, data parity good. -/
structure GAcc where
  hdrOk : Bool
  dataOk : Bool
  deriving DecidableEq, Repr


/-- An MCTP object message (15 R651, R652, R657): binding, source EID, vendor number, bits of fields that must be zero, requests of this requester not yet
answered, reassembly failed, tag. -/
structure Mctp where
  vdm : Bool
  eid : Byte
  vendor : BitVec 32
  unused : BitVec 64
  waiting : Fin 5
  lost : Bool
  tag : Byte := 0#8
  deriving DecidableEq, Repr
/-- How an SPDM request arrives (15 R660). -/
inductive Via where | i3c | vdm | doe (port : Fin 4)
  deriving DecidableEq, Repr
/-- The target of a write with no row of its own: an object, a register of the Goith port (access class less one, register select), a register of an
engine window. -/
inductive RegTarget where
  | obj (r : Req) (index : BitVec 16) (sub : Byte) (value : List (BitVec 8))
  | goith (g : GAcc) (cls : Fin 4) (rs : Fin 8) (rnw : Bool) (v : BitVec 32)
  | engine (e : Fin 768) (off : BitVec 12) (v : BitVec 32)
  deriving DecidableEq, Repr

/-- What sizing finds on a channel (12 R525 step 2, R527): nothing, a failure of step 1 or 2, or the sizing word. -/
inductive DdrFound where | empty | fails (second : Bool) | dimms (density : Fin 3) (x8 : Bool) (twoRanks : Bool) (twoDimms : Bool)
  deriving DecidableEq, Repr
/-- How a training attempt ends (12 R525, R529). -/
inductive DdrTry where | pass | margin | incomplete
  deriving DecidableEq, Repr

/-- The commands: one constructor for each row of spec/opcode_table.json, in the table's order. The operands
are the model's (the table gives none); what each means stands at its meaning. -/
inductive Instr where
  /-- `VCCAUX_RISE` (R81). -/
  | vccauxRise (vbatMv straps : BitVec 16)
  /-- `VCCAUX_LOSS` (R183). -/
  | vccauxLoss
  /-- `POR_N_LOW` (R80). -/
  | porNLow
  /-- `EFFECTIVE_RESET_END` (R80). -/
  | effectiveResetEnd (straps : BitVec 16) (rails : BitVec 28)
  /-- `BROWNOUT` (R71). -/
  | brownout (rail : MonRail)
  /-- `VCCIO_OUT_OF_RANGE` (R72). -/
  | vccioOutOfRange (bank : Fin 16)
  /-- `VCCIO_RETURN` (R72). -/
  | vccioReturn (bank : Fin 16)
  /-- `POWER_MONITOR_SAMPLE` (R90). -/
  | powerMonitorSample (pkg : BitVec 32) (dies : Vector (BitVec 32) 8) (rails : Vector (BitVec 32) 7)
  /-- `POWER_WINDOW_END` (R91). -/
  | powerWindowEnd
  /-- `THERMAL_TRIP` (R96). -/
  | thermalTrip (site : Fin 40)
  /-- `TAMPER` (R99). -/
  | tamper
  /-- `VBAT_LOW` (R100). -/
  | vbatLow (mv : BitVec 16)
  /-- `VBAT_DOMAIN_RESET` (R100). -/
  | vbatDomainReset
  /-- `VBAT_LATCH_CLEAR` (R102). -/
  | vbatLatchClear (r : Req) (v : BitVec 8) (tamperHeld : Bool)
  /-- `CRYSTAL_STABLE` (R112). -/
  | crystalStable
  /-- `CRYSTAL_EDGE_TIMEOUT` (R112). -/
  | crystalEdgeTimeout
  /-- `ROOT_PLL_LOCK` (R111). -/
  | rootPllLock
  /-- `MONITOR_WINDOW_END` (R123). -/
  | monitorWindowEnd (count : BitVec 16)
  /-- `REFIN_EDGE_TIMEOUT` (R124). -/
  | refinEdgeTimeout
  /-- `REFIN_ACCEPT_TIMEOUT` (R113). -/
  | refinAcceptTimeout
  /-- `BOOT_WAIT_END` (R115). -/
  | bootWaitEnd
  /-- `RC100_CHECK` (R121). -/
  | rc100Check (count : BitVec 16)
  /-- `TRIM_ACQUIRED` (R117). -/
  | trimAcquired (code : BitVec 16)
  /-- `SYNC_TRIM_PHASE1_DONE` (R117). -/
  | syncTrimPhase1Done (code : BitVec 16)
  /-- `SYNC_TIMEOUT` (R119). -/
  | syncTimeout
  /-- `AON32K_MEASURE` (R122). -/
  | aon32kMeasure (mHz : BitVec 32)
  /-- `REF_STATUS_WRITE` (R155). -/
  | refStatusWrite (r : Req) (v : BitVec 8)
  /-- `REF_RESELECT` (R126). -/
  | refReselect (r : Req) (v : BitVec 8)
  /-- `CLK_EN_SET` (R131). -/
  | clkEnSet (r : Req) (unit : Fin 38)
  /-- `CLK_EN_CLEAR` (R130). -/
  | clkEnClear (r : Req) (unit : Fin 38)
  /-- `UNIT_CLOCK_STOPPED` (R130). -/
  | unitClockStopped (unit : Fin 38)
  /-- `SYNTH_APPLY` (R134). -/
  | synthApply (r : Req) (n : Fin 32) (v : BitVec 8)
  /-- `SYNTH_LOCKED` (R135). -/
  | synthLocked (i : Fin 32)
  /-- `SYNTH_RELEASE` (R135). -/
  | synthRelease (i : Fin 32)
  /-- `SYNTH_GLIDE_STEP` (R136). -/
  | synthGlideStep (i : Fin 32)
  /-- `SYNTH_LOCK_LOST` (R138). -/
  | synthLockLost (i : Fin 32)
  /-- `XTOGGLE_PULSE` (R146). -/
  | xtogglePulse (cell : XId)
  /-- `XTOGGLE_CLR` (R147). -/
  | xtoggleClr (cell : XId)
  /-- `XHOLD_REQ` (R151). -/
  | xholdReq (cell : XId) (word : BitVec 128)
  /-- `XHOLD_DEST_RESET_END` (R154). -/
  | xholdDestResetEnd (cell : XId)
  /-- `SYS_RST_N_LOW` (R160). -/
  | sysRstNLow
  /-- `SYS_RST_N_RISE` (R160). -/
  | sysRstNRise
  /-- `WARM_RESET_REQUEST` (R158). -/
  | warmResetRequest (r : Req)
  /-- `COLD_RESET_REQUEST` (R159). -/
  | coldResetRequest (r : Req)
  /-- `WATCHDOG_EXPIRY` (R161). -/
  | watchdogExpiry (service : BitVec 24)
  /-- `WARM_FLUSH_DONE` (R167). -/
  | warmFlushDone
  /-- `WARM_FLUSH_TIMEOUT` (R168). -/
  | warmFlushTimeout (us : Nat)
  /-- `WIPE_DONE` (R164). -/
  | wipeDone (us : BitVec 32)
  /-- `WIPE_TIMEOUT` (R165). -/
  | wipeTimeout (done : BitVec 7)
  /-- `FLASH_DIRECTORY_READ` (R198). -/
  | flashDirectoryRead (x0 x1 : FlashChip) (firstFails : Bool) (copyFails : Bool)
  /-- `FLASH_READ_TIMEOUT` (R195). -/
  | flashReadTimeout
  /-- `STREAM_HEADER` (R230). -/
  | streamHeader (head : Vector (BitVec 8) 128)
  /-- `REAM` (R212). -/
  | ream (bytes : List (BitVec 8))
  /-- `SEAL_RECORD` (R229). -/
  | sealRecord (rec_ : Vector (BitVec 8) 208)
  /-- `FRAMES_WRITTEN` (R208). -/
  | framesWritten (design : List DesignItem)
  /-- `STAGING_WIPE_DONE` (R207). -/
  | stagingWipeDone
  /-- `INIT_DONE_RELEASE` (R169). -/
  | initDoneRelease (pinHigh : Bool)
  /-- `INIT_DONE_PIN_HIGH` (R171). -/
  | initDonePinHigh
  /-- `DIE_ENTER_DORMANT` (R173). -/
  | dieEnterDormant (r : Req) (d : Fin 8)
  /-- `DIE_DRAIN_DONE` (R173). -/
  | dieDrainDone (d : Fin 8)
  /-- `DIE_POWER_OFF_DONE` (R173). -/
  | diePowerOffDone (d : Fin 8)
  /-- `DIE_RETURN` (R175). -/
  | dieReturn (r : Req) (d : Fin 8)
  /-- `DIE_RETURN_DONE` (R175). -/
  | dieReturnDone (d : Fin 8)
  /-- `STANDBY_ENTER` (R178). -/
  | standbyEnter (r : Req) (v : BitVec 8)
  /-- `STANDBY_SAVE_DONE` (R178). -/
  | standbySaveDone
  /-- `WAKE_CAN` (R180). -/
  | wakeCan
  /-- `WAKE_PIN` (R180). -/
  | wakePin
  /-- `WAKE_TIMER_EXPIRY` (R180). -/
  | wakeTimerExpiry
  /-- `WAKE_RAILS_READY` (R181). -/
  | wakeRailsReady (rails : BitVec 28) (periods : Nat)
  /-- `LC_REQUEST` (R189). -/
  | lcRequest (r : Req) (target : BitVec 8) (zero : BitVec 24) (sig : BitVec 768)
  /-- `LC_CHALLENGE_READ` (R188). -/
  | lcChallengeRead (r : Req)
  /-- `LC_GROUPS_BLOWN` (R189). -/
  | lcGroupsBlown (reads : BitVec 32)
  /-- `LC_KEYS_DESTROYED` (R189). -/
  | lcKeysDestroyed
  /-- `BBK_WRITE` (R234). -/
  | bbkWrite (r : Req) (key : BitVec 256)
  /-- `KEY_PROGRAM` (R236). -/
  | keyProgram (r : Req) (slot : BitVec 8) (zero : BitVec 24) (key : BitVec 384)
  /-- `KEY_REVOKE` (R236). -/
  | keyRevoke (r : Req) (slot : BitVec 8)
  /-- `PR_STAGE_MIB` (R238). -/
  | prStageMib (r : Req) (v : BitVec 16)
  /-- `LOAD_REQUEST` (R239). -/
  | loadRequest (r : Req) (source : BitVec 8) (zero : BitVec 56) (addr : BitVec 64)
  /-- `FOLLOW_ON_LOAD_START` (R241). -/
  | followOnLoadStart
  /-- `PARTIAL_WRITE_START` (R242). -/
  | partialWriteStart
  /-- `PARTIAL_WRITE_DONE` (R242). -/
  | partialWriteDone (design : List DesignItem)
  /-- `RELAY_START` (R244). -/
  | relayStart
  /-- `RELAY_TIMEOUT` (R247). -/
  | relayTimeout
  /-- `RELAY_DONE` (R244). -/
  | relayDone
  /-- `FU_START` (R251). -/
  | fuStart (r : Req) (v : BitVec 8)
  /-- `FU_DONE` (R251). -/
  | fuDone (bad : List (Nat × BitVec 8))
  /-- `GRST_PULSE` (R275). -/
  | grstPulse (r : Req) (trees : BitVec 8)
  /-- `GRST_RELEASE` (R275). -/
  | grstRelease (g : Fin 8)
  /-- `GRST_USER_ASSERT` (R276). -/
  | grstUserAssert (g : Fin 8) (level : Bool)
  /-- `SCRUB_FRAME_CHECK` (R287). -/
  | scrubFrameCheck (frame : BitVec 19) (word : Fin 512) (bad : BitVec 64) (passMs : Option (BitVec 32))
  /-- `PROBE_SEL_WRITE` (R291). -/
  | probeSelWrite (r : Req) (ch : Fin 64) (v : BitVec 16)
  /-- `PROBE_ROUTE_WRITE` (R292). -/
  | probeRouteWrite (r : Req) (ch : Fin 64) (v : BitVec 16)
  /-- `CAP_ARM` (R293). -/
  | capArm (r : Req)
  /-- `CAP_STOP` (R293). -/
  | capStop (r : Req)
  /-- `CAPTURE_TRIGGER` (R293). -/
  | captureTrigger (samples : List (BitVec 64))
  /-- `CAPTURE_COMPLETE` (R293). -/
  | captureComplete (samples : List (BitVec 64))
  /-- `RAM_READ` (R308). -/
  | ramRead (ram : RamId) (port : Port) (addr : BitVec 15) (reach : BitVec 15) (upset : BitVec 72)
  /-- `RAM_WRITE` (R310). -/
  | ramWrite (ram : RamId) (port : Port) (addr : BitVec 15) (reach : BitVec 15) (w : BitVec 72) (en : BitVec 8) (inj1 : Bool) (inj2 : Bool) (lost : Bool) (reads : Bool)
  /-- `RAM_NARROW_WRITE` (R311). -/
  | ramNarrowWrite (ram : RamId) (port : Port) (addr : BitVec 15) (reach : BitVec 15) (w : BitVec 64) (en : BitVec 8) (inj1 : Bool) (inj2 : Bool) (upset : BitVec 72) (reads : Bool)
  /-- `RAM_SCRUB_VISIT` (R314). -/
  | ramScrubVisit (ram : RamId) (upset : BitVec 72)
  /-- `RAM_SCRUB_WRITEBACK` (R315). -/
  | ramScrubWriteback (ram : RamId)
  /-- `QB_WRITE` (R319). -/
  | qbWrite (b : Fin 1024) (data : BitVec 128) (last : Bool) (bytes : BitVec 4) (inj1 : Bool) (inj2 : Bool) (adr : BitVec 10)
  /-- `QB_READ` (R320). -/
  | qbRead (b : Fin 1024) (upset : BitVec 142) (ends : BitVec 3) (adr : BitVec 10)
  /-- `QB_FLUSH` (R325). -/
  | qbFlush (b : Fin 1024)
  /-- `QB_FLUSH_OBSERVED` (R325). -/
  | qbFlushObserved (b : Fin 1024)
  /-- `QB_FLUSH_DONE` (R325). -/
  | qbFlushDone (b : Fin 1024)
  /-- `QB_DROP` (R327). -/
  | qbDrop (b : Fin 1024)
  /-- `RAM_CNT_CLEAR` (R331). -/
  | ramCntClear (r : Req) (v : BitVec 8)
  /-- `QB_CNT_CLEAR` (R331). -/
  | qbCntClear (r : Req) (v : BitVec 16)
  /-- `READY` (R358). -/
  | ready (r : Req) (e : Fin 768)
  /-- `START` (R358). -/
  | start (r : Req) (e : Fin 768)
  /-- `HALT` (R358). -/
  | halt (r : Req) (e : Fin 768)
  /-- `CLEAR_FAULT` (R358). -/
  | clearFault (r : Req) (e : Fin 768)
  /-- `POWER_OFF` (R358). -/
  | powerOff (r : Req) (e : Fin 768)
  /-- `POWER_ON` (R358). -/
  | powerOn (r : Req) (e : Fin 768)
  /-- `ENG_POWER_OFF_DONE` (R358). -/
  | engPowerOffDone (e : Fin 768)
  /-- `ENG_POWER_ON_DONE` (R358). -/
  | engPowerOnDone (e : Fin 768)
  /-- `ENG_INTERRUPT_ENTRY` (R366). -/
  | engInterruptEntry (e : Fin 768)
  /-- `ENG_WAKE` (R361). -/
  | engWake (e : Fin 768)
  /-- `ENG_TIMER_MATCH` (R364). -/
  | engTimerMatch (e : Fin 768)
  /-- `ENG_DEBUG_ENTRY` (R373). -/
  | engDebugEntry (e : Fin 768)
  /-- `DBG_HALT_REQ` (R383). -/
  | dbgHaltReq (e : Fin 768) (v : BitVec 32)
  /-- `ENG_STREAM_UNFREEZE` (R379). -/
  | engStreamUnfreeze (e : Fin 768)
  /-- `IRQ_PEND_CLEAR` (R382). -/
  | irqPendClear (e : Fin 768) (v : BitVec 32)
  /-- `IRQ_SET` (R382). -/
  | irqSet (e : Fin 768) (v : BitVec 32)
  /-- `SSTAT_POISON_CLEAR` (R383). -/
  | sstatPoisonClear (e : Fin 768) (v : BitVec 32)
  /-- `DMA_START` (R380). -/
  | dmaStart (e : Fin 768) (c : Fin 4) (v : BitVec 32)
  /-- `DMA_ABORT` (R381). -/
  | dmaAbort (e : Fin 768) (c : Fin 4) (v : BitVec 32)
  /-- `DMA_LINE_RESPONSE` (R381). -/
  | dmaLineResponse (e : Fin 768) (c : Fin 4) (txn : BitVec 16)
  /-- `DMA_STATUS_CLEAR` (R383). -/
  | dmaStatusClear (e : Fin 768) (c : Fin 4) (v : BitVec 32)
  /-- `CLD` (R394). -/
  | cld (e : Fin 768) (c : Bool) (v : BitVec 3) (rest : BitVec 64)
  /-- `VMAC_H` (R397). -/
  | vmacH (e : Fin 768) (d : BitVec 5) (a : BitVec 5) (b : BitVec 5) (z : Bool) (rest : BitVec 64)
  /-- `VMSU_H` (R397). -/
  | vmsuH (e : Fin 768) (d : BitVec 5) (a : BitVec 5) (b : BitVec 5) (z : Bool) (rest : BitVec 64)
  /-- `VMAC_B` (R397). -/
  | vmacB (e : Fin 768) (d : BitVec 5) (a : BitVec 5) (b : BitVec 5) (z : Bool) (rest : BitVec 64)
  /-- `VMSU_B` (R397). -/
  | vmsuB (e : Fin 768) (d : BitVec 5) (a : BitVec 5) (b : BitVec 5) (z : Bool) (rest : BitVec 64)
  /-- `CMAC_L` (R398). -/
  | cmacL (e : Fin 768) (d : BitVec 5) (a : BitVec 5) (b : BitVec 5) (z : Bool) (rest : BitVec 64)
  /-- `CMAC_H` (R398). -/
  | cmacH (e : Fin 768) (d : BitVec 5) (a : BitVec 5) (b : BitVec 5) (z : Bool) (rest : BitVec 64)
  /-- `CMACJ_L` (R398). -/
  | cmacjL (e : Fin 768) (d : BitVec 5) (a : BitVec 5) (b : BitVec 5) (z : Bool) (rest : BitVec 64)
  /-- `CMACJ_H` (R398). -/
  | cmacjH (e : Fin 768) (d : BitVec 5) (a : BitVec 5) (b : BitVec 5) (z : Bool) (rest : BitVec 64)
  /-- `VMACS_H` (R397). -/
  | vmacsH (e : Fin 768) (d : BitVec 5) (a : BitVec 5) (b : BitVec 5) (z : Bool) (rest : BitVec 64)
  /-- `AADD` (R397). -/
  | aadd (e : Fin 768) (d : BitVec 5) (a : BitVec 5) (z : Bool) (rest : BitVec 64)
  /-- `ALD` (R397). -/
  | ald (e : Fin 768) (d : BitVec 5) (a : BitVec 5) (sh : BitVec 5) (rest : BitVec 64)
  /-- `VADD` (R399). -/
  | vadd (e : Fin 768) (d : BitVec 5) (a : BitVec 5) (b : BitVec 5) (w : BitVec 2) (f : Bool) (rest : BitVec 64)
  /-- `VSUB` (R399). -/
  | vsub (e : Fin 768) (d : BitVec 5) (a : BitVec 5) (b : BitVec 5) (w : BitVec 2) (f : Bool) (rest : BitVec 64)
  /-- `VHADD` (R399). -/
  | vhadd (e : Fin 768) (d : BitVec 5) (a : BitVec 5) (b : BitVec 5) (w : BitVec 2) (f : Bool) (rest : BitVec 64)
  /-- `VHSUB` (R399). -/
  | vhsub (e : Fin 768) (d : BitVec 5) (a : BitVec 5) (b : BitVec 5) (w : BitVec 2) (f : Bool) (rest : BitVec 64)
  /-- `VMIN` (R399). -/
  | vmin (e : Fin 768) (d : BitVec 5) (a : BitVec 5) (b : BitVec 5) (w : BitVec 2) (f : Bool) (rest : BitVec 64)
  /-- `VMAX` (R399). -/
  | vmax (e : Fin 768) (d : BitVec 5) (a : BitVec 5) (b : BitVec 5) (w : BitVec 2) (f : Bool) (rest : BitVec 64)
  /-- `VABS` (R399). -/
  | vabs (e : Fin 768) (d : BitVec 5) (a : BitVec 5) (w : BitVec 2) (rest : BitVec 64)
  /-- `VNEG` (R399). -/
  | vneg (e : Fin 768) (d : BitVec 5) (a : BitVec 5) (w : BitVec 2) (rest : BitVec 64)
  /-- `VAND` (R399). -/
  | vand (e : Fin 768) (d : BitVec 5) (a : BitVec 5) (b : BitVec 5) (f : Bool) (rest : BitVec 64)
  /-- `VOR` (R399). -/
  | vor (e : Fin 768) (d : BitVec 5) (a : BitVec 5) (b : BitVec 5) (f : Bool) (rest : BitVec 64)
  /-- `VXOR` (R399). -/
  | vxor (e : Fin 768) (d : BitVec 5) (a : BitVec 5) (b : BitVec 5) (f : Bool) (rest : BitVec 64)
  /-- `VSRA` (R399). -/
  | vsra (e : Fin 768) (d : BitVec 5) (a : BitVec 5) (sh : BitVec 5) (w : BitVec 2) (rest : BitVec 64)
  /-- `VSRL` (R399). -/
  | vsrl (e : Fin 768) (d : BitVec 5) (a : BitVec 5) (sh : BitVec 5) (w : BitVec 2) (rest : BitVec 64)
  /-- `VSHL` (R399). -/
  | vshl (e : Fin 768) (d : BitVec 5) (a : BitVec 5) (sh : BitVec 5) (w : BitVec 2) (rest : BitVec 64)
  /-- `VCMPGT` (R399). -/
  | vcmpgt (e : Fin 768) (d : BitVec 5) (a : BitVec 5) (b : BitVec 5) (w : BitVec 2) (f : Bool) (rest : BitVec 64)
  /-- `VCMPEQ` (R399). -/
  | vcmpeq (e : Fin 768) (d : BitVec 5) (a : BitVec 5) (b : BitVec 5) (w : BitVec 2) (f : Bool) (rest : BitVec 64)
  /-- `VSEL` (R399). -/
  | vsel (e : Fin 768) (d : BitVec 5) (a : BitVec 5) (b : BitVec 5) (rest : BitVec 64)
  /-- `VMULJ` (R400). -/
  | vmulj (e : Fin 768) (d : BitVec 5) (a : BitVec 5) (rest : BitVec 64)
  /-- `VMULNJ` (R400). -/
  | vmulnj (e : Fin 768) (d : BitVec 5) (a : BitVec 5) (rest : BitVec 64)
  /-- `VCONJ` (R400). -/
  | vconj (e : Fin 768) (d : BitVec 5) (a : BitVec 5) (rest : BitVec 64)
  /-- `VSPLAT` (R400). -/
  | vsplat (e : Fin 768) (d : BitVec 5) (a : BitVec 5) (k : BitVec 5) (w : BitVec 2) (rest : BitVec 64)
  /-- `VROT` (R400). -/
  | vrot (e : Fin 768) (d : BitVec 5) (a : BitVec 5) (k : BitVec 5) (w : BitVec 2) (rest : BitVec 64)
  /-- `VILVL` (R400). -/
  | vilvl (e : Fin 768) (d : BitVec 5) (a : BitVec 5) (b : BitVec 5) (w : BitVec 2) (rest : BitVec 64)
  /-- `VILVH` (R400). -/
  | vilvh (e : Fin 768) (d : BitVec 5) (a : BitVec 5) (b : BitVec 5) (w : BitVec 2) (rest : BitVec 64)
  /-- `VEVN` (R400). -/
  | vevn (e : Fin 768) (d : BitVec 5) (a : BitVec 5) (b : BitVec 5) (w : BitVec 2) (rest : BitVec 64)
  /-- `VODD` (R400). -/
  | vodd (e : Fin 768) (d : BitVec 5) (a : BitVec 5) (b : BitVec 5) (w : BitVec 2) (rest : BitVec 64)
  /-- `VUNPL` (R400). -/
  | vunpl (e : Fin 768) (d : BitVec 5) (a : BitVec 5) (w : BitVec 2) (rest : BitVec 64)
  /-- `VUNPH` (R400). -/
  | vunph (e : Fin 768) (d : BitVec 5) (a : BitVec 5) (w : BitVec 2) (rest : BitVec 64)
  /-- `VPACK` (R400). -/
  | vpack (e : Fin 768) (d : BitVec 5) (a : BitVec 5) (b : BitVec 5) (w : BitVec 2) (rest : BitVec 64)
  /-- `VFMA` (R402). -/
  | vfma (e : Fin 768) (d : BitVec 5) (a : BitVec 5) (b : BitVec 5) (h : Bool) (rest : BitVec 64)
  /-- `VFMS` (R402). -/
  | vfms (e : Fin 768) (d : BitVec 5) (a : BitVec 5) (b : BitVec 5) (h : Bool) (rest : BitVec 64)
  /-- `VFMUL` (R402). -/
  | vfmul (e : Fin 768) (d : BitVec 5) (a : BitVec 5) (b : BitVec 5) (h : Bool) (rest : BitVec 64)
  /-- `VFADD` (R402). -/
  | vfadd (e : Fin 768) (d : BitVec 5) (a : BitVec 5) (b : BitVec 5) (rest : BitVec 64)
  /-- `VFSUB` (R402). -/
  | vfsub (e : Fin 768) (d : BitVec 5) (a : BitVec 5) (b : BitVec 5) (rest : BitVec 64)
  /-- `VFMIN` (R402). -/
  | vfmin (e : Fin 768) (d : BitVec 5) (a : BitVec 5) (b : BitVec 5) (rest : BitVec 64)
  /-- `VFMAX` (R402). -/
  | vfmax (e : Fin 768) (d : BitVec 5) (a : BitVec 5) (b : BitVec 5) (rest : BitVec 64)
  /-- `VFABS` (R402). -/
  | vfabs (e : Fin 768) (d : BitVec 5) (a : BitVec 5) (rest : BitVec 64)
  /-- `VFNEG` (R402). -/
  | vfneg (e : Fin 768) (d : BitVec 5) (a : BitVec 5) (rest : BitVec 64)
  /-- `VFCMPGT` (R402). -/
  | vfcmpgt (e : Fin 768) (d : BitVec 5) (a : BitVec 5) (b : BitVec 5) (rest : BitVec 64)
  /-- `VCVTF` (R402). -/
  | vcvtf (e : Fin 768) (d : BitVec 5) (a : BitVec 5) (rest : BitVec 64)
  /-- `VCVTI` (R402). -/
  | vcvti (e : Fin 768) (d : BitVec 5) (a : BitVec 5) (rest : BitVec 64)
  /-- `ADD` (R403). -/
  | add (e : Fin 768) (d : BitVec 4) (a : BitVec 4) (b : BitVec 4) (rest : BitVec 64)
  /-- `SUB` (R403). -/
  | sub (e : Fin 768) (d : BitVec 4) (a : BitVec 4) (b : BitVec 4) (rest : BitVec 64)
  /-- `AND` (R403). -/
  | and (e : Fin 768) (d : BitVec 4) (a : BitVec 4) (b : BitVec 4) (rest : BitVec 64)
  /-- `OR` (R403). -/
  | or (e : Fin 768) (d : BitVec 4) (a : BitVec 4) (b : BitVec 4) (rest : BitVec 64)
  /-- `XOR` (R403). -/
  | xor (e : Fin 768) (d : BitVec 4) (a : BitVec 4) (b : BitVec 4) (rest : BitVec 64)
  /-- `SHL` (R403). -/
  | shl (e : Fin 768) (d : BitVec 4) (a : BitVec 4) (b : BitVec 4) (rest : BitVec 64)
  /-- `SHR` (R403). -/
  | shr (e : Fin 768) (d : BitVec 4) (a : BitVec 4) (b : BitVec 4) (rest : BitVec 64)
  /-- `SRA` (R403). -/
  | sra (e : Fin 768) (d : BitVec 4) (a : BitVec 4) (b : BitVec 4) (rest : BitVec 64)
  /-- `MUL` (R403). -/
  | mul (e : Fin 768) (d : BitVec 4) (a : BitVec 4) (b : BitVec 4) (rest : BitVec 64)
  /-- `MIN` (R403). -/
  | min (e : Fin 768) (d : BitVec 4) (a : BitVec 4) (b : BitVec 4) (rest : BitVec 64)
  /-- `MAX` (R403). -/
  | max (e : Fin 768) (d : BitVec 4) (a : BitVec 4) (b : BitVec 4) (rest : BitVec 64)
  /-- `SLT` (R403). -/
  | slt (e : Fin 768) (d : BitVec 4) (a : BitVec 4) (b : BitVec 4) (rest : BitVec 64)
  /-- `SLTU` (R403). -/
  | sltu (e : Fin 768) (d : BitVec 4) (a : BitVec 4) (b : BitVec 4) (rest : BitVec 64)
  /-- `SEQ` (R403). -/
  | seq (e : Fin 768) (d : BitVec 4) (a : BitVec 4) (b : BitVec 4) (rest : BitVec 64)
  /-- `ADDI` (R403). -/
  | addi (e : Fin 768) (d : BitVec 4) (a : BitVec 4) (imm : BitVec 8) (rest : BitVec 64)
  /-- `ANDI` (R403). -/
  | andi (e : Fin 768) (d : BitVec 4) (a : BitVec 4) (imm : BitVec 8) (rest : BitVec 64)
  /-- `ORI` (R403). -/
  | ori (e : Fin 768) (d : BitVec 4) (a : BitVec 4) (imm : BitVec 8) (rest : BitVec 64)
  /-- `XORI` (R403). -/
  | xori (e : Fin 768) (d : BitVec 4) (a : BitVec 4) (imm : BitVec 8) (rest : BitVec 64)
  /-- `SHLI` (R403). -/
  | shli (e : Fin 768) (d : BitVec 4) (a : BitVec 4) (imm : BitVec 8) (rest : BitVec 64)
  /-- `SHRI` (R403). -/
  | shri (e : Fin 768) (d : BitVec 4) (a : BitVec 4) (imm : BitVec 8) (rest : BitVec 64)
  /-- `SRAI` (R403). -/
  | srai (e : Fin 768) (d : BitVec 4) (a : BitVec 4) (imm : BitVec 8) (rest : BitVec 64)
  /-- `SLTI` (R403). -/
  | slti (e : Fin 768) (d : BitVec 4) (a : BitVec 4) (imm : BitVec 8) (rest : BitVec 64)
  /-- `VMOV` (R404). -/
  | vmov (e : Fin 768) (d : BitVec 5) (a : BitVec 5) (rest : BitVec 64)
  /-- `VGET` (R404). -/
  | vget (e : Fin 768) (d : BitVec 5) (a : BitVec 5) (k : BitVec 5) (rest : BitVec 64)
  /-- `VPUT` (R404). -/
  | vput (e : Fin 768) (d : BitVec 5) (a : BitVec 5) (k : BitVec 5) (rest : BitVec 64)
  /-- `VBCST` (R404). -/
  | vbcst (e : Fin 768) (d : BitVec 5) (a : BitVec 5) (w : BitVec 2) (rest : BitVec 64)
  /-- `ANARROW` (R404). -/
  | anarrow (e : Fin 768) (d : BitVec 5) (a : BitVec 5) (sh : BitVec 5) (rest : BitVec 64)
  /-- `MOVSP` (R404). -/
  | movsp (e : Fin 768) (d : BitVec 5) (a : BitVec 5) (rest : BitVec 64)
  /-- `MOVPS` (R404). -/
  | movps (e : Fin 768) (d : BitVec 5) (a : BitVec 5) (rest : BitVec 64)
  /-- `MOVSM` (R404). -/
  | movsm (e : Fin 768) (d : BitVec 5) (a : BitVec 5) (rest : BitVec 64)
  /-- `MOVMS` (R404). -/
  | movms (e : Fin 768) (d : BitVec 5) (a : BitVec 5) (rest : BitVec 64)
  /-- `MOVSC` (R404). -/
  | movsc (e : Fin 768) (d : BitVec 5) (a : BitVec 5) (rest : BitVec 64)
  /-- `MOVCS` (R404). -/
  | movcs (e : Fin 768) (d : BitVec 5) (a : BitVec 5) (rest : BitVec 64)
  /-- `CSRR` (R405). -/
  | csrr (e : Fin 768) (d : BitVec 5) (a : BitVec 5) (rest : BitVec 64)
  /-- `CSRW` (R405). -/
  | csrw (e : Fin 768) (d : BitVec 5) (a : BitVec 5) (rest : BitVec 64)
  /-- `VLD` (R406). -/
  | vld (e : Fin 768) (y : Bool) (v : BitVec 5) (p : BitVec 3) (u : Bool) (rest : BitVec 64)
  /-- `VLDB` (R406). -/
  | vldb (e : Fin 768) (y : Bool) (v : BitVec 5) (p : BitVec 3) (u : Bool) (rest : BitVec 64)
  /-- `VST` (R406). -/
  | vst (e : Fin 768) (y : Bool) (v : BitVec 5) (p : BitVec 3) (u : Bool) (t : Bool) (w : BitVec 2) (rest : BitVec 64)
  /-- `STA_H` (R406). -/
  | staH (e : Fin 768) (y : Bool) (a : BitVec 3) (p : BitVec 3) (u : Bool) (sh : BitVec 5) (rest : BitVec 64)
  /-- `STA_HT` (R406). -/
  | staHt (e : Fin 768) (y : Bool) (a : BitVec 3) (p : BitVec 3) (u : Bool) (sh : BitVec 5) (rest : BitVec 64)
  /-- `STA_W` (R406). -/
  | staW (e : Fin 768) (y : Bool) (a : BitVec 3) (p : BitVec 3) (u : Bool) (h : Bool) (sh : BitVec 4) (rest : BitVec 64)
  /-- `STA_WT` (R406). -/
  | staWt (e : Fin 768) (y : Bool) (a : BitVec 3) (p : BitVec 3) (u : Bool) (h : Bool) (sh : BitVec 4) (rest : BitVec 64)
  /-- `SLD` (R406). -/
  | sld (e : Fin 768) (y : Bool) (r : BitVec 4) (p : BitVec 3) (u : Bool) (rest : BitVec 64)
  /-- `SST` (R406). -/
  | sst (e : Fin 768) (y : Bool) (r : BitVec 4) (p : BitVec 3) (u : Bool) (rest : BitVec 64)
  /-- `PMOD` (R407). -/
  | pmod (e : Fin 768) (y : Bool) (p : BitVec 3) (rest : BitVec 64)
  /-- `PADD` (R407). -/
  | padd (e : Fin 768) (y : Bool) (p : BitVec 3) (imm : BitVec 7) (rest : BitVec 64)
  /-- `PMOVS` (R407). -/
  | pmovs (e : Fin 768) (y : Bool) (p : BitVec 3) (a : BitVec 4) (rest : BitVec 64)
  /-- `SIN` (R408). -/
  | sin (e : Fin 768) (v : BitVec 5) (h : Bool) (rest : BitVec 64)
  /-- `SOUT` (R408). -/
  | sout (e : Fin 768) (v : BitVec 5) (h : Bool) (l : Bool) (n : BitVec 4) (rest : BitVec 64)
  /-- `LOOP` (R409). -/
  | loop (e : Fin 768) (rw : BitVec 2) (cs : Bool) (a : BitVec 4) (count : BitVec 16) (last : BitVec 16)
  /-- `B` (R411). -/
  | b (e : Fin 768) (t : BitVec 16)
  /-- `BEQ` (R411). -/
  | beq (e : Fin 768) (a : BitVec 4) (b : BitVec 4) (t : BitVec 16)
  /-- `BNE` (R411). -/
  | bne (e : Fin 768) (a : BitVec 4) (b : BitVec 4) (t : BitVec 16)
  /-- `BLT` (R411). -/
  | blt (e : Fin 768) (a : BitVec 4) (b : BitVec 4) (t : BitVec 16)
  /-- `BGE` (R411). -/
  | bge (e : Fin 768) (a : BitVec 4) (b : BitVec 4) (t : BitVec 16)
  /-- `BLTU` (R411). -/
  | bltu (e : Fin 768) (a : BitVec 4) (b : BitVec 4) (t : BitVec 16)
  /-- `BGEU` (R411). -/
  | bgeu (e : Fin 768) (a : BitVec 4) (b : BitVec 4) (t : BitVec 16)
  /-- `BEQZ` (R411). -/
  | beqz (e : Fin 768) (a : BitVec 4) (t : BitVec 16)
  /-- `BNEZ` (R411). -/
  | bnez (e : Fin 768) (a : BitVec 4) (t : BitVec 16)
  /-- `CALL` (R411). -/
  | call (e : Fin 768) (l : BitVec 4) (t : BitVec 16)
  /-- `JR` (R411). -/
  | jr (e : Fin 768) (a : BitVec 4)
  /-- `SIMM_S` (R412). -/
  | simmS (e : Fin 768) (i : BitVec 4) (imm : BitVec 32)
  /-- `SIMM_M` (R412). -/
  | simmM (e : Fin 768) (i : BitVec 4) (imm : BitVec 32)
  /-- `SIMM_CP` (R412). -/
  | simmCp (e : Fin 768) (i : BitVec 4) (imm : BitVec 32)
  /-- `SIMM_P` (R412). -/
  | simmP (e : Fin 768) (i : BitVec 4) (imm : BitVec 32)
  /-- `VIMM` (R413). -/
  | vimm (e : Fin 768) (v : BitVec 5) (w : BitVec 2) (imm : BitVec 32)
  /-- `WAIT` (R361). -/
  | wait (e : Fin 768)
  /-- `RETI` (R368). -/
  | reti (e : Fin 768)
  /-- `DRET` (R376). -/
  | dret (e : Fin 768)
  /-- `BKPT` (R414). -/
  | bkpt (e : Fin 768)
  /-- `BXCLR` (R414). -/
  | bxclr (e : Fin 768)
  /-- `SIRQ` (R414). -/
  | sirq (e : Fin 768) (n : BitVec 4)
  /-- `STOP` (R414). -/
  | stop (e : Fin 768)
  /-- `ABS_SLD` (R415). -/
  | absSld (e : Fin 768) (y : Bool) (r : BitVec 4) (addr : BitVec 16)
  /-- `ABS_SST` (R415). -/
  | absSst (e : Fin 768) (y : Bool) (r : BitVec 4) (addr : BitVec 16)
  /-- `ABS_VLD` (R415). -/
  | absVld (e : Fin 768) (y : Bool) (v : BitVec 5) (addr : BitVec 16)
  /-- `ABS_VST` (R415). -/
  | absVst (e : Fin 768) (y : Bool) (v : BitVec 5) (addr : BitVec 16)
  /-- `RD` (R433). -/
  | rd (h : VHdr) (up : Fin 16)
  /-- `RDP` (R433). -/
  | rdp (h : VHdr) (up : Fin 16)
  /-- `WR` (R433). -/
  | wr (h : VHdr)
  /-- `WRP` (R433). -/
  | wrp (h : VHdr)
  /-- `MSG` (R433). -/
  | msg (h : VHdr)
  /-- `RSP` (R433). -/
  | rsp (i : Init) (txn : BitVec 16) (code : BitVec 4) (line : BitVec 512) (pk : Pkt)
  /-- `PULL` (R437). -/
  | pull (i : Init) (txn : BitVec 16) (pk : Pkt)
  /-- `DATA` (R433). -/
  | data (i : Init) (txn : BitVec 16) (data : List (BitVec 512)) (poison : Bool) (up : Fin 16) (pk : Pkt)
  /-- `MGMT` (R433). -/
  | mgmt (point : Fin 224) (tenant : Fin 16) (addr : BitVec 52) (body : Mgmt) (pk : Pkt)
  /-- `EPOCH_RESPONSE` (R49). -/
  | epochResponse (i : Init) (txn : BitVec 16)
  /-- `REQ_TIMEOUT` (R439). -/
  | reqTimeout (i : Init) (txn : BitVec 16)
  /-- `SAM_ENTRY_WRITE` (R452). -/
  | samEntryWrite (r : Req) (e : Fin 256) (v : BitVec 128)
  /-- `SAM_INVALIDATE` (R456). -/
  | samInvalidate (r : Req) (v : BitVec 16)
  /-- `SAM_INVALIDATE_DONE` (R456). -/
  | samInvalidateDone
  /-- `EP_BIND` (R427). -/
  | epBind (r : Req) (id : BitVec 16) (part : BitVec 8)
  /-- `EP_RELEASE` (R427). -/
  | epRelease (r : Req) (id : BitVec 16) (part : BitVec 8)
  /-- `TOKEN_BUCKET_REFILL` (R448). -/
  | tokenBucketRefill
  /-- `AP_REQUEST` (R462). -/
  | apRequest (p : Fin 128) (cmd : BitVec 8) (addr : BitVec 52) (be : BitVec 64) (len : BitVec 5) (aux : BitVec 64) (tag : BitVec 8) (qos hint : BitVec 2)
  /-- `AP_WRITE_DATA` (R462). -/
  | apWriteData (p : Fin 128) (data : BitVec 512) (last : Bool)
  /-- `AP_INBOUND_ANSWER` (R462). -/
  | apInboundAnswer (p : Fin 128) (id : BitVec 8) (resp : BitVec 4) (data : BitVec 512)
  /-- `TENANT_RESET` (R39). -/
  | tenantReset (r : Req) (v : BitVec 8)
  /-- `TENANT_RESET_DRAIN_DONE` (R39). -/
  | tenantResetDrainDone (t : Fin 16)
  /-- `TENANT_RESET_WIPE_DONE` (R39). -/
  | tenantResetWipeDone (t : Fin 16)
  /-- `PART_OWNER` (R501). -/
  | partOwner (r : Req) (p : Fin 128) (v : BitVec 8)
  /-- `ENG_OWNER` (R501). -/
  | engOwner (r : Req) (e : Fin 768) (v : BitVec 8)
  /-- `REASSIGN_START` (R44). -/
  | reassignStart (k : Fin 896)
  /-- `OWNER_CHANGE` (R37). -/
  | ownerChange (k : Fin 896)
  /-- `FAULT_CLEAR` (R517). -/
  | faultClear (r : Req) (t : Fin 16) (v : BitVec 32)
  /-- `SNP_INV` (R478). -/
  | snpInv (agent : Fin 6) (line : BitVec 46) (pk : Pkt)
  /-- `SNP_DATA` (R478). -/
  | snpData (agent : Fin 6) (line : BitVec 46) (pk : Pkt)
  /-- `HSNP_INV` (R489). -/
  | hsnpInv (port : Fin 4) (line : BitVec 46) (pk : Pkt)
  /-- `HSNP_DATA` (R489). -/
  | hsnpData (port : Fin 4) (line : BitVec 46) (pk : Pkt)
  /-- `HSNP_CUR` (R489). -/
  | hsnpCur (port : Fin 4) (line : BitVec 46) (pk : Pkt)
  /-- `SRSP_I` (R478). -/
  | srspI (agent : Fin 6) (line : BitVec 46) (txn : BitVec 16) (pk : Pkt)
  /-- `SRSP_S` (R478). -/
  | srspS (agent : Fin 6) (line : BitVec 46) (txn : BitVec 16) (pk : Pkt)
  /-- `SRSP_I_DATA` (R478). -/
  | srspIData (agent : Fin 6) (line : BitVec 46) (txn : BitVec 16) (data : BitVec 512) (pk : Pkt)
  /-- `SRSP_S_DATA` (R478). -/
  | srspSData (agent : Fin 6) (line : BitVec 46) (txn : BitVec 16) (data : BitVec 512) (pk : Pkt)
  /-- `SNOOP_TIMEOUT` (R482). -/
  | snoopTimeout (agent : Fin 6) (line : BitVec 46)
  /-- `LINE_FLOW_RESUME` (R470). -/
  | lineFlowResume (line : BitVec 46)
  /-- `HOST_QUOTA_MIB` (R488). -/
  | hostQuotaMib (r : Req) (v : BitVec 16)
  /-- `CXL_MEMRD` (R483). -/
  | cxlMemrd (port : Fin 4) (tag : BitVec 16) (dpa : BitVec 52) (snp : Fin 4) (bad : Bool) (up : Fin 16)
  /-- `CXL_MEMWR` (R483). -/
  | cxlMemwr (port : Fin 4) (tag : BitVec 16) (dpa : BitVec 52) (mv : Fin 3) (be : BitVec 64) (data : BitVec 512) (bad : Bool) (up : Fin 16)
  /-- `HOST_BIRSP` (R481). -/
  | hostBirsp (port : Fin 4) (line : BitVec 46) (txn : BitVec 16) (shared : Bool) (data : Option (BitVec 512))
  /-- `CXL_IO_REQUEST` (R494). -/
  | cxlIoRequest (port : Fin 4) (tag : BitVec 16) (write : Bool) (x : BitVec 52) (be : BitVec 64) (data : BitVec 512) (up : Fin 16)
  /-- `IDENTIFY_MEMORY_DEVICE` (R491). -/
  | identifyMemoryDevice (port : Fin 4)
  /-- `GET_HEALTH_INFO` (R491). -/
  | getHealthInfo (port : Fin 4)
  /-- `GET_EVENT_RECORDS` (R491). -/
  | getEventRecords (port : Fin 4)
  /-- `CLEAR_EVENT_RECORDS` (R491). -/
  | clearEventRecords (port : Fin 4)
  /-- `GET_POISON_LIST` (R491). -/
  | getPoisonList (port : Fin 4)
  /-- `HDM_DECODER_COMMIT` (R495). -/
  | hdmDecoderCommit (port : Fin 4) (dec : Fin 8) (db : Bool) (base : BitVec 52) (size : BitVec 52) (ways : Fin 5) (gran : Fin 7)
  /-- `CXL_LINK_UP` (R497). -/
  | cxlLinkUp (port : Fin 4) (rate : BitVec 3) (width : BitVec 5) (flit256 : Bool) (lopt : Bool) (ideLink : Bool)
  /-- `CXL_LINK_DOWN` (R497). -/
  | cxlLinkDown (port : Fin 4)
  /-- `CXL_LINK_RETRAIN` (R497). -/
  | cxlLinkRetrain (port : Fin 4)
  /-- `IDE_MAC_FAIL` (R498). -/
  | ideMacFail (port : Fin 4) (lines : List (BitVec 46))
  /-- `GG_ENABLE` (R506). -/
  | ggEnable (r : Req) (g : Fin 2)
  /-- `GG_RELEASE` (R514). -/
  | ggRelease (r : Req) (g : Fin 2)
  /-- `GG_HOLD_RESET` (R506). -/
  | ggHoldReset (r : Req) (g : Fin 2)
  /-- `GG_LINK_UP` (R506). -/
  | ggLinkUp (g : Fin 2)
  /-- `IO_RD` (R508). -/
  | ioRd (g : Fin 2) (tag : BitVec 16) (addr : BitVec 52) (len : Fin 65) (up : Fin 16)
  /-- `IO_WR` (R508). -/
  | ioWr (g : Fin 2) (tag : BitVec 16) (addr : BitVec 52) (len : Fin 65) (data : BitVec 512) (up : Fin 16)
  /-- `CC_RD_CUR` (R508). -/
  | ccRdCur (g : Fin 2) (tag : BitVec 16) (line : BitVec 46) (up : Fin 16)
  /-- `CC_RD_SHARED` (R508). -/
  | ccRdShared (g : Fin 2) (tag : BitVec 16) (line : BitVec 46) (up : Fin 16)
  /-- `CC_RD_OWN` (R508). -/
  | ccRdOwn (g : Fin 2) (tag : BitVec 16) (line : BitVec 46) (up : Fin 16)
  /-- `CC_WR` (R508). -/
  | ccWr (g : Fin 2) (tag : BitVec 16) (line : BitVec 46) (data : BitVec 512) (up : Fin 16)
  /-- `CC_EVICT` (R508). -/
  | ccEvict (g : Fin 2) (tag : BitVec 16) (line : BitVec 46) (dirty : Bool) (data : BitVec 512) (up : Fin 16)
  /-- `GG_QUARANTINE_WALK_DONE` (R513). -/
  | ggQuarantineWalkDone (g : Fin 2)
  /-- `DDR_SIZING_DONE` (R525). -/
  | ddrSizingDone (c : Fin 16) (found : DdrFound)
  /-- `DDR_ATTEMPT_DONE` (R525). -/
  | ddrAttemptDone (c : Fin 16) (result : DdrTry)
  /-- `DDR_CHANNEL_READY` (R525). -/
  | ddrChannelReady (c : Fin 16) (badRecords : List (Fin 512))
  /-- `TRAINING_AREA_STORE` (R528). -/
  | trainingAreaStore
  /-- `DDR_ALERT` (R530). -/
  | ddrAlert (c : Fin 16)
  /-- `DDR_ALERT_RELEASE` (R530). -/
  | ddrAlertRelease (c : Fin 16)
  /-- `DDR_PAGE_IDLE_CLOSE` (R532). -/
  | ddrPageIdleClose (c : Fin 16) (bank : BitVec 8)
  /-- `DDR_REFRESH_DUE` (R536). -/
  | ddrRefreshDue (c : Fin 16) (rank : Fin 4) (pays : List (Fin 4))
  /-- `DDR_MR4_POLL` (R538). -/
  | ddrMr4Poll (c : Fin 16) (doubled : BitVec 4)
  /-- `DDR_CORRECTION_WRITEBACK` (R541). -/
  | ddrCorrectionWriteback (c : Fin 16) (line : BitVec 33)
  /-- `DDR_PATROL_READ` (R541). -/
  | ddrPatrolRead (c : Fin 16) (found : Fin 4)
  /-- `DDR_KEY_DERIVED` (R545). -/
  | ddrKeyDerived (c : Fin 16)
  /-- `DDR_WALK_UNIT` (R555). -/
  | ddrWalkUnit (c : Fin 16) (line : Fin 32) (up : Fin 16)
  /-- `ECC_CNT_CLEAR` (R562). -/
  | eccCntClear (r : Req) (v : BitVec 8)
  /-- `LANE_REQ_ON` (R574). -/
  | laneReqOn (r : Req) (l : Fin 128)
  /-- `LANE_REQ_QUIET` (R574). -/
  | laneReqQuiet (r : Req) (l : Fin 128)
  /-- `LANE_REQ_DORMANT` (R574). -/
  | laneReqDormant (r : Req) (l : Fin 128)
  /-- `LANE_ADAPTED` (R575). -/
  | laneAdapted (l : Fin 128)
  /-- `LANE_PLL_UNLOCK` (R572). -/
  | lanePllUnlock (l : Fin 128)
  /-- `LANE_PLL_RELOCK` (R572). -/
  | lanePllRelock (l : Fin 128)
  /-- `LANE_TX_WRITE` (R576). -/
  | laneTxWrite (l : Fin 128) (w : BitVec 256)
  /-- `LANE_TX_UNDERFLOW` (R578). -/
  | laneTxUnderflow (l : Fin 128)
  /-- `LANE_RX_SLIP` (R576). -/
  | laneRxSlip (l : Fin 128) (early : Bool)
  /-- `LANE_SIGNAL_LOSS` (R579). -/
  | laneSignalLoss (l : Fin 128)
  /-- `LANE_SIGNAL_RETURN` (R579). -/
  | laneSignalReturn (l : Fin 128)
  /-- `CASC_PORT_START` (R581). -/
  | cascPortStart (p : Fin 4)
  /-- `CAPS_FRAME` (R583): `inv` tells that SYNC arrives inverted (R582). -/
  | capsFrame (p : Fin 4) (lane : Fin 8) (field : BitVec 4) (payload : BitVec 64) (crcOk inv : Bool)
  /-- `EQ_FRAME` (R584). -/
  | eqFrame (p : Fin 4) (lane : Fin 8) (field : BitVec 4) (payload : BitVec 64) (crcOk : Bool)
  /-- `BRINGUP_ADAPT_END` (R585). -/
  | bringupAdaptEnd (p : Fin 4)
  /-- `BRINGUP_MEASURE_END` (R586). -/
  | bringupMeasureEnd (p : Fin 4) (errors : Nat) (bits : Nat)
  /-- `CASC_PORT_DOWN` (R587). -/
  | cascPortDown (p : Fin 4) (reason : Fin 5)
  /-- `CASC_PORT_RESTART` (R587). -/
  | cascPortRestart (p : Fin 4)
  /-- `PRBS_LOCK` (R589). -/
  | prbsLock (l : Fin 128) (lock : Bool) (bits : BitVec 48) (errs : BitVec 48)
  /-- `PRBS_BITS_READ` (R589). -/
  | prbsBitsRead (r : Req) (l : Fin 128)
  /-- `PRBS_CLEAR` (R593). -/
  | prbsClear (r : Req) (v : BitVec 8)
  /-- `ERR_INJECT` (R590). -/
  | errInject (r : Req) (l : Fin 128) (n : BitVec 8)
  /-- `CODEWORD_RECEIVE` (R602). -/
  | codewordReceive (p : Fin 4) (fec : Fin 3) (crcOk : Bool) (seq : BitVec 16) (ackv : Bool) (ack : BitVec 16) (nak : Bool) (credits : BitVec 80)
  /-- `LINK_LOST_TIMEOUT` (R602). -/
  | linkLostTimeout (p : Fin 4)
  /-- `HELLO` (R605). -/
  | hello (p : Fin 4) (nonce : BitVec 64) (intact : Bool) (partner : Fin 6) (differ : BitVec 8)
  /-- `KCONF` (R605). -/
  | kconf (p : Fin 4) (v : BitVec 64)
  /-- `REKEY` (R606). -/
  | rekey (p : Fin 4) (idx : BitVec 32)
  /-- `TWEAK_COUNT_LIMIT` (R606). -/
  | tweakCountLimit (p : Fin 4)
  /-- `TIME` (R616). -/
  | time (p : Fin 4) (t : BitVec 64)
  /-- `TIME_ECHO` (R616). -/
  | timeEcho (p : Fin 4) (trip : BitVec 56) (turn : BitVec 56)
  /-- `TIME_PERIOD` (R616). -/
  | timePeriod
  /-- `ENUM_ROUND` (R612). -/
  | enumRound
  /-- `ENUM` (R612). -/
  | enum
  /-- `ENUM_ANSWER` (R613). -/
  | enumAnswer (dev : Fin 16) (part : BitVec 16) (id : BitVec 4) (dim : BitVec 8) (group : BitVec 64) (lc : BitVec 3) (st : BitVec 8) (t : BitVec 64)
  /-- `ASSIGN` (R612). -/
  | assign (members : BitVec 16)
  /-- `ADMIT` (R612). -/
  | cascAdmit (dev : Fin 16)
  /-- `MASTER_LOST_TIMEOUT` (R614). -/
  | masterLostTimeout
  /-- `HB_EDGE_MISSED` (R622). -/
  | hbEdgeMissed (first : Bool)
  /-- `HB_GONE` (R628). -/
  | hbGone
  /-- `TAKEOVER` (R628). -/
  | takeover
  /-- `FENCE_ACK` (R628). -/
  | fenceAck
  /-- `TAKEOVER_ACK_TIMEOUT` (R628). -/
  | takeoverAckTimeout
  /-- `WITNESS_GNT` (R629). -/
  | witnessGnt (level : Bool)
  /-- `WITNESS_TIMEOUT` (R629). -/
  | witnessTimeout
  /-- `TWIN_SOLO_TIMEOUT` (R621). -/
  | twinSoloTimeout
  /-- `MIRROR_RECORD` (R625). -/
  | mirrorRecord (seq : BitVec 32) (line : BitVec 46) (data : BitVec 512) (synced : Bool)
  /-- `MACK` (R625). -/
  | mack (seq : BitVec 32)
  /-- `TWIN_FORCE_ACTIVE` (R634). -/
  | twinForceActive (r : Req) (granted : Bool)
  /-- `TWIN_RELEASE` (R633). -/
  | twinRelease (r : Req)
  /-- `MCTP_OBJECT_READ` (R652). -/
  | mctpObjectRead (m : Mctp) (index : BitVec 16) (sub : BitVec 8) (offset : BitVec 32) (len : BitVec 16)
  /-- `MCTP_OBJECT_WRITE` (R654). -/
  | mctpObjectWrite (m : Mctp) (index : BitVec 16) (sub : BitVec 8) (offset : BitVec 32) (last : Bool) (data : List (BitVec 8))
  /-- `MCTP_EVENT_ACK` (R668). -/
  | mctpEventAck (m : Mctp) (seq : BitVec 32)
  /-- `SET_ENDPOINT_ID` (R651). -/
  | setEndpointId (vdm : Bool) (eid : BitVec 8)
  /-- `GET_ENDPOINT_ID` (R651). -/
  | getEndpointId (vdm : Bool)
  /-- `GET_MCTP_VERSION_SUPPORT` (R651). -/
  | getMctpVersionSupport (vdm : Bool)
  /-- `GET_MESSAGE_TYPE_SUPPORT` (R651). -/
  | getMessageTypeSupport (vdm : Bool)
  /-- `EVENT_PUSH_RETRY` (R668). -/
  | eventPushRetry
  /-- `GET_VERSION` (R660). -/
  | getVersion (v : Via)
  /-- `GET_CAPABILITIES` (R660). -/
  | getCapabilities (v : Via)
  /-- `NEGOTIATE_ALGORITHMS` (R660). -/
  | negotiateAlgorithms (v : Via) (ok : Bool)
  /-- `GET_DIGESTS` (R660). -/
  | getDigests (v : Via)
  /-- `GET_CERTIFICATE` (R660). -/
  | getCertificate (v : Via) (slot : BitVec 8) (offset : BitVec 16) (len : BitVec 16)
  /-- `CHALLENGE` (R660). -/
  | challenge (v : Via) (slot : BitVec 8)
  /-- `GET_MEASUREMENTS` (R660). -/
  | getMeasurements (v : Via) (block : BitVec 8)
  /-- `KEY_EXCHANGE` (R660). -/
  | keyExchange (v : Via) (slot : BitVec 8)
  /-- `FINISH` (R660). -/
  | finish (v : Via) (ok : Bool)
  /-- `END_SESSION` (R660). -/
  | endSession (v : Via)
  /-- `KEY_UPDATE` (R660). -/
  | keyUpdate (v : Via)
  /-- `USDO_DOWNLOAD` (R649). -/
  | usdoDownload (node : BitVec 8) (index : BitVec 16) (sub : BitVec 8) (offset : BitVec 32) (last : Bool) (data : List (BitVec 8))
  /-- `USDO_UPLOAD` (R649). -/
  | usdoUpload (node : BitVec 8) (index : BitVec 16) (sub : BitVec 8)
  /-- `SYNC_FRAME` (R117). -/
  | syncFrame (code : BitVec 16)
  /-- `NMT_RESET_COMMUNICATION` (R649). -/
  | nmtResetCommunication
  /-- `CAN_HEARTBEAT_TICK` (R649). -/
  | canHeartbeatTick
  /-- `EMCY_SEND` (R668). -/
  | emcySend
  /-- `CAN_APPLY` (R650). -/
  | canApply (r : Req) (v : BitVec 8)
  /-- `CAN_BUS_OFF` (R650). -/
  | canBusOff (tec : BitVec 16)
  /-- `CAN_ERROR_PASSIVE` (R650). -/
  | canErrorPassive (rec : BitVec 8) (tec : BitVec 8)
  /-- `SEGMENT_TIMEOUT` (R656). -/
  | segmentTimeout (index : BitVec 16) (sub : BitVec 8)
  /-- `STORE_ALL` (R662). -/
  | storeAll (r : Req) (v : BitVec 32)
  /-- `RESTORE_DEFAULTS` (R662). -/
  | restoreDefaults (r : Req) (v : BitVec 32)
  /-- `PARAM_STORE_DONE` (R664). -/
  | paramStoreDone (bad : List (Nat × BitVec 8))
  /-- `EVENT_READ` (R669). -/
  | eventRead (r : Req)
  /-- `EVENT_LOST_READ` (R669). -/
  | eventLostRead (r : Req)
  /-- `DTIME_SET` (R671). -/
  | dtimeSet (r : Req) (v : BitVec 64)
  /-- `SCHED_ADD` (R673). -/
  | schedAdd (r : Req) (v : BitVec 256)
  /-- `SCHED_DUE` (R674). -/
  | schedDue (e : Fin 32)
  /-- `SCHED_LATE_ENTRY` (R675). -/
  | schedLateEntry (e : Fin 32)
  /-- `PPS_PULSE` (R687). -/
  | ppsPulse
  /-- `MIO_BANK_DETECT` (R681). -/
  | mioBankDetect (bank : Fin 2) (v33 : Bool)
  /-- `MIO_BANK_FLOAT` (R683). -/
  | mioBankFloat (bank : Fin 2) (mv : BitVec 16)
  /-- `MIO_CONTENTION` (R692). -/
  | mioContention (pin : Fin 64)
  /-- `MIO_STATUS_CLEAR` (R692). -/
  | mioStatusClear (r : Req) (pin : Fin 64)
  /-- `SM_CONVERSION` (R694). -/
  | smConversion (ch : Fin 68) (v : BitVec 32)
  /-- `ANIN_RANGE_WRITE` (R697). -/
  | aninRangeWrite (r : Req) (i : Fin 4) (v : BitVec 8)
  /-- `GOITH_LINE_RESET` (R710). -/
  | goithLineReset
  /-- `GOITH_SYNC_BYTE` (R710). -/
  | goithSyncByte (b : BitVec 8)
  /-- `ATTACH` (R723). -/
  | attach (g : GAcc)
  /-- `DETACH` (R723). -/
  | detach (g : GAcc)
  /-- `PORT_CLEAR` (R714). -/
  | portClear (g : GAcc)
  /-- `GOITH_ABORT` (R714). -/
  | goithAbort (g : GAcc)
  /-- `PORT_CMD_INVALID` (R714). -/
  | portCmdInvalid (g : GAcc) (cmd : BitVec 8)
  /-- `ENG_SEL_WRITE` (R715). -/
  | engSelWrite (g : GAcc) (v : BitVec 32)
  /-- `ENG_DATA_ACCESS` (R715). -/
  | engDataAccess (g : GAcc) (rnw : Bool) (v : BitVec 32)
  /-- `PRB_DATA_ACCESS` (R716). -/
  | prbDataAccess (g : GAcc) (rnw : Bool) (v : BitVec 32)
  /-- `MEM_BUF_ACCESS` (R717). -/
  | memBufAccess (g : GAcc) (rnw : Bool) (v : BitVec 32)
  /-- `READ_LINE` (R718). -/
  | readLine (g : GAcc) (adv : Bool)
  /-- `WRITE_LINE` (R718). -/
  | writeLine (g : GAcc) (adv : Bool)
  /-- `READ_WORD` (R718). -/
  | readWord (g : GAcc) (adv : Bool)
  /-- `WRITE_BYTES` (R718). -/
  | writeBytes (g : GAcc) (adv : Bool) (lanes : BitVec 4)
  /-- `GOITH_MEM_DONE` (R718). -/
  | goithMemDone
  /-- `TUN_READ` (R719). -/
  | tunRead (g : GAcc)
  /-- `TUN_WRITE` (R719). -/
  | tunWrite (g : GAcc)
  /-- `TUN_DATA_ACCESS` (R719). -/
  | tunDataAccess (g : GAcc) (rnw : Bool) (v : BitVec 32)
  /-- `GOITH_TUNNEL_DONE` (R719). -/
  | goithTunnelDone
  /-- `RB_FRAME_WRITE` (R720). -/
  | rbFrameWrite (g : GAcc) (v : BitVec 32)
  /-- `GOITH_READBACK_DONE` (R720). -/
  | goithReadbackDone
  /-- `RB_DATA_READ` (R720). -/
  | rbDataRead (g : GAcc)
  /-- `GOITH_ATTACH_TIMEOUT` (R723). -/
  | goithAttachTimeout
  /-- `MONITOR_STORE` (R721). -/
  | monitorStore (e : Fin 768)
  /-- `MONITOR_LOAD` (R721). -/
  | monitorLoad (e : Fin 768)
  /-- `MONITOR_RESUME` (R721). -/
  | monitorResume (e : Fin 768)
  /-- `DBG_TOKEN` (R728). -/
  | dbgToken (r : Req) (t : BitVec 1664)
  /-- `DBG_TOKEN_VERIFIED` (R728). -/
  | dbgTokenVerified
  /-- `DBG_CHALLENGE_READ` (R728). -/
  | dbgChallengeRead (r : Req)
  /-- `DBG_END` (R729). -/
  | dbgEnd (r : Req) (v : BitVec 8)
  /-- `DBG_TOKEN_EXPIRY` (R729). -/
  | dbgTokenExpiry
  /-- `TAP_RESET` (R731). -/
  | tapReset
  /-- `IDCODE` (R732). -/
  | idcode
  /-- `BYPASS` (R732). -/
  | bypass
  /-- `SAMPLE_PRELOAD` (R732). -/
  | samplePreload
  /-- `EXTEST` (R732). -/
  | extest
  /-- `EXTEST_PULSE` (R732). -/
  | extestPulse
  /-- `EXTEST_TRAIN` (R732). -/
  | extestTrain
  /-- `CLAMP` (R732). -/
  | clamp
  /-- `HIGHZ` (R732). -/
  | highz
  /-- `REGISTER_WRITE` (R643). -/
  | registerWrite (t : RegTarget)
  /-- `POR_N_RISE` (R732). -/
  | porNRise
  /-- `VCCIO_RISE` (R72). -/
  | vccioRise (bank : Fin 16)
  /-- `LATCHED_WAKE_RISE` (R182). -/
  | latchedWakeRise
  /-- `CFGR_READY_CHANGE` (R245). -/
  | cfgrReadyChange (level : Bool)
  /-- `HOST_QUOTA_EVICTION_DONE` (R488). -/
  | hostQuotaEvictionDone
  /-- `CXL_LINK_RETRAIN_DONE` (R497). -/
  | cxlLinkRetrainDone (port : Fin 4)
  /-- `IDE_KM` (R498). -/
  | ideKm (port : Fin 4) (link : Bool)
  /-- `CAN_BUS_OFF_RECOVERY` (R650). -/
  | canBusOffRecovery
  /-- `TRAINING_AREA_STORE_DONE` (R528). -/
  | trainingAreaStoreDone
  /-- `PARAM_ERASE_DONE` (R662). -/
  | paramEraseDone
  /-- `BRINGUP_RATE_SWITCH` (R585). -/
  | bringupRateSwitch (p : Fin 4)
  deriving DecidableEq, Repr

end Sys2Proof
end

