-- ==== Sys2Proof/Decode.lean ====
section
/-! DEFINITION. The command a word spells by the bits of spec/opcode_table.json. The hardware is a block and its table gives no row bits, so no word
spells a command (log entry 5). -/
namespace Sys2Proof

/-- The command that the `nbits` bits of `w` spell: none, since no row of the table has bits. -/
def decodeTableWord (_nbits _w : Nat) : Option Instr := none

end Sys2Proof
end

