-- ==== Sys2Proof/Config.lean ====
section
/-! DEFINITION. What an implementation fixes and the free values: constants without a body, so that no proof can see what they
are. The cryptographic functions stand here too: the spec names them by other standards and no claim looks inside them. -/
namespace Sys2Proof.Config

/-- The n-th free value: what the spec leaves open where the machine goes on (log entry 2). -/
opaque freeNat : Nat → Nat
/-- Bits of a free value. -/
def free (w n : Nat) : BitVec w := BitVec.ofNat w (freeNat n)

/-- Device serial number, firmware version, monitor version: each implementation's (15 R679, 08 R384). -/
opaque serial : Nat
opaque fwVersion : Nat
opaque monitorVersion : Nat
/-- The part is of speed grade 2, fast (00 R2; 06 R295). -/
opaque fastGrade : Bool
/-- The four characters of a guest-site variant's assembly code, by place in the digits and the letters other than I and O (00 R6). -/
opaque assembly : Nat → Fin 34
/-- Length of the certificate chain before one is written (15 R679). -/
opaque certLen : Nat
/-- The monitor image's byte at an offset from 0xF800 (08 R336). -/
opaque monitorImage : Nat → BitVec 8
/-- Spares in use on a die after the repair fuse map is applied (07 R306). -/
opaque repairUsed : Nat → Nat
/-- SHA-384 of the factory verification key, fixed in the boot ROM (05 R225). -/
opaque factoryKeyHash : BitVec 384
/-- The factory test key as manufactured (05 R224). -/
opaque factoryTestKey : BitVec 384

/-- The carry stage of a logic cell: from LUT output, bypass input and carry in (bits 2, 1, 0) its sum and carry out (bits 0, 1); the spec gives no
equation (06 R258, R260). -/
opaque carry : BitVec 3 → BitVec 2
/-- The serialisers and deserialisers send and take bit 0 first (06 R285 does not say). -/
opaque serLow : Bool
/-- The 8 check bits of a RAM word in ECC mode: deep RAM, word address, data (07 R307 states properties of the code, not the code). -/
opaque ramCheck : Bool → Nat → BitVec 64 → BitVec 8
/-- The address differences of 4 bits or more that a read does not detect: of a leaf and of a deep RAM (07 R308). -/
opaque ramBlind : Bool → List Nat
/-- SHA-384: absorb bytes into a running state, and the digest of a state (05 R220). -/
opaque shaStep : BitVec 1024 → List (BitVec 8) → BitVec 1024
opaque shaEnd : BitVec 1024 → BitVec 384
/-- HMAC-SHA-384 of a message of bytes under a key (05 R226). -/
opaque hmac : BitVec 384 → List (BitVec 8) → BitVec 384
/-- AES-256-GCM opening: key, 12-byte IV, additional data, ciphertext, tag; the plaintext when the tag matches (05 R227). -/
opaque gcmOpen : BitVec 256 → BitVec 96 → List (BitVec 8) → List (BitVec 8) → BitVec 128 → Option (List (BitVec 8))
/-- The order of the P-384 base point and the 97-byte public key of a private key (15 R660, 05 R220). -/
opaque p384Order : Nat
opaque p384Public : Nat → List (BitVec 8)
/-- ECDSA P-384: is the 97-byte key a valid point, and does the signature (r then s) verify over the digest (05 R229). -/
opaque ecdsaOk : List (BitVec 8) → BitVec 384 → BitVec 768 → Bool
/-- Does a signature (r then s) verify over a digest under the key with a given SHA-384 hash (04 R188)? The request of R188 carries no key. -/
opaque ownerSigOk : BitVec 384 → BitVec 384 → BitVec 768 → Bool
/-- The stored training results of a channel, 1,012 bytes of opaque content (12 R527). -/
opaque trainResults : Nat → List (BitVec 8)
/-- LANE_RATE of a CXL or PCIe lane that runs above 2.5 GT/s, by the link's rate code: R593 has it read the present rate, and no code of R567 names it. -/
opaque cxlLaneRate : Nat → BitVec 8
/-- Settings of a lane's receiver after so many steps of its adaptation (13 R569, R575). -/
opaque rxSettings : Nat → Nat → BitVec 64
/-- The descriptor slot of a mirror record: DPA[51:6] and mirror sequence; 14 R625 does not place them. -/
opaque mirrorDesc : BitVec 46 → BitVec 32 → BitVec 512
/-- CRC-32 of a codeword: its four flit slots and bits [481:0] of its control slot; 14 R600 does not give the order of the bits. -/
opaque linkCrc : List (BitVec 514) → BitVec 482 → BitVec 32
/-- The RS(272,257) codeword of a payload, symbol k in bits [10k+9:10k]; 14 R599 gives the code's parameters, not the code. -/
opaque rsCode : BitVec 2570 → BitVec 2720
/-- SECDED check bits of a header flit over its bits [501:0]; 10 R430 does not give the code. -/
opaque headCheck : BitVec 502 → BitVec 10
/-- SECDED check bits of a snoop-filter entry over its bits [55:0]; 11 R473 does not give the code. -/
opaque sfCheck : BitVec 56 → BitVec 8
/-- The UART's hexadecimal digits of an event record: the highest digit first, letters in upper case; 16 R687 does not say. -/
opaque uartHigh : Bool
opaque uartUpper : Bool
/-- Set of the counter cache that a counter line maps to (12 R549). -/
opaque counterSet : Nat → Nat
/-- The mixing function of the scrambler: for each key and tweak a permutation of the lines; 12 R543 does not give it. -/
opaque mixer : BitVec 256 → BitVec 64 → Equiv.Perm (BitVec 512)
/-- A line as it is mixed under a key and a tweak (12 R543). -/
def mixLine (key : BitVec 256) (tweak : BitVec 64) (line : BitVec 512) : BitVec 512 := mixer key tweak line
/-- The 128 check bits of a stored line: the line as scrambled, its line index zero-extended, the poison marker; 12 R539 gives the code's parameters, not the code. -/
opaque lineCheck : BitVec 512 → BitVec 48 → Bool → BitVec 128

end Sys2Proof.Config
end

