-- ==== Sys2Proof/Machine/State.lean ====
section
/-! DEFINITION. The state of the device: plain data, one structure per unit, every field with the rule that names
it; the fault and refusal reasons; the state after reset. Object values that no other unit computes stand in the object table
`State.obj`, keyed index * 256 + subindex. -/
namespace Sys2Proof.Machine

/-- Mode of the root PLL (03 R104). -/
inductive RootMode where | ref | rc | reduced deriving DecidableEq, Repr

/-- Where a gated change of a synthesizer stands (03 R135, R136). -/
inductive SynthRun where | none | gatedLock | gatedRelease | glide deriving DecidableEq, Repr

/-- A fabric clock synthesizer: locked, output held low, present output in kHz, divider D, VCO in kHz, target of the running
change, the running change, clock stopped with its die (03 R133 to R139). -/
structure Synth where
  locked : Bool := true
  low : Bool := false
  freq : Nat := 100000
  d : Nat := 60
  vco : Nat := 6000000
  goal : Nat := 100000
  run : SynthRun := .none
  stopped : Bool := false
  deriving DecidableEq, Repr

/-- A crossing cell of user logic (03 R144 to R154): its clocks, and what it holds. -/
inductive XState where
  /-- XTOGGLE: the toggle as sent, as the destination has seen it and as it has come back; OVERRUN; the destination's pulse; pulses delivered. -/
  | toggle (sent seen back overrun pulse : Bool) (delivered : Nat)
  /-- XCOUNT: the event input, the 16-bit count as it is sent, Gray-coded, the count the destination has seen, DELTA. -/
  | count (ce : Sig) (gray : BitVec 16) (seen delta : BitVec 16)
  /-- XHOLD: the registered word, REQ, ACK, delivered in this transfer, the destination acknowledges without delivering, DROPPED, VALID with the word last
  delivered, words delivered. -/
  | hold (word : BitVec 128) (req ack done skip dropped valid : Bool) (last : BitVec 128) (delivered : Nat)
  deriving DecidableEq, Repr
structure XCell where
  src : ClkSel
  dst : ClkSel
  st : XState
  deriving DecidableEq, Repr

/-- Where the boot stands (04 R169, R115, R165, R170). -/
inductive Phase where
  /-- Effective reset is asserted, SYS_RST_N is low, or the flush runs. -/
  | held
  /-- Steps 1 to 4: straps sampled, root PLL locking, wipe running. -/
  | wiping
  /-- After step 5: waiting until every temperature site reads below 125 C (02 R96). -/
  | waitHot
  /-- After step 5 in REDUCED mode: waiting before step 6 (03 R115). -/
  | waitRoot
  /-- Step 6: the flash directory is read, or a stream is awaited on CFGI. -/
  | directory
  /-- Steps 7 to 8: a stream is staged and its seal verified. -/
  | staging
  /-- Step 9: frames are written. -/
  | writing
  /-- Step 10: the staged stream is wiped. -/
  | stageWipe
  /-- Step 11: plan and stored parameters are being applied (01 R36). -/
  | planning
  /-- Step 11 is done; step 12 waits for DDR5 training. -/
  | applied
  /-- INIT_DONE is released; the trees wait for the INIT_DONE pin (04 R171). -/
  | waitPin
  /-- Boot has completed. -/
  | run
  /-- Boot has stopped: strap error, wipe failure or no slot left (02 R79, 04 R165, R170). -/
  | halted
  deriving DecidableEq, Repr

/-- State of a die (04 R191, DIE_STATE). -/
inductive DieState where | on | entering | dormant | waking deriving DecidableEq, Repr

/-- STANDBY: not in it, entry accepted, asleep, waking (rails awaited) (04 R177 to R182). -/
inductive Standby where | none | entering | asleep | waking deriving DecidableEq, Repr

/-- An event record (15 R666). -/
structure EventRec where
  data : BitVec 24
  sev : BitVec 4
  tenant : BitVec 4
  unit : BitVec 16
  code : BitVec 16
  dtime : BitVec 64
  deriving DecidableEq, Repr

/-- A running life-cycle transition: target, groups being blown (else keys being destroyed) (04 R189). -/
structure LcRun where
  target : BitVec 3
  groups : Bool
  deriving DecidableEq, Repr

/-- An eFuse key slot: value, fused, destroyed, revoked (04 R189, 05 R236). -/
structure KeySlot where
  val : BitVec 384 := 0#384
  fused : Bool := false
  destroyed : Bool := false
  revoked : Bool := false
  deriving DecidableEq, Repr

/-- The external flashes as found: number present, capacity of one in bytes, and the bytes of the flash image that are
not 0xFF (05 R195, R196). -/
structure FlashInfo where
  count : Nat
  cap : Nat
  cells : Tab (BitVec 8)
  deriving DecidableEq, Repr

/-- A PLAN entry or stored parameter: plan kind, index, subindex, length, value (05 R218). -/
structure PlanEntry where
  kind : Nat
  index : Nat
  sub : Nat
  len : Nat
  val : Nat
  deriving DecidableEq, Repr

/-- Where a load stands (05 R230): header awaited, reams, seal, checked and ready to write, writing, staging wipe. -/
inductive LoadPhase where | header | reams | seal | checked | writing | wiping deriving DecidableEq, Repr

/-- An ENGINE record staged: engine, region, offset, bytes, halt flag (05 R214). -/
structure EngRec where
  eng : Nat
  region : Nat
  off : Nat
  bytes : List (BitVec 8)
  halt : Bool
  deriving DecidableEq, Repr

/-- The running load (05 R206 to R243). `covered` holds the frames covered as ranges, `given` those a FRAME record
covered; `src` is the source byte of R231; `tenant` the requester (none: T0 or the device itself); `addr` the source address; `boot` tells a boot stream; `follow` the position of a follow-on, `reason` the abort reason (0 none). -/
structure Load where
  src : BitVec 8
  boot : Bool
  follow : Option Nat
  tenant : Option (Fin 16)
  phase : LoadPhase := .header
  kind : Nat := 0
  keySource : Nat := 0
  ownerKey : Nat := 0
  nonce : BitVec 128 := 0#128
  reams : Nat := 0
  ownLen : Nat := 0
  relayLen : Nat := 0
  count : Nat := 0
  parts : BitVec 128 := 0#128
  buildId : BitVec 64 := 0#64
  next : Nat := 0
  staged : Nat := 0
  key : BitVec 256 := 0#256
  covered : List (Nat × Nat) := []
  given : List (Nat × Nat) := []
  frames : Tab Nat := []
  engs : List EngRec := []
  plan : List PlanEntry := []
  sha : BitVec 1024 := 0#1024
  digest : BitVec 384 := 0#384
  reason : Nat := 0
  addr : Nat := 0
  deriving DecidableEq, Repr

/-- A flash update: slot, update sequence, the source image as read (05 R249, R251). -/
structure FuJob where
  slot : Nat
  seq : Nat
  image : List (BitVec 8)
  deriving DecidableEq, Repr

/-- Relay output (05 R244 to R247): off, waiting for CFGR_READY, running. -/
inductive RelayState where | off | waiting | running deriving DecidableEq, Repr

/-- A stored word of a RAM (07 R298, R307): the value last written (the 64 data bits in ECC mode), the mask of stored bits, check bits above, that are in
error against its code word, and how the address it stands at differs from the one it was written for. -/
structure RamWord where
  val : BitVec 72 := 0#72
  err : BitVec 72 := 0#72
  adr : BitVec 12 := 0#12
  deriving DecidableEq, Repr
/-- The output of a RAM port: data, SBE, DBE (07 R300). -/
structure RamOut where
  data : BitVec 72 := 0#72
  sbe : Bool := false
  dbe : Bool := false
  deriving DecidableEq, Repr
/-- A leaf or deep RAM: ECC mode, its ports, scrub enabled, place of word 0 in the frames, words, port outputs, scrub position, corrected word waiting for
its write-back (07 R298 to R315). -/
structure Ram where
  ecc : Bool := false
  a : RamPort := { reads := true, writes := true, width := 72, rdw := .writeFirst, outReg := true, clk := .glob 0 }
  b : RamPort := { reads := true, writes := true, width := 72, rdw := .writeFirst, outReg := true, clk := .glob 0 }
  scrub : Bool := false
  frame : Nat := 0
  off : Nat := 0
  words : Tab RamWord := []
  outA : RamOut := {}
  outB : RamOut := {}
  pos : Nat := 0
  back : Option (Nat × BitVec 72) := none
  deriving DecidableEq, Repr

/-- A word of a queue block: payload, end mark, byte count; the stored bits in error against its code word (payload, end mark, byte count, 9 check bits,
from bit 0), how its address differs from the intended one, the three copies of the end mark (07 R316). -/
structure QbWord where
  data : BitVec 128
  last : Bool
  bytes : BitVec 4
  err : BitVec 142 := 0#142
  adr : BitVec 10 := 0#10
  ends : BitVec 3 := 0#3
  deriving DecidableEq, Repr
/-- The word a consumer was delivered: payload, end mark, byte count, RPOISON (07 R320). -/
structure QbOut where
  data : BitVec 128 := 0#128
  last : Bool := false
  bytes : BitVec 4 := 0#4
  poison : Bool := false
  deriving DecidableEq, Repr
/-- A queue block: configuration (PACKET framing, FLUSH and DROP permitted, AFULL threshold, what each side is attached to, its clocks), words oldest
first, packet count, flush phase (0 none, 1 sampled, 2 observed), DISCARD, DROPPING, consumer inside a packet, producer inside a packet, last
delivered word, RVALID, words and end marks written that the consumer side does not yet count, words read that the producer side does not yet count as free (07 R316
to R330). -/
structure Qb where
  packet : Bool := false
  flushOk : Bool := false
  dropOk : Bool := false
  thr : Nat := 1023
  prod : QbSide := .fabric
  cons : QbSide := .fabric
  wclk : ClkSel := .glob 0
  rclk : ClkSel := .glob 0
  words : List QbWord := []
  pkts : Nat := 0
  flush : Nat := 0
  discard : Bool := false
  dropping : Bool := false
  inside : Bool := false
  open_ : Bool := false
  out : QbOut := {}
  valid : Bool := false
  newWords : Nat := 0
  newEnds : Nat := 0
  freed : Nat := 0
  deriving DecidableEq, Repr

/-! ## Logic of the fabric (06 R256 to R286) -/

/-- A logic cell with the present values of its flip-flops (06 R258). -/
structure Cell where
  cfg : CellCfg
  q0 : Bool
  q1 : Bool
  deriving DecidableEq, Repr
/-- A multiply cell: input registers, C with the product, product, P, OVF (06 R263, R264). -/
structure Mul where
  cfg : MulCfg
  ra : BitVec 27 := 0#27
  rb : BitVec 27 := 0#27
  rd : BitVec 27 := 0#27
  rc : BitVec 58 := 0#58
  rc2 : BitVec 58 := 0#58
  prod : BitVec 54 := 0#54
  p : BitVec 58 := 0#58
  ovf : Bool := false
  deriving DecidableEq, Repr
/-- A segment end with its hop register (06 R265). -/
structure Seg where
  cfg : SegCfg
  q : Bool
  deriving DecidableEq, Repr
/-- A boundary port: from and to partition, what drives it (06 R266). -/
structure BPort where
  frm : Nat
  dest : Nat
  src : Sig
  deriving DecidableEq, Repr
/-- A seam signal with its crossing register (06 R268). -/
structure Seam where
  src : Sig
  q : Bool := false
  deriving DecidableEq, Repr
/-- A user pin: its registers for input, output and output enable, each for the rising and the falling edge (06 R285). -/
structure UPin where
  cfg : PinCfg
  inQ : Bool := false
  inQ2 : Bool := false
  outQ : Bool := false
  outQ2 : Bool := false
  oeQ : Bool := false
  oeQ2 : Bool := false
  deriving DecidableEq, Repr
/-- A pair's serialiser and deserialiser: bits still to be sent, first first; bits received since the last word, oldest first; the last word (06 R285). -/
structure SerDes where
  cfg : SerCfg
  left : List Bool := []
  got : List Bool := []
  word : BitVec 8 := 0#8
  deriving DecidableEq, Repr
/-- A reset tree: the partition whose frames set it, its user source and its release clock (06 R274). -/
structure RTree where
  home : Nat
  src : Option TreeSrc
  release : Fin 24
  deriving DecidableEq, Repr
/-- The configured fabric. Keys: a tile by its number (die, row, column), a cell by tile * 16 + number, the others by the numbers of Machine/Logic.lean. -/
structure Logic where
  tiles : Tab TileCfg := []
  cells : Tab Cell := []
  muls : Tab Mul := []
  segs : Tab Seg := []
  ports : Tab BPort := []
  /-- Partition whose frames set it, clock and reset tree of a group of seam signals (06 R268). -/
  groups : Tab (Nat × Nat × Nat) := []
  seams : Tab Seam := []
  /-- Partition whose frames set it, nominal VCCIO of a bank, its reference at 0.70 (06 R284). -/
  banks : Tab (Nat × Vccio × Bool) := []
  pins : Tab UPin := []
  serdes : Tab SerDes := []
  /-- Flip-flop that a probe tap names, as cell key * 2 + flip-flop (06 R290). -/
  taps : Tab Nat := []
  /-- Partition whose frames set it and source of a clock tree: global 0 to 23, regional 24 + 32 d + i (06 R273). -/
  clocks : Tab (Nat × ClkSrc) := []
  /-- Crossing cells of user logic (03 R144). -/
  cross : Tab XCell := []
  deriving DecidableEq, Repr

/-- A tenant reset in progress: step of 01 R39 last completed (1 accepted, 2 refusing and epochs advanced, 4 drained and wiping),
source code of event 0x2902, refusals in force. -/
structure TenReset where
  step : Nat
  source : Nat
  deriving DecidableEq, Repr

/-- A change of owner of a partition (0 to 127) or engine (128 + n): new owner, step of the treatment (0 held) (01 R37, R44). -/
structure Reassign where
  owner : Nat
  step : Nat
  deriving DecidableEq, Repr

/-- Answer of the last object access or command: answered at all, abort code (0 success), value read, total length (15 R653); response code of a window access (10 R435). -/
structure Answer where
  answered : Bool := false
  abort : BitVec 32 := 0#32
  value : Nat := 0
  total : Nat := 0
  resp : Nat := 0
  deriving DecidableEq, Repr

/-- A segmented write in progress: its requester, bytes received (15 R654, R656). -/
structure Xfer where
  r : Req
  data : List (BitVec 8)
  deriving DecidableEq, Repr
/-- The SPDM responder: last of GET_VERSION, GET_CAPABILITIES, NEGOTIATE_ALGORITHMS answered (1 to 3), session (0 none, 1 handshake, 2 established), key updates of
the session (15 R660). -/
structure Spdm where
  stage : Nat := 0
  session : Nat := 0
  updates : Nat := 0
  deriving DecidableEq, Repr

/-- A cached SAM entry of an access point or engine hub: entry number, tenant that fetched it, epoch, the entry's 16 bytes
as they were fetched (10 R454). -/
structure CacheEnt where
  entry : Nat
  tenant : Nat
  epoch : BitVec 8
  raw : Nat
  deriving DecidableEq, Repr

/-- A running SAM invalidation: entry or all, entries written since it began (10 R456). -/
structure Inval where
  entry : Option Nat
  written : BitVec 256
  deriving DecidableEq, Repr

/-- The place a request is decided at (10 R451): a slice with its device address, a CXL port with a host address, unit registers
or an engine window of control space, an engine's inbox, a partition, a soft endpoint, another device. -/
inductive Target where
  | dram (dpa : Nat) (entry : Nat)
  | host (port : Nat) (hpa : Nat)
  | unit (off : Nat)
  | window (e : Nat) (off : Nat)
  | inbox (e : Nat) (off : Nat)
  | part (p : Nat)
  | soft (id : Nat) (p : Nat)
  | remote (dev : Nat) (addr : Nat) (control : Bool)
  | nowhere
  deriving DecidableEq, Repr

/-- Where a transaction stands: waiting at its target (for a snoop, a host, an answer of logic, a retraining link), PULL sent, data
sent, response sent (10 R437). -/
inductive TxPhase where | atTarget | pull | data | rsp deriving DecidableEq, Repr

/-- A SAM fetch of an access point or engine hub that has not returned, and why its request then is answered or fetches again: tenant and address of the
request; an invalidation has begun that covers the entry; nothing to be cached was found (10 R454, R464). -/
structure Fetch where
  point : Nat
  tenant : Nat
  addr : Nat
  stale : Bool := false
  absent : Bool := false
  deriving DecidableEq, Repr

/-- An open transaction (10 R429 to R440); `gone` tells that its initiator has been reset or has stopped running, so that its completion is discarded (01 R40, 06
R281); `at_` is the port that decides it, `sent` orders the packets in flight (R440), `lost` tells that one of its packets was discarded, so that its timeout
alone ends it (R431, R435), `tracked` that it holds a tracker (R438), `poison` that a data flit of it is poisoned (R432). -/
structure Tx where
  init : Init
  txn : Nat
  cmd : Nat
  tenant : Nat
  addr : Nat
  be : BitVec 64
  len : Nat
  aux : BitVec 64
  tag : Nat
  hint : Nat
  target : Target
  entry : Option Nat
  epoch : BitVec 8
  phase : TxPhase := .atTarget
  resp : Nat := 0
  data : List (BitVec 512) := []
  wbase : Nat := 0
  gone : Bool := false
  qos : BitVec 2 := 0#2
  at_ : Nat := 0
  sent : Nat := 0
  lost : Bool := false
  tracked : Bool := true
  poison : Bool := false
  deriving DecidableEq, Repr

/-- State of an engine (08 R357). -/
inductive EngState where | off | notready | halted | running | waiting | fault | monitor deriving DecidableEq, Repr

/-- Where a result in flight goes: physical vector lanes under a mask, accumulator lanes under a mask, a scalar, pointer, modifier or
coefficient pointer of the issuing bank, BEXP set or lowered by a tracked store, a control register, sticky flags of CSTAT, SSTAT (08 R353). -/
inductive Dest where
  | v (n : Nat) (val mask : BitVec 256)
  | a (n : Nat) (val mask : BitVec 768)
  | s (n : Nat) (val : BitVec 32)
  | p (n : Nat) (val : BitVec 16)
  | m (n : Nat) (val : BitVec 32)
  | cp (n : Nat) (val : BitVec 32)
  | bexp (val : BitVec 5)
  | track (val : BitVec 5)
  | csr (n : Nat) (val : BitVec 32)
  | sticky (bits : BitVec 32)
  | sstat (bytes : BitVec 4) (last poison : Bool)
  deriving DecidableEq, Repr
/-- A result in flight: cycles until the end of which it is written, bank that issued it (true shadow), destination (08 R353, R367). -/
structure WriteBack where
  left : Nat
  shadow : Bool
  dest : Dest
  deriving DecidableEq, Repr

/-- A request presented on an access point's request channel, with the code by which the access point answers it itself (10 R462). -/
structure ApReq where
  cmd : Nat
  addr : Nat
  be : BitVec 64
  len : Nat
  aux : BitVec 64
  tag : Nat
  hint : Nat
  wbase : Nat
  qos : BitVec 2 := 0#2
  code : Option Nat := none
  deriving DecidableEq, Repr

/-- What an access point last gave its logic: a completion (tag, response, data) (10 R462). -/
structure ApOut where
  tag : Nat := 0
  resp : Nat := 0
  data : BitVec 512 := 0#512
  count : Nat := 0
  deriving DecidableEq, Repr

/-- An inbound request delivered to the logic of a partition: its transaction, none once that has ended without the logic (10 R439), IN_SRC the global ID of the
source, whether a data flit is poisoned (10 R426, R432, R462). -/
structure Inbound where
  tx : Option Nat
  cmd : Nat
  sub : Nat
  src : Nat
  tenant : Nat
  addr : Nat
  be : BitVec 64
  aux : BitVec 64
  data : List (BitVec 512)
  poison : Bool := false
  deriving DecidableEq, Repr

/-- Line of the Goith port (17 R709, R710): waiting for a line reset, waiting for the synchronisation byte, answering. -/
inductive GLine where | dead | sync | ready deriving DecidableEq, Repr
/-- Acknowledge (17 R708). -/
inductive GAck where | none | ok | wait | fault deriving DecidableEq, Repr
/-- A memory operation of class 2 in flight (17 R718). -/
inductive GMemOp where
  | readLine (adv : Bool)
  | writeLine (adv : Bool)
  | readWord (adv : Bool)
  | writeBytes (adv : Bool) (lanes : BitVec 4)
  deriving DecidableEq, Repr
/-- An accepted debug token: tenant of its scope (none: the device), owner key index, DTIME of expiry (0 none) (17 R728). -/
structure Token where
  tenant : Option Nat
  key : Nat
  expiry : Nat
  deriving DecidableEq, Repr
/-- Instruction of the test access port (17 R732). -/
inductive TapInstr where | idcode | bypass | sample | extest | extestPulse | extestTrain | clamp | highz
  deriving DecidableEq, Repr


/-- A line of device memory as a request reaches it: DPA / 64, channel, line index on the channel, CACHE bit of the window (10 R450, R460). -/
structure MemRef where
  line : Nat
  chan : Nat
  n : Nat
  cache : Bool
  deriving DecidableEq, Repr
/-- To whom a completion goes: an open transaction, a host by port and tag, a guest by gate and tag, for the whole of a request or for one of the two
lines it covers (11 R509), a guest that has been quarantined since, so that the completion is discarded (R513). -/
inductive Who where | tx (key : Nat) | host (port tag : Nat) | guest (g tag : Nat) | half (g tag : Nat) | gone (g : Nat) | nobody
  deriving DecidableEq, Repr
/-- Request of a flow (11 R483). -/
inductive FlowKind where
  | devRead | devWrite | rdShared | rdOwn | rdCur
  /-- MetaValue: 0 Invalid, 1 Shared, 2 Any; recorded tells an HDM-DB line. -/
  | hostWrite (mv : Nat) (recorded : Bool)
  | guestWrite
  | guestEvict (dirty : Bool)
  | victim (line : Nat)
  deriving DecidableEq, Repr
/-- A request that runs a flow: kind, agent, who is answered, the line, data to be written under a mask, poison, upset of the DRAM read, hint,
bytes wanted, an uncorrectable filter entry met, a CXL.io or PCIe request (11). -/
structure FlowReq where
  kind : FlowKind
  agent : Option Nat := none
  who : Who
  ref : MemRef
  data : BitVec 512 := 0#512
  mask : BitVec 512 := 0#512
  poison : Bool := false
  up : Nat := 0
  hint : Nat := 0
  want : BitVec 512 := 0#512
  bad : Bool := false
  io : Bool := false
  deriving DecidableEq, Repr
/-- A running flow: snoops not yet sent and sent, snoop kind, agents that keep a copy, line returned dirty, waiting for a way of the set; the entry
as it was found; the number of its tracker, which its snoops carry (11 R475, R479, R483). -/
structure Flow where
  req : FlowReq
  inv : Bool
  toSend : BitVec 6
  sent : BitVec 6
  kept : BitVec 6 := 0#6
  dirty : Option (BitVec 512) := none
  noWay : Bool := false
  owned : Bool
  pres : BitVec 6
  trk : BitVec 16 := 0#16
  deriving DecidableEq, Repr
/-- A snoop as its header carries it: SNP_INV or SNP_DATA, the line, TXN, TENANT and EPOCH (11 R478, R479). -/
structure Snoop where
  inv : Bool
  line : Nat
  txn : BitVec 16
  tenant : BitVec 4 := 0#4
  epoch : BitVec 8 := 0#8
  deriving DecidableEq, Repr
/-- A snoop-filter entry that is not INVALID: line (set and tag), STATE, PRESENCE, stored bits in error (0 none, 1 correctable, 2 uncorrectable) (11 R473 to
R476). -/
structure SfEntry where
  line : Nat
  st : BitVec 2
  pres : BitVec 6
  err : Nat := 0
  deriving DecidableEq, Repr
/-- A device-memory line in a slice: contents, not yet written back, poisoned, its channel and line index (11 R484). -/
structure SliceLine where
  data : BitVec 512
  dirty : Bool
  poison : Bool
  chan : Nat
  n : Nat
  deriving DecidableEq, Repr
/-- A host-memory line in a slice (11 R486); poisoned, where a poisoned flit wrote it (10 R432). -/
structure HostLine where
  port : Nat
  line : Nat
  data : BitVec 512
  dirty : Bool
  excl : Bool
  poison : Bool := false
  deriving DecidableEq, Repr
/-- An HDM decoder: committed, Error Not Committed, HDM-DB, first CXL DPA, bytes, log2 of its interleave ways, log2 of its granularity over 256 bytes (11
R491, R495). -/
structure HdmDec where
  committed : Bool
  error : Bool
  db : Bool
  base : Nat
  size : Nat
  ways : Nat := 0
  gran : Nat := 0
  deriving DecidableEq, Repr
/-- The form of an answer: of its kind; Unsupported Request or Completer Abort on CXL.io and PCIe; GO-Err on CXL.cache (11 R494, R510). -/
inductive AnsForm where | plain | unsupported | completerAbort | goErr
  deriving DecidableEq, Repr
/-- What is answered to a host or a guest: tag, response code, data, form (11 R494, R510). Number counts them. -/
structure HostAns where
  tag : Nat := 0
  resp : Nat := 0
  data : BitVec 512 := 0#512
  form : AnsForm := .plain
  number : Nat := 0
  deriving DecidableEq, Repr
/-- Answer to a host snoop: hit, dirty data returned, the copy kept (11 R489). -/
structure HsnpAns where
  hit : Bool := false
  dirty : Bool := false
  kept : Nat := 0
  data : BitVec 512 := 0#512
  poison : Bool := false
  deriving DecidableEq, Repr
/-- A host request that is held while a twin is not ACTIVE (14 R626). -/
structure HostReq where
  port : Nat
  tag : Nat
  addr : Nat
  kind : FlowKind
  io : Bool
  data : BitVec 512
  mask : BitVec 512
  /-- Upsets that its DRAM reads meet; written by a flit of a failed MAC epoch (11 R498). -/
  up : Nat := 0
  poison : Bool := false
  deriving DecidableEq, Repr
/-- A mirror record: sequence, DPA / 64, contents, synchronous (14 R625). -/
structure MirrorRec where
  seq : Nat
  line : Nat
  data : BitVec 512
  sync : Bool
  deriving DecidableEq, Repr
/-- A completion that waits for a mirror acknowledgement (14 R625). -/
structure HeldDone where
  seq : Nat
  who : Who
  resp : Nat
  deriving DecidableEq, Repr

/-- Supplies, pins and the thermal trip (02). -/
structure Power where
  /-- VCCAUX is in range (false in OFF) (02 R77,R81,R183). -/
  vaux : Bool := true
  /-- Rail in range, bit order of RAIL_STATUS (02 R102 (0x2104:01 RAIL_STATUS), R67). -/
  rails : BitVec 28 := 0x1A0#28
  /-- Level of POR_N (02 R80). -/
  porN : Bool := false
  /-- Level of SYS_RST_N (04 R160). -/
  sysRstN : Bool := true
  /-- Effective reset is asserted (02 R80). -/
  effReset : Bool := true
  /-- Monitoring of VCCFAB to VCCDDR is suspended (02 R71). -/
  monSuspended : Bool := false
  /-- The bank's VCCIO has stayed below 0.3 V since VCCAUX rose (02 R70,R72). -/
  vccioUnused : BitVec 16 := 0xFFFF#16
  /-- Bank outputs at high impedance under R72 (02 R72). -/
  vccioHiZ : BitVec 16 := 0#16
  /-- CORE_PWR_EN is driven high (02 R77,R81,R86). -/
  corePwrEn : Bool := true
  /-- Sum of the package samples of the running 1 ms window, mW (02 R90,R91). -/
  sumPkg : Nat := 0
  /-- Sums of the die samples of the running window (02 R90). -/
  sumDie : Tab Nat := []
  /-- Sums of the rail samples of the running window (02 R90). -/
  sumRail : Tab Nat := []
  /-- Samples taken in the running window (02 R90). -/
  samples : Nat := 0
  /-- Length of the present throttle period, ms (02 R91,R103). -/
  thrRun : Nat := 0
  /-- Longest throttle period, ms (02 R103 0x2102). -/
  thrLongest : Nat := 0
  /-- The device stands in the condition after a thermal trip (02 R96). -/
  tripped : Bool := false
  /-- Trip latched in AON: first site to trip (02 R96,R103). -/
  tripLatch : Option Nat := none
  /-- Sampled straps; before the first sample, the levels of the strap pins as VCCAUX rose (02 R78,R102 (0x2107:01 STRAPS); 03 R111). -/
  straps : BitVec 16 := 0#16
  /-- The straps have been sampled since VCCAUX rose (02 R77,R78). -/
  sampled : Bool := false
  /-- State of an MIO bank: 0 no nominal, 1 1.8 V, 2 3.3 V, 3 floating (16 R681,R683,R701 (0x2D00:01-02 MIO_BANK_STATE)). -/
  mioBank : Tab Nat := []
  /-- GONE pulses sent by HB_TX since VCCAUX rose (14 R622). -/
  gone : Nat := 0
  deriving DecidableEq, Repr

/-- The VBAT domain (02 R97 to R103). -/
structure Vbat where
  /-- Battery-backed key RAM (02 R97). -/
  key : BitVec 256 := 0#256
  /-- The key RAM holds a written key (02 R100,R102). -/
  keyHeld : Bool := false
  /-- Tamper latch (02 R99). -/
  tamper : Bool := false
  /-- VBAT-low latch (02 R100). -/
  low : Bool := false
  /-- Mark: the tamper latch's event has been logged (02 R103). -/
  tamperLogged : Bool := false
  /-- Mark: the VBAT-low latch's event has been logged (02 R103). -/
  lowLogged : Bool := false
  /-- DTIME of the domain at the tamper edge, low 24 bits, us (02 R103). -/
  tamperTime : BitVec 24 := 0#24
  /-- VBAT, mV, last measured: when VCCAUX returned, or at VBAT_LOW (02 R102,R103). -/
  mvAtReturn : BitVec 16 := 0#16
  deriving DecidableEq, Repr

/-- Root PLL, clock monitor, trims, synthesizers (03). -/
structure Clocks where
  /-- Mode of the root PLL (03 R104,R155 (0x2200:01 ROOT_MODE)). -/
  mode : RootMode := .reduced
  /-- The root PLL is locked (03 R111). -/
  locked : Bool := false
  /-- The root PLL is in holdover (03 R124). -/
  holdover : Bool := false
  /-- Last window in band (03 R155 (REF_STATUS bit 0)). -/
  inBand : Bool := false
  /-- REFIN accepted (03 R114 (REF_STATUS bit 1)). -/
  accepted : Bool := false
  /-- Reference failure latched (03 R125 (REF_STATUS bit 2)). -/
  refFail : Bool := false
  /-- Monitor suspended (03 R121 (REF_STATUS bit 3)). -/
  monStopped : Bool := false
  /-- Count of the last window (03 R155 (0x2200:03 REF_COUNT)). -/
  refCount : BitVec 16 := 0#16
  /-- Consecutive windows in band (03 R114,R126). -/
  goodRun : Nat := 0
  /-- Consecutive windows out of band (03 R125). -/
  badRun : Nat := 0
  /-- Windows since the reference failure (03 R157 0x2202). -/
  sinceFail : Nat := 0
  /-- 65,536 consecutive crystal cycles have been counted (03 R112). -/
  xtalStable : Bool := false
  /-- RC100 trim code (AON) (03 R116,R155 (0x2201:01 RC100_TRIM); 04 R163). -/
  trim : BitVec 16 := 0x100#16
  /-- Trim source code (03 R155 (0x2201:02 TRIM_SOURCE)). -/
  trimSource : BitVec 8 := 0#8
  /-- RC100 has been trimmed against REFIN: the running band applies (03 R123). -/
  trimmedRef : Bool := false
  /-- The trim is frozen after an RC100 failure (03 R121). -/
  trimFrozen : Bool := false
  /-- The SYNC trim is held (03 R119). -/
  trimHeld : Bool := false
  /-- Phase 1 of SYNC trimming is done (03 R117). -/
  syncPhase1 : Bool := false
  /-- A first SYNC frame of phase 2 has arrived (03 R117). -/
  syncSeen : Bool := false
  /-- Consecutive RC100 counts out of range (03 R121). -/
  rcBad : Nat := 0
  /-- The 50 ms limit has passed without acceptance and was logged (03 R113). -/
  late50 : Bool := false
  /-- Unit clock enables, bit sub - 1 (03 R128,R155 (0x2210:01-26 CLK_EN)). -/
  clkEn : BitVec 38 := 0#38
  /-- Unit clock runs (03 R130,R155 (0x2211:01-26 ENABLE_STATUS)). -/
  clkRun : BitVec 38 := 0#38
  /-- Event 0x2208 logged since the enable changed (03 R129). -/
  gatedLogged : BitVec 38 := 0#38
  /-- Fabric clock synthesizers, 4d + k (each: status, present frequency, D, running change) (03 R133 to R138). -/
  synths : Tab Synth := []
  deriving DecidableEq, Repr

/-- Resets, boot, power states, life cycle (04). -/
structure ResetUnit where
  /-- Cause of the last reset (AON) (04 R158,R191 (0x2400:01 RESET_CAUSE)). -/
  cause : BitVec 16 := 0x0001#16
  /-- Resets since VCCAUX last rose (AON) (04 R162,R191 (0x2400:02 RESET_COUNT)). -/
  count : BitVec 32 := 1#32
  /-- The running reset is a warm one (04 R158). -/
  warm : Bool := false
  /-- Where the boot stands (04 R169). -/
  phase : Phase := .held
  /-- The running warm reset retains DRAM (04 R167). -/
  retain : Bool := false
  /-- The flush of warm retention runs (04 R167). -/
  flushing : Bool := false
  /-- Retention was abandoned: flush time for event 0x2406 (04 R168). -/
  abandoned : Option Nat := none
  /-- Watchdog expiry to be logged at the next boot: service active (04 R161,R192). -/
  wdExpired : Option (BitVec 24) := none
  /-- Duration of the last wipe, us (04 R191 (0x2402:01 WIPE_TIME)). -/
  wipeTime : BitVec 32 := 0#32
  /-- Memory classes whose wipe completed (04 R191 (0x2402:02 WIPE_STATUS)). -/
  wipeStatus : BitVec 7 := 0#7
  /-- A wipe has failed since the last cold reset (04 R165). -/
  wipeFailed : Bool := false
  /-- INIT_DONE released by the device (04 R169,R171). -/
  initDone : Bool := false
  /-- The device holds all eight reset trees asserted (06 R275). -/
  treesHeld : Bool := true
  /-- State of each die (04 R191 (0x2181:01-08 DIE_STATE)). -/
  die : Tab DieState := []
  /-- The dormancy of a die is emulated (17 R724). -/
  dieEmul : BitVec 8 := 0#8
  /-- The STANDBY entry is emulated (17 R724). -/
  standbyEmul : Bool := false
  /-- STANDBY entry, sleep and wake (04 R177 to R182). -/
  standby : Standby := .none
  /-- Cause of the last wake (04 R191 (0x2183:04 WAKE_CAUSE)). -/
  wakeCause : BitVec 8 := 0#8
  /-- Duration of the last STANDBY, ns (04 R191 (0x2183:05 STANDBY_TIME)). -/
  standbyTime : BitVec 64 := 0#64
  /-- Wake sources saved in AON at STANDBY entry (04 R178). -/
  wakeSel : BitVec 8 := 0#8
  /-- Wake latched during entry, WAKE_CAUSE code (04 R182). -/
  latchedWake : BitVec 8 := 0#8
  /-- Last 32 event records held in AON (04 R178). -/
  savedEvents : List EventRec := []
  /-- DTIME at step 4 of the entry (04 R178). -/
  savedDtime : Nat := 0
  /-- AON32K measurement of 03 R122 held in AON at STANDBY entry, mHz (0 none) (04 R179). -/
  savedFreq : Nat := 0
  /-- Life-cycle state as read at step 3 (04 R186,R191 (0x2401:01 LC_STATE)). -/
  lc : BitVec 3 := 0#3
  /-- Old state of a completed transition (AON) (04 R189). -/
  lcOld : Option (BitVec 3) := none
  /-- Target of a transition whose group did not blow (AON) (04 R189). -/
  lcFail : Option (BitVec 3) := none
  /-- Running life-cycle transition: target, step (04 R189). -/
  lcRun : Option LcRun := none
  /-- Value returned by the last read of LC_CHALLENGE (04 R188). -/
  lcChallenge : BitVec 384 := 0#384
  /-- A warm reset is held behind fuse programming (04 R185). -/
  heldWarm : Bool := false
  /-- Slot for the next boot (AON) (05 R202,R254 (0x2300:02 NEXT_PROFILE)). -/
  nextProfile : BitVec 8 := 0xFF#8
  /-- Ignore stored training results (AON) (12 R526,R562 (0x2A05:03 TRAIN_FULL)). -/
  trainFull : Bool := false
  deriving DecidableEq, Repr

/-- eFuses, and what the part carries (04 R186 to R190, 05 R224 to R237). -/
structure Fuses where
  /-- Life-cycle groups LG1 to LG4 (04 R186). -/
  lg : Tab (BitVec 8) := []
  /-- Key slots 0-3 OKH (384 bits), 4-5 DK (256), 6 factory test (256): value, fused, destroyed, revoked (04 R189,R191; 05 R224,R225,R236). -/
  slots : Tab KeySlot := []
  /-- Guest sites that carry a chiplet: what the part is, which no command changes (00 R5 to R7). -/
  sites : BitVec 2 := 0#2
  deriving DecidableEq, Repr

/-- Configuration engine, profiles, relay, flash update (05). -/
structure LoadUnit where
  /-- Slot that loaded (05 R204,R254 (0x2300:01 ACTIVE_PROFILE)). -/
  active : BitVec 8 := 0xFF#8
  /-- Slots tried by this boot (05 R254 (0x2300:03 BOOT_SLOTS_TRIED)). -/
  tried : BitVec 8 := 0#8
  /-- Data of the last event 0x2302 (05 R254 (0x2300:04 LAST_ABORT)). -/
  lastAbort : BitVec 24 := 0#24
  /-- Build identifier of the loaded boot stream (05 R254 (0x2301:01 STREAM_BUILD_ID)). -/
  buildId : BitVec 64 := 0#64
  /-- Key source of the loaded boot stream (05 R254 (0x2301:02 STREAM_KEY_SOURCE)). -/
  keySource : BitVec 8 := 0xFF#8
  /-- Owner key index of the loaded boot stream (05 R254 (0x2301:03 STREAM_OWNER_KEY)). -/
  ownerKey : BitVec 8 := 0xFF#8
  /-- Seal digest of the loaded boot stream (15 R679 (0x2001:01 STREAM_DIGEST); 05 R220). -/
  digest : BitVec 384 := 0#384
  /-- Flashes found and the bytes the directory read gave (05 R194 to R198). -/
  flash : Option FlashInfo := none
  /-- Image offset of the valid directory in use (05 R198). -/
  dir : Option Nat := none
  /-- Profile slot being tried (05 R202,R203). -/
  slot : Option Nat := none
  /-- The running load (05 R206 to R243). -/
  load : Option Load := none
  /-- Result of the last load (05 R254 (0x2310:03 LOAD_RESULT)). -/
  result : BitVec 24 := 0#24
  /-- Load state code (05 R254 (0x2310:02 LOAD_STATE)). -/
  state : BitVec 8 := 0#8
  /-- Battery-backed key held pending (05 R234). -/
  pendingBbk : Option (BitVec 256) := none
  /-- The running flash update (05 R249,R251). -/
  fu : Option FuJob := none
  /-- Follow-on streams already tried (05 R241). -/
  followPos : Nat := 0
  /-- Follow-on count of the loaded slot (05 R200,R241). -/
  followN : Nat := 0
  /-- Relay length of the loaded boot stream (05 R211,R244). -/
  relayLen : Nat := 0
  /-- Relay output state (05 R244 to R247). -/
  relay : RelayState := .off
  /-- Image offset of the relay section (05 R210,R244); of a section on CFGI, its first free value (05 R246). -/
  relayAt : Nat := 0
  /-- Bytes that a stream which failed on CFGI still has to be consumed (05 R246). -/
  rest : Nat := 0
  /-- Relay bytes sent (05 R244). -/
  relaySent : Nat := 0
  /-- Level of CFGR_READY (05 R245). -/
  cfgrReady : Bool := false
  /-- A tamper abort keeps the device unconfigured until the next cold reset (05 R235). -/
  tamperStop : Bool := false
  deriving DecidableEq, Repr

/-- Programmable fabric: partitions, frames, reset trees, frame checker, probes and capture (06). -/
structure Fabric where
  /-- Configuration memory: frame content as a little-endian number, by frame address (05 R221; 06 R287). -/
  frames : Tab Nat := []
  /-- Tiles, cells, routing, pins and trees that the frames configure, with the values of their registers (06 R256 to R286). -/
  logic : Logic := {}
  /-- Partitions whose frames have been written (06 R286). -/
  written : BitVec 128 := 0#128
  /-- Reset trees (06 R274). -/
  trees : Tab RTree := []
  /-- Trees asserted by GRST_PULSE (06 R275). -/
  pulse : BitVec 8 := 0#8
  /-- Level of each tree's user source (06 R276). -/
  user : BitVec 8 := 0#8
  /-- Trees that no device source asserts any more, and trees whose user source has fallen, while their release clock stands: still asserted (03 R143). -/
  relHold : BitVec 8 := 0#8
  userHold : BitVec 8 := 0#8
  /-- Partition has logged a held-back assertion since its configuration (06 R276 (event 0x2505)). -/
  heldBack : BitVec 128 := 0#128
  /-- User I/O pins marked spare (06 R292). -/
  spare : Tab Bool := []
  /-- Partitions whose user I/O outputs are enabled (06 R281,R286). -/
  ioOn : BitVec 128 := 0#128
  /-- Partition has logged a correction in this pass (06 R288). -/
  scrubPass : BitVec 128 := 0#128
  /-- Bits in error of the configuration words found uncorrectable and left unchanged, by frame * 512 + word (06 R289). -/
  badWords : Tab (BitVec 64) := []
  /-- Channel whose new selection has not yet taken effect outputs 0 (06 R291). -/
  probeNew : BitVec 64 := 0#64
  /-- Capture buffer, newest sample first (06 R293). -/
  cap : List (BitVec 64) := []
  /-- Samples written since arming (06 R293,R296). -/
  capWritten : Nat := 0
  /-- Samples written since the trigger sample (06 R293). -/
  capAfter : Nat := 0
  deriving DecidableEq, Repr

/-- Embedded memories and queue blocks (07). -/
structure Memories where
  /-- Leaf and deep RAMs (configuration, 72-bit words with stored errors, port outputs, scrub position) (07 R298 to R315). -/
  rams : Tab Ram := []
  /-- Queue blocks (07 R316 to R330). -/
  qbs : Tab Qb := []
  /-- Block attached to a stream port, key engine * 2 + (1 for SP1) (07 R317). -/
  links : Tab Nat := []
  /-- Event 0x2601 logged since the partition's counts were cleared (07 R313). -/
  ramMark : BitVec 128 := 0#128
  /-- Event 0x2604 logged since the block's counts were cleared (07 R329). -/
  qbCorrMark : BitVec 1024 := 0#1024
  /-- Event 0x2605 logged since the block's counts were cleared (07 R329). -/
  qbPoisMark : BitVec 1024 := 0#1024
  /-- Event 0x2606 logged since the partition's configuration (07 R318). -/
  linkMark : BitVec 128 := 0#128
  deriving DecidableEq, Repr

/-- Tenant resets and reassignments (01 R37 to R44, 11 R499 to R505). -/
structure Tenants where
  /-- Running tenant resets (01 R39; 11 R517 (0x2920:02 TENANT_BUSY)). -/
  resets : Tab TenReset := []
  /-- Running or held changes of owner (01 R37,R44; 11 R501). -/
  reassign : Tab Reassign := []
  deriving DecidableEq, Repr

/-- Events, DTIME, MCTP, CAN FD, scheduler, store (15). -/
structure Firmware where
  /-- Device time, ns (15 R670 (0x2F00:01 DTIME)). -/
  dtime : Nat := 0
  /-- Fraction of a nanosecond kept by the ENG tick, in units of 1 / 6,000,000 ns (15 R670,14 R616). -/
  sixths : Nat := 0
  /-- ENG cycles of the running group of 16, for throttling (02 R91,R92). -/
  engTick : Nat := 0
  /-- Event ring, newest first, with sequence numbers (15 R667). -/
  ring : List (Nat × EventRec) := []
  /-- Sequence number of the next record (15 R679 (0x2F01:03 EVENT_NEXT_SEQ)). -/
  seq : Nat := 0
  /-- Next sequence of each reader: 0 to 15 tenants, 16 OWNER, 17 EMCY, 18 MCTP (15 R667), 19 the UART (16 R687). -/
  pos : Tab Nat := []
  /-- Lost count of each reader (15 R667,R669 (EVENT_LOST)). -/
  lost : Tab Nat := []
  /-- Attempts of the MCTP producer at its oldest unacknowledged records (15 R668). -/
  mctpTries : Nat := 0
  /-- Sequence after the last record sent and not yet acknowledged (15 R668). -/
  mctpSent : Nat := 0
  /-- EMCY messages sent (15 R668). -/
  pushed : Nat := 0
  /-- Open segmented writes, by object (15 R654,R656). -/
  xfers : Tab Xfer := []
  /-- Node ID in force (15 R650,R679 (0x1100:01)). -/
  canNode : Nat := 0x7F
  /-- Nominal rate code in force (15 R650,R679 (0x1100:02)). -/
  canNominal : Nat := 3
  /-- Data-phase rate code in force (15 R650,R679 (0x1100:03)). -/
  canData : Nat := 2
  /-- Restarts of the CAN FD controller (15 R649,R650). -/
  canRestarts : Nat := 0
  /-- Heartbeats sent (15 R649). -/
  heartbeats : Nat := 0
  /-- DTIME of the last EMCY message (15 R668). -/
  emcyAt : Option Nat := none
  /-- Record of the last EMCY message (15 R668). -/
  emcy : Option EventRec := none
  /-- Emergency error code and error register of the last EMCY message (15 R668). -/
  emcyCode : Nat := 0
  emcyReg : Nat := 0
  /-- The last response sent to an MCTP object request (15 R653). -/
  mctpOut : List (BitVec 8) := []
  /-- The last event message of the MCTP producer (15 R668). -/
  mctpEvent : List (BitVec 8) := []
  /-- DTIME at which the last PPS pulse began (16 R687). -/
  pps : Option Nat := none
  /-- Running store: number of entries, their bytes (15 R662,R664). -/
  store : Option (Nat × List (BitVec 8)) := none
  /-- Entries whose TIME had passed when they were written (15 R675). -/
  late : BitVec 32 := 0#32
  /-- Value H from which the identity key pair of this boot is derived (15 R660). -/
  idKey : Option (BitVec 384) := none
  /-- SPDM responder (15 R660). -/
  spdm : Spdm := {}
  /-- The line last transmitted on the UART (16 R687). -/
  uart : List (BitVec 8) := []
  deriving DecidableEq, Repr

/-- System monitor and pins beyond their objects (16). -/
structure Mio where
  /-- Consecutive counting samples beyond a threshold (16 R698). -/
  setRun : Tab Nat := []
  /-- Consecutive valid samples in the clearing band (16 R698). -/
  clrRun : Tab Nat := []
  /-- Range in use of an analogue input, code of ANIN_RANGE (16 R696,R697). -/
  range : Tab Nat := []
  /-- Consecutive valid samples below 75 % of the next narrower range (16 R696). -/
  narrow : Tab Nat := []
  /-- The next conversion of the input follows a range switch (16 R697). -/
  ranged : BitVec 4 := 0#4
  /-- Lowest channel that the sequencer may visit next in this round (16 R694). -/
  smNext : Nat := 0
  /-- Highest valid temperature of the running round (16 R701 (0x2D86:03)). -/
  roundMax : Option Int := none
  deriving DecidableEq, Repr

/-- Vent network: SAM copies, endpoints, token buckets, transactions (10). -/
structure Vent where
  /-- SAM entries cached by access point p (key p) and engine hub h of die d (key 128 + 12 d + h), most recently used first (01 R47; 10 R454). -/
  cache : Tab (List CacheEnt) := []
  /-- Running SAM invalidations (10 R456). -/
  inval : List Inval := []
  /-- Partition bound to a soft endpoint ID (10 R427). -/
  soft : Tab Nat := []
  /-- Tokens of a point's tenant bucket that differ from the tenant's common level, key point * 16 + tenant (10 R448). -/
  tokens : Tab Nat := []
  /-- Common token level of a tenant's untouched buckets (10 R448). -/
  tokLevel : Tab Nat := []
  /-- Open transactions, key source * 65536 + TXN (10 R437,R438). -/
  txs : Tab Tx := []
  /-- Requests presented to an access point and not yet injected, oldest first (10 R462). -/
  apq : Tab (List ApReq) := []
  /-- Write-data flits received from logic and not consumed, key partition * 2^40 + index (10 R462). -/
  wdata : Tab (BitVec 512) := []
  /-- Write-data flits received from each partition's logic (10 R462). -/
  wrecv : Tab Nat := []
  /-- Write-data flits named by the partition's requests so far (10 R462). -/
  wneed : Tab Nat := []
  /-- Last completion given to each partition's logic (10 R462). -/
  apOut : Tab ApOut := []
  /-- Inbound requests delivered and unanswered, key partition * 256 + IN_ID (10 R462,R463). -/
  inb : Tab Inbound := []
  /-- Last MSG delivered to each partition's logic (10 R462). -/
  msgs : Tab Inbound := []
  /-- SAM fetches that have not returned, and those that found nothing and whose request has not been answered (10 R454, R464). -/
  fetch : List Fetch := []
  /-- Number of the next packet sent, by which packets in flight keep their order (10 R440). -/
  seq : Nat := 0
  /-- Ports whose initiators wait for a tracker, in the order of their turns (10 R438). -/
  trkWait : List Nat := []
  /-- TB_RATE in force for a tenant since the last whole microsecond (10 R464). -/
  rate : Tab Nat := []
  /-- Each partition's last write-data flit came with WD_LAST (10 R462). -/
  wlast : BitVec 128 := 0#128
  deriving DecidableEq, Repr

/-- One bank of an engine's registers (08 R342). -/
structure EngBank where
  /-- Scalars S0 to S15 (08 R342). -/
  s : Vector (BitVec 32) 16 := Vector.replicate 16 0#32
  /-- Pointers P0 to P7 (08 R342). -/
  p : Vector (BitVec 16) 8 := Vector.replicate 8 0#16
  /-- Modifiers M0 to M7 (08 R347). -/
  m : Vector (BitVec 32) 8 := Vector.replicate 8 0#32
  /-- Coefficient pointers CP0, CP1 (08 R349). -/
  cp : Vector (BitVec 32) 2 := Vector.replicate 2 0#32
  /-- CSTAT without IBANK, which `Engine.shadow` gives (08 R343). -/
  cstat : BitVec 32 := 0#32
  /-- Remaining counts LCNT0, LCNT1 (08 R342,R350). -/
  lcnt : Vector (BitVec 16) 2 := Vector.replicate 2 0#16
  /-- Body starts LSTART0, LSTART1 (08 R342,R350). -/
  lstart : Vector (BitVec 16) 2 := Vector.replicate 2 0#16
  /-- Body ends LEND0, LEND1 (08 R342,R350). -/
  lend : Vector (BitVec 16) 2 := Vector.replicate 2 0#16
  /-- Loop level rotates (08 R350). -/
  rot : BitVec 2 := 0#2
  deriving DecidableEq, Repr

/-- A DMA channel (08 R380 to R383). -/
structure Dma where
  /-- DMA_CTRL without START and ABORT (08 R383). -/
  ctrl : BitVec 10 := 0x10#10
  /-- DMA_LOCAL (08 R382). -/
  loc : BitVec 16 := 0#16
  /-- DMA_SYS (08 R382). -/
  sys : BitVec 52 := 0#52
  /-- DMA_SHAPE (08 R382). -/
  shape : BitVec 32 := 0#32
  /-- DMA_STRIDE (08 R382). -/
  stride : BitVec 52 := 0#52
  /-- DMA_STATUS.BUSY (08 R383). -/
  busy : Bool := false
  /-- DMA_STATUS.DONE (08 R383). -/
  done : Bool := false
  /-- DMA_STATUS.ERROR (08 R383). -/
  error : Bool := false
  /-- DMA_STATUS.ABORTED (08 R383). -/
  aborted : Bool := false
  /-- DMA_STATUS.RESP (08 R383). -/
  resp : BitVec 4 := 0#4
  /-- DMA_STATUS.LINES_DONE (08 R383). -/
  lines : BitVec 11 := 0#11
  /-- Lines issued of the running transfer (08 R381). -/
  issued : Nat := 0
  /-- Lines in flight (08 R381). -/
  flight : List Nat := []
  /-- ABORT written: no more lines issue (08 R381). -/
  abort : Bool := false
  deriving DecidableEq, Repr

/-- A Geyser engine (08 R333 to R385). -/
structure Engine where
  /-- State of the engine (08 R357). -/
  state : EngState := .notready
  /-- POWER_ON (true) or POWER_OFF (false) in progress (08 R358). -/
  power : Option Bool := none
  /-- Event 0x2702 logged since NOTREADY was entered (08 R359). -/
  nrLogged : Bool := false
  /-- Event 0x2706 logged since READY (08 R373). -/
  dbgLogged : Bool := false
  /-- Program memory words below 0xF800 that are not zero; the range above reads as the monitor image (08 R334,R336). -/
  prog : Tab (BitVec 256) := []
  /-- X memory words that are not zero (08 R334). -/
  xmem : Tab (BitVec 256) := []
  /-- Y memory words that are not zero (08 R334). -/
  ymem : Tab (BitVec 256) := []
  /-- V0 to V31, physical (08 R342). -/
  v : Vector (BitVec 256) 32 := Vector.replicate 32 0#256
  /-- Accumulators (08 R342). -/
  a : Vector (BitVec 768) 8 := Vector.replicate 8 0#768
  /-- Block exponent (08 R342,R355). -/
  bexp : BitVec 5 := 0#5
  /-- Foreground bank (08 R342). -/
  fg : EngBank := {}
  /-- Shadow bank (08 R342). -/
  sh : EngBank := {}
  /-- The shadow bank is in use (08 R343 (CSTAT.IBANK)). -/
  shadow : Bool := false
  /-- Address of the bundle to issue next (08 R342). -/
  pc : BitVec 16 := 0#16
  /-- Address of the last bundle issued (08 R382 (PC)). -/
  last : BitVec 16 := 0#16
  /-- Interrupt return address (08 R342). -/
  ipc : BitVec 16 := 0#16
  /-- Exception address (08 R342). -/
  epc : BitVec 16 := 0#16
  /-- Exception cause (08 R369). -/
  ecause : BitVec 8 := 0#8
  /-- Interrupt vector (08 R342). -/
  ivec : BitVec 16 := 0#16
  /-- Pending bits of sources 7 to 14 (08 R364). -/
  pend : BitVec 16 := 0#16
  /-- IRQ_EN (08 R382). -/
  irqEn : BitVec 16 := 0#16
  /-- CYCLES (08 R382). -/
  cycles : BitVec 64 := 0#64
  /-- High half of CYCLES latched by the last read of the low half (09 R405). -/
  cycHi : BitVec 32 := 0#32
  /-- TIMER_CMP (08 R382). -/
  timer : BitVec 64 := 0#64
  /-- INBOX (08 R382). -/
  inbox : BitVec 32 := 0#32
  /-- POISON, END and BYTES of SSTAT (08 R383). -/
  sstat : BitVec 6 := 0#6
  /-- Event 0x2705 logged since POISON was cleared (08 R379). -/
  poisLogged : Bool := false
  /-- DMA channels (08 R382). -/
  dma : Vector Dma 4 := Vector.replicate 4 {}
  /-- DBG_CTRL: EXCMON, STEP (08 R383). -/
  dbgCtrl : BitVec 4 := 0#4
  /-- Cause of the last debug entry (08 R382 (DBG_STATUS)). -/
  dcause : BitVec 8 := 0#8
  /-- Breakpoints (08 R383). -/
  bp : Vector (BitVec 32) 4 := Vector.replicate 4 0#32
  /-- Watchpoints (08 R383). -/
  wp : Vector (BitVec 64) 2 := Vector.replicate 2 0x30000000FFE00000#64
  /-- DPC (08 R382). -/
  dpc : BitVec 16 := 0#16
  /-- Halt request raised and not yet recognised (08 R372). -/
  haltReq : Bool := false
  /-- Watchpoint, step or BKPT to be taken at the next boundary (08 R372). -/
  dbgEvt : Option (Nat × Nat) := none
  /-- One bundle issues before a step entry (08 R376). -/
  stepArm : Bool := false
  /-- Debug copy of the loop state, RW and RB (its other fields unused) (08 R373). -/
  copy : EngBank := {}
  /-- Results in flight, oldest first (08 R353). -/
  flight : List WriteBack := []
  /-- Cycles before the next bundle issues (08 R341,R366,R368,R373,R376). -/
  wait : Nat := 0
  /-- Bundle frozen on a stream port (FROZEN while there is one) (08 R379,R383). -/
  frozen : Option (BitVec 64) := none
  /-- Cycles until SP0 can move its next word (08 R379). -/
  spIn : Nat := 0
  /-- Cycles until SP1 can move its next word (08 R379). -/
  spOut : Nat := 0
  /-- The freeze cycle of the coefficient load at PC has passed (08 R339). -/
  cldPaid : Bool := false
  /-- The loop cache holds a body (08 R340). -/
  cacheOk : Bool := false
  /-- Start address of the cached body (08 R340). -/
  cacheTag : BitVec 16 := 0#16
  /-- Bundles of the cached body (08 R340). -/
  cacheLen : Nat := 0
  /-- Start of the body being captured (08 R340). -/
  capTag : Option (BitVec 16) := none
  /-- Start of the foreground body that a handler's capture has replaced (08 R368). -/
  lost : Option (BitVec 16) := none
  /-- Words that the engine port has stored in the present cycle, Y memory or X, with what they held before it (08 R335). -/
  stored : List (Bool × Nat × BitVec 256) := []
  deriving DecidableEq, Repr

/-- A data line of a channel that has been written since its key was last renewed: its contents, stored as poisoned, stored bits in error (0 none, 1 a correctable, 2 an uncorrectable pattern) (12 R539 to R542). -/
structure DdrLine where
  /-- Contents, descrambled (12 R543,R550). -/
  data : BitVec 512 := 0#512
  /-- Stored with the poison marker (12 R542). -/
  poison : Bool := false
  /-- State of the stored bits against the check code (12 R540). -/
  err : Nat := 0
  deriving DecidableEq, Repr

/-- A region of a channel (12 R546, R547). -/
structure Region where
  /-- Epoch (12 R546). -/
  epoch : BitVec 32 := 0#32
  /-- Watermark, a line offset (none: at the line count) (12 R546). -/
  wm : Option Nat := none
  /-- 0 idle, 1 queued, 2 walking, 3 walking with an advance pending (12 R547). -/
  state : Nat := 0
  /-- Event 0x2A0A logged in this walk or queued period (12 R556). -/
  mark : Bool := false
  deriving DecidableEq, Repr

/-- A DDR5 channel and its controller (12). -/
structure Chan where
  /-- Training: 0 before step 2, 1 an attempt runs, 2 the margin check has passed (12 R525). -/
  stage : Nat := 0
  /-- Full-training attempts begun at this boot (12 R525). -/
  attempt : Nat := 0
  /-- Stored results are in use (12 R526). -/
  usesStored : Bool := false
  /-- The channel comes back from warm retention (12 R560). -/
  kept : Bool := false
  /-- Full training ran at this boot (12 R528). -/
  full : Bool := false
  /-- Level of DDRcc_RESET_n (12 R522,R525,R529). -/
  resetN : Bool := false
  /-- Data lines written since the key was renewed, by line index (12 R559). -/
  lines : Tab DdrLine := []
  /-- Write counters that are not zero, by line index (12 R548). -/
  counters : Tab (BitVec 12) := []
  /-- Epoch whose tag a counter line carries; none of this key where unlisted (12 R548). -/
  tags : Tab (BitVec 32) := []
  /-- Counter cache by set: counter line and dirty, most recently used first (12 R549). -/
  ccache : Tab (List (Nat × Bool)) := []
  /-- Region records (12 R546,R547). -/
  regions : Tab Region := []
  /-- Record lines of the region table as last rewritten in DRAM; an unlisted one reads epoch 0, idle (12 R547). -/
  recs : Tab (BitVec 512) := []
  /-- Sizing has ended, with DIMMs or without (12 R525). -/
  sized : Bool := false
  /-- Regions queued for the walker, oldest first (12 R554). -/
  queue : List Nat := []
  /-- Region being walked (12 R554). -/
  walk : Option Nat := none
  /-- The key of the walked region is being derived (12 R545,R554). -/
  deriving_ : Bool := false
  /-- Position of the patrol, a line index (12 R541). -/
  patrol : Nat := 0
  /-- Lines whose correction waits for its write-back (12 R541). -/
  back : List Nat := []
  /-- Open row of a bank, by subchannel, bank group, bank and rank (12 R524,R532). -/
  rows : Tab Nat := []
  /-- Same-bank refreshes owed plus 4, by rank * 4 + bank index (12 R536,R537). -/
  owed : Tab Nat := []
  /-- DTIME of the last event 0x2A0C (12 R537). -/
  refabAt : Option Nat := none
  /-- ALERT_n low: no command issues (12 R530). -/
  alert : Bool := false
  /-- Replays in the running 1 ms (12 R530). -/
  replays : Nat := 0
  /-- DTIME of the first of them (12 R530). -/
  replayAt : Nat := 0
  /-- Event 0x2A0B logged since reset (12 R523). -/
  beyond : Bool := false
  /-- Event 0x2A05 logged since the counts were cleared (12 R562,R563). -/
  corrMark : Bool := false
  deriving DecidableEq, Repr

/-- Device memory (12). -/
structure Ddr where
  /-- DDR key (12 R545). -/
  key : BitVec 256 := 0#256
  /-- TRAIN_FULL as this boot read it (12 R526). -/
  ignoreStored : Bool := false
  /-- Channels (12 R519). -/
  chans : Tab Chan := []
  /-- The training area is being rewritten (12 R528). -/
  storing : Bool := false
  /-- DDR_RATE_LIMIT has been written since the area was last written (12 R528). -/
  limitsWritten : Bool := false
  /-- The last reset kept the DDR key (12 R525,R560). -/
  keyKept : Bool := false
  /-- This boot consults stored training results: some channel does not come back from warm retention (12 R526). -/
  consults : Bool := true
  deriving DecidableEq, Repr

/-- A CXL or PCIe port (11 R491 to R498). -/
structure CxlPort where
  /-- Rate code of the link (11 R497,R517). -/
  rate : Nat := 0
  /-- Width of the link (11 R517). -/
  width : Nat := 0
  /-- 256-byte flits (11 R491). -/
  flit256 : Bool := false
  /-- Latency-optimised flits (11 R491). -/
  lopt : Bool := false
  /-- Cachemem IDE is secure (11 R498). -/
  ideMem : Bool := false
  /-- Link IDE is secure (11 R491). -/
  ideLink : Bool := false
  /-- The cachemem stream is in the insecure state (11 R498). -/
  insecure : Bool := false
  /-- The link retrains (11 R497). -/
  retrain : Bool := false
  /-- HDM decoders that a host has programmed (11 R491,R495). -/
  decoders : Tab HdmDec := []
  /-- Last completion given to the host (11 R494). -/
  out : HostAns := {}
  /-- Completions that wait for the link, oldest first (11 R516). -/
  wait : List HostAns := []
  /-- The snoop last sent to the host, as BISnpInv or BISnpData (11 R479, R481). -/
  bi : Option Snoop := none
  /-- Lines that the host has written back while a back-invalidate of them was open (11 R481). -/
  fold : Tab (BitVec 512) := []
  /-- Last answer to a host snoop (11 R489). -/
  hsnp : HsnpAns := {}
  /-- Lines sent to the host as CleanEvict or DirtyEvict, oldest first (11 R487). -/
  evicts : List HostLine := []
  /-- Last memory device command and the number of its free payload (11 R491). -/
  mbox : Option (Nat × Nat) := none
  deriving DecidableEq, Repr

/-- A guest gate beyond its objects (11 R506 to R514). -/
structure Gate where
  /-- Tokens held (11 R511). -/
  tokens : Nat := 256
  /-- Step 4 of the quarantine is done (11 R513). -/
  walked : Bool := false
  /-- Last completion given to the guest (11 R510). -/
  out : HostAns := {}
  /-- The snoop last sent to the guest, as SnpInv or SnpData (11 R479, R481). -/
  snp : Option Snoop := none
  /-- Lines that the guest owned and that were written as poisoned in this quarantine before its walk (11 R513, R518). -/
  lost : Nat := 0
  /-- Snoops that timed out; the gate has no object for them (11 R482). -/
  snoopFails : Nat := 0
  /-- Completions of one line of requests that cover two, by tag (11 R509). -/
  halves : Tab HostAns := []
  deriving DecidableEq, Repr

/-- Coherence hub, CXL ports, guest gates (11). -/
structure Hub where
  /-- Link of each CXL port is up (11 R497 (PORT_STATUS bit 31)). -/
  cxlUp : BitVec 4 := 0#4
  /-- CXL ports (11 R491). -/
  ports : Tab CxlPort := []
  /-- Guest gates (11 R506). -/
  gates : Tab Gate := []
  /-- Device-memory lines held in the cache slices, by DPA / 64 (11 R484; 01 R52). -/
  slices : Tab SliceLine := []
  /-- Host-memory lines held in the slices, most recently used first (11 R486). -/
  hlines : List HostLine := []
  /-- Host-line quota in force, MiB (11 R488). -/
  quota : Nat := 0
  /-- Smaller quota whose eviction runs (11 R488). -/
  evicting : Option Nat := none
  /-- Snoop filter by set, most recently used first (11 R472 to R474). -/
  sf : Tab (List SfEntry) := []
  /-- Running flows by line (11 R470,R483). -/
  flows : Tab Flow := []
  /-- Requests that wait behind a flow on their line, oldest first (11 R470). -/
  waiting : Tab (List FlowReq) := []
  /-- Host requests held while a twin is not ACTIVE, oldest first (14 R626). -/
  held : List HostReq := []
  /-- Number of the tracker that the next flow takes (11 R468, R479). -/
  trk : BitVec 16 := 0#16
  deriving DecidableEq, Repr

/-- A packet or mirror record waiting on a cascade or twin port (14 R599, R603, R625). -/
structure LinkPkt where
  /-- Receiving buffer that it needs room in, numbered 2 VN + dateline channel; none for a mirror record. -/
  credit : Option Nat
  flits : List (BitVec 514)
  /-- A data flit of it is marked as poisoned (10 R432). -/
  poison : Bool := false
  deriving DecidableEq, Repr
/-- A codeword as it stands on the line: sequence number, COUNT of its tweaks, four flit slots as scrambled, control slot (14 R599, R600, R606). -/
structure Codeword where
  seq : Nat
  count : Nat
  slots : List (BitVec 514)
  control : BitVec 514
  deriving DecidableEq, Repr
/-- A cascade or twin link above its bring-up (14 R598 to R606). -/
structure CascPort where
  /-- Own HELLO nonce of this session (14 R605). -/
  nonce : Nat := 0
  /-- HELLO nonce of the partner (14 R605). -/
  peer : Option Nat := none
  /-- Session index of the keys in use (14 R605,R606). -/
  session : Nat := 0
  /-- New codewords received since the session key was derived (COUNT of the receiving direction) (14 R606). -/
  rxCount : Nat := 0
  /-- SEQ of the last good codeword received in order (14 R602). -/
  rxSeq : Nat := 0xFFFF
  /-- Codewords are discarded until SEQ ACK + 1 (NAK is set) (14 R602). -/
  bad : Bool := false
  /-- Last SEQ the partner acknowledged (14 R602). -/
  txAck : Nat := 0xFFFF
  /-- A good codeword has been received (14 R600). -/
  heard : Bool := false
  /-- SEQ of the last new codeword sent (14 R600). -/
  txSeq : Nat := 0xFFFF
  /-- New codewords sent since the session key was derived (COUNT of the sending direction) (14 R606). -/
  txCount : Nat := 0
  /-- The last 64 codewords sent, oldest first (14 R602). -/
  kept : List Codeword := []
  /-- Codewords still to be sent again after a NAK (14 R602). -/
  resend : List Codeword := []
  /-- The codeword last sent (14 R599). -/
  line : Option Codeword := none
  /-- Packets waiting to be sent, oldest first (14 R599). -/
  out : List LinkPkt := []
  /-- Flits still to be sent of the packet in transmission (14 R599). -/
  cur : List (BitVec 514) := []
  /-- Link messages waiting to be sent: type and payload (14 R601). -/
  msgs : List (Nat × BitVec 120) := []
  /-- Flits for which the partner's buffers have room, by 2 VN + dateline channel (14 R603; 10 R441). -/
  credits : List Nat := [8, 8, 8, 8, 8, 8, 34, 34, 4, 4]
  /-- Credits to return to the partner (14 R600, R603). -/
  owed : List Nat := [0, 0, 0, 0, 0, 0, 0, 0, 0, 0]
  /-- DTIME received in the last TIME and own DTIME at its receipt (14 R601,R616). -/
  timeRx : Option (Nat × Nat) := none
  /-- DTIME at which the running second of replays began (14 R637). -/
  replayAt : Nat := 0
  /-- Replays in it (14 R637). -/
  replays : Nat := 0
  /-- DTIME of the last DOWN requested after a failed check (14 R598). -/
  refusedAt : Option Nat := none
  deriving DecidableEq, Repr

/-- What a device answers to ENUM: part ID, CASCADE_ID, CASC_DIM, CASC_GROUP, life-cycle state, CASC_STATE and DTIME (14 R612 step 2). -/
structure EnumAns where
  part : Nat
  id : Nat
  dim : Nat
  group : Nat
  lc : Nat
  state : Nat
  dtime : Nat
  deriving DecidableEq, Repr

/-- Cascade links and membership (14). -/
structure Casc where
  /-- Links N, E, S, W (14 R598). -/
  ports : Tab CascPort := []
  /-- Cascade secret (14 R604). -/
  secret : BitVec 256 := 0#256
  /-- Positions whose ENUM of this round is unanswered (14 R612). -/
  polled : BitVec 16 := 0#16
  /-- Devices sent ASSIGN and not yet ADMIT (14 R612). -/
  assigned : BitVec 16 := 0#16
  /-- This device has its ASSIGN and aligns (14 R612,R616). -/
  aligning : Bool := false
  /-- Alignment before admission is done (14 R612,R616). -/
  aligned : Bool := false
  /-- Consecutive TIME periods with an offset above 20 ns (14 R617). -/
  off20 : Nat := 0
  /-- Steering of DTIME, ppm (14 R616). -/
  steer : Int := 0
  /-- DTIME at which the last link went down (14 R615). -/
  allDown : Option Nat := none
  /-- Source count of a cascade port that enumeration has set (unlisted: 1) (14 R611, 10 R446). -/
  srcCount : Tab Nat := []
  /-- TIME messages sent to children (14 R616). -/
  timesSent : Nat := 0
  /-- ENUM messages answered (14 R612). -/
  answered : Nat := 0
  /-- The last answer to ENUM (14 R612). -/
  answer : Option EnumAns := none
  /-- Members found MASTERLESS in this enumeration (14 R614). -/
  back : Option (BitVec 16) := none
  deriving DecidableEq, Repr

/-- Twin pair (14 R620 to R635). -/
structure Twin where
  /-- State of the partner as far as known, coded as TWIN_STATE (0 unknown) (14 R620). -/
  partner : Nat := 0
  /-- The twin link has passed its checks and is not lost (14 R598). -/
  linkOk : Bool := false
  /-- The windows of the two devices agree (14 R624). -/
  windowsOk : Bool := true
  /-- Consecutive heartbeat edges missed (14 R622). -/
  missed : Nat := 0
  /-- Three edges have been missed and none has arrived since (14 R628). -/
  hbLost : Bool := false
  /-- TAKEOVER sent, FENCE_ACK awaited (14 R628). -/
  sent : Bool := false
  /-- WITNESS_REQ raised by a device that is not ACTIVE (14 R629). -/
  request : Bool := false
  /-- Level of WITNESS_GNT (14 R629). -/
  gnt : Bool := false
  /-- Cause that the next entry to ACTIVE reports (14 R637). -/
  why : Nat := 0
  /-- TWIN_SOLO_WAIT has passed with no partner (14 R621). -/
  soloOver : Bool := false
  /-- Own mirror data are intact (14 R632). -/
  intact : Bool := false
  /-- The partner reported its mirror data intact in HELLO (14 R601,R632). -/
  peerIntact : Bool := false
  /-- Mirror sequence of the last record sent (14 R625). -/
  seq : Nat := 0
  /-- Highest mirror sequence acknowledged (14 R625). -/
  acked : Nat := 0
  /-- Records sent and not acknowledged, oldest first (14 R625). -/
  unacked : List MirrorRec := []
  /-- Highest mirror sequence applied in order (14 R625). -/
  applied : Nat := 0
  /-- Completions that wait for an acknowledgement (14 R625). -/
  waits : List HeldDone := []
  /-- Dirty granules as ranges of granule numbers (14 R627). -/
  dirty : List (Nat × Nat) := []
  /-- Granules copied in this catch-up (14 R632,R637). -/
  copied : Nat := 0
  /-- Granule being copied and the next line of it (14 R632). -/
  copyAt : Option (Nat × Nat) := none
  /-- Granules copied whose last record, of this mirror sequence, is not acknowledged (14 R632). -/
  copies : List (Nat × Nat) := []
  /-- FENCE_ACK messages sent (14 R628). -/
  fenceAcked : Nat := 0
  /-- DTIME of the last rising edge of HB_TX (14 R622). -/
  hbAt : Nat := 0
  deriving DecidableEq, Repr

/-- Bring-up of a cascade or twin port beyond its objects (13 R581 to R587). -/
structure Bringup where
  /-- Highest rate code offered since step 1 (13 R583,R593). -/
  offer : Nat := 6
  /-- Present rate code (13 R585). -/
  rate : Nat := 1
  /-- Consecutive valid CAPS frames by lane (13 R583). -/
  seen : Tab Nat := []
  /-- The partner's ACK has been received (13 R583). -/
  ack : Bool := false
  /-- Common rate codes above 0x01, rising (13 R585). -/
  common : List Nat := []
  /-- Rate named in NEXT: the lanes switch to it after the countdown (0 none) (13 R584). -/
  next : Nat := 0
  /-- COUNT of the frames that name NEXT: frames left until the switch (13 R584, R585). -/
  count : Nat := 0
  /-- The measurement of the EQ phase runs (13 R585). -/
  measuring : Bool := false
  /-- Failed measurements of this phase (13 R586). -/
  failed : Nat := 0
  /-- Own STATUS is pass (13 R584). -/
  passed : Bool := false
  /-- Consecutive frames in which the partner showed pass (13 R585). -/
  partner : Nat := 0
  /-- Rate code that failed twice: the port falls back (13 R586). -/
  fallback : Option Nat := none
  /-- Taps that passed last, by lane (13 R586). -/
  taps : Tab Nat := []
  /-- Event 0x2B04 logged in this bring-up (13 R595). -/
  held : Bool := false
  /-- DTIME of the last event 0x2B02 (13 R587). -/
  downAt : Option Nat := none
  deriving DecidableEq, Repr

/-- A serial lane beyond its objects (13). -/
structure Lane where
  /-- Requested state, coded as LANE_STATE (13 R574,R580). -/
  goal : Nat := 2
  /-- Transmit queue, oldest first (13 R576). -/
  txq : List (BitVec 256) := []
  /-- Word last transmitted (13 R578). -/
  last : BitVec 256 := 0#256
  /-- Word boundary, in bits from where the receiver first locked (13 R576). -/
  slip : Nat := 0
  /-- The PLL has lost lock or reference (13 R572). -/
  pllLost : Bool := false
  /-- PRBS_ERRORS as latched by the last read of PRBS_BITS (13 R589). -/
  latched : Option Nat := none
  /-- Bits of the injection not yet sent (13 R590). -/
  inject : Nat := 0
  /-- Bits inverted so far (13 R590). -/
  injected : Nat := 0
  /-- Levels on the line for the word last transmitted, first symbol first: 0 and 1 at NRZ rates, 0 to 3 at PAM4 rates (13 R568). -/
  line : List Nat := []
  /-- Precoded symbol last transmitted (13 R568). -/
  pre : Nat := 0
  /-- The generator's last 31 bits, the latest in bit 0 (13 R588). -/
  prbs : BitVec 31 := 0#31
  /-- Bits received of the word before last in near-end loopback, the word that stands at RX_DATA, and the last symbol received (13 R568, R576, R591). -/
  rxRaw : BitVec 256 := 0#256
  rx : BitVec 256 := 0#256
  rxPre : Nat := 0
  /-- Steps that the receiver's adaptation has taken: its settings are a free function of them (13 R569, R575). -/
  adapt : Nat := 0
  /-- Training frame last sent, and the last 31 bits of the PRBS31 sequence that fills the rest of its 4,096 bits, the latest in bit 0 (13 R582). -/
  frame : BitVec 128 := 0#128
  fill : BitVec 31 := 0#31
  /-- The 34 symbols of the codeword last sent that this lane carried, the first in bits [9:0] (14 R599). -/
  code : BitVec 340 := 0#340
  deriving DecidableEq, Repr

/-- Serial lanes and the bring-up of cascade ports (13). -/
structure Lanes where
  /-- Lanes (13 R564). -/
  lane : Tab Lane := []
  /-- Bring-up of ports N, E, S, W (13 R581). -/
  port : Tab Bringup := []
  deriving DecidableEq, Repr

/-- Goith port, tokens, test access port (17). -/
structure Debug where
  /-- Line state of the port (17 R709,R710). -/
  line : GLine := .dead
  /-- Event 0x2E05 logged since the last line reset (17 R709). -/
  hdrLogged : Bool := false
  /-- Acknowledge of the last transaction (17 R708). -/
  ack : GAck := .none
  /-- Data of the last read (17 R707). -/
  rdata : BitVec 32 := 0#32
  /-- WDPARITY (17 R713 (PORT_STATE bit 2)). -/
  wdParity : Bool := false
  /-- ACCESSERR (17 R713 (PORT_STATE bit 1)). -/
  accessErr : Bool := false
  /-- DENIED (17 R713 (PORT_STATE bit 0)). -/
  denied : Bool := false
  /-- Response code of the last access that did not end OK (17 R713 (LAST_RESP)). -/
  lastResp : BitVec 4 := 0#4
  /-- A debugger is attached (17 R713,R723 (ATTACHED; 0x2E00:06)). -/
  attached : Bool := false
  /-- AUTOINC, ENGINE, OFFSET (17 R714 (ENG_SEL)). -/
  engSel : BitVec 32 := 0#32
  /-- Probe channel and object (17 R712 (PRB_SEL)). -/
  prbSel : BitVec 32 := 0#32
  /-- Address bits [31:0] (17 R717 (MEM_ADDR_LO)). -/
  memLo : BitVec 32 := 0#32
  /-- AS_TENANT, TENANT, ADDR_HI (17 R717 (MEM_ADDR_HI)). -/
  memHi : BitVec 32 := 0#32
  /-- Line buffer (17 R717 (MEM_BUF)). -/
  memBuf : Tab (BitVec 32) := []
  /-- Buffer word index (17 R717 (MEM_PTR)). -/
  memPtr : BitVec 4 := 0#4
  /-- Word enables (17 R717 (MEM_MASK)). -/
  memMask : BitVec 16 := 0#16
  /-- Response of the last completed operation (17 R717 (MEM_RESP)). -/
  memResp : BitVec 4 := 0#4
  /-- Transaction ID of the last memory operation issued (10 R435; 17 R718). -/
  memTxn : BitVec 16 := 0#16
  /-- Memory operation in flight (17 R717,R718). -/
  memOp : Option GMemOp := none
  /-- Index and subindex (17 R719 (TUN_OBJ)). -/
  tunObj : BitVec 32 := 0#32
  /-- Byte offset within the value (17 R719 (TUN_OFFSET)). -/
  tunOffset : BitVec 32 := 0#32
  /-- LAST and length (17 R719 (TUN_LEN)). -/
  tunLen : BitVec 32 := 0#32
  /-- Tunnel buffer (17 R719 (TUN_DATA)). -/
  tunBuf : Tab (BitVec 8) := []
  /-- Buffer pointer (17 R719). -/
  tunPtr : BitVec 12 := 0#12
  /-- Abort code of the last command (17 R719 (TUN_ABORT)). -/
  tunAbort : BitVec 32 := 0#32
  /-- Present length of the whole value (17 R719 (TUN_TOTAL)). -/
  tunTotal : BitVec 32 := 0#32
  /-- Role of the tunnel is OWNER (17 R719,R727 (TUN_ROLE)). -/
  tunOwner : Bool := false
  /-- Command in flight: write (true) or read (17 R719). -/
  tunOp : Option Bool := none
  /-- Frame being read back (17 R720). -/
  rbWait : Option Nat := none
  /-- RB_FRAME as written (17 R720; 00 R10). -/
  rbAddr : BitVec 32 := 0#32
  /-- Frame held in the buffer (17 R720 (RB_STATUS)). -/
  rbFrame : Option Nat := none
  /-- Word index (17 R720 (RB_INDEX)). -/
  rbIndex : BitVec 10 := 0#10
  /-- Frame buffer (17 R720 (RB_DATA)). -/
  rbBuf : Nat := 0
  /-- Accepted token: scope, key index, expiry (17 R728,R729 (0x2E00:01, 05)). -/
  token : Option Token := none
  /-- Token being verified (17 R728). -/
  verifying : Option (BitVec 1664) := none
  /-- Last DBG_CHALLENGE read (17 R728 (0x2E00:02)). -/
  challenge : BitVec 384 := 0#384
  /-- Instruction of the test access port (17 R731,R732). -/
  tap : TapInstr := .idcode
  deriving DecidableEq, Repr

/-- The whole state. -/
structure State where
  /-- Commands that wait, first in first out (the model's own). -/
  pending : List Instr := []
  /-- Counter that supplies free values (log entry 2) (the model's own). -/
  freeCtr : Nat := 0
  /-- Object values that differ from their defaults, key index * 256 + subindex (15 R641 to R643 and the object tables). -/
  obj : Tab Nat := []
  /-- Answer of the last object access or message (15 R653,R658). -/
  ans : Answer := {}
  /-- Supplies. -/
  pwr : Power := {}
  /-- VBAT domain. -/
  vbat : Vbat := {}
  /-- Clocks. -/
  clk : Clocks := {}
  /-- Resets and boot. -/
  rst : ResetUnit := {}
  /-- Fuses. -/
  fuse : Fuses := {}
  /-- Configuration engine. -/
  ld : LoadUnit := {}
  /-- Fabric. -/
  fab : Fabric := {}
  /-- Embedded memories. -/
  mem : Memories := {}
  /-- Tenants. -/
  ten : Tenants := {}
  /-- Firmware. -/
  fw : Firmware := {}
  /-- Vent network. -/
  vent : Vent := {}
  /-- Hub. -/
  hub : Hub := {}
  /-- Geyser engines that differ from their reset condition. -/
  eng : Tab Engine := []
  /-- Serial lanes. -/
  lanes : Lanes := {}
  /-- Cascade. -/
  casc : Casc := {}
  /-- Twin pair. -/
  twin : Twin := {}
  /-- Device memory. -/
  ddr : Ddr := {}
  /-- Debug. -/
  dbg : Debug := {}
  /-- Pins and system monitor. -/
  mio : Mio := {}
  deriving DecidableEq, Repr

/-- Why a command stops the machine. -/
inductive Fault where
  /-- A command that no sender can send. No meaning raises it: every command of the table has an effect on every operand its type allows, and the
  block has no fault of its own. Safe. -/
  | illFormed
  deriving DecidableEq, Repr

/-- Why a command has no meaning. -/
inductive Refusal where
  /-- The command has no meaning in the model yet; raised by the dispatch alone. Safe. -/
  | notModelled (mnemonic : String)
  deriving DecidableEq, Repr

/-- The device right after reset: VCCAUX has come into range, POR_N is low and the cold reset with cause 0x0001
runs; the queue is empty. -/
def State.reset : State := {}

/-- The outcome of a command. -/
abbrev Res := Host.Outcome State Fault Refusal

end Sys2Proof.Machine
end

