-- ==== Sys2Proof/Machine/ObjDict.lean ====
section
/-! DEFINITION. The object dictionary: the object tables of every chapter as data (index and
subindex range, length, access, privilege, default, permitted values), and one name per object. Rows are
written from the object tables of spec/ (02 R102, 03 R155, 04 R191, 05 R254, 06 R295, 07 R331, 08 R384,
10 R465, 11 R517, 12 R562, 13 R593, 14 R636, 15 R679, 16 R701, 17 R733). -/
namespace Sys2Proof.Machine

/-- Access of an object (15 R643). -/
inductive Acc where | const | ro | wo | rw deriving DecidableEq, Repr
/-- Privilege of an object (15 R645). -/
inductive Priv where | owner | tenant | debug deriving DecidableEq, Repr
/-- Which values a write may carry: a value outside is reserved (15 R646, code 0x0609_0030). -/
inductive ValChk where
  | any | bool | range (lo hi : Nat) | oneOf (l : List Nat) | rangeOr (lo hi x : Nat) | bits (m : Nat)
  deriving DecidableEq, Repr
/-- One row of the dictionary: index range, subindex range, least and greatest length in bytes, access,
privilege, default value (little-endian as a number), permitted values. -/
structure ObjRow where
  i0 : Nat
  i1 : Nat
  s0 : Nat
  s1 : Nat
  lenLo : Nat
  lenHi : Nat
  acc : Acc
  priv : Priv
  dflt : Nat
  chk : ValChk
  deriving DecidableEq, Repr

/-- Is `v` permitted? -/
def ValChk.ok (c : ValChk) (v : Nat) : Bool :=
  match c with
  | .any => true
  | .bool => v < 2
  | .range lo hi => lo ≤ v && v ≤ hi
  | .oneOf l => l.contains v
  | .rangeOr lo hi x => (lo ≤ v && v ≤ hi) || v == x
  | .bits m => v ||| m == m

/-- The objects of 02 R102. -/
def dictR102 : List ObjRow := [
  ⟨0x2100, 0x2100, 0x1, 0x1, 4, 4, .ro, .tenant, 0x0, .any⟩,
  ⟨0x2100, 0x2100, 0x2, 0x2, 4, 4, .rw, .owner, 0x0, .range 0 0⟩,
  ⟨0x2101, 0x2101, 0x1, 0x8, 4, 4, .ro, .tenant, 0x0, .any⟩,
  ⟨0x2102, 0x2102, 0x1, 0x7, 4, 4, .ro, .owner, 0x0, .any⟩,
  ⟨0x2103, 0x2103, 0x1, 0x1, 4, 4, .rw, .owner, 0xB71B0, .range 100000 750000⟩,
  ⟨0x2103, 0x2103, 0x2, 0x2, 1, 1, .rw, .owner, 0x1, .range 0 1⟩,
  ⟨0x2103, 0x2103, 0x3, 0x3, 1, 1, .ro, .tenant, 0x0, .any⟩,
  ⟨0x2104, 0x2104, 0x1, 0x1, 4, 4, .ro, .owner, 0x0, .any⟩,
  ⟨0x2105, 0x2105, 0x1, 0x1, 4, 4, .const, .tenant, 0x20F58, .any⟩,
  ⟨0x2106, 0x2106, 0x1, 0x1, 1, 1, .ro, .owner, 0x0, .any⟩,
  ⟨0x2106, 0x2106, 0x2, 0x2, 2, 2, .ro, .owner, 0x0, .any⟩,
  ⟨0x2106, 0x2106, 0x3, 0x3, 1, 1, .wo, .owner, 0x0, .oneOf [1]⟩,
  ⟨0x2107, 0x2107, 0x1, 0x1, 2, 2, .ro, .tenant, 0x0, .any⟩]
/-- The objects of 03 R155. -/
def dictR155 : List ObjRow := [
  ⟨0x2200, 0x2200, 0x1, 0x1, 1, 1, .ro, .tenant, 0x0, .any⟩,
  ⟨0x2200, 0x2200, 0x2, 0x2, 1, 1, .rw, .owner, 0x0, .any⟩,
  ⟨0x2200, 0x2200, 0x3, 0x3, 2, 2, .ro, .owner, 0x0, .any⟩,
  ⟨0x2200, 0x2200, 0x4, 0x4, 1, 1, .wo, .owner, 0x0, .oneOf [1]⟩,
  ⟨0x2201, 0x2201, 0x1, 0x1, 2, 2, .ro, .owner, 0x0, .any⟩,
  ⟨0x2201, 0x2201, 0x2, 0x2, 1, 1, .ro, .owner, 0x0, .any⟩,
  ⟨0x2201, 0x2201, 0x3, 0x3, 1, 1, .rw, .owner, 0x0, .bool⟩,
  ⟨0x2202, 0x2202, 0x1, 0x1, 4, 4, .ro, .owner, 0x0, .any⟩,
  ⟨0x2210, 0x2210, 0x1, 0x26, 1, 1, .rw, .owner, 0x0, .bool⟩,
  ⟨0x2211, 0x2211, 0x1, 0x26, 1, 1, .ro, .owner, 0x0, .bool⟩,
  ⟨0x2220, 0x223F, 0x1, 0x1, 4, 4, .rw, .owner, 0x186A0, .range 10000 1000000⟩,
  ⟨0x2220, 0x223F, 0x2, 0x2, 1, 1, .rw, .owner, 0x0, .range 0 1⟩,
  ⟨0x2220, 0x223F, 0x3, 0x3, 1, 1, .wo, .owner, 0x0, .oneOf [1]⟩,
  ⟨0x2220, 0x223F, 0x4, 0x4, 1, 1, .ro, .owner, 0x0, .any⟩,
  ⟨0x2220, 0x223F, 0x5, 0x5, 4, 4, .ro, .owner, 0x0, .any⟩]
/-- The objects of 04 R191. -/
def dictR191 : List ObjRow := [
  ⟨0x2180, 0x2180, 0x1, 0x1, 1, 1, .ro, .tenant, 0x0, .any⟩,
  ⟨0x2181, 0x2181, 0x1, 0x8, 1, 1, .ro, .tenant, 0x0, .any⟩,
  ⟨0x2182, 0x2182, 0x1, 0x8, 1, 1, .wo, .owner, 0x0, .range 1 2⟩,
  ⟨0x2183, 0x2183, 0x1, 0x1, 1, 1, .wo, .owner, 0x0, .oneOf [1]⟩,
  ⟨0x2183, 0x2183, 0x2, 0x2, 1, 1, .rw, .owner, 0x2, .bits 0x7⟩,
  ⟨0x2183, 0x2183, 0x3, 0x3, 4, 4, .rw, .owner, 0x0, .any⟩,
  ⟨0x2183, 0x2183, 0x4, 0x4, 1, 1, .ro, .tenant, 0x0, .any⟩,
  ⟨0x2183, 0x2183, 0x5, 0x5, 8, 8, .ro, .owner, 0x0, .any⟩,
  ⟨0x2400, 0x2400, 0x1, 0x1, 2, 2, .ro, .tenant, 0x0, .any⟩,
  ⟨0x2400, 0x2400, 0x2, 0x2, 4, 4, .ro, .owner, 0x0, .any⟩,
  ⟨0x2400, 0x2400, 0x3, 0x3, 1, 1, .wo, .owner, 0x0, .range 1 2⟩,
  ⟨0x2400, 0x2400, 0x4, 0x4, 1, 1, .rw, .owner, 0x0, .bool⟩,
  ⟨0x2400, 0x2400, 0x5, 0x5, 1, 1, .rw, .owner, 0x0, .bool⟩,
  ⟨0x2401, 0x2401, 0x1, 0x1, 1, 1, .ro, .tenant, 0x0, .any⟩,
  ⟨0x2401, 0x2401, 0x2, 0x2, 100, 100, .wo, .owner, 0x0, .any⟩,
  ⟨0x2401, 0x2401, 0x3, 0x3, 48, 48, .ro, .owner, 0x0, .any⟩,
  ⟨0x2401, 0x2401, 0x4, 0x4, 1, 1, .ro, .owner, 0x0, .any⟩,
  ⟨0x2402, 0x2402, 0x1, 0x1, 4, 4, .ro, .owner, 0x0, .any⟩,
  ⟨0x2402, 0x2402, 0x2, 0x2, 1, 1, .ro, .owner, 0x0, .any⟩]
/-- The objects of 05 R254. -/
def dictR254 : List ObjRow := [
  ⟨0x2300, 0x2300, 0x1, 0x1, 1, 1, .ro, .tenant, 0xFF, .any⟩,
  ⟨0x2300, 0x2300, 0x2, 0x2, 1, 1, .rw, .owner, 0xFF, .oneOf [0, 1, 2, 3, 255]⟩,
  ⟨0x2300, 0x2300, 0x3, 0x3, 1, 1, .ro, .owner, 0x0, .any⟩,
  ⟨0x2300, 0x2300, 0x4, 0x4, 4, 4, .ro, .owner, 0x0, .any⟩,
  ⟨0x2301, 0x2301, 0x1, 0x1, 8, 8, .ro, .tenant, 0x0, .any⟩,
  ⟨0x2301, 0x2301, 0x2, 0x2, 1, 1, .ro, .owner, 0xFF, .any⟩,
  ⟨0x2301, 0x2301, 0x3, 0x3, 1, 1, .ro, .owner, 0xFF, .any⟩,
  ⟨0x2302, 0x2302, 0x1, 0x4, 1, 1, .ro, .owner, 0x0, .any⟩,
  ⟨0x2303, 0x2303, 0x1, 0x1, 2, 2, .rw, .owner, 0x0, .any⟩,
  ⟨0x2310, 0x2310, 0x1, 0x1, 16, 16, .wo, .tenant, 0x0, .any⟩,
  ⟨0x2310, 0x2310, 0x2, 0x2, 1, 1, .ro, .tenant, 0x0, .any⟩,
  ⟨0x2310, 0x2310, 0x3, 0x3, 4, 4, .ro, .tenant, 0x0, .any⟩,
  ⟨0x2320, 0x2320, 0x1, 0x1, 1, 1, .ro, .owner, 0x0, .any⟩,
  ⟨0x2320, 0x2320, 0x2, 0x2, 36, 52, .wo, .owner, 0x0, .any⟩,
  ⟨0x2320, 0x2320, 0x3, 0x3, 1, 1, .wo, .owner, 0x0, .range 0 3⟩,
  ⟨0x2320, 0x2320, 0x4, 0x4, 32, 32, .wo, .owner, 0x0, .any⟩,
  ⟨0x2320, 0x2320, 0x5, 0x5, 1, 1, .ro, .owner, 0x0, .bool⟩,
  ⟨0x2340, 0x2340, 0x1, 0x1, 1, 1, .rw, .owner, 0x0, .range 0 3⟩,
  ⟨0x2340, 0x2340, 0x2, 0x2, 8, 8, .rw, .owner, 0x0, .any⟩,
  ⟨0x2340, 0x2340, 0x3, 0x3, 4, 4, .rw, .owner, 0x0, .any⟩,
  ⟨0x2340, 0x2340, 0x4, 0x4, 1, 1, .wo, .owner, 0x0, .oneOf [1]⟩,
  ⟨0x2340, 0x2340, 0x5, 0x5, 1, 1, .ro, .owner, 0x0, .any⟩]
/-- The objects of 06 R295. -/
def dictR295 : List ObjRow := [
  ⟨0x2500, 0x2500, 0x1, 0x1, 1, 1, .const, .tenant, 0x1, .any⟩,
  ⟨0x2501, 0x2501, 0x1, 0x80, 1, 1, .ro, .tenant, 0x0, .any⟩,
  ⟨0x2502, 0x2502, 0x1, 0x80, 1, 1, .ro, .tenant, 0x0, .any⟩,
  ⟨0x2503, 0x2503, 0x1, 0x1, 1, 1, .wo, .owner, 0x0, .range 1 255⟩,
  ⟨0x2503, 0x2503, 0x2, 0x2, 1, 1, .ro, .tenant, 0x0, .any⟩,
  ⟨0x2504, 0x2504, 0x1, 0x1, 1, 1, .rw, .owner, 0x1, .bool⟩,
  ⟨0x2504, 0x2504, 0x2, 0x2, 4, 4, .ro, .owner, 0x0, .any⟩,
  ⟨0x2504, 0x2504, 0x3, 0x3, 4, 4, .ro, .owner, 0x0, .any⟩,
  ⟨0x2504, 0x2504, 0x4, 0x4, 4, 4, .ro, .owner, 0x0, .any⟩,
  ⟨0x2510, 0x2510, 0x1, 0x40, 2, 2, .rw, .debug, 0x0, .bits 0x8FFF⟩,
  ⟨0x2511, 0x2511, 0x1, 0x40, 2, 2, .rw, .debug, 0x0, .bits 0xC3FF⟩,
  ⟨0x2512, 0x2512, 0x1, 0x1, 1, 1, .rw, .debug, 0x0, .range 0 23⟩,
  ⟨0x2512, 0x2512, 0x2, 0x2, 1, 1, .wo, .debug, 0x0, .range 1 2⟩,
  ⟨0x2512, 0x2512, 0x3, 0x3, 1, 1, .ro, .debug, 0x0, .any⟩,
  ⟨0x2512, 0x2512, 0x4, 0x4, 8, 8, .rw, .debug, 0x0, .any⟩,
  ⟨0x2512, 0x2512, 0x5, 0x5, 8, 8, .rw, .debug, 0x0, .any⟩,
  ⟨0x2512, 0x2512, 0x6, 0x6, 2, 2, .rw, .debug, 0x800, .range 0 4095⟩,
  ⟨0x2512, 0x2512, 0x7, 0x7, 2, 2, .ro, .debug, 0xFFFF, .any⟩,
  ⟨0x2513, 0x2513, 0x1, 0x1, 32768, 32768, .ro, .debug, 0x0, .any⟩]
/-- The objects of 07 R331. -/
def dictR331 : List ObjRow := [
  ⟨0x2600, 0x2600, 0x1, 0x80, 4, 4, .ro, .tenant, 0x0, .any⟩,
  ⟨0x2601, 0x2601, 0x1, 0x80, 4, 4, .ro, .tenant, 0x0, .any⟩,
  ⟨0x2602, 0x2602, 0x1, 0x1, 1, 1, .wo, .owner, 0x0, .rangeOr 1 128 255⟩,
  ⟨0x2603, 0x2603, 0x1, 0x8, 2, 2, .ro, .owner, 0x0, .any⟩,
  ⟨0x2604, 0x2604, 0x1, 0x80, 4, 4, .ro, .tenant, 0x0, .any⟩,
  ⟨0x2610, 0x2617, 0x1, 0x80, 2, 2, .ro, .tenant, 0x0, .any⟩,
  ⟨0x2618, 0x261F, 0x1, 0x80, 2, 2, .ro, .tenant, 0x0, .any⟩,
  ⟨0x2620, 0x2620, 0x1, 0x1, 2, 2, .wo, .owner, 0x0, .rangeOr 0 1023 65535⟩,
  ⟨0x2630, 0x2637, 0x1, 0x80, 1, 1, .rw, .owner, 0x0, .bool⟩]
/-- The objects of 08 R384. -/
def dictR384 : List ObjRow := [
  ⟨0x2700, 0x2705, 0x1, 0x80, 1, 1, .ro, .tenant, 0x1, .any⟩,
  ⟨0x2708, 0x270D, 0x1, 0x80, 1, 1, .wo, .tenant, 0x0, .range 1 6⟩,
  ⟨0x2710, 0x2715, 0x1, 0x80, 1, 1, .ro, .tenant, 0x0, .any⟩,
  ⟨0x2718, 0x271D, 0x1, 0x80, 4, 4, .ro, .tenant, 0x0, .any⟩,
  ⟨0x2720, 0x2720, 0x1, 0x1, 4, 4, .const, .tenant, 0x1, .any⟩]
/-- The objects of 10 R465. -/
def dictR465 : List ObjRow := [
  ⟨0x2800, 0x2800, 0x1, 0x1, 4, 4, .rw, .owner, 0x2710, .range 10 1000000⟩,
  ⟨0x2800, 0x2800, 0x2, 0x2, 4, 4, .ro, .owner, 0x10000, .any⟩,
  ⟨0x2800, 0x2800, 0x3, 0x3, 4, 4, .ro, .owner, 0x0, .any⟩,
  ⟨0x2800, 0x2800, 0x4, 0x4, 4, 4, .ro, .owner, 0x0, .any⟩,
  ⟨0x2801, 0x2801, 0x1, 0x10, 2, 2, .rw, .owner, 0x0, .range 0 1920⟩,
  ⟨0x2802, 0x2802, 0x1, 0x10, 2, 2, .rw, .owner, 0xFFFF, .range 17 65535⟩,
  ⟨0x2803, 0x2803, 0x1, 0x10, 2, 2, .rw, .owner, 0x0, .any⟩,
  ⟨0x2810, 0x2810, 0x1, 0x80, 16, 16, .rw, .owner, 0x0, .any⟩,
  ⟨0x2811, 0x2811, 0x1, 0x80, 16, 16, .rw, .owner, 0x0, .any⟩,
  ⟨0x2812, 0x2812, 0x1, 0x1, 2, 2, .wo, .owner, 0x0, .rangeOr 0 255 65535⟩,
  ⟨0x2812, 0x2812, 0x2, 0x2, 32, 32, .ro, .owner, 0x0, .any⟩,
  ⟨0x2820, 0x2820, 0x1, 0x1, 4, 4, .wo, .tenant, 0x0, .any⟩,
  ⟨0x2820, 0x2820, 0x2, 0x2, 2, 2, .ro, .tenant, 0x3B00, .any⟩,
  ⟨0x2830, 0x2830, 0x1, 0x10, 8, 8, .ro, .tenant, 0x0, .any⟩]
/-- The objects of 11 R517. -/
def dictR517 : List ObjRow := [
  ⟨0x2900, 0x2900, 0x1, 0x1, 4, 4, .rw, .owner, 0x3E8, .range 10 100000⟩,
  ⟨0x2900, 0x2900, 0x2, 0x2, 4, 4, .ro, .owner, 0x0, .any⟩,
  ⟨0x2900, 0x2900, 0x3, 0x3, 4, 4, .ro, .owner, 0x0, .any⟩,
  ⟨0x2900, 0x2900, 0x4, 0x4, 2, 2, .rw, .owner, 0x0, .any⟩,
  ⟨0x2900, 0x2900, 0x5, 0x5, 4, 4, .ro, .owner, 0x0, .any⟩,
  ⟨0x2901, 0x2901, 0x1, 0x4, 1, 1, .rw, .owner, 0x0, .range 0 4⟩,
  ⟨0x2902, 0x2902, 0x1, 0x4, 1, 1, .rw, .owner, 0x6, .range 1 6⟩,
  ⟨0x2903, 0x2903, 0x1, 0x4, 1, 1, .rw, .owner, 0x10, .oneOf [4, 8, 16]⟩,
  ⟨0x2904, 0x2904, 0x1, 0x4, 1, 1, .rw, .owner, 0x0, .range 0 15⟩,
  ⟨0x2905, 0x2905, 0x1, 0x4, 8, 8, .rw, .owner, 0x0, .any⟩,
  ⟨0x2906, 0x2906, 0x1, 0x4, 4, 4, .ro, .tenant, 0x0, .any⟩,
  ⟨0x2907, 0x2907, 0x1, 0x4, 4, 4, .ro, .owner, 0x0, .any⟩,
  ⟨0x2908, 0x2908, 0x1, 0x4, 1, 1, .rw, .owner, 0x20, .range 20 43⟩,
  ⟨0x2910, 0x2910, 0x1, 0x80, 1, 1, .rw, .owner, 0x0, .range 0 15⟩,
  ⟨0x2911, 0x2916, 0x1, 0x80, 1, 1, .rw, .owner, 0x0, .range 0 15⟩,
  ⟨0x2917, 0x2918, 0x1, 0x80, 1, 1, .rw, .owner, 0x0, .range 0 15⟩,
  ⟨0x2920, 0x2920, 0x1, 0x1, 1, 1, .wo, .tenant, 0x0, .range 0 15⟩,
  ⟨0x2920, 0x2920, 0x2, 0x2, 2, 2, .ro, .tenant, 0x0, .any⟩,
  ⟨0x2921, 0x2921, 0x1, 0x10, 4, 4, .ro, .tenant, 0x0, .any⟩,
  ⟨0x2922, 0x2922, 0x1, 0x10, 4, 4, .rw, .owner, 0x0, .bits 0x1F⟩,
  ⟨0x2923, 0x2923, 0x1, 0x10, 4, 4, .wo, .owner, 0x0, .bits 0x1F⟩,
  ⟨0x2924, 0x2924, 0x1, 0x10, 4, 4, .ro, .tenant, 0x0, .any⟩,
  ⟨0x2930, 0x2930, 0x1, 0x40, 16, 16, .rw, .owner, 0x0, .any⟩,
  ⟨0x2931, 0x2931, 0x1, 0x40, 16, 16, .rw, .owner, 0x0, .any⟩,
  ⟨0x2932, 0x2932, 0x1, 0x2, 1, 1, .wo, .owner, 0x0, .range 1 3⟩,
  ⟨0x2933, 0x2933, 0x1, 0x2, 1, 1, .ro, .owner, 0x0, .any⟩,
  ⟨0x2934, 0x2934, 0x1, 0x2, 2, 2, .rw, .owner, 0x3C0, .range 1 960⟩,
  ⟨0x2935, 0x2935, 0x1, 0x2, 2, 2, .rw, .owner, 0x100, .range 17 4096⟩,
  ⟨0x2936, 0x2936, 0x1, 0x2, 2, 2, .rw, .owner, 0x10, .any⟩,
  ⟨0x2937, 0x2937, 0x1, 0x2, 4, 4, .ro, .owner, 0x0, .any⟩,
  ⟨0x2938, 0x2938, 0x1, 0x2, 1, 1, .rw, .owner, 0x7, .bits 0x7⟩,
  ⟨0x2939, 0x2939, 0x1, 0x2, 4, 4, .ro, .owner, 0x0, .any⟩]
/-- The objects of 12 R562. -/
def dictR562 : List ObjRow := [
  ⟨0x2A00, 0x2A00, 0x1, 0x10, 4, 4, .ro, .tenant, 0x0, .any⟩,
  ⟨0x2A01, 0x2A01, 0x1, 0x10, 1, 1, .ro, .tenant, 0x0, .any⟩,
  ⟨0x2A02, 0x2A02, 0x1, 0x10, 1, 1, .ro, .tenant, 0x0, .any⟩,
  ⟨0x2A03, 0x2A03, 0x1, 0x10, 8, 8, .ro, .tenant, 0x0, .any⟩,
  ⟨0x2A04, 0x2A04, 0x1, 0x10, 1, 1, .rw, .owner, 0xFF, .any⟩,
  ⟨0x2A05, 0x2A05, 0x1, 0x1, 2, 2, .rw, .owner, 0x0, .any⟩,
  ⟨0x2A05, 0x2A05, 0x2, 0x2, 1, 1, .rw, .owner, 0x1, .bool⟩,
  ⟨0x2A05, 0x2A05, 0x3, 0x3, 1, 1, .rw, .owner, 0x0, .bool⟩,
  ⟨0x2A05, 0x2A05, 0x4, 0x4, 2, 2, .ro, .owner, 0x0, .any⟩,
  ⟨0x2A06, 0x2A06, 0x1, 0x10, 1, 1, .rw, .owner, 0x0, .range 0 1⟩,
  ⟨0x2A07, 0x2A07, 0x1, 0x1, 2, 2, .rw, .owner, 0xC8, .range 16 10000⟩,
  ⟨0x2A08, 0x2A08, 0x1, 0x1, 2, 2, .rw, .owner, 0x28, .range 8 400⟩,
  ⟨0x2A08, 0x2A08, 0x2, 0x2, 1, 1, .rw, .owner, 0x18, .range 0 240⟩,
  ⟨0x2A10, 0x2A10, 0x1, 0x10, 4, 4, .ro, .tenant, 0x0, .any⟩,
  ⟨0x2A11, 0x2A11, 0x1, 0x10, 4, 4, .ro, .tenant, 0x0, .any⟩,
  ⟨0x2A12, 0x2A12, 0x1, 0x10, 4, 4, .ro, .tenant, 0x0, .any⟩,
  ⟨0x2A13, 0x2A13, 0x1, 0x10, 8, 8, .ro, .owner, 0x0, .any⟩,
  ⟨0x2A14, 0x2A14, 0x1, 0x1, 1, 1, .wo, .owner, 0x0, .rangeOr 1 16 255⟩,
  ⟨0x2A20, 0x2A20, 0x1, 0x10, 0, 8192, .ro, .owner, 0x0, .any⟩,
  ⟨0x2A21, 0x2A21, 0x1, 0x10, 4, 4, .ro, .owner, 0x0, .any⟩,
  ⟨0x2A22, 0x2A22, 0x1, 0x10, 4, 4, .ro, .owner, 0x0, .any⟩,
  ⟨0x2A23, 0x2A23, 0x1, 0x10, 8, 8, .ro, .owner, 0x0, .any⟩,
  ⟨0x2A24, 0x2A24, 0x1, 0x1, 2, 2, .ro, .owner, 0x0, .any⟩,
  ⟨0x2A25, 0x2A25, 0x1, 0x10, 4, 4, .ro, .owner, 0x0, .any⟩]
/-- The objects of 13 R593. -/
def dictR593 : List ObjRow := [
  ⟨0x2B00, 0x2B00, 0x1, 0x20, 1, 1, .rw, .owner, 0x0, .range 0 1⟩,
  ⟨0x2B01, 0x2B01, 0x1, 0x2, 1, 1, .rw, .owner, 0x0, .range 0 2⟩,
  ⟨0x2B10, 0x2B10, 0x1, 0x80, 1, 1, .ro, .tenant, 0x2, .any⟩,
  ⟨0x2B11, 0x2B11, 0x1, 0x80, 1, 1, .wo, .owner, 0x0, .range 0 2⟩,
  ⟨0x2B12, 0x2B12, 0x1, 0x80, 1, 1, .rw, .owner, 0x1, .any⟩,
  ⟨0x2B13, 0x2B13, 0x1, 0x80, 1, 1, .rw, .owner, 0x0, .range 0 3⟩,
  ⟨0x2B14, 0x2B14, 0x1, 0x80, 4, 4, .rw, .owner, 0x24F, .any⟩,
  ⟨0x2B15, 0x2B15, 0x1, 0x80, 2, 2, .rw, .owner, 0x0, .any⟩,
  ⟨0x2B16, 0x2B16, 0x1, 0x80, 2, 2, .rw, .tenant, 0x0, .bits 0x1FE⟩,
  ⟨0x2B20, 0x2B20, 0x1, 0x80, 2, 2, .rw, .owner, 0x0, .any⟩,
  ⟨0x2B21, 0x2B21, 0x1, 0x80, 8, 8, .ro, .owner, 0x0, .any⟩,
  ⟨0x2B22, 0x2B22, 0x1, 0x80, 8, 8, .ro, .owner, 0x0, .any⟩,
  ⟨0x2B23, 0x2B23, 0x1, 0x80, 1, 1, .wo, .owner, 0x0, .range 1 64⟩,
  ⟨0x2B24, 0x2B24, 0x1, 0x1, 1, 1, .wo, .owner, 0x0, .rangeOr 1 128 255⟩,
  ⟨0x2B30, 0x2B30, 0x1, 0x4, 1, 1, .rw, .owner, 0x1, .bool⟩,
  ⟨0x2B31, 0x2B31, 0x1, 0x4, 1, 1, .rw, .owner, 0x6, .range 1 6⟩,
  ⟨0x2B32, 0x2B32, 0x1, 0x4, 1, 1, .ro, .tenant, 0x0, .any⟩,
  ⟨0x2B33, 0x2B33, 0x1, 0x4, 8, 8, .ro, .owner, 0x0, .any⟩,
  ⟨0x2B34, 0x2B34, 0x1, 0x4, 1, 1, .ro, .owner, 0x0, .any⟩,
  ⟨0x2B35, 0x2B35, 0x1, 0x4, 4, 4, .ro, .owner, 0x0, .any⟩]
/-- The objects of 14 R636. -/
def dictR636 : List ObjRow := [
  ⟨0x2C00, 0x2C00, 0x1, 0x1, 1, 1, .ro, .tenant, 0x0, .any⟩,
  ⟨0x2C00, 0x2C00, 0x2, 0x2, 1, 1, .rw, .owner, 0x44, .any⟩,
  ⟨0x2C00, 0x2C00, 0x3, 0x3, 8, 8, .rw, .owner, 0x0, .any⟩,
  ⟨0x2C00, 0x2C00, 0x4, 0x4, 2, 2, .ro, .tenant, 0x0, .any⟩,
  ⟨0x2C00, 0x2C00, 0x5, 0x5, 32, 32, .wo, .owner, 0x0, .any⟩,
  ⟨0x2C00, 0x2C00, 0x6, 0x6, 4, 4, .ro, .owner, 0x0, .any⟩,
  ⟨0x2C01, 0x2C01, 0x1, 0x4, 1, 1, .ro, .tenant, 0x0, .any⟩,
  ⟨0x2C02, 0x2C02, 0x1, 0x4, 4, 4, .ro, .owner, 0x0, .any⟩,
  ⟨0x2C03, 0x2C03, 0x1, 0x4, 4, 4, .ro, .owner, 0x0, .any⟩,
  ⟨0x2C04, 0x2C04, 0x1, 0x4, 2, 2, .ro, .owner, 0x0, .any⟩,
  ⟨0x2C10, 0x2C10, 0x1, 0x1, 1, 1, .ro, .tenant, 0x0, .any⟩,
  ⟨0x2C10, 0x2C10, 0x2, 0x2, 1, 1, .wo, .owner, 0x0, .oneOf [1]⟩,
  ⟨0x2C10, 0x2C10, 0x3, 0x3, 1, 1, .wo, .owner, 0x0, .oneOf [1]⟩,
  ⟨0x2C10, 0x2C10, 0x4, 0x4, 4, 4, .rw, .owner, 0x1388, .range 100 600000⟩,
  ⟨0x2C10, 0x2C10, 0x5, 0x5, 1, 1, .rw, .owner, 0x0, .bool⟩,
  ⟨0x2C10, 0x2C10, 0x6, 0x6, 4, 4, .ro, .owner, 0x0, .any⟩,
  ⟨0x2C10, 0x2C10, 0x7, 0x7, 4, 4, .ro, .owner, 0x0, .any⟩,
  ⟨0x2C11, 0x2C11, 0x1, 0x8, 16, 16, .rw, .owner, 0x0, .any⟩]
/-- The objects of 15 R679. -/
def dictR679 : List ObjRow := [
  ⟨0x1000, 0x1000, 0x0, 0x0, 4, 4, .const, .tenant, 0x0, .any⟩,
  ⟨0x1001, 0x1001, 0x0, 0x0, 1, 1, .ro, .tenant, 0x0, .any⟩,
  ⟨0x1005, 0x1005, 0x0, 0x0, 4, 4, .rw, .owner, 0x80, .any⟩,
  ⟨0x1006, 0x1006, 0x0, 0x0, 4, 4, .rw, .owner, 0x0, .any⟩,
  ⟨0x1010, 0x1010, 0x1, 0x1, 4, 4, .rw, .owner, 0x1, .any⟩,
  ⟨0x1011, 0x1011, 0x1, 0x1, 4, 4, .rw, .owner, 0x1, .any⟩,
  ⟨0x1014, 0x1014, 0x0, 0x0, 4, 4, .rw, .owner, 0xFF, .any⟩,
  ⟨0x1015, 0x1015, 0x0, 0x0, 2, 2, .rw, .owner, 0x0, .any⟩,
  ⟨0x1017, 0x1017, 0x0, 0x0, 2, 2, .rw, .owner, 0x0, .any⟩,
  ⟨0x1018, 0x1018, 0x1, 0x4, 4, 4, .const, .tenant, 0x0, .any⟩,
  ⟨0x1100, 0x1100, 0x1, 0x1, 1, 1, .rw, .owner, 0x7F, .range 1 127⟩,
  ⟨0x1100, 0x1100, 0x2, 0x2, 1, 1, .rw, .owner, 0x3, .range 1 4⟩,
  ⟨0x1100, 0x1100, 0x3, 0x3, 1, 1, .rw, .owner, 0x2, .range 1 5⟩,
  ⟨0x1100, 0x1100, 0x4, 0x4, 1, 1, .ro, .tenant, 0x0, .any⟩,
  ⟨0x1100, 0x1100, 0x5, 0x5, 1, 1, .wo, .owner, 0x0, .oneOf [1]⟩,
  ⟨0x1101, 0x1101, 0x1, 0x1, 1, 1, .ro, .tenant, 0x0, .any⟩,
  ⟨0x1101, 0x1101, 0x2, 0x2, 1, 1, .rw, .owner, 0x30, .range 8 119⟩,
  ⟨0x1101, 0x1101, 0x3, 0x3, 1, 1, .rw, .owner, 0x1, .bool⟩,
  ⟨0x1101, 0x1101, 0x4, 0x4, 4, 4, .const, .tenant, 0x1B7E4, .any⟩,
  ⟨0x1102, 0x1102, 0x1, 0x20, 8, 8, .rw, .owner, 0x0, .any⟩,
  ⟨0x1102, 0x1102, 0x21, 0x21, 1, 1, .rw, .owner, 0x1, .any⟩,
  ⟨0x1110, 0x1110, 0x1, 0x1, 1, 1, .rw, .owner, 0x4, .range 0 4⟩,
  ⟨0x1110, 0x1110, 0x2, 0x2, 1, 1, .rw, .owner, 0x0, .any⟩,
  ⟨0x1120, 0x1120, 0x1, 0x1, 1, 1, .ro, .owner, 0x0, .any⟩,
  ⟨0x2000, 0x2000, 0x1, 0x1, 2, 2, .const, .tenant, 0x9640, .any⟩,
  ⟨0x2000, 0x2000, 0x2, 0x2, 1, 1, .const, .tenant, 0xA1, .any⟩,
  ⟨0x2000, 0x2000, 0x3, 0x3, 8, 8, .const, .tenant, 0x1, .any⟩,
  ⟨0x2000, 0x2000, 0x4, 0x4, 4, 4, .const, .tenant, 0x1, .any⟩,
  ⟨0x2000, 0x2000, 0x5, 0x5, 0, 255, .const, .tenant, 0x0, .any⟩,
  ⟨0x2001, 0x2001, 0x1, 0x1, 48, 48, .ro, .tenant, 0x0, .any⟩,
  ⟨0x2002, 0x2002, 0x1, 0x1, 97, 97, .ro, .tenant, 0x0, .any⟩,
  ⟨0x2002, 0x2002, 0x2, 0x2, 1, 16384, .rw, .owner, 0x0, .any⟩,
  ⟨0x2F00, 0x2F00, 0x1, 0x1, 8, 8, .ro, .tenant, 0x0, .any⟩,
  ⟨0x2F00, 0x2F00, 0x2, 0x2, 8, 8, .wo, .owner, 0x0, .any⟩,
  ⟨0x2F01, 0x2F01, 0x1, 0x1, 20, 20, .ro, .tenant, 0x0, .any⟩,
  ⟨0x2F01, 0x2F01, 0x2, 0x2, 4, 4, .ro, .tenant, 0x0, .any⟩,
  ⟨0x2F01, 0x2F01, 0x3, 0x3, 4, 4, .ro, .tenant, 0x0, .any⟩,
  ⟨0x2F10, 0x2F10, 0x1, 0x20, 32, 32, .rw, .owner, 0x0, .any⟩,
  ⟨0x2F11, 0x2F11, 0x1, 0x1, 32, 32, .wo, .owner, 0x0, .any⟩,
  ⟨0x2F11, 0x2F11, 0x2, 0x2, 1, 1, .ro, .owner, 0x0, .any⟩,
  ⟨0x2F11, 0x2F11, 0x3, 0x3, 1, 1, .ro, .owner, 0x20, .any⟩,
  ⟨0x2F12, 0x2F12, 0x1, 0x20, 8, 8, .ro, .owner, 0x0, .any⟩]
/-- The objects of 16 R701. -/
def dictR701 : List ObjRow := [
  ⟨0x2D00, 0x2D00, 0x1, 0x2, 1, 1, .ro, .owner, 0x0, .any⟩,
  ⟨0x2D01, 0x2D01, 0x1, 0x1, 2, 2, .rw, .owner, 0x8, .any⟩,
  ⟨0x2D40, 0x2D7F, 0x1, 0x1, 1, 1, .rw, .owner, 0x0, .any⟩,
  ⟨0x2D40, 0x2D7F, 0x2, 0x2, 2, 2, .rw, .owner, 0x8, .any⟩,
  ⟨0x2D40, 0x2D7F, 0x3, 0x3, 1, 1, .rw, .owner, 0x0, .bool⟩,
  ⟨0x2D40, 0x2D7F, 0x4, 0x4, 1, 1, .rw, .owner, 0x0, .bool⟩,
  ⟨0x2D40, 0x2D7F, 0x5, 0x5, 1, 1, .ro, .owner, 0x0, .bool⟩,
  ⟨0x2D40, 0x2D7F, 0x6, 0x6, 1, 1, .rw, .owner, 0x0, .any⟩,
  ⟨0x2D80, 0x2D80, 0x1, 0x44, 4, 4, .ro, .tenant, 0x0, .any⟩,
  ⟨0x2D81, 0x2D81, 0x1, 0x44, 1, 1, .ro, .tenant, 0x0, .any⟩,
  ⟨0x2D82, 0x2D82, 0x1, 0x44, 1, 1, .rw, .owner, 0x1, .bool⟩,
  ⟨0x2D83, 0x2D83, 0x1, 0x44, 4, 4, .rw, .owner, 0x0, .any⟩,
  ⟨0x2D84, 0x2D84, 0x1, 0x44, 4, 4, .rw, .owner, 0x0, .any⟩,
  ⟨0x2D85, 0x2D85, 0x1, 0x44, 4, 4, .rw, .owner, 0x0, .any⟩,
  ⟨0x2D86, 0x2D86, 0x1, 0x1, 1, 1, .rw, .owner, 0x4, .range 1 16⟩,
  ⟨0x2D86, 0x2D86, 0x2, 0x2, 1, 1, .rw, .owner, 0x1, .bits 0x7⟩,
  ⟨0x2D86, 0x2D86, 0x3, 0x3, 4, 4, .ro, .tenant, 0x0, .any⟩,
  ⟨0x2D87, 0x2D87, 0x1, 0x4, 1, 1, .rw, .owner, 0x0, .range 0 3⟩]
/-- The objects of 17 R733. -/
def dictR733 : List ObjRow := [
  ⟨0x2E00, 0x2E00, 0x1, 0x1, 1, 1, .ro, .debug, 0x0, .any⟩,
  ⟨0x2E00, 0x2E00, 0x2, 0x2, 48, 48, .ro, .debug, 0x0, .any⟩,
  ⟨0x2E00, 0x2E00, 0x3, 0x3, 208, 208, .wo, .debug, 0x0, .any⟩,
  ⟨0x2E00, 0x2E00, 0x4, 0x4, 1, 1, .wo, .debug, 0x0, .oneOf [1]⟩,
  ⟨0x2E00, 0x2E00, 0x5, 0x5, 8, 8, .ro, .debug, 0x0, .any⟩,
  ⟨0x2E00, 0x2E00, 0x6, 0x6, 1, 1, .ro, .tenant, 0x0, .bool⟩]

/-- The whole dictionary, in index order by chapter. -/
def objDict : List ObjRow :=
  dictR102 ++ dictR155 ++ dictR191 ++ dictR254 ++ dictR295 ++ dictR331 ++ dictR384 ++ dictR465 ++ dictR517 ++ dictR562 ++ dictR593 ++ dictR636 ++ dictR679 ++ dictR701 ++ dictR733

/-- The row of index `ix`, subindex `sub`. -/
def objRow (ix sub : Nat) : Option ObjRow :=
  objDict.find? fun r => r.i0 ≤ ix && ix ≤ r.i1 && r.s0 ≤ sub && sub ≤ r.s1

/-- Is the index defined at all? -/
def objIndexDefined (ix : Nat) : Bool := objDict.any fun r => r.i0 ≤ ix && ix ≤ r.i1

/-- Highest subindex of an index (15 R641). -/
def objTopSub (ix : Nat) : Nat :=
  objDict.foldl (fun m r => if r.i0 ≤ ix && ix ≤ r.i1 then max m r.s1 else m) 0

/-- 0x2100:01 (02 R102): `PKG_POWER`. -/
abbrev O_PKG_POWER : Nat := 0x210001
/-- 0x2100:02 (02 R102): `PKG_POWER_PEAK`. -/
abbrev O_PKG_POWER_PEAK : Nat := 0x210002
/-- 0x2101:01 and following subindexes (02 R102): `DIE_POWER_F0–F7` of unit `i`, counted from 0. -/
abbrev O_DIE_POWER (i : Nat) : Nat := 0x210101 + i
/-- 0x2102:01 and following subindexes (02 R102): `RAIL_POWER` of unit `i`, counted from 0. -/
abbrev O_RAIL_POWER (i : Nat) : Nat := 0x210201 + i
/-- 0x2103:01 (02 R102): `POWER_CAP`. -/
abbrev O_POWER_CAP : Nat := 0x210301
/-- 0x2103:02 (02 R102): `CAP_ACTION`. -/
abbrev O_CAP_ACTION : Nat := 0x210302
/-- 0x2103:03 (02 R102): `THROTTLE_LEVEL`. -/
abbrev O_THROTTLE_LEVEL : Nat := 0x210303
/-- 0x2104:01 (02 R102): `RAIL_STATUS`. -/
abbrev O_RAIL_STATUS : Nat := 0x210401
/-- 0x2105:01 (02 R102): `THERMTRIP_TEMP`. -/
abbrev O_THERMTRIP_TEMP : Nat := 0x210501
/-- 0x2106:01 (02 R102): `VBAT_STATUS`. -/
abbrev O_VBAT_STATUS : Nat := 0x210601
/-- 0x2106:02 (02 R102): `VBAT_VOLTAGE`. -/
abbrev O_VBAT_VOLTAGE : Nat := 0x210602
/-- 0x2106:03 (02 R102): `VBAT_LATCH_CLEAR`. -/
abbrev O_VBAT_LATCH_CLEAR : Nat := 0x210603
/-- 0x2107:01 (02 R102): `STRAPS`. -/
abbrev O_STRAPS : Nat := 0x210701
/-- 0x2200:01 (03 R155): `ROOT_MODE`. -/
abbrev O_ROOT_MODE : Nat := 0x220001
/-- 0x2200:02 (03 R155): `REF_STATUS`. -/
abbrev O_REF_STATUS : Nat := 0x220002
/-- 0x2200:03 (03 R155): `REF_COUNT`. -/
abbrev O_REF_COUNT : Nat := 0x220003
/-- 0x2200:04 (03 R155): `REF_RESELECT`. -/
abbrev O_REF_RESELECT : Nat := 0x220004
/-- 0x2201:01 (03 R155): `RC100_TRIM`. -/
abbrev O_RC100_TRIM : Nat := 0x220101
/-- 0x2201:02 (03 R155): `TRIM_SOURCE`. -/
abbrev O_TRIM_SOURCE : Nat := 0x220102
/-- 0x2201:03 (03 R155): `TRIM_SYNC_EN`. -/
abbrev O_TRIM_SYNC_EN : Nat := 0x220103
/-- 0x2202:01 (03 R155): `AON32K_FREQ`. -/
abbrev O_AON32K_FREQ : Nat := 0x220201
/-- 0x2210:01 and following subindexes (03 R155): `CLK_EN` of unit `i`, counted from 0. -/
abbrev O_CLK_EN (i : Nat) : Nat := 0x221001 + i
/-- 0x2211:01 and following subindexes (03 R155): `ENABLE_STATUS` of unit `i`, counted from 0. -/
abbrev O_ENABLE_STATUS (i : Nat) : Nat := 0x221101 + i
/-- 0x2220:01 and following indexes (03 R155): `SYNTH_TARGET` of unit `i`. -/
abbrev O_SYNTH_TARGET (i : Nat) : Nat := 0x222001 + i * 256
/-- 0x2220:02 and following indexes (03 R155): `SYNTH_MODE` of unit `i`. -/
abbrev O_SYNTH_MODE (i : Nat) : Nat := 0x222002 + i * 256
/-- 0x2220:03 and following indexes (03 R155): `APPLY` of unit `i`. -/
abbrev O_APPLY (i : Nat) : Nat := 0x222003 + i * 256
/-- 0x2220:04 and following indexes (03 R155): `SYNTH_STATUS` of unit `i`. -/
abbrev O_SYNTH_STATUS (i : Nat) : Nat := 0x222004 + i * 256
/-- 0x2220:05 and following indexes (03 R155): `SYNTH_FREQ` of unit `i`. -/
abbrev O_SYNTH_FREQ (i : Nat) : Nat := 0x222005 + i * 256
/-- 0x2180:01 (04 R191): `POWER_STATE`. -/
abbrev O_POWER_STATE : Nat := 0x218001
/-- 0x2181:01 and following subindexes (04 R191): `DIE_STATE_F0–F7` of unit `i`, counted from 0. -/
abbrev O_DIE_STATE (i : Nat) : Nat := 0x218101 + i
/-- 0x2182:01 and following subindexes (04 R191): `DIE_REQUEST_F0–F7` of unit `i`, counted from 0. -/
abbrev O_DIE_REQUEST (i : Nat) : Nat := 0x218201 + i
/-- 0x2183:01 (04 R191): `STANDBY_ENTER`. -/
abbrev O_STANDBY_ENTER : Nat := 0x218301
/-- 0x2183:02 (04 R191): `WAKE_SOURCES`. -/
abbrev O_WAKE_SOURCES : Nat := 0x218302
/-- 0x2183:03 (04 R191): `WAKE_TIMER`. -/
abbrev O_WAKE_TIMER : Nat := 0x218303
/-- 0x2183:04 (04 R191): `WAKE_CAUSE`. -/
abbrev O_WAKE_CAUSE : Nat := 0x218304
/-- 0x2183:05 (04 R191): `STANDBY_TIME`. -/
abbrev O_STANDBY_TIME : Nat := 0x218305
/-- 0x2400:01 (04 R191): `RESET_CAUSE`. -/
abbrev O_RESET_CAUSE : Nat := 0x240001
/-- 0x2400:02 (04 R191): `RESET_COUNT`. -/
abbrev O_RESET_COUNT : Nat := 0x240002
/-- 0x2400:03 (04 R191): `RESET_REQUEST`. -/
abbrev O_RESET_REQUEST : Nat := 0x240003
/-- 0x2400:04 (04 R191): `WARM_RETAIN`. -/
abbrev O_WARM_RETAIN : Nat := 0x240004
/-- 0x2400:05 (04 R191): `INIT_WAIT_PIN`. -/
abbrev O_INIT_WAIT_PIN : Nat := 0x240005
/-- 0x2401:01 (04 R191): `LC_STATE`. -/
abbrev O_LC_STATE : Nat := 0x240101
/-- 0x2401:02 (04 R191): `LC_REQUEST`. -/
abbrev O_LC_REQUEST : Nat := 0x240102
/-- 0x2401:03 (04 R191): `LC_CHALLENGE`. -/
abbrev O_LC_CHALLENGE : Nat := 0x240103
/-- 0x2401:04 (04 R191): `LC_KEYS_HELD`. -/
abbrev O_LC_KEYS_HELD : Nat := 0x240104
/-- 0x2402:01 (04 R191): `WIPE_TIME`. -/
abbrev O_WIPE_TIME : Nat := 0x240201
/-- 0x2402:02 (04 R191): `WIPE_STATUS`. -/
abbrev O_WIPE_STATUS : Nat := 0x240202
/-- 0x2300:01 (05 R254): `ACTIVE_PROFILE`. -/
abbrev O_ACTIVE_PROFILE : Nat := 0x230001
/-- 0x2300:02 (05 R254): `NEXT_PROFILE`. -/
abbrev O_NEXT_PROFILE : Nat := 0x230002
/-- 0x2300:03 (05 R254): `BOOT_SLOTS_TRIED`. -/
abbrev O_BOOT_SLOTS_TRIED : Nat := 0x230003
/-- 0x2300:04 (05 R254): `LAST_ABORT`. -/
abbrev O_LAST_ABORT : Nat := 0x230004
/-- 0x2301:01 (05 R254): `STREAM_BUILD_ID`. -/
abbrev O_STREAM_BUILD_ID : Nat := 0x230101
/-- 0x2301:02 (05 R254): `STREAM_KEY_SOURCE`. -/
abbrev O_STREAM_KEY_SOURCE : Nat := 0x230102
/-- 0x2301:03 (05 R254): `STREAM_OWNER_KEY`. -/
abbrev O_STREAM_OWNER_KEY : Nat := 0x230103
/-- 0x2302:01 and following subindexes (05 R254): `SLOT_STATE_P0–P3` of unit `i`, counted from 0. -/
abbrev O_SLOT_STATE (i : Nat) : Nat := 0x230201 + i
/-- 0x2303:01 (05 R254): `PR_STAGE_MIB`. -/
abbrev O_PR_STAGE_MIB : Nat := 0x230301
/-- 0x2310:01 (05 R254): `LOAD_REQUEST`. -/
abbrev O_LOAD_REQUEST : Nat := 0x231001
/-- 0x2310:02 (05 R254): `LOAD_STATE`. -/
abbrev O_LOAD_STATE : Nat := 0x231002
/-- 0x2310:03 (05 R254): `LOAD_RESULT`. -/
abbrev O_LOAD_RESULT : Nat := 0x231003
/-- 0x2320:01 (05 R254): `OKH_REVOKED`. -/
abbrev O_OKH_REVOKED : Nat := 0x232001
/-- 0x2320:02 (05 R254): `KEY_PROGRAM`. -/
abbrev O_KEY_PROGRAM : Nat := 0x232002
/-- 0x2320:03 (05 R254): `KEY_REVOKE`. -/
abbrev O_KEY_REVOKE : Nat := 0x232003
/-- 0x2320:04 (05 R254): `BBK_WRITE`. -/
abbrev O_BBK_WRITE : Nat := 0x232004
/-- 0x2320:05 (05 R254): `BBK_PENDING`. -/
abbrev O_BBK_PENDING : Nat := 0x232005
/-- 0x2340:01 (05 R254): `FU_SLOT`. -/
abbrev O_FU_SLOT : Nat := 0x234001
/-- 0x2340:02 (05 R254): `FU_SOURCE`. -/
abbrev O_FU_SOURCE : Nat := 0x234002
/-- 0x2340:03 (05 R254): `FU_LENGTH`. -/
abbrev O_FU_LENGTH : Nat := 0x234003
/-- 0x2340:04 (05 R254): `FU_START`. -/
abbrev O_FU_START : Nat := 0x234004
/-- 0x2340:05 (05 R254): `FU_STATE`. -/
abbrev O_FU_STATE : Nat := 0x234005
/-- 0x2500:01 (06 R295): `SPEED_GRADE`. -/
abbrev O_SPEED_GRADE : Nat := 0x250001
/-- 0x2501:01 and following subindexes (06 R295): `PART_STATE` of unit `i`, counted from 0. -/
abbrev O_PART_STATE (i : Nat) : Nat := 0x250101 + i
/-- 0x2502:01 and following subindexes (06 R295): `PART_EPOCH` of unit `i`, counted from 0. -/
abbrev O_PART_EPOCH (i : Nat) : Nat := 0x250201 + i
/-- 0x2503:01 (06 R295): `GRST_PULSE`. -/
abbrev O_GRST_PULSE : Nat := 0x250301
/-- 0x2503:02 (06 R295): `GRST_STATE`. -/
abbrev O_GRST_STATE : Nat := 0x250302
/-- 0x2504:01 (06 R295): `SCRUB_EN`. -/
abbrev O_SCRUB_EN : Nat := 0x250401
/-- 0x2504:02 (06 R295): `SCRUB_CORRECTED`. -/
abbrev O_SCRUB_CORRECTED : Nat := 0x250402
/-- 0x2504:03 (06 R295): `SCRUB_UNCORRECTABLE`. -/
abbrev O_SCRUB_UNCORRECTABLE : Nat := 0x250403
/-- 0x2504:04 (06 R295): `SCRUB_PASS_TIME`. -/
abbrev O_SCRUB_PASS_TIME : Nat := 0x250404
/-- 0x2510:01 and following subindexes (06 R295): `PROBE_SEL` of unit `i`, counted from 0. -/
abbrev O_PROBE_SEL (i : Nat) : Nat := 0x251001 + i
/-- 0x2511:01 and following subindexes (06 R295): `PROBE_ROUTE` of unit `i`, counted from 0. -/
abbrev O_PROBE_ROUTE (i : Nat) : Nat := 0x251101 + i
/-- 0x2512:01 (06 R295): `CAP_CLOCK`. -/
abbrev O_CAP_CLOCK : Nat := 0x251201
/-- 0x2512:02 (06 R295): `CAP_CONTROL`. -/
abbrev O_CAP_CONTROL : Nat := 0x251202
/-- 0x2512:03 (06 R295): `CAP_STATE`. -/
abbrev O_CAP_STATE : Nat := 0x251203
/-- 0x2512:04 (06 R295): `TRIG_MASK`. -/
abbrev O_TRIG_MASK : Nat := 0x251204
/-- 0x2512:05 (06 R295): `TRIG_VALUE`. -/
abbrev O_TRIG_VALUE : Nat := 0x251205
/-- 0x2512:06 (06 R295): `TRIG_POS`. -/
abbrev O_TRIG_POS : Nat := 0x251206
/-- 0x2512:07 (06 R295): `TRIG_INDEX`. -/
abbrev O_TRIG_INDEX : Nat := 0x251207
/-- 0x2513:01 (06 R295): `CAP_DATA`. -/
abbrev O_CAP_DATA : Nat := 0x251301
/-- 0x2600:01 and following subindexes (07 R331): `RAM_CORRECTED` of unit `i`, counted from 0. -/
abbrev O_RAM_CORRECTED (i : Nat) : Nat := 0x260001 + i
/-- 0x2601:01 and following subindexes (07 R331): `RAM_UNCORRECTABLE` of unit `i`, counted from 0. -/
abbrev O_RAM_UNCORRECTABLE (i : Nat) : Nat := 0x260101 + i
/-- 0x2602:01 (07 R331): `RAM_CNT_CLEAR`. -/
abbrev O_RAM_CNT_CLEAR : Nat := 0x260201
/-- 0x2603:01 and following subindexes (07 R331): `REPAIR_USED` of unit `i`, counted from 0. -/
abbrev O_REPAIR_USED (i : Nat) : Nat := 0x260301 + i
/-- 0x2604:01 and following subindexes (07 R331): `RAM_LAST_UNCORR` of unit `i`, counted from 0. -/
abbrev O_RAM_LAST_UNCORR (i : Nat) : Nat := 0x260401 + i
/-- 0x2610:01 and following (07 R331): `QB_CORRECTED` of unit `i`, 128 units to an index. -/
abbrev O_QB_CORRECTED (i : Nat) : Nat := 0x261001 + (i / 128) * 256 + i % 128
/-- 0x2618:01 and following (07 R331): `QB_POISONED` of unit `i`, 128 units to an index. -/
abbrev O_QB_POISONED (i : Nat) : Nat := 0x261801 + (i / 128) * 256 + i % 128
/-- 0x2620:01 (07 R331): `QB_CNT_CLEAR`. -/
abbrev O_QB_CNT_CLEAR : Nat := 0x262001
/-- 0x2630:01 and following (07 R331): `QB_LINK_GRANT` of unit `i`, 128 units to an index. -/
abbrev O_QB_LINK_GRANT (i : Nat) : Nat := 0x263001 + (i / 128) * 256 + i % 128
/-- 0x2700:01 and following (08 R384): `ENG_STATE` of unit `i`, 128 units to an index. -/
abbrev O_ENG_STATE (i : Nat) : Nat := 0x270001 + (i / 128) * 256 + i % 128
/-- 0x2708:01 and following (08 R384): `ENG_COMMAND` of unit `i`, 128 units to an index. -/
abbrev O_ENG_COMMAND (i : Nat) : Nat := 0x270801 + (i / 128) * 256 + i % 128
/-- 0x2710:01 and following (08 R384): `ENG_EPOCH` of unit `i`, 128 units to an index. -/
abbrev O_ENG_EPOCH (i : Nat) : Nat := 0x271001 + (i / 128) * 256 + i % 128
/-- 0x2718:01 and following (08 R384): `ENG_FAULT` of unit `i`, 128 units to an index. -/
abbrev O_ENG_FAULT (i : Nat) : Nat := 0x271801 + (i / 128) * 256 + i % 128
/-- 0x2720:01 (08 R384): `MONITOR_VERSION`. -/
abbrev O_MONITOR_VERSION : Nat := 0x272001
/-- 0x2800:01 (10 R465): `REQ_TIMEOUT`. -/
abbrev O_REQ_TIMEOUT : Nat := 0x280001
/-- 0x2800:02 (10 R465): `TRACKERS_FREE`. -/
abbrev O_TRACKERS_FREE : Nat := 0x280002
/-- 0x2800:03 (10 R465): `HDR_CORRECTED`. -/
abbrev O_HDR_CORRECTED : Nat := 0x280003
/-- 0x2800:04 (10 R465): `HDR_UNCORRECTABLE`. -/
abbrev O_HDR_UNCORRECTABLE : Nat := 0x280004
/-- 0x2801:01 and following subindexes (10 R465): `TB_RATE` of unit `i`, counted from 0. -/
abbrev O_TB_RATE (i : Nat) : Nat := 0x280101 + i
/-- 0x2802:01 and following subindexes (10 R465): `TB_BURST` of unit `i`, counted from 0. -/
abbrev O_TB_BURST (i : Nat) : Nat := 0x280201 + i
/-- 0x2803:01 and following subindexes (10 R465): `ISET_MASK` of unit `i`, counted from 0. -/
abbrev O_ISET_MASK (i : Nat) : Nat := 0x280301 + i
/-- 0x2810:01 and following subindexes (10 R465): `SAM_ENTRY_LO` of unit `i`, counted from 0. -/
abbrev O_SAM_ENTRY_LO (i : Nat) : Nat := 0x281001 + i
/-- 0x2811:01 and following subindexes (10 R465): `SAM_ENTRY_HI` of unit `i`, counted from 0. -/
abbrev O_SAM_ENTRY_HI (i : Nat) : Nat := 0x281101 + i
/-- 0x2812:01 (10 R465): `SAM_INVALIDATE`. -/
abbrev O_SAM_INVALIDATE : Nat := 0x281201
/-- 0x2812:02 (10 R465): `SAM_STALE`. -/
abbrev O_SAM_STALE : Nat := 0x281202
/-- 0x2820:01 (10 R465): `EP_BIND`. -/
abbrev O_EP_BIND : Nat := 0x282001
/-- 0x2820:02 (10 R465): `EP_FREE`. -/
abbrev O_EP_FREE : Nat := 0x282002
/-- 0x2830:01 and following subindexes (10 R465): `TENANT_FLITS` of unit `i`, counted from 0. -/
abbrev O_TENANT_FLITS (i : Nat) : Nat := 0x283001 + i
/-- 0x2900:01 (11 R517): `SNOOP_TIMEOUT`. -/
abbrev O_SNOOP_TIMEOUT : Nat := 0x290001
/-- 0x2900:02 (11 R517): `SF_VALID`. -/
abbrev O_SF_VALID : Nat := 0x290002
/-- 0x2900:03 (11 R517): `SF_VICTIMS`. -/
abbrev O_SF_VICTIMS : Nat := 0x290003
/-- 0x2900:04 (11 R517): `HOST_QUOTA_MIB`. -/
abbrev O_HOST_QUOTA_MIB : Nat := 0x290004
/-- 0x2900:05 (11 R517): `HOST_LINES`. -/
abbrev O_HOST_LINES : Nat := 0x290005
/-- 0x2901:01 and following subindexes (11 R517): `PORT_MODE` of unit `i`, counted from 0. -/
abbrev O_PORT_MODE (i : Nat) : Nat := 0x290101 + i
/-- 0x2902:01 and following subindexes (11 R517): `PORT_MAX_RATE` of unit `i`, counted from 0. -/
abbrev O_PORT_MAX_RATE (i : Nat) : Nat := 0x290201 + i
/-- 0x2903:01 and following subindexes (11 R517): `PORT_MAX_WIDTH` of unit `i`, counted from 0. -/
abbrev O_PORT_MAX_WIDTH (i : Nat) : Nat := 0x290301 + i
/-- 0x2904:01 and following subindexes (11 R517): `PORT_TENANT` of unit `i`, counted from 0. -/
abbrev O_PORT_TENANT (i : Nat) : Nat := 0x290401 + i
/-- 0x2905:01 and following subindexes (11 R517): `HOST_WIN_BASE` of unit `i`, counted from 0. -/
abbrev O_HOST_WIN_BASE (i : Nat) : Nat := 0x290501 + i
/-- 0x2906:01 and following subindexes (11 R517): `PORT_STATUS` of unit `i`, counted from 0. -/
abbrev O_PORT_STATUS (i : Nat) : Nat := 0x290601 + i
/-- 0x2907:01 and following subindexes (11 R517): `SNOOP_FAILS` of unit `i`, counted from 0. -/
abbrev O_SNOOP_FAILS (i : Nat) : Nat := 0x290701 + i
/-- 0x2908:01 and following subindexes (11 R517): `PCIE_BAR2_LOG2` of unit `i`, counted from 0. -/
abbrev O_PCIE_BAR2_LOG2 (i : Nat) : Nat := 0x290801 + i
/-- 0x2910:01 and following subindexes (11 R517): `PART_OWNER` of unit `i`, counted from 0. -/
abbrev O_PART_OWNER (i : Nat) : Nat := 0x291001 + i
/-- 0x2911:01 and following (11 R517): `ENG_OWNER` of unit `i`, 128 units to an index. -/
abbrev O_ENG_OWNER (i : Nat) : Nat := 0x291101 + (i / 128) * 256 + i % 128
/-- 0x2917:01 and following (11 R517): `SAM_OWNER` of unit `i`, 128 units to an index. -/
abbrev O_SAM_OWNER (i : Nat) : Nat := 0x291701 + (i / 128) * 256 + i % 128
/-- 0x2920:01 (11 R517): `TENANT_RESET`. -/
abbrev O_TENANT_RESET : Nat := 0x292001
/-- 0x2920:02 (11 R517): `TENANT_BUSY`. -/
abbrev O_TENANT_BUSY : Nat := 0x292002
/-- 0x2921:01 and following subindexes (11 R517): `FAULT_RECORD` of unit `i`, counted from 0. -/
abbrev O_FAULT_RECORD (i : Nat) : Nat := 0x292101 + i
/-- 0x2922:01 and following subindexes (11 R517): `FAULT_AUTORESET` of unit `i`, counted from 0. -/
abbrev O_FAULT_AUTORESET (i : Nat) : Nat := 0x292201 + i
/-- 0x2923:01 and following subindexes (11 R517): `FAULT_CLEAR` of unit `i`, counted from 0. -/
abbrev O_FAULT_CLEAR (i : Nat) : Nat := 0x292301 + i
/-- 0x2924:01 and following subindexes (11 R517): `FAULT_INFO` of unit `i`, counted from 0. -/
abbrev O_FAULT_INFO (i : Nat) : Nat := 0x292401 + i
/-- 0x2930:01 and following subindexes (11 R517): `GG0_WINDOW` of unit `i`, counted from 0. -/
abbrev O_GG0_WINDOW (i : Nat) : Nat := 0x293001 + i
/-- 0x2931:01 and following subindexes (11 R517): `GG1_WINDOW` of unit `i`, counted from 0. -/
abbrev O_GG1_WINDOW (i : Nat) : Nat := 0x293101 + i
/-- 0x2932:01 and following subindexes (11 R517): `GG_CONTROL` of unit `i`, counted from 0. -/
abbrev O_GG_CONTROL (i : Nat) : Nat := 0x293201 + i
/-- 0x2933:01 and following subindexes (11 R517): `GG_STATE` of unit `i`, counted from 0. -/
abbrev O_GG_STATE (i : Nat) : Nat := 0x293301 + i
/-- 0x2934:01 and following subindexes (11 R517): `GG_RATE` of unit `i`, counted from 0. -/
abbrev O_GG_RATE (i : Nat) : Nat := 0x293401 + i
/-- 0x2935:01 and following subindexes (11 R517): `GG_BURST` of unit `i`, counted from 0. -/
abbrev O_GG_BURST (i : Nat) : Nat := 0x293501 + i
/-- 0x2936:01 and following subindexes (11 R517): `GG_VIOL_LIMIT` of unit `i`, counted from 0. -/
abbrev O_GG_VIOL_LIMIT (i : Nat) : Nat := 0x293601 + i
/-- 0x2937:01 and following subindexes (11 R517): `GG_VIOL_COUNT` of unit `i`, counted from 0. -/
abbrev O_GG_VIOL_COUNT (i : Nat) : Nat := 0x293701 + i
/-- 0x2938:01 and following subindexes (11 R517): `GG_LINK` of unit `i`, counted from 0. -/
abbrev O_GG_LINK (i : Nat) : Nat := 0x293801 + i
/-- 0x2939:01 and following subindexes (11 R517): `GG_LAST_VIOL` of unit `i`, counted from 0. -/
abbrev O_GG_LAST_VIOL (i : Nat) : Nat := 0x293901 + i
/-- 0x2A00:01 and following subindexes (12 R562): `DDR_SIZING` of unit `i`, counted from 0. -/
abbrev O_DDR_SIZING (i : Nat) : Nat := 0x2A0001 + i
/-- 0x2A01:01 and following subindexes (12 R562): `DDR_RATE` of unit `i`, counted from 0. -/
abbrev O_DDR_RATE (i : Nat) : Nat := 0x2A0101 + i
/-- 0x2A02:01 and following subindexes (12 R562): `CHAN_STATE` of unit `i`, counted from 0. -/
abbrev O_CHAN_STATE (i : Nat) : Nat := 0x2A0201 + i
/-- 0x2A03:01 and following subindexes (12 R562): `USABLE_BYTES` of unit `i`, counted from 0. -/
abbrev O_USABLE_BYTES (i : Nat) : Nat := 0x2A0301 + i
/-- 0x2A04:01 and following subindexes (12 R562): `DDR_RATE_LIMIT` of unit `i`, counted from 0. -/
abbrev O_DDR_RATE_LIMIT (i : Nat) : Nat := 0x2A0401 + i
/-- 0x2A05:01 (12 R562): `DDR_REQUIRED`. -/
abbrev O_DDR_REQUIRED : Nat := 0x2A0501
/-- 0x2A05:02 (12 R562): `TRAIN_STORE`. -/
abbrev O_TRAIN_STORE : Nat := 0x2A0502
/-- 0x2A05:03 (12 R562): `TRAIN_FULL`. -/
abbrev O_TRAIN_FULL : Nat := 0x2A0503
/-- 0x2A05:04 (12 R562): `TRAIN_STORED`. -/
abbrev O_TRAIN_STORED : Nat := 0x2A0504
/-- 0x2A06:01 and following subindexes (12 R562): `PAGE_DEFAULT` of unit `i`, counted from 0. -/
abbrev O_PAGE_DEFAULT (i : Nat) : Nat := 0x2A0601 + i
/-- 0x2A07:01 (12 R562): `PAGE_IDLE`. -/
abbrev O_PAGE_IDLE : Nat := 0x2A0701
/-- 0x2A08:01 (12 R562): `WALK_RATE`. -/
abbrev O_WALK_RATE : Nat := 0x2A0801
/-- 0x2A08:02 (12 R562): `PATROL_HOURS`. -/
abbrev O_PATROL_HOURS : Nat := 0x2A0802
/-- 0x2A10:01 and following subindexes (12 R562): `ECC_CORRECTED` of unit `i`, counted from 0. -/
abbrev O_ECC_CORRECTED (i : Nat) : Nat := 0x2A1001 + i
/-- 0x2A11:01 and following subindexes (12 R562): `ECC_UNCORRECTABLE` of unit `i`, counted from 0. -/
abbrev O_ECC_UNCORRECTABLE (i : Nat) : Nat := 0x2A1101 + i
/-- 0x2A12:01 and following subindexes (12 R562): `POISON_READS` of unit `i`, counted from 0. -/
abbrev O_POISON_READS (i : Nat) : Nat := 0x2A1201 + i
/-- 0x2A13:01 and following subindexes (12 R562): `ECC_LAST_UNCORR` of unit `i`, counted from 0. -/
abbrev O_ECC_LAST_UNCORR (i : Nat) : Nat := 0x2A1301 + i
/-- 0x2A14:01 (12 R562): `ECC_CNT_CLEAR`. -/
abbrev O_ECC_CNT_CLEAR : Nat := 0x2A1401
/-- 0x2A20:01 and following subindexes (12 R562): `REGION_TABLE` of unit `i`, counted from 0. -/
abbrev O_REGION_TABLE (i : Nat) : Nat := 0x2A2001 + i
/-- 0x2A21:01 and following subindexes (12 R562): `WALK_STATUS` of unit `i`, counted from 0. -/
abbrev O_WALK_STATUS (i : Nat) : Nat := 0x2A2101 + i
/-- 0x2A22:01 and following subindexes (12 R562): `TWEAK_REUSES` of unit `i`, counted from 0. -/
abbrev O_TWEAK_REUSES (i : Nat) : Nat := 0x2A2201 + i
/-- 0x2A23:01 and following subindexes (12 R562): `CCACHE_MISSES` of unit `i`, counted from 0. -/
abbrev O_CCACHE_MISSES (i : Nat) : Nat := 0x2A2301 + i
/-- 0x2A24:01 (12 R562): `REFRESH_2X`. -/
abbrev O_REFRESH_2X : Nat := 0x2A2401
/-- 0x2A25:01 and following subindexes (12 R562): `FORCED_REFAB` of unit `i`, counted from 0. -/
abbrev O_FORCED_REFAB (i : Nat) : Nat := 0x2A2501 + i
/-- 0x2B00:01 and following subindexes (13 R593): `QUAD_REFSEL` of unit `i`, counted from 0. -/
abbrev O_QUAD_REFSEL (i : Nat) : Nat := 0x2B0001 + i
/-- 0x2B01:01 and following subindexes (13 R593): `REFCLK_FREQ` of unit `i`, counted from 0. -/
abbrev O_REFCLK_FREQ (i : Nat) : Nat := 0x2B0101 + i
/-- 0x2B10:01 and following subindexes (13 R593): `LANE_STATE` of unit `i`, counted from 0. -/
abbrev O_LANE_STATE (i : Nat) : Nat := 0x2B1001 + i
/-- 0x2B11:01 and following subindexes (13 R593): `LANE_STATE_REQ` of unit `i`, counted from 0. -/
abbrev O_LANE_STATE_REQ (i : Nat) : Nat := 0x2B1101 + i
/-- 0x2B12:01 and following subindexes (13 R593): `LANE_RATE` of unit `i`, counted from 0. -/
abbrev O_LANE_RATE (i : Nat) : Nat := 0x2B1201 + i
/-- 0x2B13:01 and following subindexes (13 R593): `LANE_WIDTH` of unit `i`, counted from 0. -/
abbrev O_LANE_WIDTH (i : Nat) : Nat := 0x2B1301 + i
/-- 0x2B14:01 and following subindexes (13 R593): `LANE_TXEQ` of unit `i`, counted from 0. -/
abbrev O_LANE_TXEQ (i : Nat) : Nat := 0x2B1401 + i
/-- 0x2B15:01 and following subindexes (13 R593): `LANE_CTRL` of unit `i`, counted from 0. -/
abbrev O_LANE_CTRL (i : Nat) : Nat := 0x2B1501 + i
/-- 0x2B16:01 and following subindexes (13 R593): `LANE_STATUS` of unit `i`, counted from 0. -/
abbrev O_LANE_STATUS (i : Nat) : Nat := 0x2B1601 + i
/-- 0x2B20:01 and following subindexes (13 R593): `PRBS_CTRL` of unit `i`, counted from 0. -/
abbrev O_PRBS_CTRL (i : Nat) : Nat := 0x2B2001 + i
/-- 0x2B21:01 and following subindexes (13 R593): `PRBS_BITS` of unit `i`, counted from 0. -/
abbrev O_PRBS_BITS (i : Nat) : Nat := 0x2B2101 + i
/-- 0x2B22:01 and following subindexes (13 R593): `PRBS_ERRORS` of unit `i`, counted from 0. -/
abbrev O_PRBS_ERRORS (i : Nat) : Nat := 0x2B2201 + i
/-- 0x2B23:01 and following subindexes (13 R593): `ERR_INJECT` of unit `i`, counted from 0. -/
abbrev O_ERR_INJECT (i : Nat) : Nat := 0x2B2301 + i
/-- 0x2B24:01 (13 R593): `PRBS_CLEAR`. -/
abbrev O_PRBS_CLEAR : Nat := 0x2B2401
/-- 0x2B30:01 and following subindexes (13 R593): `CASC_LINK_EN` of unit `i`, counted from 0. -/
abbrev O_CASC_LINK_EN (i : Nat) : Nat := 0x2B3001 + i
/-- 0x2B31:01 and following subindexes (13 R593): `CASC_RATE_LIMIT` of unit `i`, counted from 0. -/
abbrev O_CASC_RATE_LIMIT (i : Nat) : Nat := 0x2B3101 + i
/-- 0x2B32:01 and following subindexes (13 R593): `CASC_TRAIN_STATE` of unit `i`, counted from 0. -/
abbrev O_CASC_TRAIN_STATE (i : Nat) : Nat := 0x2B3201 + i
/-- 0x2B33:01 and following subindexes (13 R593): `CASC_PARTNER_CAPS` of unit `i`, counted from 0. -/
abbrev O_CASC_PARTNER_CAPS (i : Nat) : Nat := 0x2B3301 + i
/-- 0x2B34:01 and following subindexes (13 R593): `CASC_LANE_FAIL` of unit `i`, counted from 0. -/
abbrev O_CASC_LANE_FAIL (i : Nat) : Nat := 0x2B3401 + i
/-- 0x2B35:01 and following subindexes (13 R593): `CASC_RETRAINS` of unit `i`, counted from 0. -/
abbrev O_CASC_RETRAINS (i : Nat) : Nat := 0x2B3501 + i
/-- 0x2C00:01 (14 R636): `CASC_STATE`. -/
abbrev O_CASC_STATE : Nat := 0x2C0001
/-- 0x2C00:02 (14 R636): `CASC_DIM`. -/
abbrev O_CASC_DIM : Nat := 0x2C0002
/-- 0x2C00:03 (14 R636): `CASC_GROUP`. -/
abbrev O_CASC_GROUP : Nat := 0x2C0003
/-- 0x2C00:04 (14 R636): `CASC_MEMBERS`. -/
abbrev O_CASC_MEMBERS : Nat := 0x2C0004
/-- 0x2C00:05 (14 R636): `CASC_SECRET`. -/
abbrev O_CASC_SECRET : Nat := 0x2C0005
/-- 0x2C00:06 (14 R636): `DTIME_OFFSET`. -/
abbrev O_DTIME_OFFSET : Nat := 0x2C0006
/-- 0x2C01:01 and following subindexes (14 R636): `CASC_LINK_STATE` of unit `i`, counted from 0. -/
abbrev O_CASC_LINK_STATE (i : Nat) : Nat := 0x2C0101 + i
/-- 0x2C02:01 and following subindexes (14 R636): `CASC_REPLAYS` of unit `i`, counted from 0. -/
abbrev O_CASC_REPLAYS (i : Nat) : Nat := 0x2C0201 + i
/-- 0x2C03:01 and following subindexes (14 R636): `CASC_FEC_CORRECTED` of unit `i`, counted from 0. -/
abbrev O_CASC_FEC_CORRECTED (i : Nat) : Nat := 0x2C0301 + i
/-- 0x2C04:01 and following subindexes (14 R636): `CASC_LINK_DELAY` of unit `i`, counted from 0. -/
abbrev O_CASC_LINK_DELAY (i : Nat) : Nat := 0x2C0401 + i
/-- 0x2C10:01 (14 R636): `TWIN_STATE`. -/
abbrev O_TWIN_STATE : Nat := 0x2C1001
/-- 0x2C10:02 (14 R636): `TWIN_FORCE_ACTIVE`. -/
abbrev O_TWIN_FORCE_ACTIVE : Nat := 0x2C1002
/-- 0x2C10:03 (14 R636): `TWIN_RELEASE`. -/
abbrev O_TWIN_RELEASE : Nat := 0x2C1003
/-- 0x2C10:04 (14 R636): `TWIN_SOLO_WAIT`. -/
abbrev O_TWIN_SOLO_WAIT : Nat := 0x2C1004
/-- 0x2C10:05 (14 R636): `WITNESS_EN`. -/
abbrev O_WITNESS_EN : Nat := 0x2C1005
/-- 0x2C10:06 (14 R636): `DIRTY_GRANULES`. -/
abbrev O_DIRTY_GRANULES : Nat := 0x2C1006
/-- 0x2C10:07 (14 R636): `MIRROR_LAG`. -/
abbrev O_MIRROR_LAG : Nat := 0x2C1007
/-- 0x2C11:01 and following subindexes (14 R636): `TWIN_WINDOW` of unit `i`, counted from 0. -/
abbrev O_TWIN_WINDOW (i : Nat) : Nat := 0x2C1101 + i
/-- 0x1000:00 (15 R679): `DEVICE_TYPE`. -/
abbrev O_DEVICE_TYPE : Nat := 0x100000
/-- 0x1001:00 (15 R679): `ERROR_REGISTER`. -/
abbrev O_ERROR_REGISTER : Nat := 0x100100
/-- 0x1005:00 (15 R679): `SYNC_COB_ID`. -/
abbrev O_SYNC_COB_ID : Nat := 0x100500
/-- 0x1006:00 (15 R679): `COMM_CYCLE`. -/
abbrev O_COMM_CYCLE : Nat := 0x100600
/-- 0x1010:01 (15 R679): `STORE_ALL`. -/
abbrev O_STORE_ALL : Nat := 0x101001
/-- 0x1011:01 (15 R679): `RESTORE_DEFAULTS`. -/
abbrev O_RESTORE_DEFAULTS : Nat := 0x101101
/-- 0x1014:00 (15 R679): `EMCY_COB_ID`. -/
abbrev O_EMCY_COB_ID : Nat := 0x101400
/-- 0x1015:00 (15 R679): `EMCY_INHIBIT`. -/
abbrev O_EMCY_INHIBIT : Nat := 0x101500
/-- 0x1017:00 (15 R679): `HEARTBEAT_TIME`. -/
abbrev O_HEARTBEAT_TIME : Nat := 0x101700
/-- 0x1100:01 (15 R679): `CAN_NODE_ID`. -/
abbrev O_CAN_NODE_ID : Nat := 0x110001
/-- 0x1100:02 (15 R679): `CAN_NOMINAL_RATE`. -/
abbrev O_CAN_NOMINAL_RATE : Nat := 0x110002
/-- 0x1100:03 (15 R679): `CAN_DATA_RATE`. -/
abbrev O_CAN_DATA_RATE : Nat := 0x110003
/-- 0x1100:04 (15 R679): `CAN_STATUS`. -/
abbrev O_CAN_STATUS : Nat := 0x110004
/-- 0x1100:05 (15 R679): `CAN_APPLY`. -/
abbrev O_CAN_APPLY : Nat := 0x110005
/-- 0x1101:01 (15 R679): `MCTP_EID`. -/
abbrev O_MCTP_EID : Nat := 0x110101
/-- 0x1101:02 (15 R679): `I3C_STATIC_ADDR`. -/
abbrev O_I3C_STATIC_ADDR : Nat := 0x110102
/-- 0x1101:03 (15 R679): `MCTP_VDM_EN`. -/
abbrev O_MCTP_VDM_EN : Nat := 0x110103
/-- 0x1101:04 (15 R679): `MCTP_VENDOR_IANA`. -/
abbrev O_MCTP_VENDOR_IANA : Nat := 0x110104
/-- 0x1102:01 and following subindexes (15 R679): `ACCESS_MAP` of unit `i`, counted from 0. -/
abbrev O_ACCESS_MAP (i : Nat) : Nat := 0x110201 + i
/-- 0x1102:21 (15 R679): `DEFAULT_ROLE`. -/
abbrev O_DEFAULT_ROLE : Nat := 0x110221
/-- 0x1110:01 (15 R679): `EVT_CAN_MIN_SEV`. -/
abbrev O_EVT_CAN_MIN_SEV : Nat := 0x111001
/-- 0x1110:02 (15 R679): `EVT_MCTP_EID`. -/
abbrev O_EVT_MCTP_EID : Nat := 0x111002
/-- 0x1120:01 (15 R679): `STORE_STATE`. -/
abbrev O_STORE_STATE : Nat := 0x112001
/-- 0x2000:01 (15 R679): `PART_ID`. -/
abbrev O_PART_ID : Nat := 0x200001
/-- 0x2000:02 (15 R679): `STEPPING`. -/
abbrev O_STEPPING : Nat := 0x200002
/-- 0x2000:03 (15 R679): `DEVICE_SERIAL`. -/
abbrev O_DEVICE_SERIAL : Nat := 0x200003
/-- 0x2000:04 (15 R679): `FW_VERSION`. -/
abbrev O_FW_VERSION : Nat := 0x200004
/-- 0x2000:05 (15 R679): `ORDER_CODE`. -/
abbrev O_ORDER_CODE : Nat := 0x200005
/-- 0x2001:01 (15 R679): `STREAM_DIGEST`. -/
abbrev O_STREAM_DIGEST : Nat := 0x200101
/-- 0x2002:01 (15 R679): `ID_PUBKEY`. -/
abbrev O_ID_PUBKEY : Nat := 0x200201
/-- 0x2002:02 (15 R679): `ID_CERT_CHAIN`. -/
abbrev O_ID_CERT_CHAIN : Nat := 0x200202
/-- 0x2F00:01 (15 R679): `DTIME`. -/
abbrev O_DTIME : Nat := 0x2F0001
/-- 0x2F00:02 (15 R679): `DTIME_SET`. -/
abbrev O_DTIME_SET : Nat := 0x2F0002
/-- 0x2F01:01 (15 R679): `EVENT_READ`. -/
abbrev O_EVENT_READ : Nat := 0x2F0101
/-- 0x2F01:02 (15 R679): `EVENT_LOST`. -/
abbrev O_EVENT_LOST : Nat := 0x2F0102
/-- 0x2F01:03 (15 R679): `EVENT_NEXT_SEQ`. -/
abbrev O_EVENT_NEXT_SEQ : Nat := 0x2F0103
/-- 0x2F10:01 and following subindexes (15 R679): `SCHED_ENTRY` of unit `i`, counted from 0. -/
abbrev O_SCHED_ENTRY (i : Nat) : Nat := 0x2F1001 + i
/-- 0x2F11:01 (15 R679): `SCHED_ADD`. -/
abbrev O_SCHED_ADD : Nat := 0x2F1101
/-- 0x2F11:02 (15 R679): `SCHED_LAST`. -/
abbrev O_SCHED_LAST : Nat := 0x2F1102
/-- 0x2F11:03 (15 R679): `SCHED_FREE`. -/
abbrev O_SCHED_FREE : Nat := 0x2F1103
/-- 0x2F12:01 and following subindexes (15 R679): `SCHED_LATENESS` of unit `i`, counted from 0. -/
abbrev O_SCHED_LATENESS (i : Nat) : Nat := 0x2F1201 + i
/-- 0x2D00:01 and following subindexes (16 R701): `MIO_BANK_STATE` of unit `i`, counted from 0. -/
abbrev O_MIO_BANK_STATE (i : Nat) : Nat := 0x2D0001 + i
/-- 0x2D01:01 (16 R701): `CLKOUT_DIV`. -/
abbrev O_CLKOUT_DIV : Nat := 0x2D0101
/-- 0x2D40:01 and following indexes (16 R701): `MIO_FUNC` of unit `i`. -/
abbrev O_MIO_FUNC (i : Nat) : Nat := 0x2D4001 + i * 256
/-- 0x2D40:02 and following indexes (16 R701): `MIO_CFG` of unit `i`. -/
abbrev O_MIO_CFG (i : Nat) : Nat := 0x2D4002 + i * 256
/-- 0x2D40:03 and following indexes (16 R701): `MIO_LATCH` of unit `i`. -/
abbrev O_MIO_LATCH (i : Nat) : Nat := 0x2D4003 + i * 256
/-- 0x2D40:04 and following indexes (16 R701): `MIO_OE` of unit `i`. -/
abbrev O_MIO_OE (i : Nat) : Nat := 0x2D4004 + i * 256
/-- 0x2D40:05 and following indexes (16 R701): `MIO_LEVEL` of unit `i`. -/
abbrev O_MIO_LEVEL (i : Nat) : Nat := 0x2D4005 + i * 256
/-- 0x2D40:06 and following indexes (16 R701): `MIO_STATUS` of unit `i`. -/
abbrev O_MIO_STATUS (i : Nat) : Nat := 0x2D4006 + i * 256
/-- 0x2D80:01 and following subindexes (16 R701): `SM_VALUE` of unit `i`, counted from 0. -/
abbrev O_SM_VALUE (i : Nat) : Nat := 0x2D8001 + i
/-- 0x2D81:01 and following subindexes (16 R701): `SM_FLAGS` of unit `i`, counted from 0. -/
abbrev O_SM_FLAGS (i : Nat) : Nat := 0x2D8101 + i
/-- 0x2D82:01 and following subindexes (16 R701): `SM_ENABLE` of unit `i`, counted from 0. -/
abbrev O_SM_ENABLE (i : Nat) : Nat := 0x2D8201 + i
/-- 0x2D83:01 and following subindexes (16 R701): `SM_ALARM_HI` of unit `i`, counted from 0. -/
abbrev O_SM_ALARM_HI (i : Nat) : Nat := 0x2D8301 + i
/-- 0x2D84:01 and following subindexes (16 R701): `SM_ALARM_LO` of unit `i`, counted from 0. -/
abbrev O_SM_ALARM_LO (i : Nat) : Nat := 0x2D8401 + i
/-- 0x2D85:01 and following subindexes (16 R701): `SM_HYST` of unit `i`, counted from 0. -/
abbrev O_SM_HYST (i : Nat) : Nat := 0x2D8501 + i
/-- 0x2D86:01 (16 R701): `SM_ALARM_COUNT`. -/
abbrev O_SM_ALARM_COUNT : Nat := 0x2D8601
/-- 0x2D86:02 (16 R701): `SM_ALERT_EN`. -/
abbrev O_SM_ALERT_EN : Nat := 0x2D8602
/-- 0x2D86:03 (16 R701): `TEMP_MAX`. -/
abbrev O_TEMP_MAX : Nat := 0x2D8603
/-- 0x2D87:01 and following subindexes (16 R701): `ANIN_RANGE` of unit `i`, counted from 0. -/
abbrev O_ANIN_RANGE (i : Nat) : Nat := 0x2D8701 + i
/-- 0x2E00:01 (17 R733): `DBG_AUTH_STATE`. -/
abbrev O_DBG_AUTH_STATE : Nat := 0x2E0001
/-- 0x2E00:02 (17 R733): `DBG_CHALLENGE`. -/
abbrev O_DBG_CHALLENGE : Nat := 0x2E0002
/-- 0x2E00:03 (17 R733): `DBG_TOKEN`. -/
abbrev O_DBG_TOKEN : Nat := 0x2E0003
/-- 0x2E00:04 (17 R733): `DBG_END`. -/
abbrev O_DBG_END : Nat := 0x2E0004
/-- 0x2E00:05 (17 R733): `DBG_EXPIRY`. -/
abbrev O_DBG_EXPIRY : Nat := 0x2E0005
/-- 0x2E00:06 (17 R733): `DBG_ATTACHED`. -/
abbrev O_DBG_ATTACHED : Nat := 0x2E0006

end Sys2Proof.Machine
end

