-- ==== Sys2Proof/Machine/Ops.lean ====
section
/-! DEFINITION. The named operations over the state that every family uses: sparse tables, little-endian numbers, object values,
events, requesters and their roles, the order of checks of an object access. -/
namespace Sys2Proof.Machine

/-- The entry of key `k`, if listed. -/
def tabFind {α : Type} (t : Tab α) (k : Nat) : Option α :=
  match t with
  | [] => none
  | (a, v) :: r => if a = k then some v else tabFind r k

/-- The entry of key `k`, or `d`. -/
def tabGet {α : Type} (t : Tab α) (k : Nat) (d : α) : α := (tabFind t k).getD d

/-- Enter `v` at `k`, keeping the keys rising. -/
def tabPut {α : Type} (t : Tab α) (k : Nat) (v : α) : Tab α :=
  match t with
  | [] => [(k, v)]
  | (a, w) :: r => if k < a then (k, v) :: (a, w) :: r else if a = k then (k, v) :: r else (a, w) :: tabPut r k v

/-- Drop the entry of `k`. -/
def tabDel {α : Type} (t : Tab α) (k : Nat) : Tab α := t.filter fun p => p.1 != k

/-- Enter `v` at `k` in a table whose unlisted keys read as `d`: an entry equal to `d` is not listed. -/
def tabSet {α : Type} [DecidableEq α] (t : Tab α) (k : Nat) (v d : α) : Tab α :=
  if v = d then tabDel t k else tabPut t k v

/-- Bytes of a number, least significant first. -/
def leBytes (n v : Nat) : List Byte :=
  match n with
  | 0 => []
  | k + 1 => BitVec.ofNat 8 v :: leBytes k (v / 256)

/-- The number that bytes spell, least significant first. -/
def leNat (l : List Byte) : Nat :=
  match l with
  | [] => 0
  | b :: r => b.toNat + 256 * leNat r

/-- The number that bytes spell, most significant first. -/
def beNat (l : List Byte) : Nat := l.foldl (fun a b => a * 256 + b.toNat) 0

/-- `n` bytes of a list from position `i`, as a little-endian number. -/
def leAt (l : List Byte) (i n : Nat) : Nat := leNat ((l.drop i).take n)

/-- Number of set bits below position `n`. -/
def popUpTo (n v : Nat) : Nat :=
  match n with
  | 0 => 0
  | k + 1 => v % 2 + popUpTo k (v / 2)

/-- CRC-32 with the IEEE 802.3 polynomial (05 R197), one bit at a time. -/
def crcBits (n crc : Nat) : Nat :=
  match n with
  | 0 => crc
  | k + 1 => crcBits k (if crc % 2 = 1 then (crc / 2) ^^^ 0xEDB88320 else crc / 2)
/-- CRC-32 of bytes. -/
def crc32 (l : List Byte) : Nat :=
  (l.foldl (fun c b => crcBits 8 (c ^^^ b.toNat)) 0xFFFFFFFF) ^^^ 0xFFFFFFFF

/-! ## Bit helpers -/

/-- Bit `i` set to `b`. -/
def setBit {w : Nat} (x : BitVec w) (i : Nat) (b : Bool) : BitVec w :=
  if b then x ||| BitVec.ofNat w (2 ^ i) else x &&& ~~~ BitVec.ofNat w (2 ^ i)

/-- Unsigned saturation. -/
def satAdd (a b top : Nat) : Nat := min (a + b) top

/-! ## Object values -/

/-- Default of the upper threshold of a system monitor channel (16 R701; rail maxima of 02 R67). -/
def smHiDefault (c : Nat) : Nat :=
  if c < 40 then 115000
  else if c = 40 ∨ (52 ≤ c ∧ c < 60) then 772
  else if c = 41 ∨ c = 42 ∨ (60 ≤ c ∧ c < 64) then 824
  else if c = 43 then 927 else if c = 44 then 1236 else if c = 45 then 1854 else if c = 46 then 1133
  else if c = 47 then 1854 else if c = 48 then 1836 else if c = 51 then 3600 else 0x7FFFFFFF
/-- Default of the lower threshold (16 R701; rail minima of 02 R67). -/
def smLoDefault (c : Nat) : Nat :=
  if c < 40 then 0x80000000
  else if c = 40 ∨ (52 ≤ c ∧ c < 60) then 728
  else if c = 41 ∨ c = 42 ∨ (60 ≤ c ∧ c < 64) then 776
  else if c = 43 then 873 else if c = 44 then 1164 else if c = 45 then 1746 else if c = 46 then 1067
  else if c = 47 then 1746 else if c = 48 then 1764 else if c = 51 then 2200 else 0x80000000
/-- Default of the hysteresis (16 R701). -/
def smHystDefault (c : Nat) : Nat := if c < 40 then 5000 else if c < 64 then 10 else 0

/-- REFSEL and REFFREQ of the sampled straps (02 R78). -/
def strapRefSel (s : State) : Nat := (s.pwr.straps.toNat / 16) % 4
def strapRefFreq (s : State) : Nat := (s.pwr.straps.toNat / 4) % 4
/-- MODE: 0 STANDALONE, 1 CASCADE, 2 TWIN, 3 reserved (02 R78). -/
def strapMode (s : State) : Nat := (s.pwr.straps.toNat / 4096) % 4
def strapProfile (s : State) : Nat := (s.pwr.straps.toNat / 16384) % 4
def strapCascId (s : State) : Nat := (s.pwr.straps.toNat / 256) % 16
def strapSecondary (s : State) : Bool := s.pwr.straps.getLsbD 7
def strapCfgSrc (s : State) : Bool := s.pwr.straps.getLsbD 6

/-- Default value of an object, keyed index * 256 + subindex (the object tables). -/
def objDefault (s : State) (k : Nat) : Nat :=
  let ix := k / 256
  let sub := k % 256
  if ix = 0x2803 then (if sub = 1 then 0xFFFF else 0)
  else if 0x2D40 ≤ ix ∧ ix ≤ 0x2D7F ∧ sub = 1 then (if ix ≤ 0x2D41 then 2 else if ix ≤ 0x2D43 then 3 else 0)
  else if ix = 0x2D83 then smHiDefault (sub - 1)
  else if ix = 0x2D84 then smLoDefault (sub - 1)
  else if ix = 0x2D85 then smHystDefault (sub - 1)
  else if ix = 0x2B01 then (if strapRefSel s = sub - 1 then strapRefFreq s else 2)
  else match objRow ix sub with
    | some r => r.dflt
    | none => 0

/-- Value of an object of the table. -/
def oGet (s : State) (k : Nat) : Nat :=
  match tabFind s.obj k with
  | some v => v
  | none => objDefault s k

/-- Set a value of the table. -/
def oSet (s : State) (k v : Nat) : State := { s with obj := tabPut s.obj k v }

/-- Add to a saturating count held in the table. -/
def oBump (s : State) (k n top : Nat) : State := oSet s k (satAdd (oGet s k) n top)

/-- Free values come in blocks: a command that needs several takes them from one block (log entry 2). -/
abbrev freeBlock : Nat := 2 ^ 64
/-- The state with the counter advanced to the next block. -/
def freeStep (s : State) : State := { s with freeCtr := s.freeCtr + freeBlock }

/-! ## Event records (15 R666 to R669) -/

/-- Is a record of the ring one that reader `r` (0 to 15 tenants, 16 OWNER, 17 EMCY, 18 MCTP) reads? -/
def readerSees (r : Nat) (e : EventRec) : Bool := if r < 16 then e.tenant.toNat == r else true

/-- The lost counts after the record `q`, `e` is overwritten: every reader that has not reached it loses it. -/
def loseRecord (f : Firmware) (q : Nat) (e : EventRec) : Tab Nat :=
  (List.range 19).foldl (fun t r =>
    if tabGet f.pos r 0 ≤ q ∧ readerSees r e then tabPut t r (satAdd (tabGet t r 0) 1 0xFFFFFF) else t) f.lost

/-- A record enters the ring of 256; the oldest is overwritten. -/
def pushRec (f : Firmware) (e : EventRec) : Firmware :=
  { f with
    lost := match f.ring[255]? with
      | some (q, o) => loseRecord f q o
      | none => f.lost
    ring := ((f.seq, e) :: f.ring).take 256
    seq := f.seq + 1 }

/-- Severity codes. -/
abbrev sevInfo : Nat := 0
abbrev sevWarn : Nat := 1
abbrev sevErr : Nat := 2
abbrev sevFatal : Nat := 3

/-- The record of an event raised now. -/
def mkRec (s : State) (code sev data ten unit : Nat) : EventRec :=
  { data := BitVec.ofNat 24 data, sev := BitVec.ofNat 4 sev, tenant := BitVec.ofNat 4 ten,
    unit := BitVec.ofNat 16 unit, code := BitVec.ofNat 16 code, dtime := BitVec.ofNat 64 s.fw.dtime }

/-- Log an event of tenant `ten` raised by the unit with local endpoint ID `unit`. -/
def logEvT (s : State) (code sev data ten unit : Nat) : State :=
  { s with fw := pushRec s.fw (mkRec s code sev data ten unit) }

/-- Log an event of the whole device. -/
def logEv (s : State) (code sev data : Nat) : State := logEvT s code sev data 0 0xFFFF

/-- An event about a token: the tenant concerned is that of a tenant token (00 R16; 15 R666). -/
def tokenEvent (s : State) (t : Token) (code data : Nat) : State :=
  logEvT s code sevInfo data (t.tenant.getD 0) 0xFFFF

/-! ## Scheduler entries and steps of DTIME (15 R672, R675) -/

/-- Fields of a scheduler entry: TIME, PERIOD in ns, VALID, SKIP_IF_LATE. -/
def schedTime (x : Nat) : Nat := x % 2 ^ 64
def schedPeriod (x : Nat) : Nat := x / 2 ^ 64 % 2 ^ 32 * 1000
def schedValid (x : Nat) : Bool := x.testBit 192
def schedSkip (x : Nat) : Bool := x.testBit 193
/-- A scheduler entry. -/
def schedEntry (s : State) (i : Nat) : Nat := oGet s (O_SCHED_ENTRY i)
/-- DTIME steps to `v`: an entry whose TIME the step passes by more than 20 us becomes late. -/
def stepDtime (s : State) (v : Nat) : State :=
  let hit (i : Nat) : Bool :=
    let x := schedEntry s i
    schedValid x && s.fw.dtime < schedTime x && schedTime x + 20000 < v
  { s with fw := { s.fw with dtime := v, late := (List.range 32).foldl (fun m i => if hit i then setBit m i true else m) s.fw.late } }

/-! ## Where the device stands -/

/-- The firmware runs: from step 5 of boot until the next reset (15 R639). -/
def fwRuns (s : State) : Bool :=
  s.pwr.vaux && !s.pwr.tripped &&
    match s.rst.phase with
    | .held | .wiping => false
    | _ => s.rst.standby == .none || s.rst.standby == .entering

/-- Boot has completed, no STANDBY entry runs and no life-cycle transition has stopped user traffic (04 R189 step 2): the units of the device work. -/
def operating (s : State) : Bool :=
  s.pwr.vaux && !s.pwr.tripped && s.rst.phase == .run && s.rst.standby == .none && s.rst.lcRun.isNone

/-- A STANDBY entry runs: every new request is answered GATED, open ones complete (04 R178 step 1). -/
def entering (s : State) : Bool :=
  s.pwr.vaux && !s.pwr.tripped && s.rst.phase == .run && s.rst.standby == .entering && s.rst.lcRun.isNone
/-- Requests are answered. -/
def serving (s : State) : Bool := operating s || entering s

/-- The boot path is clocked: the root PLL is locked and the device is neither off, tripped nor asleep. -/
def clocked (s : State) : Bool :=
  s.pwr.vaux && !s.pwr.tripped && s.clk.locked && (s.rst.standby == .none || s.rst.standby == .entering)

/-- Unit enables of 03 R156 by bit number (subindex - 1). -/
abbrev unCache : Nat := 0
abbrev unDdr (c : Nat) : Nat := 1 + c
abbrev unCxl (p : Nat) : Nat := 0x11 + p
abbrev unCasc (p : Nat) : Nat := 0x15 + p
abbrev unTwin : Nat := 0x19
abbrev unHub (d : Nat) : Nat := 0x1A + d
abbrev unProbe : Nat := 0x22
abbrev unSensors : Nat := 0x23
abbrev unGuest (g : Nat) : Nat := 0x24 + g
/-- Is a unit enabled? -/
def enabled (s : State) (u : Nat) : Bool := s.clk.clkEn.getLsbD u

/-- State of a die. -/
def dieOf (s : State) (d : Nat) : DieState := tabGet s.rst.die d .on

/-! ## Requesters and roles (15 R644, R645, R677, R678) -/

inductive Role where | owner | tenant (n : Nat) | debug | none deriving DecidableEq, Repr

/-- A role code of ACCESS_MAP. -/
def roleCode (c : Nat) : Role :=
  if c = 1 then .owner else if 0x10 ≤ c ∧ c < 0x20 then .tenant (c - 0x10) else .none

/-- Path code of ACCESS_MAP. -/
def pathCode (p : Path) : Nat := match p with | .can => 1 | .i3c => 2 | .vdm => 3 | .goith => 4 | .internal => 5

/-- The first of `n` ACCESS_MAP entries from `i` that matches. -/
def accessMap (s : State) (path addr : Nat) (n i : Nat) : Option Nat :=
  match n with
  | 0 => none
  | k + 1 =>
    let e := oGet s (O_ACCESS_MAP i)
    if e % 256 = path ∧ (e / 256) % 256 = addr then some ((e / 65536) % 256)
    else accessMap s path addr k (i + 1)

/-- Debug is open by life cycle: BLANK, PROVISIONED, RETURN (17 R726). -/
def openByLife (s : State) : Bool := s.rst.lc == 0#3 || s.rst.lc == 1#3 || s.rst.lc == 3#3
/-- A device token is in force. -/
def deviceToken (s : State) : Bool := s.rst.lc == 2#3 && (match s.dbg.token with | some t => t.tenant.isNone | none => false)
/-- Tenant of a tenant token in force. -/
def tokenTenant (s : State) : Option Nat := if s.rst.lc == 2#3 then s.dbg.token.bind (·.tenant) else none
/-- The port holds device-wide authority. -/
def wideAuth (s : State) : Bool := openByLife s || deviceToken s

/-- The role of a requester; the port's OWNER role is granted with device-wide authority alone (17 R727). -/
def roleOf (s : State) (r : Req) : Role :=
  match r.path with
  | .internal => .owner
  | .goith => if !s.dbg.tunOwner then .debug else if wideAuth s then .owner else .none
  | p => roleCode ((accessMap s (pathCode p) r.addr.toNat 32 0).getD (oGet s O_DEFAULT_ROLE))

/-- The offset of a per-tenant view that reaches an index, if one does (15 R677). -/
def viewOffset (ix : Nat) : Option Nat :=
  if ix = 0x2501 then some 1 else if ix = 0x2502 then some 2
  else if ix = 0x2600 then some 3 else if ix = 0x2601 then some 4 else if ix = 0x2604 then some 5
  else if 0x2610 ≤ ix ∧ ix ≤ 0x261F then some (ix - 0x2600)
  else if 0x2700 ≤ ix ∧ ix ≤ 0x2705 then some (ix - 0x26E0)
  else if 0x2708 ≤ ix ∧ ix ≤ 0x270D then some (ix - 0x26E0)
  else if 0x2710 ≤ ix ∧ ix ≤ 0x2715 then some (ix - 0x26E0)
  else if 0x2718 ≤ ix ∧ ix ≤ 0x271D then some (ix - 0x26E0)
  else if ix = 0x2310 then some 0x40 else if ix = 0x2920 then some 0x48 else if ix = 0x2921 then some 0x49
  else if ix = 0x2924 then some 0x4A else if ix = 0x2810 then some 0x50 else if ix = 0x2811 then some 0x51
  else if ix = 0x2820 then some 0x58 else if ix = 0x2830 then some 0x59 else if ix = 0x2F01 then some 0x60
  else none

/-- The index a view offset reaches. -/
def viewIndex (k : Nat) : Option Nat :=
  if k = 1 then some 0x2501 else if k = 2 then some 0x2502
  else if k = 3 then some 0x2600 else if k = 4 then some 0x2601 else if k = 5 then some 0x2604
  else if 0x10 ≤ k ∧ k ≤ 0x1F then some (k + 0x2600)
  else if (0x20 ≤ k ∧ k ≤ 0x25) ∨ (0x28 ≤ k ∧ k ≤ 0x2D) ∨ (0x30 ≤ k ∧ k ≤ 0x35) ∨ (0x38 ≤ k ∧ k ≤ 0x3D) then some (k + 0x26E0)
  else if k = 0x40 then some 0x2310 else if k = 0x48 then some 0x2920 else if k = 0x49 then some 0x2921
  else if k = 0x4A then some 0x2924 else if k = 0x50 then some 0x2810 else if k = 0x51 then some 0x2811
  else if k = 0x58 then some 0x2820 else if k = 0x59 then some 0x2830 else if k = 0x60 then some 0x2F01
  else none

/-- Owner of a partition, an engine, a SAM entry (11 R501, R502). -/
def partOwner (s : State) (p : Nat) : Nat := oGet s (O_PART_OWNER p)
def engOwner (s : State) (e : Nat) : Nat := oGet s (O_ENG_OWNER e)
def samOwner (s : State) (e : Nat) : Nat := oGet s (O_SAM_OWNER e)

/-- Does tenant `n` own the resource that a subindex of a view names (15 R678)? -/
def viewOwns (s : State) (n ix sub : Nat) : Bool :=
  if ix = 0x2501 ∨ ix = 0x2502 ∨ ix = 0x2600 ∨ ix = 0x2601 ∨ ix = 0x2604 then partOwner s (sub - 1) == n
  else if 0x2610 ≤ ix ∧ ix ≤ 0x261F then partOwner s (((ix - 0x2610) % 8) * 16 + (sub - 1) / 8) == n
  else if 0x2700 ≤ ix ∧ ix ≤ 0x271F then engOwner s (((ix - 0x2700) % 8) * 128 + (sub - 1)) == n
  else if ix = 0x2810 ∨ ix = 0x2811 then samOwner s ((ix - 0x2810) * 128 + (sub - 1)) == n
  else if ix = 0x2921 ∨ ix = 0x2924 ∨ ix = 0x2830 then sub - 1 == n
  else true

/-- The identity objects (15 R645). -/
def isIdentity (ix : Nat) : Bool := ix == 0x1000 || ix == 0x1018 || ix == 0x2000
/-- May the requester's role reach the object at all (15 R645)? An OWNER access to a DEBUG object passes here; the port's DEBUG role reaches the
identity objects as well (17 R727; log entry 33). -/
def roleReaches (s : State) (r : Req) (ix : Nat) (p : Priv) : Bool :=
  match r.view, roleOf s r with
  | some _, .owner => true
  | some v, .tenant n => v.toNat == n
  | some _, _ => false
  | none, .owner => true
  | none, .tenant _ => p == .tenant && (viewOffset ix).isNone
  | none, .debug => p == .debug || isIdentity ix
  | none, .none => isIdentity ix

/-! ## Answers and the order of checks (15 R646 to R648) -/

abbrev abValue : BitVec 32 := 0x06090030#32
abbrev abState : BitVec 32 := 0x08000022#32
abbrev abRole : BitVec 32 := 0x0A000001#32
abbrev abOwn : BitVec 32 := 0x0A000002#32
abbrev abCap : BitVec 32 := 0x0A000003#32
abbrev abSig : BitVec 32 := 0x0A000004#32
abbrev abLife : BitVec 32 := 0x0A000005#32
abbrev abHw : BitVec 32 := 0x06060000#32
abbrev abLen : BitVec 32 := 0x06070010#32
abbrev abReadWo : BitVec 32 := 0x06010001#32
abbrev abWriteRo : BitVec 32 := 0x06010002#32
abbrev abIndex : BitVec 32 := 0x06020000#32
abbrev abSub : BitVec 32 := 0x06090011#32
abbrev abSeg : BitVec 32 := 0x05030000#32
abbrev abTimeout : BitVec 32 := 0x05040000#32
abbrev abCmd : BitVec 32 := 0x05040001#32
abbrev abStore : BitVec 32 := 0x08000020#32

/-- Short form of an abort code (15 R646). -/
def abortShort (c : BitVec 32) : Nat :=
  if c = abSeg then 1 else if c = abTimeout then 2 else if c = abCmd then 3 else if c = abReadWo then 4
  else if c = abWriteRo then 5 else if c = abIndex then 6 else if c = abHw then 7 else if c = abLen then 8
  else if c = abSub then 9 else if c = abValue then 0xA else if c = abStore then 0xB else if c = abState then 0xC
  else if c = abRole then 0xD else if c = abOwn then 0xE else if c = abCap then 0xF else if c = abSig then 0x10 else 0x11

/-- The requester gets abort code `c`, or success when it is 0. -/
def answer (s : State) (c : BitVec 32) : State := { s with ans := { answered := true, abort := c, value := 0, total := 0 } }
/-- The access is not answered. -/
def unanswered (s : State) : State := { s with ans := {} }

/-- What the owning chapter's rules say of a write: value permitted, resource owned, life cycle permits, capacity left, state permits. -/
structure Conds where
  value : Bool := true
  owns : Bool := true
  life : Bool := true
  cap : Bool := true
  state : Bool := true

/-- Is the object index closed to the requester by its view (15 R677)? -/
def viewClosed (r : Req) (ix : Nat) : Bool := r.view.isSome && (viewOffset ix).isNone

/-- Steps 1 to 4 of 15 R648 for a write or a read (code 0 when passed). -/
def checkReach (s : State) (r : Req) (ix sub : Nat) (write : Bool) : BitVec 32 :=
  if !objIndexDefined ix || viewClosed r ix then abIndex
  else match objRow ix sub with
    | none => abSub
    | some row =>
      if !roleReaches s r ix row.priv then abRole
      else if write then
        (if row.acc == .ro || row.acc == .const || ((ix == 0x2810 || ix == 0x2811) && r.view.isSome) then abWriteRo else 0#32)
      else if row.acc == .wo then abReadWo else 0#32

/-- Is the object closed by the life cycle: a DEBUG object to OWNER in DEPLOYED and later (15 R645); in DEPLOYED the tunnel's DEBUG role
reaches 0x2E00 and the identity objects, and with a tenant token the probe objects too; in DECOMMISSIONED it reaches the identity objects alone (17 R727), and the other
paths reach the identity and life-cycle objects (01 R31, 04 R186; log entry 23)? -/
def debugClosed (s : State) (r : Req) (ix : Nat) (p : Priv) : Bool :=
  let ident := isIdentity ix
  (p == .debug && roleOf s r == .owner && 2 ≤ s.rst.lc.toNat)
  || (r.path == .goith && roleOf s r == .debug && s.rst.lc == 2#3 && !ident && ix != 0x2E00
      && (match s.dbg.token with
          | none => true
          | some t => t.tenant.isSome && !(0x2510 ≤ ix && ix ≤ 0x2513)))
  || (s.rst.lc == 4#3 && !ident && (r.path == .goith || (ix != 0x2001 && ix != 0x2002 && ix != 0x2401)))

/-- The abort code of a write of `len` bytes holding `val`, by the order of 15 R648; 0 when every check passes. An open segmented transfer of the same
object forbids it last (15 R656). -/
def checkWrite (s : State) (r : Req) (ix sub len val : Nat) (c : Conds) : BitVec 32 :=
  let pre := checkReach s r ix sub true
  if pre ≠ 0#32 then pre
  else match objRow ix sub with
    | none => abSub
    | some row =>
      if len < row.lenLo || row.lenHi < len then abLen
      else if !row.chk.ok val || !c.value then abValue
      else if (match r.view with | some v => !viewOwns s v.toNat ix sub | none => false) || !c.owns then abOwn
      else if debugClosed s r ix row.priv || !c.life then abLife
      else if !c.cap then abCap
      else if !c.state || (tabFind s.fw.xfers (ix * 256 + sub)).isSome then abState
      else 0#32

/-- State of an MIO bank (16 R681, R683). -/
def bankState (s : State) (b : Nat) : Nat := tabGet s.pwr.mioBank b 0
/-- The bank of a pin holds a detected nominal and is not floating. -/
def bankUp (s : State) (pin : Nat) : Bool := bankState s (pin / 32) == 1 || bankState s (pin / 32) == 2
/-- The MIO plan, or the fallback assignment, is applied and nothing floats every pin (16 R682; 15 R639). -/
def mioApplied (s : State) : Bool :=
  s.pwr.vaux && !s.pwr.tripped && (s.rst.standby == .none || (s.rst.standby == .entering && !s.rst.standbyEmul)) &&
    match s.rst.phase with | .applied | .waitPin | .run | .halted | .waitRoot => true | _ => false
/-- Function of an MIO pin (16 R684). -/
def mioFunc (s : State) (pin : Nat) : Nat := oGet s (0x2D4001 + pin * 256)
/-- Both pins of a pair that starts at `pin` carry function `f` (16 R685), and do not float. -/
def pairOn (s : State) (pin f : Nat) : Bool := mioApplied s && bankUp s pin && mioFunc s pin == f && mioFunc s (pin + 1) == f
/-- The CAN FD controller, the I3C target has a pair of pins. -/
def canPins (s : State) : Bool := pairOn s 0 2 || pairOn s 32 2
def i3cPins (s : State) : Bool := pairOn s 2 3 || pairOn s 34 3
/-- SYNC trimming may run: TRIM_SYNC_EN is set, or boot waits in REDUCED mode (03 R117, R120); REFIN takes precedence (R118). -/
def syncTrims (s : State) : Bool :=
  fwRuns s && !s.clk.accepted && !s.clk.trimFrozen && (oGet s O_TRIM_SYNC_EN == 1 || s.rst.phase == .waitRoot)
/-- The CAN FD controller takes part on the bus: it has its pins, it is not in bus-off (15 R650), and it does not listen for phase 1 of SYNC
trimming (03 R117). -/
def canOn (s : State) : Bool :=
  fwRuns s && canPins s && oGet s O_CAN_STATUS != 2 && !(syncTrims s && !s.clk.syncPhase1)

/-- Is the path open: the firmware runs and the pins of the path are assigned (15 R639, R651; 16 R685; 17 R711, R727)? -/
def pathOpen (s : State) (r : Req) : Bool :=
  match r.path with
  | .internal | .goith => fwRuns s
  | .vdm => fwRuns s && s.hub.cxlUp.getLsbD 0 && oGet s (O_PORT_MODE 0) != 0 && oGet s O_MCTP_VDM_EN == 1
  | .can => canOn s
  | .i3c => fwRuns s && i3cPins s

/-- A write of an object: unanswered on a closed path, aborted by the first check that fails (`rej` is what the owning rule does on
an abort), otherwise answered with success and given effect `eff`. -/
def objWriteG (r : Req) (k len val : Nat) (c : Conds) (rej : BitVec 32 → State → State) (eff : State → State) (s : State) : State :=
  if pathOpen s r then
    let code := checkWrite s r (k / 256) (k % 256) len val c
    if code = 0#32 then eff (answer s 0#32) else rej code (answer s code)
  else unanswered s

/-- No effect on an abort. -/
def noRej (_ : BitVec 32) (s : State) : State := s

/-- A write with no further condition. -/
def objWriteP (r : Req) (k len val : Nat) (eff : State → State) (s : State) : State :=
  objWriteG r k len val {} noRej eff s

/-- The abort code of a read, by the order of 15 R648; 0 when every check passes. -/
def checkRead (s : State) (r : Req) (ix sub : Nat) : BitVec 32 :=
  let pre := checkReach s r ix sub false
  if pre ≠ 0#32 then pre
  else match objRow ix sub with
    | none => abSub
    | some row =>
      if (match r.view with | some v => !viewOwns s v.toNat ix sub | none => false) then abOwn
      else if debugClosed s r ix row.priv then abLife else 0#32

/-- A read of an object that answers `val` in `len` bytes, with what the read does besides. -/
def objReadG (r : Req) (k len val : Nat) (eff : State → State) (s : State) : State :=
  if pathOpen s r then
    let code := checkRead s r (k / 256) (k % 256)
    if code = 0#32 then { eff s with ans := { answered := true, abort := 0#32, value := val, total := len } } else answer s code
  else unanswered s

end Sys2Proof.Machine
end

