-- ==== Sys2Proof/Machine/Operands.lean ====
section
/-! DEFINITION. Geyser bundles: their decoding (09 R390 to R415), lanes of vectors, resolution of rotated register names (08 R344), addresses
and their post-modification (08 R347 to R349). -/
namespace Sys2Proof.Machine

/-- Bits `lo` to `lo + n - 1` of a word. -/
def fld {w : Nat} (x : BitVec w) (lo n : Nat) : Nat := x.toNat / 2 ^ lo % 2 ^ n

/-- MAC class (09 R397). -/
inductive MacOp where | vmacH | vmsuH | vmacB | vmsuB | cmacL | cmacH | cmacjL | cmacjH | vmacsH | aadd | ald
  deriving DecidableEq, Repr
/-- VALU class (09 R399). -/
inductive ValuOp where
  | vadd | vsub | vhadd | vhsub | vmin | vmax | vabs | vneg | vand | vor | vxor | vsra | vsrl | vshl | vcmpgt | vcmpeq | vsel
  deriving DecidableEq, Repr
/-- VPERM class (09 R400). -/
inductive VpermOp where | vmulj | vmulnj | vconj | vsplat | vrot | vilvl | vilvh | vevn | vodd | vunpl | vunph | vpack
  deriving DecidableEq, Repr
/-- VFP class (09 R402). -/
inductive VfpOp where
  | vfma | vfms | vfmul | vfadd | vfsub | vfmin | vfmax | vfabs | vfneg | vfcmpgt | vcvtf | vcvti
  deriving DecidableEq, Repr
/-- SALU class (09 R403); the flag of the M operation tells an immediate form. -/
inductive SaluOp where | add | sub | and | or | xor | shl | shr | sra | mul | min | max | slt | sltu | seq
  deriving DecidableEq, Repr
/-- MOVE class (09 R404). -/
inductive MoveOp where
  | vmov | vget | vput | vbcst | anarrow | movsp | movps | movsm | movms | movsc | movcs | csrr | csrw
  deriving DecidableEq, Repr

/-- An M operation: register names and immediates as numbers, `w` the lane width code (09 R396). -/
inductive MOp where
  | none
  | mac (op : MacOp) (d a b : Nat) (z : Bool)
  | valu (op : ValuOp) (w d a b : Nat) (f : Bool)
  | vperm (op : VpermOp) (w d a b : Nat)
  | vfp (op : VfpOp) (d a b : Nat) (high : Bool)
  | salu (op : SaluOp) (imm : Bool) (d a b : Nat)
  | move (op : MoveOp) (d a b : Nat)
  deriving DecidableEq, Repr

/-- An operation of the X or Y slot (09 R406 to R408); `u` post-modifies the pointer. -/
inductive SlotOp where
  | none
  | vld (v p : Nat) (u : Bool)
  | vldb (v p : Nat) (u : Bool)
  | vst (v p : Nat) (u track : Bool) (w : Nat)
  | staH (a p : Nat) (u track : Bool) (sh : Nat)
  | staW (a p : Nat) (u track high : Bool) (sh : Nat)
  | sld (r p : Nat) (u : Bool)
  | sst (r p : Nat) (u : Bool)
  | pmod (p : Nat)
  | padd (p imm : Nat)
  | pmovs (p a : Nat)
  | sin (v : Nat) (high : Bool)
  | sout (v : Nat) (high last : Bool) (bytes : Nat)
  deriving DecidableEq, Repr

/-- System operations (09 R414). -/
inductive SysOp where | wait | reti | dret | bkpt | bxclr | sirq (n : Nat) | stop deriving DecidableEq, Repr

/-- A control operation (09 R409 to R415). -/
inductive CtlOp where
  | loop (rw : Nat) (cs : Bool) (sa count lend : Nat)
  | branch (cond sa sb sl target : Nat)
  | simm (kind idx imm : Nat)
  | vimm (v w imm : Nat)
  | sys (op : SysOp)
  | abs (mem : Bool) (sub reg addr : Nat)
  deriving DecidableEq, Repr

/-- A bundle: four slots (the P slot names its coefficient pointer and destination), or one control operation (09 R391). -/
inductive Bundle where
  | par (p : Option (Nat × Nat)) (m : MOp) (x y : SlotOp)
  | ctl (c : CtlOp)
  deriving DecidableEq, Repr

/-- `some x` under a condition. -/
def whenOk {α : Type} (c : Bool) (x : α) : Option α := if c then some x else none

/-- MAC class (09 R397). -/
def decMac (op d a b : Nat) (f : Bool) : Option MOp :=
  let mk (o : MacOp) (c : Bool) : Option MOp := whenOk (d < 8 && c) (.mac o d a b f)
  match op with
  | 1 => mk .vmacH true | 2 => mk .vmsuH true | 3 => mk .vmacB true | 4 => mk .vmsuB true
  | 5 => mk .cmacL true | 6 => mk .cmacH true | 7 => mk .cmacjL true | 8 => mk .cmacjH true
  | 9 => mk .vmacsH (b < 16) | 10 => mk .aadd (a < 8 && b == 0) | 11 => mk .ald (!f)
  | _ => none

/-- Bits of a lane of width code `w` (09 R396). -/
def laneBits (w : Nat) : Nat := match w with | 0 => 8 | 1 => 16 | _ => 32

/-- VALU class (09 R399). -/
def decValu (op w d a b : Nat) (f : Bool) : Option MOp :=
  let mk (o : ValuOp) (c : Bool) : Option MOp := whenOk c (.valu o w d a b f)
  let scal := !f || b < 16
  let sh := !f && b < laneBits w
  match op with
  | 1 => mk .vadd scal | 2 => mk .vsub scal | 3 => mk .vhadd scal | 4 => mk .vhsub scal
  | 5 => mk .vmin scal | 6 => mk .vmax scal
  | 7 => mk .vabs (!f && b == 0) | 8 => mk .vneg (!f && b == 0)
  | 9 => mk .vand (scal && w == 0) | 10 => mk .vor (scal && w == 0) | 11 => mk .vxor (scal && w == 0)
  | 12 => mk .vsra sh | 13 => mk .vsrl sh | 14 => mk .vshl sh
  | 15 => mk .vcmpgt scal | 16 => mk .vcmpeq scal | 17 => mk .vsel (!f && w == 0)
  | _ => none

/-- VPERM class (09 R400). -/
def decVperm (op w d a b : Nat) : Option MOp :=
  let mk (o : VpermOp) (c : Bool) : Option MOp := whenOk c (.vperm o w d a b)
  let n := 256 / laneBits w
  match op with
  | 1 => mk .vmulj (w == 1 && b == 0) | 2 => mk .vmulnj (w == 1 && b == 0) | 3 => mk .vconj (w == 1 && b == 0)
  | 4 => mk .vsplat (b < n) | 5 => mk .vrot (b < n)
  | 6 => mk .vilvl true | 7 => mk .vilvh true | 8 => mk .vevn true | 9 => mk .vodd true
  | 10 => mk .vunpl (w < 2 && b == 0) | 11 => mk .vunph (w < 2 && b == 0) | 12 => mk .vpack (w != 0)
  | _ => none

/-- VFP class (09 R402). -/
def decVfp (op d a b : Nat) (f : Bool) : Option MOp :=
  let mk (o : VfpOp) (c : Bool) : Option MOp := whenOk c (.vfp o d a b f)
  match op with
  | 0x01 => mk .vfma true | 0x02 => mk .vfms true | 0x03 => mk .vfmul true
  | 0x10 => mk .vfadd (!f) | 0x11 => mk .vfsub (!f) | 0x12 => mk .vfmin (!f) | 0x13 => mk .vfmax (!f)
  | 0x14 => mk .vfabs (!f && b == 0) | 0x15 => mk .vfneg (!f && b == 0) | 0x16 => mk .vfcmpgt (!f)
  | 0x18 => mk .vcvtf (!f && b == 0) | 0x19 => mk .vcvti (!f && b == 0)
  | _ => none

/-- SALU class (09 R403): `sb` is the 8-bit SB field. -/
def decSalu (op d a sb : Nat) : Option MOp :=
  let r (o : SaluOp) : Option MOp := whenOk (sb % 16 == 0) (.salu o false d a (sb / 16))
  let i (o : SaluOp) : Option MOp := some (.salu o true d a sb)
  let sh (o : SaluOp) : Option MOp := whenOk (sb < 32) (.salu o true d a sb)
  match op with
  | 0x01 => r .add | 0x02 => r .sub | 0x03 => r .and | 0x04 => r .or | 0x05 => r .xor | 0x06 => r .shl | 0x07 => r .shr
  | 0x08 => r .sra | 0x09 => r .mul | 0x0A => r .min | 0x0B => r .max | 0x0C => r .slt | 0x0D => r .sltu | 0x0E => r .seq
  | 0x11 => i .add | 0x13 => i .and | 0x14 => i .or | 0x15 => i .xor | 0x16 => sh .shl | 0x17 => sh .shr | 0x18 => sh .sra
  | 0x1C => i .slt
  | _ => none

/-- MOVE class (09 R404): the F bit must be 0. -/
def decMove (op d a b : Nat) : Option MOp :=
  let mk (o : MoveOp) (c : Bool) : Option MOp := whenOk c (.move o d a b)
  match op with
  | 0x01 => mk .vmov (b == 0) | 0x02 => mk .vget (d < 16 && b < 8) | 0x03 => mk .vput (a < 16 && b < 8)
  | 0x04 => mk .vbcst (a < 16 && b < 3) | 0x05 => mk .anarrow (a < 8)
  | 0x06 => mk .movsp (d < 16 && a < 8 && b == 0) | 0x07 => mk .movps (d < 8 && a < 16 && b == 0)
  | 0x08 => mk .movsm (d < 16 && a < 8 && b == 0) | 0x09 => mk .movms (d < 8 && a < 16 && b == 0)
  | 0x0A => mk .movsc (d < 16 && a < 2 && b == 0) | 0x0B => mk .movcs (d < 2 && a < 16 && b == 0)
  | 0x0C => mk .csrr (d < 16 && a < 21 && b == 0) | 0x0D => mk .csrw (d < 21 && a < 16 && b == 0)
  | _ => none

/-- The M field of a parallel bundle of class `cls` (09 R395, R396); a zero field is an empty slot. -/
def decM (cls : Nat) (m : BitVec 23) : Option MOp :=
  let d := fld m 11 5
  let a := fld m 6 5
  let b := fld m 1 5
  let f := m.getLsbD 0
  if m = 0#23 then some .none
  else if cls = 0 then decMac (fld m 16 7) d a b f
  else if cls = 1 then (if fld m 16 2 = 3 then none else decValu (fld m 18 5) (fld m 16 2) d a b f)
  else if cls = 2 then (if fld m 16 2 = 3 ∨ f then none else decVperm (fld m 18 5) (fld m 16 2) d a b)
  else if cls = 3 then decVfp (fld m 16 7) d a b f
  else if cls = 4 then decSalu (fld m 16 7) (fld m 12 4) (fld m 8 4) (fld m 0 8)
  else if f then none else decMove (fld m 16 7) d a b

/-- An X or Y field (09 R406 to R408); stream operations are reserved in the Y slot. -/
def decSlot (isX : Bool) (t : BitVec 16) : Option SlotOp :=
  let v := fld t 7 5
  let p := fld t 4 3
  let u := t.getLsbD 3
  match fld t 12 4 with
  | 0 => whenOk (t == 0#16) .none
  | 1 => whenOk (fld t 0 3 == 0) (.vld v p u)
  | 2 => whenOk (fld t 0 3 == 0) (.vldb v p u)
  | 3 => whenOk (if t.getLsbD 2 then fld t 0 2 != 3 else fld t 0 2 == 0) (.vst v p u (t.getLsbD 2) (fld t 0 2))
  | 4 => some (.staH (fld t 9 3) (fld t 6 3) (t.getLsbD 5) false (fld t 0 5))
  | 5 => some (.staH (fld t 9 3) (fld t 6 3) (t.getLsbD 5) true (fld t 0 5))
  | 6 => some (.staW (fld t 9 3) (fld t 6 3) (t.getLsbD 5) false (t.getLsbD 4) (fld t 0 4))
  | 7 => some (.staW (fld t 9 3) (fld t 6 3) (t.getLsbD 5) true (t.getLsbD 4) (fld t 0 4))
  | 8 => whenOk (fld t 0 4 == 0) (.sld (fld t 8 4) (fld t 5 3) (t.getLsbD 4))
  | 9 => whenOk (fld t 0 4 == 0) (.sst (fld t 8 4) (fld t 5 3) (t.getLsbD 4))
  | 10 =>
    match fld t 7 2 with
    | 0 => whenOk (fld t 0 7 == 0) (.pmod (fld t 9 3))
    | 1 => some (.padd (fld t 9 3) (fld t 0 7))
    | 2 => whenOk (fld t 0 3 == 0) (.pmovs (fld t 9 3) (fld t 3 4))
    | _ => none
  | 11 => whenOk (isX && fld t 0 6 == 0) (.sin v (t.getLsbD 6))
  | 12 => whenOk (isX && !t.getLsbD 0) (.sout v (t.getLsbD 6) (t.getLsbD 5) (fld t 1 4))
  | _ => none

/-- The P field: PEN, PCP, PVD (09 R394). -/
def decP (b : BitVec 64) : Option (Option (Nat × Nat)) :=
  if b.getLsbD 59 then some (some (fld b 58 1, fld b 55 3)) else whenOk (fld b 55 4 == 0) none

/-- MODE and LEN of a modifier are permitted (08 R347). -/
def modifierOk (v : BitVec 32) : Bool :=
  fld v 30 2 != 3 && fld v 27 3 == 0 && (fld v 30 2 != 2 || (fld v 20 7 == 0 && 1 ≤ fld v 16 4 && fld v 16 4 ≤ 11))
/-- Reserved bits of a coefficient pointer are zero (08 R349). -/
def coeffPtrOk (v : BitVec 32) : Bool := fld v 27 5 == 0

/-- A branch bundle (09 R411): fields that the condition does not use are zero. -/
def decBranch (b : BitVec 64) : Option Bundle :=
  let c := fld b 56 4
  let sa := fld b 52 4
  let sb := fld b 48 4
  let sl := fld b 44 4
  let t := fld b 16 16
  let fields := if c = 0 then sa == 0 && sb == 0 && sl == 0
    else if c ≤ 6 then sl == 0
    else if c ≤ 8 then sb == 0 && sl == 0
    else if c = 9 then sa == 0 && sb == 0
    else c == 10 && sb == 0 && sl == 0 && t == 0
  whenOk (fields && fld b 32 12 == 0 && fld b 0 16 == 0 && t % 8 == 0) (.ctl (.branch c sa sb sl t))

/-- A system bundle (09 R414). -/
def decSys (b : BitVec 64) : Option Bundle :=
  let op := fld b 52 8
  let arg := fld b 48 4
  let mk (o : SysOp) : Option Bundle := whenOk (arg == 0 && fld b 0 48 == 0) (.ctl (.sys o))
  match op with
  | 1 => mk .wait | 2 => mk .reti | 3 => mk .dret | 4 => mk .bkpt | 5 => mk .bxclr | 7 => mk .stop
  | 6 => whenOk (8 ≤ arg && arg ≤ 13 && fld b 0 48 == 0) (.ctl (.sys (.sirq arg)))
  | _ => none

/-- Decode a bundle; none where it raises ILLEGAL whatever the state (09 R389 to R415). -/
def decBundle (b : BitVec 64) : Option Bundle :=
  let cls := fld b 60 4
  if cls < 6 then
    match decP b, decM cls (BitVec.ofNat 23 (fld b 32 23)), decSlot true (BitVec.ofNat 16 (fld b 16 16)), decSlot false (BitVec.ofNat 16 (fld b 0 16)) with
    | some p, some m, some x, some y => some (.par p m x y)
    | _, _, _, _ => none
  else if cls = 6 then
    let cs := b.getLsbD 57
    whenOk (fld b 48 5 == 0 && fld b 0 16 == 0 && fld b 16 3 == 0 && (if cs then fld b 32 16 == 0 else fld b 53 4 == 0))
      (.ctl (.loop (fld b 58 2) cs (fld b 53 4) (fld b 32 16) (fld b 16 16)))
  else if cls = 7 then decBranch b
  else if cls = 8 then
    let k := fld b 57 3
    let v := BitVec.ofNat 32 (fld b 0 32)
    let ok := if k = 0 then true else if k = 1 then modifierOk v && fld b 53 4 < 8
      else if k = 2 then coeffPtrOk v && fld b 53 4 < 2 else k == 3 && fld b 16 16 == 0 && fld b 53 4 < 8
    whenOk (ok && fld b 32 21 == 0) (.ctl (.simm k (fld b 53 4) (fld b 0 32)))
  else if cls = 9 then
    let w := fld b 53 2
    whenOk (w != 3 && fld b 32 21 == 0 && fld b 0 32 < 2 ^ laneBits w) (.ctl (.vimm (fld b 55 5) w (fld b 0 32)))
  else if cls = 10 then decSys b
  else if cls = 11 then
    let sub := fld b 56 3
    whenOk (sub < 4 && fld b 32 19 == 0 && fld b 0 16 == 0 && (2 ≤ sub || !b.getLsbD 55))
      (.ctl (.abs (b.getLsbD 59) sub (fld b 51 5) (fld b 16 16)))
  else none

/-! ## Lanes -/

/-- Lane `i` of width `w`, unsigned. -/
def lane {n : Nat} (v : BitVec n) (w i : Nat) : Nat := v.toNat / 2 ^ (w * i) % 2 ^ w
/-- The signed value of a `w`-bit number. -/
def signed (w x : Nat) : Int := if x < 2 ^ (w - 1) then (x : Int) else (x : Int) - 2 ^ w
/-- Lane `i` of width `w`, signed. -/
def slane {n : Nat} (v : BitVec n) (w i : Nat) : Int := signed w (lane v w i)
/-- The `w`-bit pattern of an integer. -/
def wrapTo (w : Nat) (x : Int) : Nat := (x % 2 ^ w).toNat
/-- Lanes of width `w` packed from lane 0. -/
def packLanes (w : Nat) (l : List Nat) : Nat :=
  match l with
  | [] => 0
  | x :: r => x % 2 ^ w + 2 ^ w * packLanes w r
/-- A vector from its lanes. -/
def vecOf (w : Nat) (f : Nat → Nat) : BitVec 256 := BitVec.ofNat 256 (packLanes w ((List.range (256 / w)).map f))

/-! ## Names, addresses -/

/-- The physical register of a vector name under the RW and RB of a CSTAT (08 R344). -/
def physV (cstat : BitVec 32) (n : Nat) : Nat :=
  let w := match fld cstat 26 2 with | 0 => 0 | 1 => 4 | 2 => 8 | _ => 16
  if 16 ≤ n ∧ n < 16 + w then 16 + ((n - 16) + w - fld cstat 22 4 % w) % w else n

/-- Least `k` with `n` at most 2^k, searched up from `k`. -/
def log2Up (fuel n k : Nat) : Nat :=
  match fuel with
  | 0 => k
  | f + 1 => if n ≤ 2 ^ k then k else log2Up f n (k + 1)

/-- Reverse the low `k` bits. -/
def revBits (k x : Nat) : Nat :=
  match k with
  | 0 => 0
  | j + 1 => x % 2 * 2 ^ j + revBits j (x / 2)

/-- The pointer after an access under a modifier (08 R347). -/
def postMod (m : BitVec 32) (p : BitVec 16) : BitVec 16 :=
  let inc := signed 16 (fld m 0 16)
  match fld m 30 2 with
  | 1 =>
    let l := if fld m 16 11 = 0 then 2048 else fld m 16 11
    let b := 5 + log2Up 12 l 0
    let base := p.toNat / 2 ^ b * 2 ^ b
    BitVec.ofNat 16 (base + (((p.toNat - base : Nat) + inc) % (32 * l : Nat)).toNat)
  | 2 =>
    let k := fld m 16 4
    let base := p.toNat / 2 ^ (k + 5) * 2 ^ (k + 5)
    let idx := p.toNat / 32 % 2 ^ k
    let next := (((revBits k idx : Nat) + inc / 32) % (2 ^ k : Nat)).toNat
    BitVec.ofNat 16 (base + 32 * revBits k next)
  | _ => BitVec.ofNat 16 (wrapTo 16 (p.toNat + inc))

/-- The coefficient pointer after a load (08 R349). -/
def cpAdvance (c : BitVec 32) : BitVec 32 :=
  let len := fld c 16 11
  let a := fld c 0 16
  let next := if len = 0 then (a + 32) % 65536
    else
      let b := 5 + log2Up 12 len 0
      let base := a / 2 ^ b * 2 ^ b
      base + (a - base + 32) % (32 * len)
  BitVec.ofNat 32 (c.toNat / 65536 * 65536 + next % 65536)

end Sys2Proof.Machine
end

