-- ==== Sys2Proof/Machine/Flags.lean ====
section
/-! DEFINITION. Rounding, the handling of results that do not fit (09 R387, R388), redundant sign bits (08 R355), and binary32 arithmetic
with its sticky flags (09 R401, R402). -/
namespace Sys2Proof.Machine

/-- rnd(x, sh) under a rounding mode (09 R387): 0 truncate, 1 half up, 2 half even. -/
def rndShift (mode : Nat) (x : Int) (sh : Nat) : Int :=
  if sh = 0 then x
  else if mode = 1 then (x + 2 ^ (sh - 1)) / 2 ^ sh
  else if mode = 2 then
    let q := x / 2 ^ sh
    let r := x % 2 ^ sh
    if 2 * r < 2 ^ sh then q else if 2 ^ sh < 2 * r then q + 1 else if q % 2 = 0 then q else q + 1
  else x / 2 ^ sh

/-- Does `x` fit `w` signed bits? -/
def fitsS (w : Nat) (x : Int) : Bool := -(2 ^ (w - 1)) ≤ x && x < 2 ^ (w - 1)
/-- Clip to `w` signed bits. -/
def clipS (w : Nat) (x : Int) : Int := max (-(2 ^ (w - 1))) (min x (2 ^ (w - 1) - 1))
/-- Mark S (09 R388): clipped when `sat`, else wrapped; the pattern of `w` bits. -/
def markS (sat : Bool) (w : Nat) (x : Int) : Nat := wrapTo w (if sat then clipS w x else x)
/-- Mark N (09 R388): always clipped. -/
def markN (w : Nat) (x : Int) : Nat := wrapTo w (clipS w x)

/-- Leading bits of a `w`-bit number equal to `s`, from bit `k - 1` down. -/
def leadRun (k : Nat) (s : Bool) (x : Nat) : Nat :=
  match k with
  | 0 => 0
  | j + 1 => if x.testBit j == s then 1 + leadRun j s x else 0
/-- Redundant sign bits of a lane (08 R355). -/
def redundantSigns (w x : Nat) : Nat := leadRun w (x.testBit (w - 1)) x - 1
/-- The fewest redundant sign bits of the lanes of a stored word (08 R355). -/
def fewestSigns (w : Nat) (v : BitVec 256) : Nat :=
  (List.range (256 / w)).foldl (fun m i => min m (redundantSigns w (lane v w i))) (w - 1)

/-! ## binary32 -/

/-- A value read from a lane: subnormal inputs are read as zero (09 R401). `num m e` is m times 2 to the e, m not 0. -/
inductive Fp where
  | nan (signalling : Bool)
  | inf (neg : Bool)
  | zero (neg : Bool)
  | num (m : Int) (e : Int)
  deriving DecidableEq, Repr

/-- Sticky flags as CSTAT.FPX holds them: inexact 8, overflow 4, underflow 2, invalid 1. -/
abbrev fxInexact : Nat := 8
abbrev fxOver : Nat := 4 + 8
abbrev fxUnder : Nat := 2 + 8
abbrev fxInvalid : Nat := 1

/-- The NaN every operation writes. -/
abbrev fpNaN : Nat := 0x7FC00000

/-- Read a lane. -/
def fpRead (x : Nat) : Fp :=
  let neg := x.testBit 31
  let ex : Nat := x / 2 ^ 23 % 256
  let fr : Nat := x % 2 ^ 23
  if ex = 255 then (if fr = 0 then .inf neg else .nan (!fr.testBit 22))
  else if ex = 0 then .zero neg
  else .num (if neg then -((2 ^ 23 + fr : Nat) : Int) else ((2 ^ 23 + fr : Nat) : Int)) ((ex : Int) - 150)

/-- Sign bit in place. -/
def fpSign (neg : Bool) : Nat := if neg then 2 ^ 31 else 0

/-- Round a magnitude `m` (not 0) times 2^e to 24 bits, ties to even: significand of 24 bits, exponent, inexact. -/
def fpRound24 (m : Nat) (e : Int) : Nat × Int × Bool :=
  let n := m.log2
  if n ≤ 23 then (m * 2 ^ (23 - n), e - ((23 - n : Nat) : Int), false)
  else
    let sh := n - 23
    let q := m / 2 ^ sh
    let r := m % 2 ^ sh
    let up := 2 ^ sh < 2 * r || (2 * r == 2 ^ sh && q % 2 == 1)
    let q1 := if up then q + 1 else q
    if q1 = 2 ^ 24 then (2 ^ 23, e + ((sh + 1 : Nat) : Int), r != 0) else (q1, e + (sh : Int), r != 0)

/-- Write an exact value as a lane, with its flags (09 R401). -/
def fpWrite (neg : Bool) (m : Nat) (e : Int) : Nat × Nat :=
  let (q, x, inexact) := fpRound24 m e
  if 254 < x + 150 then (fpSign neg + 0x7F800000, fxOver)
  else if x + 150 < 1 then (fpSign neg, fxUnder)
  else (fpSign neg + (x + 150).toNat * 2 ^ 23 + (q - 2 ^ 23), if inexact then fxInexact else 0)

/-- Write an exact signed value m times 2^e; an exact zero takes the sign given. -/
def fpExact (m : Int) (e : Int) (zeroNeg : Bool) : Nat × Nat :=
  if m = 0 then (fpSign zeroNeg, 0) else fpWrite (decide (m < 0)) m.natAbs e

/-- Invalid when an operand is a signalling NaN. -/
def fpSig (l : List Fp) : Nat := if l.contains (.nan true) then fxInvalid else 0
/-- Is it a NaN? -/
def Fp.isNaN (x : Fp) : Bool := match x with | .nan _ => true | _ => false
/-- Sign of a value that is no NaN. -/
def Fp.neg (x : Fp) : Bool := match x with | .inf n => n | .zero n => n | .num m _ => decide (m < 0) | .nan _ => false
/-- The value with the opposite sign. -/
def Fp.flip (x : Fp) : Fp := match x with | .inf n => .inf (!n) | .zero n => .zero (!n) | .num m e => .num (-m) e | .nan s => .nan s

/-- Exact sum of two finite values m times 2^e. -/
def fpSum (a : Int) (ea : Int) (b : Int) (eb : Int) : Int × Int :=
  let e := min ea eb
  (a * 2 ^ (ea - e).toNat + b * 2 ^ (eb - e).toNat, e)

/-- The exact product: 0 x infinity gives a NaN with invalid. -/
def fpProd (a b : Fp) : Fp × Nat :=
  let n := a.neg != b.neg
  match a, b with
  | .nan _, _ => (.nan false, 0)
  | _, .nan _ => (.nan false, 0)
  | .inf _, .zero _ => (.nan false, fxInvalid)
  | .zero _, .inf _ => (.nan false, fxInvalid)
  | .inf _, _ => (.inf n, 0)
  | _, .inf _ => (.inf n, 0)
  | .zero _, _ => (.zero n, 0)
  | _, .zero _ => (.zero n, 0)
  | .num m e, .num k f => (.num (m * k) (e + f), 0)

/-- A value written as a lane. -/
def fpPut (x : Fp) : Nat × Nat :=
  match x with
  | .nan _ => (fpNaN, 0)
  | .inf n => (fpSign n + 0x7F800000, 0)
  | .zero n => (fpSign n, 0)
  | .num m e => fpExact m e false

/-- The rounded sum (09 R401): infinity minus infinity is invalid; an exact zero of unlike signs is positive. -/
def fpAdd (a b : Fp) : Nat × Nat :=
  match a, b with
  | .nan _, _ => (fpNaN, 0)
  | _, .nan _ => (fpNaN, 0)
  | .inf x, .inf y => if x == y then (fpSign x + 0x7F800000, 0) else (fpNaN, fxInvalid)
  | .inf x, _ => (fpSign x + 0x7F800000, 0)
  | _, .inf y => (fpSign y + 0x7F800000, 0)
  | .zero x, .zero y => (fpSign (x && y), 0)
  | .zero _, y => fpPut y
  | x, .zero _ => fpPut x
  | .num m e, .num k f => let s := fpSum m e k f; fpExact s.1 s.2 false

/-- Lanes with the flags of R401 ORed. -/
def fpOr (x : Nat × Nat) (f : Nat) : Nat × Nat := (x.1, x.2 ||| f)

/-- d + a x b with a single rounding. -/
def fpFma (d a b : Fp) : Nat × Nat :=
  let p := fpProd a b
  fpOr (fpAdd p.1 d) (p.2 ||| fpSig [d, a, b])

/-- a > b; false when either is a NaN. -/
def fpGt (a b : Fp) : Bool :=
  match a, b with
  | .nan _, _ => false
  | _, .nan _ => false
  | .inf x, .inf y => !x && y
  | .inf x, _ => !x
  | _, .inf y => y
  | .zero _, .zero _ => false
  | .zero _, .num k _ => decide (k < 0)
  | .num m _, .zero _ => decide (0 < m)
  | .num m e, .num k f => decide (0 < (fpSum m e (-k) f).1)

/-- The lesser or greater value (09 R402). Of two zeros of unlike sign the spec names neither: the sign is a free value (log entry 2). -/
def fpMinMax (greater : Bool) (a b : Fp) (free : Nat) : Nat × Nat :=
  let f := fpSig [a, b]
  if a.isNaN || b.isNaN then (fpNaN, f)
  else match a, b with
    | .zero x, .zero y => (fpSign (if x == y then x else Config.freeNat free % 2 == 0), f)
    | _, _ => fpOr (fpPut (if fpGt a b == greater then a else b)) f

/-- fp32 to int32 (09 R402): rounded to nearest even; out of range clipped with invalid; NaN gives 0 with invalid. -/
def fpToInt (a : Fp) : Nat × Nat :=
  match a with
  | .nan _ => (0, fxInvalid)
  | .zero _ => (0, 0)
  | .inf n => (if n then 0x80000000 else 0x7FFFFFFF, fxInvalid)
  | .num m e =>
    let r := if 0 ≤ e then m * 2 ^ (min e 200).toNat else rndShift 2 m (-e).toNat
    if fitsS 32 r then (wrapTo 32 r, if 0 ≤ e ∨ m % 2 ^ (-e).toNat = 0 then 0 else fxInexact)
    else (markN 32 r, fxInvalid)

/-- One lane of an fp32 operation: destination lane read, operands, free value; the lane written and the flags raised (09 R402). -/
def fpLane (op : VfpOp) (d a b free : Nat) : Nat × Nat :=
  let x := fpRead a
  let y := fpRead b
  match op with
  | .vfma => fpFma (fpRead d) x y
  | .vfms => fpFma (fpRead d) x.flip y
  | .vfmul => let p := fpProd x y; fpOr (fpPut p.1) (p.2 ||| fpSig [x, y])
  | .vfadd => fpOr (fpAdd x y) (fpSig [x, y])
  | .vfsub => fpOr (fpAdd x y.flip) (fpSig [x, y])
  | .vfmin => fpMinMax false x y free
  | .vfmax => fpMinMax true x y free
  | .vfabs => (if x.isNaN then fpNaN else match x with | .zero _ => 0 | _ => a % 2 ^ 31, 0)
  | .vfneg => (if x.isNaN then fpNaN else match x with | .zero n => fpSign (!n) | _ => a ^^^ 2 ^ 31, 0)
  | .vfcmpgt => (if fpGt x y then 2 ^ 32 - 1 else 0, if x.isNaN || y.isNaN then fxInvalid else 0)
  | .vcvtf => fpExact (signed 32 a) 0 false
  | .vcvti => fpToInt x

end Sys2Proof.Machine
end

