-- ==== Sys2Proof/Machine/Places.lean ====
section
/-! DEFINITION. Where the resources of the fabric lie, by their numbers, and what the wipe of a partition removes (05 R221; 06 R256 to R268, R279, R283; 07 R297). -/
namespace Sys2Proof.Machine

/-! ## Numbers and places (06 R256, R257, R267, R283; 07 R297) -/

/-- A tile's number, and the partition that spans its column. -/
def tileKey (t : TileId) : Nat := (t.die.val * 512 + t.row.val) * 384 + t.col.val
def tilePart (t : TileId) : Nat := t.die.val * 16 + t.col.val / 24
/-- Partition of a tile by its number. -/
def keyPart (k : Nat) : Nat := k / 196608 * 16 + k % 384 / 24
/-- Number of a logic cell; the cell before it in the carry chain, which runs south within a die (06 R260). -/
def cellKey (c : CellId) : Nat := tileKey c.tile * 16 + c.n.val
def cellBefore (c : CellId) : Option CellId :=
  if 0 < c.n.val then some { c with n := Fin.ofNat 16 (c.n.val - 1) }
  else if 0 < c.tile.row.val then some { tile := { c.tile with row := Fin.ofNat 512 (c.tile.row.val - 1) }, n := 15 }
  else none
/-- Number of a multiply cell, and its partition. -/
def mulKey (m : MulId) : Nat := m.die.val * 6144 + m.n.val
def mulPart (k : Nat) : Nat := k / 384
/-- Number of a segment end. -/
def segKey (e : SegEnd) : Nat :=
  let h := match e.heading with | .north => 0 | .east => 1 | .south => 2 | .west => 3
  let l := match e.len with | .one => 0 | .two => 1 | .four => 2 | .twelve => 3 | .express48 => 4
  ((tileKey e.tile * 4 + h) * 5 + l) * 64 + e.n.val
/-- Tile of a segment end. -/
def segTile (k : Nat) : Nat := k / 1280
/-- Number of a seam signal, and of its group of 1,024 (06 R268). -/
def seamKey (x : SeamId) : Nat := (x.seam.val * 2 + (if x.back then 1 else 0)) * 24576 + x.n.val
def seamGroup (k : Nat) : Nat := k / 24576 * 24 + k % 24576 / 1024
/-- The partitions on the lower and on the higher die of a seam that a signal joins: a row of columns 383 and 0, or a shared column (06 R267). -/
def seamEnds (seam n : Nat) : Nat × Nat :=
  if seam < 6 then
    let d := seam + seam / 3
    (16 * d + 15, 16 * (d + 1))
  else (16 * (seam - 6) + n / 64 / 24, 16 * (seam - 2) + n / 64 / 24)
/-- The partitions that a seam signal comes from and goes to. -/
def seamFrom (k : Nat) : Nat :=
  let e := seamEnds (k / 49152) (k % 24576)
  if k / 24576 % 2 = 0 then e.1 else e.2
def seamTo (k : Nat) : Nat :=
  let e := seamEnds (k / 49152) (k % 24576)
  if k / 24576 % 2 = 0 then e.2 else e.1
/-- Partition that owns user I/O pin `pin` (06 R283). -/
def pinPart (pin : Nat) : Nat :=
  let b := pin / 52
  let n := pin % 52
  16 * (b / 2) + 8 * (b % 2) + 4 * (n / 2) / 13
/-- First pin of the clock-capable pair of a partition: its first pair (06 R283). -/
def clockPin (p : Nat) : Nat := 52 * (p / 8) + 2 * ((13 * (p % 8) + 3) / 4)
/-- Number of a crossing cell. -/
def crossKey (x : XId) : Nat := x.part.val * 65536 + x.n.val
/-- Key of a RAM. -/
def ramKey (r : RamId) : Nat := (if r.deep then 32768 else 0) + r.die.val * 2560 + r.num.val
/-- Partition that owns a RAM (07 R297). -/
def ramPart (r : RamId) : Nat := r.die.val * 16 + (if r.deep then r.num.val / 40 else r.num.val / 160)
/-- Partition of a global queue block number (07 R297). -/
def qbPart (b : Nat) : Nat := b / 8

/-- Partition of a frame address, DIE and PART fields (05 R221). -/
def frameX (a : Nat) : Nat := a / 4096

/-! ## What a wipe removes -/

/-- The configured fabric once partition `p` is wiped. -/
def logicWipe (f : Logic) (p : Nat) : Logic :=
  { tiles := f.tiles.filter fun x => keyPart x.1 != p
    cells := f.cells.filter fun x => keyPart (x.1 / 16) != p
    muls := f.muls.filter fun x => mulPart x.1 != p
    segs := f.segs.filter fun x => keyPart (segTile x.1) != p
    ports := f.ports.filter fun x => x.2.frm != p
    groups := f.groups.filter fun x => x.2.1 != p
    seams := f.seams.filter fun x => seamFrom x.1 != p
    banks := f.banks.filter fun x => x.2.1 != p
    pins := f.pins.filter fun x => pinPart x.1 != p
    serdes := f.serdes.filter fun x => pinPart (2 * x.1) != p
    taps := f.taps.filter fun x => x.1 / 2048 != p
    clocks := f.clocks.filter fun x => x.2.1 != p
    cross := f.cross.filter fun x => x.1 / 65536 != p }

/-- The fabric once partition `p` is wiped (04 R164; 06 R277 to R279): a fabric signal of it no longer asserts a reset tree. -/
def fabWipe (f : Fabric) (p : Nat) : Fabric :=
  let gone (g : Nat) : Bool :=
    match tabFind f.trees g with | some t => t.home == p || (match t.src with | some (.logic q _) => q.val == p | _ => false) | none => false
  { f with
    frames := f.frames.filter fun x => frameX x.1 != p
    badWords := f.badWords.filter fun x => frameX (x.1 / 512) != p
    logic := logicWipe f.logic p
    written := setBit f.written p false
    trees := f.trees.filter fun t => t.2.home != p
    user := (List.range 8).foldl (fun m g => if gone g then setBit m g false else m) f.user
    userHold := (List.range 8).foldl (fun m g => if gone g && f.user.getLsbD g then setBit m g true else m) f.userHold
    spare := f.spare.filter fun x => pinPart x.1 != p
    heldBack := setBit f.heldBack p false }
/-- The memories once partition `p` is wiped (04 R164; 07 R330): RAMs and blocks return to their reset condition with their configuration. -/
def memWipe (m : Memories) (p : Nat) : Memories :=
  let part (k : Nat) : Nat := k % 32768 / 2560 * 16 + (if 32768 ≤ k then k % 32768 % 2560 / 40 else k % 2560 / 160)
  { m with
    rams := m.rams.filter fun x => part x.1 != p
    qbs := m.qbs.filter fun x => qbPart x.1 != p
    links := m.links.filter fun x => qbPart (x.2 - 1) != p
    linkMark := setBit m.linkMark p false }

end Sys2Proof.Machine
end

