-- ==== Sys2Proof/Machine/Tenants.lean ====
section
/-! DEFINITION. Tenant resets, fault records and the abort of a load, which other families start (01 R37 to R49, 11 R503 to R505,
05 R231). -/
namespace Sys2Proof.Machine

/-- Role epoch of a partition and of an engine (01 R45). -/
def partEpoch (s : State) (p : Nat) : Nat := tabGet s.obj (O_PART_EPOCH p) 0
def engEpoch (s : State) (e : Nat) : Nat := tabGet s.obj (O_ENG_EPOCH e) 0

/-- Advance the epoch held at an object by one modulo 256 (01 R46). -/
def bumpEpoch (o : Tab Nat) (k : Nat) : Tab Nat := tabPut o k ((tabGet o k 0 + 1) % 256)

/-- Partitions and engines of tenant `t` (01 R35). -/
def partsOf (s : State) (t : Nat) : List Nat := (List.range 128).filter fun p => tabGet s.obj (O_PART_OWNER p) 0 == t
def engsOf (s : State) (t : Nat) : List Nat := (List.range 768).filter fun e => tabGet s.obj (O_ENG_OWNER e) 0 == t

/-- The epochs of some partitions and engines advance. -/
def advanceEpochs (s : State) (ps es : List Nat) : State :=
  { s with obj := (es.map O_ENG_EPOCH).foldl bumpEpoch ((ps.map O_PART_EPOCH).foldl bumpEpoch s.obj) }

/-- State code of a partition: 0 UNCONFIGURED, 1 RUNNING, 2 ISOLATED, 3 DORMANT (06 R279). -/
def partState (s : State) (p : Nat) : Nat := tabGet s.obj (O_PART_STATE p) 0
/-- Completions of open requests of some partitions and engines are to be discarded (01 R40; 06 R281). -/
def orphan (ps es : List Nat) (txs : Tab Tx) : Tab Tx :=
  txs.map fun x => (x.1, match x.2.init with
    | .ap p => if ps.contains p.val then { x.2 with gone := true } else x.2
    | .eng e _ => if es.contains e.val then { x.2 with gone := true } else x.2
    | _ => x.2)
/-- The access point of a partition that stops running: its cache empties and its channels hold nothing (10 R454, R463). -/
def apClear (v : Vent) (p : Nat) : Vent :=
  { v with
    cache := tabDel v.cache p, apq := tabDel v.apq p, wrecv := tabDel v.wrecv p, wneed := tabDel v.wneed p
    apOut := tabDel v.apOut p, msgs := tabDel v.msgs p, txs := orphan [p] [] v.txs, fetch := v.fetch.filter fun f => f.point != p
    wdata := v.wdata.filter fun x => x.1 / 2 ^ 40 != p, inb := v.inb.filter fun x => x.1 / 256 != p }
/-- Set the state of a partition; one that is not RUNNING has its user I/O off and its access point's cache empty (06 R281, 10 R454). -/
def setPart (s : State) (p st : Nat) : State :=
  { s with
    obj := tabPut s.obj (O_PART_STATE p) st
    fab := { s.fab with ioOn := setBit s.fab.ioOn p (st == 1) }
    vent := if st = 1 then s.vent else apClear s.vent p }

/-- Set the fabric record. -/
def setFab (s : State) (f : Fabric) : State := { s with fab := f }
/-- Set the memories record. -/
def setMem (s : State) (m : Memories) : State := { s with mem := m }
/-- A partition is wiped and left unconfigured (01 R39 step 5, 04 R164, 06 R279, 07 R330). -/
def wipePart (s : State) (p : Nat) : State :=
  let s1 := setPart s p 0
  setMem (setFab s1 (fabWipe s1.fab p)) (memWipe s1.mem p)

/-- Does load `l` name a resource of tenant `t` (05 R243)? -/
def loadNames (s : State) (l : Load) (t : Nat) : Bool :=
  (List.range 128).any (fun p => l.parts.getLsbD p && partOwner s p == t) || l.engs.any (fun e => engOwner s e.eng == t)

/-- What an aborted load has already changed is undone (05 R235, R243): partitions that it had isolated, released again or not, are wiped and left unconfigured; what
a boot load had written is wiped, engine memories included. -/
def abortWipe (s : State) (l : Load) : State :=
  if l.phase != .writing && l.phase != .wiping then s
  else if l.boot then { (List.range 128).foldl wipePart s with eng := [] }
  else ((List.range 128).filter (l.parts.getLsbD ·)).foldl wipePart s
/-- The running load aborts with a reason (05 R231): its region is to be wiped, LOAD_RESULT and LAST_ABORT take the event's data,
event 0x2302 is logged. -/
def abortLoad (s : State) (reason : Nat) : State :=
  match s.ld.load with
  | none => s
  | some l =>
    if l.reason ≠ 0 then s else
    let d := reason * 65536 + l.src.toNat * 256 + l.next % 256
    let s1 := abortWipe s l
    let s2 := { s1 with ld := { s1.ld with
      load := some { l with phase := .wiping, reason := reason }
      result := BitVec.ofNat 24 d, lastAbort := BitVec.ofNat 24 d, state := 4#8 } }
    let s3 := logEvT s2 0x2302 sevErr d ((l.tenant.map Fin.val).getD 0) 0xFFFF
    match l.follow with
    | some i => logEv s3 0x230D sevErr (i * 65536 + reason)
    | none => s3

/-- A POWER_OFF in progress of the named engines is abandoned (08 R363). -/
def abandonOff (es : List Nat) (t : Tab Engine) : Tab Engine :=
  es.foldl (fun t e => let g := tabGet t e {}; if g.power == some false then tabSet t e { g with power := none } {} else t) t

/-- A tenant reset of `t` is accepted (01 R39 steps 1 to 3): a running one absorbs it (R44); otherwise its units refuse, the cached
entries tagged `t` are emptied, its epochs advance, its token buckets fill (10 R448), and a load naming its resources aborts (05 R243). -/
def startReset (s : State) (t source : Nat) : State :=
  match tabFind s.ten.resets t with
  | some _ => s
  | none =>
    let s1 := { s with
      ten := { s.ten with resets := tabPut s.ten.resets t { step := 3, source := source } }
      eng := abandonOff (engsOf s t) s.eng
      vent := { s.vent with
        cache := s.vent.cache.map fun c => (c.1, c.2.filter fun e => e.tenant != t)
        fetch := s.vent.fetch.filter fun f => f.tenant != t
        txs := orphan (partsOf s t) (engsOf s t) s.vent.txs
        tokens := s.vent.tokens.filter fun b => b.1 % 16 != t
        tokLevel := tabPut s.vent.tokLevel t (oGet s (O_TB_BURST t)) } }
    let s2 := advanceEpochs s1 (partsOf s t) (engsOf s t)
    match s.ld.load with
    | some l => if loadNames s l t then abortLoad s2 0x14 else s2
    | none => s2

/-- A fault of kind `bit` of tenant `t`, reported with event data `data` (11 R503, R504). -/
def recordFault (s : State) (t bit data : Nat) : State :=
  let old := oGet s (O_FAULT_RECORD t)
  if old.testBit bit then s else
  let auto := (oGet s (O_FAULT_AUTORESET t)).testBit bit && (tabFind s.ten.resets t).isNone
  let s1 := oSet s (O_FAULT_RECORD t) (old ||| 2 ^ bit)
  let s2 := if old = 0
    then oSet s1 (O_FAULT_INFO t) (bit * 2 ^ 28 + data % 2 ^ 24) else s1
  let s3 := logEvT s2 0x2903 sevWarn (bit + if auto then 256 else 0) t 0xFFFF
  if auto then startReset s3 t 3 else s3

/-- Is partition `p` refusing with TENANT_RESET: a reset of its tenant, or its own treatment, is between steps 2 and 6 (01 R48)? -/
def partRefuses (s : State) (p : Nat) : Bool :=
  (tabFind s.ten.resets (partOwner s p)).isSome || ((tabFind s.ten.reassign p).map (·.step)).getD 0 ≠ 0
/-- The same of an engine. -/
def engRefuses (s : State) (e : Nat) : Bool :=
  (tabFind s.ten.resets (engOwner s e)).isSome || ((tabFind s.ten.reassign (128 + e)).map (·.step)).getD 0 ≠ 0

end Sys2Proof.Machine
end

