-- ==== Sys2Proof/Machine/Resets.lean ====
section
/-! DEFINITION. Cold and warm resets as shared operations: what each keeps (04 R158 to R168, R185, 15 R735). Everything not named here
returns to what State.reset holds. -/
namespace Sys2Proof.Machine

/-- What the supplies keep across a reset: rails, pin levels, bank conditions, straps, the trip latch and the condition after a trip, which POR_N alone ends
(02 R96). -/
def keepPower (p : Power) : Power :=
  { State.reset.pwr with
    vaux := p.vaux, rails := p.rails, porN := p.porN, sysRstN := p.sysRstN, vccioUnused := p.vccioUnused
    vccioHiZ := p.vccioHiZ, tripLatch := p.tripLatch, straps := p.straps, sampled := p.sampled, effReset := p.effReset
    mioBank := p.mioBank, tripped := p.tripped, gone := p.gone }

/-- What the clock monitor keeps across a cold reset: it runs whenever VCCAUX is in range (03 R111). The latched reference failure is not kept (log entry 94). -/
def keepMonitor (c : Clocks) : Clocks :=
  { State.reset.clk with
    inBand := c.inBand, accepted := c.accepted, refCount := c.refCount, goodRun := c.goodRun, badRun := c.badRun
    xtalStable := c.xtalStable, late50 := c.late50 }

/-- What AON keeps of the reset unit across every reset. -/
def keepAon (r : ResetUnit) : ResetUnit :=
  { State.reset.rst with
    cause := r.cause, count := r.count, abandoned := r.abandoned, wdExpired := r.wdExpired, wipeTime := r.wipeTime
    lc := r.lc, lcOld := r.lcOld, lcFail := r.lcFail, nextProfile := r.nextProfile, trainFull := r.trainFull
    wakeCause := r.wakeCause, standbyTime := r.standbyTime }

/-- A reset that runs has not yet reached boot. -/
def inReset (s : State) : Bool := s.rst.phase == .held && !s.pwr.tripped

/-- HB_TX sends its edges: a twin that is clocked, in no reset and not FENCED (14 R622). -/
def hbRuns (s : State) : Bool := clocked s && !s.pwr.effReset && !inReset s && strapMode s == 2 && oGet s O_TWIN_STATE != 5
/-- GONE pulses sent once the device enters a reset or a thermal trip: three more where HB_TX sent its edges (14 R622; log entry 111). -/
def goneAfter (s : State) : Nat := if hbRuns s then s.pwr.gone + 3 else s.pwr.gone

/-- The state of the device in a cold reset whose cause code is `cause` (04 R158, R162, R163). A flush that it cuts short abandons retention;
how long it had run is a free value below 5 ms (log entry 2). TRAIN_FULL returns to 0 with causes 0x0001 and 0x0002 (12 R526). -/
def coldReset (s : State) (cause : Nat) : State :=
  let first := inReset s && !s.rst.warm
  let rec_ := if first then s.rst.cause else BitVec.ofNat 16 cause
  { State.reset with
    pending := s.pending, freeCtr := s.freeCtr + freeBlock
    pwr := { keepPower s.pwr with effReset := true, gone := goneAfter s }
    vbat := s.vbat, fuse := s.fuse, clk := keepMonitor s.clk, twin := { State.reset.twin with gnt := s.twin.gnt }
    rst := { keepAon s.rst with
      cause := rec_
      count := if inReset s then s.rst.count else s.rst.count + 1#32
      abandoned := if s.rst.flushing then some (Config.freeNat s.freeCtr % 5000) else s.rst.abandoned
      trainFull := s.rst.trainFull && rec_ != 1#16 && rec_ != 2#16
      warm := false, phase := .held } }

/-- The condition after a thermal trip (02 R96): the power switches are open and every clock but AON32K stands, so that no unit holds or does anything; what AON and
the supplies keep of a cold reset is kept, effective reset among it (R80), and the level of INIT_DONE (log entry 92). -/
def tripHold (s : State) (site : Nat) : State :=
  { State.reset with
    pending := s.pending, freeCtr := s.freeCtr
    pwr := { keepPower s.pwr with
      tripped := true, tripLatch := some (s.pwr.tripLatch.getD site), corePwrEn := s.pwr.corePwrEn, monSuspended := s.pwr.monSuspended
      gone := goneAfter s }
    vbat := s.vbat, fuse := s.fuse, clk := keepMonitor s.clk
    rst := { keepAon s.rst with phase := .held, initDone := s.rst.initDone } }

/-- A channel that comes through a warm reset with retention: its key material, counters and region table are kept and it is to be trained
(12 R560). -/
def keepChan (x : Chan) : Chan :=
  { x with
    stage := 1, attempt := 0, usesStored := false, kept := true, full := false, sized := true, resetN := true, ccache := [], deriving_ := false
    back := [], rows := [], owed := [], refabAt := none, alert := false, replays := 0, beyond := false, corrMark := false }
/-- The DRAM of a channel holds what was written: it is ready, in self-refresh while its controller is gated, or a channel kept by an earlier warm reset that
trains again, which alters no data (12 R525, R560). -/
def chanHolds (s : State) (c : Nat) : Bool :=
  oGet s (O_CHAN_STATE c) == 2 || oGet s (O_CHAN_STATE c) == 4 || (oGet s (O_CHAN_STATE c) == 1 && (tabGet s.ddr.chans c {}).kept)
/-- Device memory through a warm reset: the channels that hold their contents are kept under their key, of another its region table, for the epochs that the key has
seen; the boot consults stored results where such a channel had been populated (04 R163, R167; 12 R525, R526, R560). -/
def keepDdr (s : State) : Ddr :=
  { State.reset.ddr with
    key := s.ddr.key, keyKept := true
    consults := (List.range 16).any fun c => !chanHolds s c && oGet s (O_CHAN_STATE c) != 0
    chans := s.ddr.chans.map fun x => (x.1, if chanHolds s x.1 then keepChan x.2 else { recs := x.2.recs, regions := x.2.regions }) }
/-- The objects of the kept channels: sizing, rate and capacity as they were, state suspended until step 6. -/
def keepDdrObj (s : State) : Tab Nat :=
  (List.range 16).foldl (fun o c =>
    if chanHolds s c then
      tabPut (tabPut (tabPut (tabPut o (O_CHAN_STATE c) 4) (O_DDR_SIZING c) (oGet s (O_DDR_SIZING c)))
        (O_DDR_RATE c) (oGet s (O_DDR_RATE c))) (O_USABLE_BYTES c) (oGet s (O_USABLE_BYTES c))
    else o) []

/-- The twin pair through a warm reset: the level at WITNESS_GNT; with the DDR key kept, the mirror data of a device that stood in STANDBY at the split are
still intact (14 R632). -/
def keepTwin (s : State) : Twin :=
  { State.reset.twin with
    gnt := s.twin.gnt
    intact := s.rst.retain && (oGet s O_TWIN_STATE == 3 || (oGet s O_TWIN_STATE == 1 && s.twin.intact)) }
/-- The state once a warm reset has stopped everything and the wipe is to run: the trim, straps, DTIME, event log and clocks, a latched reference failure
among them (log entry 94), are kept, enables are clear, RW objects are at their defaults (04 R163, 15 R735); what
a failed wipe or the tamper latch has stopped stays stopped (04 R165, 05 R235); device memory is kept with `retain` alone. -/
def warmCore (s : State) : State :=
  { State.reset with
    pending := s.pending, freeCtr := s.freeCtr + freeBlock
    obj := if s.rst.retain then keepDdrObj s else []
    ddr := if s.rst.retain then keepDdr s else State.reset.ddr
    twin := keepTwin s
    pwr := { keepPower s.pwr with effReset := false }
    vbat := s.vbat, fuse := s.fuse, dbg := s.dbg, ld := { State.reset.ld with tamperStop := s.ld.tamperStop }
    clk := { s.clk with clkEn := 0#38, clkRun := 0#38, gatedLogged := 0#38, synths := []
                        syncPhase1 := false, syncSeen := false }
    fw := { State.reset.fw with dtime := s.fw.dtime, sixths := s.fw.sixths, ring := s.fw.ring, seq := s.fw.seq
                                pos := s.fw.pos, lost := s.fw.lost }
    rst := { keepAon s.rst with
      warm := true, retain := s.rst.retain, wipeFailed := s.rst.wipeFailed
      phase := if s.pwr.sysRstN then .wiping else .held } }

/-- A warm reset ends a debug token, the attachment of a debugger and what the port has in flight (17 R723, R729), and supersedes a running load (05
R243), whose pending battery-backed key is discarded (R234); the port's other registers and the line are kept (17 R710, R713; log entry 32). -/
def resetDebug (s : State) : State :=
  let s1 := match s.dbg.token with | some t => tokenEvent s t 0x2E03 1 | none => s
  let s2 := if s.dbg.attached then logEv s1 0x2E04 sevInfo 0 else s1
  abortLoad { s2 with
    ld := { s2.ld with pendingBbk := none }
    dbg := { s2.dbg with token := none, attached := false, verifying := none, memOp := none, tunOp := none, rbWait := none } } 0x14

/-- A warm reset with cause code `cause` (04 R158, R162, R167, R185): merged into a running reset; held behind fuse programming; with WARM_RETAIN, as it stands
now (R735), it starts the flush; a running tenant reset or load it supersedes at once (R185; 01 R44; 05 R243). In steps 1 and 2 of a transition it is held as in
steps 3 and 4 (log entry 106). -/
def warmGo (s : State) (cause : Nat) : State :=
  if inReset s || s.pwr.tripped || !s.pwr.vaux then s
  else if s.rst.lcRun.isSome then { s with rst := { s.rst with heldWarm := true } }
  else
    let s0 := resetDebug { s with pwr := { s.pwr with gone := goneAfter s }, rst := { s.rst with cause := BitVec.ofNat 16 cause, count := s.rst.count + 1#32 } }
    if oGet s O_WARM_RETAIN = 1 then
      { s0 with
        ten := {}, ld := { State.reset.ld with tamperStop := s0.ld.tamperStop }
        rst := { s0.rst with warm := true, retain := true, flushing := true, phase := .held, treesHeld := true, standby := .none, standbyEmul := false } }
    else warmCore { s0 with rst := { s0.rst with retain := false } }
/-- A warm reset that a STANDBY entry ignores (04 R160, R185). -/
def warmReset (s : State) (cause : Nat) : State := if s.rst.standby ≠ .none then s else warmGo s cause

/-- The device falls asleep: CORE_PWR_EN falls and the rails of groups 2 and 3 are no longer monitored (04 R178 step 4; 02 R86, R71). -/
def standbySleep (s : State) : State :=
  { s with
    rst := { s.rst with standby := .asleep, standbyEmul := false }
    pwr := { s.pwr with corePwrEn := false, monSuspended := true } }

end Sys2Proof.Machine
end

