-- ==== Sys2Proof/Machine/Clocks.lean ====
section
/-! DEFINITION. Clocks, monitors, trimming, enables, synthesizers and crossing cells (03). -/
namespace Sys2Proof.Machine

/-- Set the clock record. -/
def setClk (s : State) (c : Clocks) : State := { s with clk := c }

/-- A reserved strap value was sampled (02 R79). -/
def strapError (s : State) : Bool :=
  strapMode s == 3 || strapRefSel s == 3 || (strapRefFreq s == 3 && strapRefSel s != 2)

/-- Band of a window count (03 R123): start band until RC100 has been trimmed against REFIN, running band from then on. -/
def bandOf (s : State) : Nat × Nat :=
  let f := if strapRefSel s = 2 then 0 else strapRefFreq s
  match f, s.clk.trimmedRef with
  | 0, false => (239, 273)
  | 0, true => (251, 261)
  | 1, false => (953, 1095)
  | 1, true => (1004, 1044)
  | 2, false => (1488, 1712)
  | 2, true => (1568, 1632)
  | _, _ => (1, 0)

/-- RC100 runs: not in STANDBY, OFF or after a thermal trip (03 R108). -/
def rc100Runs (s : State) : Bool := s.pwr.vaux && !s.pwr.tripped && s.rst.standby != .asleep
/-- The crystal oscillator is not needed, or it is stable (03 R112). -/
def xtalOk (s : State) : Bool := strapRefSel s != 2 || s.clk.xtalStable

/-- Acceptance of REFIN; in REDUCED mode with the PLL locked the root switches to REF mode (03 R114). -/
def acceptRef (c : Clocks) : Clocks :=
  { c with accepted := true, mode := if c.locked && c.mode == .reduced then .ref else c.mode }

/-- `CRYSTAL_STABLE` (03 R112): the acceptance test follows, so the windows before count for nothing. -/
def execCrystalStable (s : State) : Res :=
  .next (if rc100Runs s && strapRefSel s == 2 && !s.clk.xtalStable then setClk s { s.clk with xtalStable := true, goodRun := 0 } else s)

/-- `CRYSTAL_EDGE_TIMEOUT` (03 R112): the count restarts from zero, also after the crystal was judged stable (log entry 93). -/
def execCrystalEdgeTimeout (s : State) : Res :=
  .next (if rc100Runs s && strapRefSel s == 2 then setClk s { s.clk with xtalStable := false } else s)

/-- `ROOT_PLL_LOCK` (03 R111): after the end of effective reset, whatever SYS_RST_N; REF mode if REFIN has been accepted, REDUCED otherwise; RC100 alone after a
strap error. -/
def execRootPllLock (s : State) : Res :=
  .next (if rc100Runs s && !s.pwr.effReset && s.rst.standby == .none && !s.clk.locked then
    setClk s { s.clk with locked := true, mode := if s.clk.accepted && !strapError s then .ref else .reduced }
  else s)

/-- `REFIN_EDGE_TIMEOUT` (03 R124); nothing while the monitor is suspended (log entry 94). -/
def execRefinEdgeTimeout (s : State) : Res :=
  .next (if clocked s && s.clk.mode == .ref && !s.clk.monStopped then setClk s { s.clk with holdover := true } else s)

/-- `REFIN_ACCEPT_TIMEOUT` (03 R113). -/
def execRefinAcceptTimeout (s : State) : Res :=
  .next (if rc100Runs s && !s.clk.accepted && !s.clk.late50 then
    logEv (setClk s { s.clk with late50 := true }) 0x2203 sevErr s.clk.refCount.toNat else s)

/-- RC100 has been counted over an AON32K period (03 R121); before the root PLL has locked a failure is only noted (log entry 94). -/
def rcCheck (s : State) (count : Nat) : State :=
  if 2747 ≤ count && count ≤ 3357 then setClk s { s.clk with rcBad := 0 }
  else if s.clk.rcBad + 1 < 4 then setClk s { s.clk with rcBad := s.clk.rcBad + 1 }
  else if !s.clk.locked then setClk s { s.clk with rcBad := 4 }
  else if s.clk.mode == .ref then
    if s.clk.monStopped then s
    else logEv (setClk s { s.clk with rcBad := 4, trimFrozen := true, monStopped := true }) 0x2205 sevErr count
  else coldReset s 0x0003

/-- `RC100_CHECK` (03 R121). -/
def execRc100Check (count : BitVec 16) (s : State) : Res :=
  .next (if rc100Runs s then rcCheck s count.toNat else s)

/-- `TRIM_ACQUIRED` (03 R117): the loop against REFIN sets the trim; the running band applies from now on. -/
def execTrimAcquired (code : BitVec 16) (s : State) : Res :=
  .next (if rc100Runs s && s.clk.accepted && !s.clk.trimFrozen then
    setClk s { s.clk with trim := code, trimSource := 1#8, trimmedRef := true, trimHeld := false } else s)

/-- `SYNC_TRIM_PHASE1_DONE` (03 R117, R120): the trim is set and the controller joins the bus; TRIM_SOURCE stays until the first trim of phase 2. Phase 1 runs once
in a boot, also where REFIN was accepted and lost again (log entry 95). -/
def execSyncTrimPhase1Done (code : BitVec 16) (s : State) : Res :=
  .next (if syncTrims s && !s.clk.syncPhase1 then
    setClk s { s.clk with trim := code, syncPhase1 := true, syncSeen := false } else s)

/-- A SYNC frame arrives (03 R117 to R119): the first of phase 2, or after a silence, starts the interval and trimming resumes; each later one trims RC100; in REDUCED
mode the first trim switches the root to RC mode. -/
def syncFrame (s : State) (code : BitVec 16) : State :=
  if !syncTrims s || !s.clk.syncPhase1 || oGet s O_COMM_CYCLE = 0 then s
  else if !s.clk.syncSeen then setClk s { s.clk with syncSeen := true, trimHeld := false }
  else
    let s1 := setClk s { s.clk with trim := code, trimSource := 2#8, trimHeld := false }
    if s.clk.mode == .reduced && s.clk.locked then
      logEv (setClk s1 { s1.clk with mode := .rc }) 0x2204 sevInfo code.toNat
    else s1

/-- `SYNC_FRAME` (03 R117): `code` is the trim that the comparison with the communication cycle period gives. -/
def execSyncFrame (code : BitVec 16) (s : State) : Res := .next (syncFrame s code)

/-- `SYNC_TIMEOUT` (03 R119): 16 communication cycle periods of phase 2 without a SYNC frame. -/
def execSyncTimeout (s : State) : Res :=
  .next (if syncTrims s && s.clk.syncPhase1 && oGet s O_COMM_CYCLE != 0 && !s.clk.trimHeld then
    logEv (setClk s { s.clk with trimHeld := true, syncSeen := false }) 0x2209 sevWarn s.clk.trim.toNat else s)

/-- `AON32K_MEASURE` (03 R122). -/
def execAon32kMeasure (mHz : BitVec 32) (s : State) : Res :=
  .next (if operating s then oSet s O_AON32K_FREQ mHz.toNat else s)

/-- Writing REF_STATUS: 0 in bit 2 clears the latch, everything else is ignored (03 R155). -/
def wrRefStatus (r : Req) (len val : Nat) (s : State) : State :=
  objWriteP r O_REF_STATUS len val (fun s => if val.testBit 2 then s else setClk s { s.clk with refFail := false }) s

/-- `REF_STATUS_WRITE` (03 R155). -/
def execRefStatusWrite (r : Req) (v : BitVec 8) (s : State) : Res := .next (wrRefStatus r 1 v.toNat s)

/-- The root returns from RC to REF mode when the last 16 windows are in band; in another mode the write is aborted (03 R126; log entry 94), as it is after a strap
error, which leaves the device on RC100 (02 R79). Event 0x2202 counts the windows modulo 2^24, from the reset where no failure has been (log entry 94). -/
def wrRefReselect (r : Req) (len val : Nat) (s : State) : State :=
  objWriteG r O_REF_RESELECT len val { state := s.clk.mode == .rc && 16 ≤ s.clk.goodRun && !s.clk.monStopped && !strapError s } noRej
    (fun s => logEv (setClk s { s.clk with mode := .ref, accepted := true, holdover := false, badRun := 0 }) 0x2202 sevInfo s.clk.sinceFail) s

/-- `REF_RESELECT` (03 R126). -/
def execRefReselect (r : Req) (v : BitVec 8) (s : State) : Res := .next (wrRefReselect r 1 v.toNat s)

/-! ## Clock enables -/

/-- Does a valid SAM entry target device memory (03 R132)? The KIND field stands in bits [19:16] of word 0. -/
def samUsesDram (s : State) : Bool :=
  (List.range 256).any fun i =>
    let w := tabGet s.obj (O_SAM_ENTRY_LO 0 + (i / 128) * 256 + i % 128) 0
    w.testBit 63 && (w / 65536) % 16 == 1

/-- May the enable of unit `u` be cleared (03 R132)? -/
def mayGate (s : State) (u : Nat) : Bool :=
  if 0x11 ≤ u ∧ u < 0x15 then !s.hub.cxlUp.getLsbD (u - 0x11)
  else if 0x15 ≤ u ∧ u < 0x19 then oGet s (O_CASC_TRAIN_STATE (u - 0x15)) != 4
  else if u = unTwin then oGet s O_TWIN_STATE != 4 && oGet s O_TWIN_STATE != 3
  else if u = unCache then !samUsesDram s && oGet s O_HOST_QUOTA_MIB == 0
  else true

/-- May the enable of unit `u` be set: not in REDUCED mode, and no guest gate of a site that carries nothing (03 R106, R156)? -/
def mayClock (s : State) (u : Nat) : Bool :=
  s.clk.mode != .reduced && (u < 0x24 || s.fuse.sites.getLsbD (u - 0x24))

/-- A DDR5 controller that stops puts its DIMMs into self-refresh; on its return it leaves self-refresh (03 R130, R131; 12 R562 (CHAN_STATE)). -/
def chanSleep (s : State) (u old new : Nat) : State :=
  if 1 ≤ u ∧ u < 0x11 ∧ tabGet s.obj (O_CHAN_STATE (u - 1)) 0 = old then oSet s (O_CHAN_STATE (u - 1)) new else s

/-- Set an enable: the clock starts and the unit resumes from its kept state (03 R131); the once-only report of GATED starts anew. -/
def setEnable (s0 : State) (u : Nat) : State :=
  let s := chanSleep s0 u 4 2
  setClk s { s.clk with
    clkEn := setBit s.clk.clkEn u true, clkRun := setBit s.clk.clkRun u true
    gatedLogged := if s.clk.clkEn.getLsbD u then s.clk.gatedLogged else setBit s.clk.gatedLogged u false }

/-- Clear an enable: new requests are answered GATED from now on, the clock runs until the accepted requests are complete
(03 R130); clearing PROBE stops a capture (06 R294). -/
def clearEnable (s : State) (u : Nat) : State :=
  let s1 := setClk s { s.clk with
    clkEn := setBit s.clk.clkEn u false
    gatedLogged := if s.clk.clkEn.getLsbD u then setBit s.clk.gatedLogged u false else s.clk.gatedLogged }
  if u = unProbe ∧ (oGet s O_CAP_STATE = 1 ∨ oGet s O_CAP_STATE = 2) then oSet s1 O_CAP_STATE 4 else s1

/-- A request has reached gated unit `u`: the first answer GATED since the enable changed logs event 0x2208 (03 R129). -/
def answerGated (s : State) (u : Nat) : State :=
  if s.clk.gatedLogged.getLsbD u then s
  else logEv (setClk s { s.clk with gatedLogged := setBit s.clk.gatedLogged u true }) 0x2208 sevWarn (u + 1)

/-! ## Synthesizers (03 R133 to R139) -/

/-- Synthesizer `i`, that is Fd.Sk with i = 4d + k. -/
def synthOf (s : State) (i : Nat) : Synth := tabGet s.clk.synths i {}
/-- Set it. -/
def setSynth (s : State) (i : Nat) (y : Synth) : State := setClk s { s.clk with synths := tabPut s.clk.synths i y }

/-- Distance of a VCO frequency from 6.0 GHz, kHz. -/
def vcoDist (d f : Nat) : Nat := if d * f ≤ 6000000 then 6000000 - d * f else d * f - 6000000

/-- D for a target in kHz: even, 8 to 400, VCO nearest 6.0 GHz, the larger of two equally near (03 R133). -/
def chooseD (f : Nat) : Nat :=
  (List.range 197).foldl (fun best k => if vcoDist (8 + 2 * k) f ≤ vcoDist best f then 8 + 2 * k else best) 8

/-- Would a glide to `f` leave the VCO range at the present D (03 R136)? -/
def glideFits (y : Synth) (f : Nat) : Bool := 4000000 ≤ y.d * f && y.d * f ≤ 8000000

/-- APPLY (03 R134 to R136). A relock after a lost lock (R138) counts as a running change, and a stopped synthesizer (R139) takes none (log entry 94). -/
def wrSynthApply (r : Req) (i len val : Nat) (s : State) : State :=
  let y := synthOf s i
  let f := oGet s (O_SYNTH_TARGET i)
  let glide := oGet s (O_SYNTH_MODE i) == 1
  objWriteG r (O_APPLY i) len val
    { state := y.run == .none && !y.stopped && (!glide || glideFits y f) } noRej
    (fun s => if glide then setSynth s i { y with run := .glide, goal := f }
      else setSynth s i { y with run := .gatedLock, goal := f, low := true, locked := false, d := chooseD f }) s

/-- `SYNTH_APPLY` (03 R134). -/
def execSynthApply (r : Req) (i : Fin 32) (v : BitVec 8) (s : State) : Res := .next (wrSynthApply r i.val 1 v.toNat s)

/-- `SYNTH_LOCKED` (03 R135 step 3). -/
def execSynthLocked (i : Fin 32) (s : State) : Res :=
  let y := synthOf s i.val
  .next (if clocked s && y.run == .gatedLock && !y.stopped then
    setSynth s i.val { y with locked := true, run := .gatedRelease, vco := y.d * y.goal } else s)

/-- `SYNTH_RELEASE` (03 R135 step 4); SYNTH_FREQ keeps the old frequency until now, also while the output is held low (log entry 94). -/
def execSynthRelease (i : Fin 32) (s : State) : Res :=
  let y := synthOf s i.val
  .next (if clocked s && y.run == .gatedRelease && !y.stopped then
    setSynth s i.val { y with low := false, run := .none, freq := y.goal } else s)

/-- One step of a glide: the VCO moves toward its goal by at most 1 % of its present frequency, D unchanged (03 R136). -/
def glideStep (y : Synth) : Synth :=
  let goal := y.d * y.goal
  let v := if y.vco ≤ goal then min goal (y.vco + y.vco / 100) else max goal (y.vco - y.vco / 100)
  { y with vco := v, freq := if v = goal then y.goal else v / y.d, run := if v = goal then .none else .glide }

/-- `SYNTH_GLIDE_STEP` (03 R136). -/
def execSynthGlideStep (i : Fin 32) (s : State) : Res :=
  let y := synthOf s i.val
  .next (if clocked s && y.run == .glide && !y.stopped then setSynth s i.val (glideStep y) else s)

/-- `SYNTH_LOCK_LOST` (03 R138): the output is held low, the synthesizer relocks at its present target and is released as a gated change. -/
def execSynthLockLost (i : Fin 32) (s : State) : Res :=
  let y := synthOf s i.val
  .next (if clocked s && y.locked && !y.stopped then
    logEv (setSynth s i.val { y with locked := false, low := true, run := .gatedLock
                                     freq := y.freq }) 0x2206 sevErr i.val
  else s)

/-- The synthesizers of a die stop with it, or restart at their stored targets in gated mode (03 R139). -/
def synthsStop (s : State) (d : Nat) : State :=
  (List.range 4).foldl (fun a k => setSynth a (4 * d + k) { synthOf a (4 * d + k) with stopped := true, low := true, locked := false, run := .none }) s
/-- Restart. -/
def synthsRestart (s : State) (d : Nat) : State :=
  (List.range 4).foldl (fun a k =>
    let f := oGet a (O_SYNTH_TARGET (4 * d + k))
    setSynth a (4 * d + k) { synthOf a (4 * d + k) with stopped := false, low := true, locked := false, run := .gatedLock, goal := f, d := chooseD f }) s

end Sys2Proof.Machine
end

