-- ==== Sys2Proof/Machine/Authority.lean ====
section
/-! DEFINITION. Debug authority, tokens and the attachment of a debugger (17 R723 to R729), as operations that resets, keys and the tamper
latch use. -/
namespace Sys2Proof.Machine

/-- Set the debug record. -/
def setDbg (s : State) (d : Debug) : State := { s with dbg := d }

/-- The real end of a die's dormancy entry: its synthesizers stop and its power switch opens (04 R173 steps 3 and 4). -/
def dieReal (s : State) (d : Nat) : State := synthsStop s d

/-- The attachment ends (17 R723, R725): event 0x2E04; emulated dormant dies complete steps 3 and 4, dies that have drained step 3, an emulated STANDBY drives CORE_PWR_EN
low. -/
def endAttach (s : State) : State :=
  if !s.dbg.attached then s else
  let s1 := logEv (setDbg s { s.dbg with attached := false }) 0x2E04 sevInfo 0
  let s2 := (List.range 8).foldl (fun a d => if a.rst.dieEmul.getLsbD d || (dieOf a d == .entering && partState a (16 * d) == 3) then dieReal a d else a) s1
  let s3 := { s2 with rst := { s2.rst with dieEmul := 0#8 } }
  if s3.rst.standbyEmul then standbySleep s3 else s3

/-- The token ends for a reason of event 0x2E03; with the end of device-wide authority the attachment ends (17 R729, R723). -/
def endToken (s : State) (why : Nat) : State :=
  match s.dbg.token with
  | none => s
  | some t =>
    let s1 := tokenEvent (setDbg s { s.dbg with token := none }) t 0x2E03 why
    if wideAuth s1 then s1 else endAttach s1

end Sys2Proof.Machine
end

