-- ==== Sys2Proof/Machine/Power.lean ====
section
/-! DEFINITION. Supplies, the power monitor, the thermal trip and the VBAT domain (02). -/
namespace Sys2Proof.Machine

/-- Set the power record. -/
def setPwr (s : State) (p : Power) : State := { s with pwr := p }

/-- Bit of a monitored rail in RAIL_STATUS (02 R102). -/
def monBit (r : MonRail) : Nat :=
  match r with | .vccfab => 0 | .vcceng => 1 | .vccbase => 2 | .vcclane => 3 | .vccddr => 6 | .vccaux => 7

/-- Are all monitored rails of R71 in range? -/
def monitoredIn (rails : BitVec 28) : Bool := rails &&& 0xCF#28 == 0xCF#28
/-- RAIL_STATUS bits of the unused banks (02 R72). -/
def unusedMask (p : Power) : BitVec 28 := p.vccioUnused.setWidth 28 <<< 12
/-- Are all rails of groups 2 and 3 of R81 in range, but for unused banks? -/
def groupsIn (p : Power) (rails : BitVec 28) : Bool := (rails ||| unusedMask p) &&& 0xFFFF65F#28 == 0xFFFF65F#28
/-- Rails as RAIL_STATUS shows them: the bit of an unused bank reads 0 (02 R72). -/
def railsSeen (p : Power) (rails : BitVec 28) : BitVec 28 := rails &&& ~~~unusedMask p

/-- What survives the loss of VCCAUX: fuses and the VBAT domain (04 R183); everything else returns to its state at power-up. -/
def powerUp (s : State) (vaux : Bool) (straps : BitVec 16) : State :=
  { State.reset with
    pending := s.pending, freeCtr := s.freeCtr + freeBlock, vbat := s.vbat, fuse := s.fuse
    pwr := { State.reset.pwr with
      vaux := vaux, corePwrEn := vaux, straps := straps
      rails := if vaux then State.reset.pwr.rails else 0#28
      porN := if vaux then s.pwr.porN else false }
    rst := { State.reset.rst with count := if vaux then 1#32 else 0#32 } }

/-- VCCAUX is in range: present, and in no brownout (02 R67, R71, R77). -/
def auxIn (s : State) : Bool := s.pwr.vaux && s.pwr.rails.getLsbD 7

/-- `VCCAUX_RISE` (02 R81; 04 R183): a cold reset with cause 0x0001; VBAT is measured as VCCAUX returns, and shows in RAIL_STATUS while it is from 2.2 to 3.6 V
(R67); the clock monitor goes by the levels of the strap pins until they are sampled (03 R111). Back in range after a brownout, VCCAUX ends no OFF state: the reset of
the brownout goes on (log entry 105). -/
def execVccauxRise (vbatMv straps : BitVec 16) (s : State) : Res :=
  .next (if auxIn s then s else
    let s1 := if s.pwr.vaux then setPwr s { s.pwr with rails := setBit s.pwr.rails 7 true } else powerUp s true (straps &&& 0xFFFC#16)
    { s1 with
      vbat := { s.vbat with mvAtReturn := vbatMv }
      pwr := { s1.pwr with rails := setBit s1.pwr.rails 11 (2200 ≤ vbatMv.toNat && vbatMv.toNat ≤ 3600) } })

/-- `VCCAUX_LOSS` (04 R183): OFF. -/
def execVccauxLoss (s : State) : Res := .next (if s.pwr.vaux then powerUp s false 0#16 else s)

/-- `POR_N_LOW` (02 R80, R96): effective reset, a cold reset with cause 0x0001; it ends the condition after a thermal trip. -/
def execPorNLow (s : State) : Res :=
  .next (if s.pwr.vaux then
    let s1 := coldReset s 0x0001
    setPwr s1 { s1.pwr with porN := false, tripped := false }
  else s)

/-- `POR_N_RISE` (02 R80; 17 R732): the count of 1 ms begins; the TAP returns to IDCODE. -/
def execPorNRise (s : State) : Res :=
  .next (if s.pwr.vaux then
    setDbg (setPwr s { s.pwr with porN := true }) { s.dbg with tap := .idcode } else s)

/-- Effective reset ends (02 R78, R80): the straps are sampled after a cold reset, and boot begins unless SYS_RST_N is low. It does not end while the condition
after a thermal trip lasts (R96), nor before VCCAUX has come back into range. -/
def effectiveResetEnd (s : State) (straps : BitVec 16) (rails : BitVec 28) : State :=
  if auxIn s && !s.pwr.tripped && s.pwr.porN && s.pwr.effReset && monitoredIn rails && s.rst.phase == .held && s.rst.standby == .none then
    { s with
      pwr := { s.pwr with effReset := false, rails := railsSeen s.pwr rails, monSuspended := false, sampled := true
                          straps := if s.rst.warm then s.pwr.straps else straps &&& 0xFFFC#16 }
      rst := { s.rst with phase := if s.pwr.sysRstN then .wiping else .held } }
  else s

/-- `EFFECTIVE_RESET_END` (02 R80). -/
def execEffectiveResetEnd (straps : BitVec 16) (rails : BitVec 28) (s : State) : Res := .next (effectiveResetEnd s straps rails)

/-- `BROWNOUT` (02 R71, R80): not while monitoring of the rail is suspended. After a thermal trip the rail is out of range and effective reset asserted, and nothing else
proceeds (04 R185). -/
def execBrownout (rail : MonRail) (s : State) : Res :=
  .next (if s.pwr.vaux && (rail == .vccaux || !s.pwr.monSuspended) then
    let s1 := if s.pwr.tripped then setPwr s { s.pwr with effReset := true } else coldReset s 0x0002
    setPwr s1 { s1.pwr with rails := setBit s1.pwr.rails (monBit rail) false }
  else s)

/-- `VCCIO_OUT_OF_RANGE` (02 R72). -/
def execVccioOutOfRange (bank : Fin 16) (s : State) : Res :=
  .next (if s.pwr.vaux && !s.pwr.vccioUnused.getLsbD bank.val && !s.pwr.vccioHiZ.getLsbD bank.val then
    logEv (setPwr s { s.pwr with vccioHiZ := setBit s.pwr.vccioHiZ bank.val true
                                 rails := setBit s.pwr.rails (12 + bank.val) false }) 0x2103 sevErr bank.val
  else s)

/-- `VCCIO_RETURN` (02 R72). -/
def execVccioReturn (bank : Fin 16) (s : State) : Res :=
  .next (if s.pwr.vaux && !s.pwr.vccioUnused.getLsbD bank.val then
    setPwr s { s.pwr with vccioHiZ := setBit s.pwr.vccioHiZ bank.val false
                          rails := setBit s.pwr.rails (12 + bank.val) true } else s)

/-- `VCCIO_RISE` (02 R72): the bank is no longer unused until VCCAUX next rises. -/
def execVccioRise (bank : Fin 16) (s : State) : Res :=
  .next (if s.pwr.vaux then setPwr s { s.pwr with vccioUnused := setBit s.pwr.vccioUnused bank.val false } else s)

/-- Add the values of a list to the sums of a table, unit by unit. -/
def addSums (t : Tab Nat) (l : List (BitVec 32)) (i : Nat) : Tab Nat :=
  match l with
  | [] => t
  | v :: r => addSums (tabPut t i (tabGet t i 0 + v.toNat)) r (i + 1)

/-- `POWER_MONITOR_SAMPLE` (02 R90): the sample joins the running 1 ms window. -/
def execPowerMonitorSample (pkg : BitVec 32) (dies : Vector (BitVec 32) 8) (rails : Vector (BitVec 32) 7) (s : State) : Res :=
  .next (if clocked s then setPwr s { s.pwr with
    sumPkg := s.pwr.sumPkg + pkg.toNat, sumDie := addSums s.pwr.sumDie dies.toList 0
    sumRail := addSums s.pwr.sumRail rails.toList 0, samples := s.pwr.samples + 1 } else s)

/-- Throttle level (02 R91). -/
def throttleLevel (s : State) : Nat := oGet s O_THROTTLE_LEVEL

/-- The throttle level after a window with mean power `p` (02 R91): one up while above the cap and CAP_ACTION is 0x01, one down below 95 %. -/
def nextThrottle (s : State) (p : Nat) : Nat :=
  let n := throttleLevel s
  let cap := oGet s O_POWER_CAP
  if cap < p then (if oGet s O_CAP_ACTION = 1 then min 15 (n + 1) else n)
  else if p * 100 < cap * 95 then n - 1
  else n

/-- The means of a window enter the power objects (02 R90, R102), cut down to whole mW; a window without a sample reports 0 (log entry 96). -/
def storeMeans (s : State) : State :=
  let n := max 1 s.pwr.samples
  let p := s.pwr.sumPkg / n
  let s1 := oSet (oSet s O_PKG_POWER p) O_PKG_POWER_PEAK (max p (oGet s O_PKG_POWER_PEAK))
  let s2 := (List.range 8).foldl (fun a d => oSet a (O_DIE_POWER d) (tabGet s.pwr.sumDie d 0 / n)) s1
  (List.range 7).foldl (fun a r => oSet a (O_RAIL_POWER r) (tabGet s.pwr.sumRail r 0 / n)) s2

/-- The end of a 1 ms window (02 R90, R91, R103); event 0x2101 carries the mean cut down to 100 mW, event 0x2102 the longest
throttle period since reset (log entry 96). -/
def powerWindowEnd (s : State) : State :=
  let p := s.pwr.sumPkg / max 1 s.pwr.samples
  let old := throttleLevel s
  let new := nextThrottle s p
  let s1 := storeMeans s
  let s2 := if oGet s O_POWER_CAP < p then logEv s1 0x2101 sevWarn (p / 100) else s1
  let s3 := oSet s2 O_THROTTLE_LEVEL new
  let run := if 0 < old then s.pwr.thrRun + 1 else 0
  let long := max s.pwr.thrLongest run
  let s4 := setPwr s3 { s3.pwr with sumPkg := 0, sumDie := [], sumRail := [], samples := 0
                                    thrRun := if new = 0 then 0 else run, thrLongest := long }
  if 0 < old ∧ new = 0 then logEv s4 0x2102 sevInfo long else s4

/-- `POWER_WINDOW_END` (02 R91). -/
def execPowerWindowEnd (s : State) : Res := .next (if clocked s then powerWindowEnd s else s)

/-- `THERMAL_TRIP` (02 R96; 04 R185): the trip is latched with the first site, and no other event proceeds until POR_N is driven low. -/
def execThermalTrip (site : Fin 40) (s : State) : Res :=
  .next (if s.pwr.vaux && !s.pwr.tripped then tripHold s site.val else s)

/-- The running load meets the tamper latch (05 R235); a load that has already aborted for another reason does not abort again, but a boot load tries no fallback
(log entry 88). -/
def tamperLoad (s : State) : State :=
  match s.ld.load with
  | none => s
  | some l =>
    let s1 := if l.reason = 0 then logEv (abortLoad s 0x13) 0x2307 sevErr l.src.toNat else s
    if l.boot then { s1 with ld := { s1.ld with tamperStop := true } } else s1

/-- The tamper latch sets (02 R99, R103): the key RAM is zeroed, a running load aborts (05 R235), a debug token ends (17 R729), and the
firmware, while it runs, logs event 0x2104. A latch that is set already sets again; its time is the state's DTIME, which is 0 in OFF and the DTIME of the entry in STANDBY
(log entry 97). -/
def tamperSets (s : State) : State :=
  let s1 := { s with vbat := { s.vbat with
    key := 0#256, keyHeld := false, tamper := true, tamperLogged := fwRuns s
    tamperTime := BitVec.ofNat 24 (s.fw.dtime / 1000) } }
  let s2 := if fwRuns s then logEv s1 0x2104 sevErr (s.fw.dtime / 1000 % 2 ^ 24) else s1
  endToken (tamperLoad s2) 5

/-- `TAMPER` (02 R99). -/
def execTamper (s : State) : Res := .next (tamperSets s)

/-- The domain is powered from VBAT: VCCAUX is absent or out of range (02 R97). -/
def onVbat (s : State) : Bool := !auxIn s
/-- `VBAT_LOW` (02 R100): VBAT, `mv`, is below 2.0 V while VCCAUX is absent or out of range; a latch that is set already sets again (log entry 97). -/
def execVbatLow (mv : BitVec 16) (s : State) : Res :=
  .next (if onVbat s && decide (mv.toNat < 2000) then { s with
    vbat := { s.vbat with key := 0#256, keyHeld := false, low := true, lowLogged := false }
    pwr := { s.pwr with rails := setBit s.pwr.rails 11 false } } else s)

/-- `VBAT_DOMAIN_RESET` (02 R100): the domain is powered from VCCAUX while that is in range. -/
def execVbatDomainReset (s : State) : Res := .next (if onVbat s then { s with vbat := {} } else s)

/-- VBAT_LATCH_CLEAR (02 R101, R102): both latches clear; the tamper latch sets again at once while its cause persists. -/
def wrVbatLatchClear (r : Req) (len val : Nat) (tamperHeld : Bool) (s : State) : State :=
  objWriteP r O_VBAT_LATCH_CLEAR len val (fun s =>
    let s1 := { s with vbat := { s.vbat with tamper := false, low := false } }
    if tamperHeld then tamperSets s1 else s1) s

/-- `VBAT_LATCH_CLEAR` (02 R102). -/
def execVbatLatchClear (r : Req) (v : BitVec 8) (tamperHeld : Bool) (s : State) : Res :=
  .next (wrVbatLatchClear r 1 v.toNat tamperHeld s)

end Sys2Proof.Machine
end

