-- ==== Sys2Proof/WellFormed.lean ====
section
/-! DEFINITION. Which commands a sender can send. The operands' types say most of it; what they cannot say stands here. No meaning stops on a command that
is not well formed: these are the operands that no hardware gives. -/
namespace Sys2Proof

/-- Keys that strictly rise. -/
def risingKeys {α : Type} (l : List (Nat × α)) : Bool :=
  match l with
  | [] => true
  | (k, _) :: r => (match r with | [] => true | (j, _) :: _ => k < j) && risingKeys r
/-- No entry twice. -/
def noRepeat {α : Type} [DecidableEq α] (l : List α) : Bool :=
  match l with
  | [] => true
  | x :: r => !r.contains x && noRepeat r

/-- A width of a RAM port: 64 bits in ECC mode, else one of 07 R298, where a deep RAM has no mode below x9. -/
def ramWidthOk (deep ecc : Bool) (w : Nat) : Bool :=
  if ecc then w == 64 else if deep then [9, 18, 36, 72].contains w else [1, 2, 4, 9, 18, 36, 72].contains w
/-- A clock that logic of die `d` can use: a global tree, or a regional clock of the die (06 R259; 07 R299). -/
def clkOf (d : Nat) (c : ClkSel) : Bool := match c with | .glob _ => true | .reg e _ => e.val == d
/-- A port that configuration can make: with its width, its clock, and in ECC mode its output register (07 R298 to R300). -/
def ramPortOk (deep ecc : Bool) (d : Nat) (p : RamPort) : Bool :=
  ramWidthOk deep ecc p.width && clkOf d p.clk && (p.reads || p.writes) && (!ecc || p.outReg)
/-- Two partitions of a die that share a boundary (06 R257); across a seam a signal passes through a crossing register (06 R269). -/
def neighbours (a b : Nat) : Bool := a / 16 == b / 16 && (a + 1 == b || b + 1 == a)
/-- Length of a segment in tiles. -/
def segSpan (l : SegLen) : Nat := match l with | .one => 1 | .two => 2 | .four => 4 | .twelve => 12 | .express48 => 48
/-- The tile at which the segment that ends at `e` starts: its length away, against its heading, on the die's grid (06 R256, R265). -/
def segStart (e : SegEnd) : Option TileId :=
  let n := segSpan e.len
  match e.heading with
  | .south => if n ≤ e.tile.row.val then some { e.tile with row := Fin.ofNat 512 (e.tile.row.val - n) } else none
  | .north => if e.tile.row.val + n < 512 then some { e.tile with row := Fin.ofNat 512 (e.tile.row.val + n) } else none
  | .east => if n ≤ e.tile.col.val then some { e.tile with col := Fin.ofNat 384 (e.tile.col.val - n) } else none
  | .west => if e.tile.col.val + n < 384 then some { e.tile with col := Fin.ofNat 384 (e.tile.col.val + n) } else none
/-- The tile whose switch box a signal of a cell or of a segment end stands at; the others lie between tiles (06 R256). -/
def sigTile (x : Sig) : Option TileId :=
  match x with
  | .lut c | .sum c | .cout c | .ff c _ => some c.tile
  | .seg e => some e.tile
  | _ => none
/-- A segment is driven at the tile where it starts (06 R265). -/
def segOk (e : SegEnd) (src : Sig) : Bool :=
  match segStart e with | none => false | some t => (match sigTile src with | some u => u == t | none => true)
/-- An item of a design that Pelnath can make (06 R258 to R285; 07 R297 to R319). -/
def designOk (d : DesignItem) : Bool :=
  match d with
  | .tile t c => c.clk.toList.all fun x => (x.map (clkOf t.die.val)).getD true
  | .mul m c => clkOf m.die.val c.clk && c.a.length ≤ 27 && c.b.length ≤ 27 && c.d.length ≤ 27 && c.c.length ≤ 58
  | .port _ a b _ => neighbours a.val b.val
  | .seg e c => segOk e c.src
  | .pin n c => (c.clk.map (clkOf (n.val / 104))).getD true
  | .serdes k c => clkOf (k.val / 52) c.clk
  | .cross x _ a b => clkOf (x.part.val / 16) a && clkOf (x.part.val / 16) b
  | .clock _ c x => match c with | .glob _ => true | .reg d _ => (match x with | .synth i => i.val / 4 | .pair p => p.val / 16 | .lane l => l.val / 4) == d.val
  | .ram id ecc a b _ frame _ => decide (id.num.val < (if id.deep then 640 else 2560)) && frame.getLsbD 11
      && ramPortOk id.deep ecc id.die.val a && ramPortOk id.deep ecc id.die.val b
  | .qb b _ flush drop thr prod cons wclk rclk => (flush || drop) && 1 ≤ thr && thr ≤ 1023 && clkOf (b.val / 128) wclk && clkOf (b.val / 128) rclk
      && (match prod with | .engine e => e.val / 96 == b.val / 128 | .fabric => true)
      && (match cons with | .engine e => e.val / 96 == b.val / 128 | .fabric => true)
  | .cell _ _ | .seam _ _ | .seamGroup _ _ _ _ _ _ | .bank _ _ _ _ | .spare _ | .tap _ _ _ _ | .tree _ _ _ _ => true
/-- A flash holds at most 4 GiB, its bytes listed in rising order (05 R194). -/
def chipOk (c : FlashChip) : Bool := decide (c.cap ≤ 2 ^ 32) && risingKeys c.cells && c.cells.all fun x => decide (x.1 < c.cap)
/-- The longest object value is a DOMAIN of 32,768 bytes (06 R293). -/
def valueFits (n : Nat) : Bool := 1 ≤ n && n ≤ 32768

/-- Well-formed commands. -/
def wellFormed (c : Instr) : Bool :=
  match c with
  | .registerWrite (.obj _ _ _ value) => valueFits value.length
  | .registerWrite (.engine _ off _) => off.toNat % 4 == 0
  | .data _ _ flits _ _ _ => flits.length ≤ 16
  | .flashDirectoryRead x0 x1 _ _ => chipOk x0 && chipOk x1
  | .framesWritten design | .partialWriteDone design => design.all designOk
  | .scrubFrameCheck frame _ _ _ => !frame.getLsbD 11 && decide (frame.toNat % 2048 < 1368)
  | .captureTrigger samples => samples != []
  | .captureComplete samples => samples.length ≤ 4095
  | .ddrChannelReady _ bad => noRepeat bad
  | .ideMacFail _ lines => noRepeat lines
  | .fuDone bad | .paramStoreDone bad => risingKeys bad
  | _ => true

end Sys2Proof
end

