-- ==== Sys2Proof/Machine/Logic.lean ====
section
/-! DEFINITION. The programmable fabric itself: tiles, logic cells, carry chains, multiply cells, segments with their hop registers, boundary ports, seams, user
pins, clock and reset trees, and one step of all of it (03 R140 to R154; 06 R256 to R286; log entries 80 to 84). -/
namespace Sys2Proof.Machine

/-- Set the configured fabric. -/
def setLogic (s : State) (l : Logic) : State := setFab s { s.fab with logic := l }

/-- A partition is RUNNING. -/
def partRuns (s : State) (p : Nat) : Bool := partState s p == 1
/-- Both partitions run and belong to one tenant: a boundary port between them passes its signal (06 R280). -/
def passes (s : State) (p q : Nat) : Bool := partRuns s p && partRuns s q && partOwner s p == partOwner s q
/-- A value from outside the fabric, or one that the spec leaves open: free value number `k` of this step. -/
def extBit (s : State) (k : Nat) : Bool := Config.freeNat (s.freeCtr + 2 ^ 40 + k) % 2 == 1

/-! ## Clock trees (03 R140, R141; 06 R273; 13 R576) -/

/-- Number of a clock tree. -/
def clkKey (c : ClkSel) : Nat := match c with | .glob n => n.val | .reg d n => 24 + 32 * d.val + n.val
/-- Die of a source. -/
def srcDie (x : ClkSrc) : Nat := match x with | .synth i => i.val / 4 | .pair p => p.val / 16 | .lane l => l.val / 4
/-- A regional clock is sourced in its own die (06 R273). -/
def clkLegal (c : ClkSel) (x : ClkSrc) : Bool := match c with | .glob _ => true | .reg d _ => srcDie x == d.val
/-- The bank of a pin has its supply (02 R70, R72). -/
def bankOn (s : State) (pin : Nat) : Bool := !s.pwr.vccioUnused.getLsbD (pin / 52) && !s.pwr.vccioHiZ.getLsbD (pin / 52)
/-- Does a source run: a synthesizer that is locked and released; a pin pair whose bank has its supply; the recovered clock of a lane that is ON with the
signal present and its CDR locked (03 R135, R139; 13 R576, R579, R580)? -/
def srcOn (s : State) (x : ClkSrc) : Bool :=
  match x with
  | .synth i => let y := tabGet s.clk.synths i.val {}; clocked s && y.locked && !y.low && !y.stopped
  | .pair p => bankOn s (clockPin p.val)
  | .lane l =>
    let st := BitVec.ofNat 16 (oGet s (O_LANE_STATUS (96 + l.val)))
    clocked s && oGet s (O_LANE_STATE (96 + l.val)) == 0 && st.getLsbD 2 && st.getLsbD 3
      && (partRuns s (16 * (l.val / 4) + 8) || (oGet s (O_PRBS_CTRL (96 + l.val))).testBit 13)
/-- A clock tree by its number: configured, and its source runs. -/
def treeClkOn (s : State) (k : Nat) : Bool := match tabFind s.fab.logic.clocks k with | some x => srcOn s x.2 | none => false
/-- The clock that a selection names runs. -/
def clkOn (s : State) (c : ClkSel) : Bool := treeClkOn s (clkKey c)
/-- A running clock has an edge in this step or not: a free value of the clock and the step (log entry 81). -/
def keyEdge (s : State) (k : Nat) : Bool := treeClkOn s k && Config.freeNat (s.freeCtr + k) % 2 == 1
def clkEdge (s : State) (c : ClkSel) : Bool := keyEdge s (clkKey c)
/-- An edge of a clock at a register of die `d`: a regional clock reaches no register of another die (03 R141). -/
def edgeAt (s : State) (d : Nat) (c : ClkSel) : Bool := clkOf d c && clkEdge s c

/-! ## Reset trees (06 R274 to R277) -/

/-- Source partition of a user source: of a pin the partition that owns the pin (06 R274). -/
def treeSrcPart (x : TreeSrc) : Nat := match x with | .logic p _ => p.val | .pin n => pinPart n.val
/-- Source partition of tree `g`, if it has a user source. -/
def treeFrom (s : State) (g : Nat) : Option Nat := (tabFind s.fab.trees g).bind fun t => t.src.map treeSrcPart
/-- The user source of tree `g` asserts it: its level is up and its partition runs. -/
def userOn (s : State) (g : Nat) : Bool :=
  s.fab.user.getLsbD g && (match treeFrom s g with | some p => partRuns s p | none => false)
/-- Does an assertion of tree `g` reach partition `p` (06 R275 to R277), one that still waits for the release clock included (03 R143)? -/
def treeIn (s : State) (g p : Nat) : Bool :=
  partRuns s p && (s.rst.treesHeld || s.fab.pulse.getLsbD g || s.fab.relHold.getLsbD g
    || ((userOn s g || s.fab.userHold.getLsbD g) && (match treeFrom s g with | some q => partOwner s q == partOwner s p | none => false)))

/-! ## User pins (06 R284 to R286) -/

/-- Standards that a bank of a nominal VCCIO offers: as an input, as an output (06 R284). -/
def stdInput (v : Vccio) (x : PinStd) : Bool :=
  match v with
  | .v18 => [PinStd.lvcmos18, .hstl18i, .hstl18ii, .sstl18i, .lvds, .diffHstl18].contains x
  | .v15 => [PinStd.lvcmos15, .hstl15i, .hstl15ii, .sstl15, .diffSstl15].contains x
  | .v12 => [PinStd.lvcmos12, .hstl12, .sstl12, .pod12, .diffPod12, .slvs400].contains x
  | .v10 => [PinStd.lvcmos10, .slvs400].contains x
def stdOutput (v : Vccio) (x : PinStd) : Bool := stdInput v x && !(v == .v10 && x == .slvs400)
/-- A standard is differential; one of LVCMOS. -/
def stdDiff (x : PinStd) : Bool :=
  [PinStd.lvds, .diffHstl18, .diffSstl15, .diffPod12, .slvs400].contains x
def stdCmos (x : PinStd) : Bool := [PinStd.lvcmos18, .lvcmos15, .lvcmos12, .lvcmos10].contains x
/-- A pin's configuration is one that its bank and its standard permit: the standard of R284, termination of 100 ohm on a differential input and the others on a
single-ended one (06 R284, R285). -/
def pinLegal (s : State) (pin : Nat) (c : PinCfg) : Bool :=
  match tabFind s.fab.logic.banks (pin / 52) with
  | none => false
  | some (_, v, _) => (if c.output then stdOutput v c.std else stdInput v c.std) && (c.term == .none || (c.term == .d100) == stdDiff c.std)
/-- The reference of a bank's HSTL, SSTL and POD inputs, in hundredths of VCCIO: 70 where configuration asks for it (06 R284). -/
def bankRef (s : State) (b : Nat) : Nat := match tabFind s.fab.logic.banks b with | some (_, _, true) => 70 | _ => 50
/-- May the pin's output be enabled: its partition's outputs are, its bank has its supply, and it is configured as an output (06 R281, R286; 02 R70, R72)? -/
def pinLive (s : State) (pin : Nat) (c : PinCfg) : Bool :=
  s.fab.ioOn.getLsbD (pinPart pin) && bankOn s pin && c.output && pinLegal s pin c
/-- The pull or keeper that is active: the configured one from the writing of the partition's frames on, none before, in a partition that has left RUNNING, and in a
bank without supply (06 R281, R286; 02 R70, R72; log entry 83). -/
def pinPull (s : State) (pin : Nat) : Pull :=
  match tabFind s.fab.logic.pins pin with
  | none => .none
  | some y => if bankOn s pin && s.fab.written.getLsbD (pinPart pin) && partState s (pinPart pin) != 3 then y.cfg.pull else .none

/-! ## Signals -/

/-- Partition that a signal lies in; a boundary port's and a seam's is the one that receives it. -/
def sigPart (s : State) (x : Sig) : Option Nat :=
  match x with
  | .zero | .one => none
  | .lut c | .sum c | .cout c | .ff c _ => some (tilePart c.tile)
  | .seg e => some (tilePart e.tile)
  | .port n => (tabFind s.fab.logic.ports n).map (·.dest)
  | .seam x => some (seamTo (seamKey x))
  | .mul m _ => some (mulPart (mulKey m))
  | .pin n _ => some (pinPart n.val)
  | .des k _ => some (pinPart (2 * k.val))
  | .ram r _ _ => some (ramPart r)
  | .qb b _ => some (qbPart b.val)
  | .busy x | .overrun x | .xbit x _ => some x.part.val
  | .unit p _ => some p.val
/-- A signal is seen by the logic of partition `q`: in its own partition, or over a boundary of its die that passes; a signal of another die comes through a seam
crossing register (06 R266, R269, R280). -/
def sigSeen (s : State) (q : Nat) (x : Sig) : Bool := match sigPart s x with | none => true | some p => p == q || (p / 16 == q / 16 && passes s p q)
/-- The value a flip-flop shows: INIT while its tree holds it, SRVAL under an asynchronous local set/reset `sr` (06 R262). -/
def ffShow (s : State) (p : Nat) (f : FfCfg) (sr q : Bool) : Bool :=
  if f.restore && treeIn s f.tree.val p then f.init else if sr then f.srval else q
/-- Output bit of a RAM port, SBE as bit 72, DBE as bit 73 (07 R300). -/
def ramBit (s : State) (r : RamId) (p : Port) (b : Nat) : Bool :=
  let m := tabGet s.mem.rams (ramKey r) {}
  let o := match p with | .a => m.outA | .b => m.outB
  if b = 72 then o.sbe else if b = 73 then o.dbe else o.data.getLsbD b
/-- What the serialiser of a pin's pair sends on it, if it is used: the odd pin of a differential pair carries the complement (06 R285). -/
def serBit (s : State) (k : Nat) : Option Bool :=
  match tabFind s.fab.logic.serdes (k / 2) with
  | some y => if y.cfg.ser then some ((y.left.headD false) != (k % 2 == 1)) else none
  | none => none
/-- The clock of a block's consumer or producer side runs: of an engine's side the clock of its hub. -/
def sideClk (s : State) (x : QbSide) (c : ClkSel) : Bool :=
  match x with | .fabric => clkOn s c | .engine e => s.clk.clkRun.getLsbD (unHub (e.val / 96))
def qbRclk (s : State) (b : Nat) : Bool := let q := tabGet s.mem.qbs b {}; sideClk s q.cons q.rclk
def qbWclk (s : State) (b : Nat) : Bool := let q := tabGet s.mem.qbs b {}; sideClk s q.prod q.wclk
/-- The end mark that is delivered: the majority of three copies (07 R316). -/
def qbEnd (x : BitVec 3) : Bool := 2 ≤ popUpTo 3 x.toNat
/-- A skip consumes the words present up to and including an end mark (07 R327). -/
def qbSkip (q : Qb) (l : List QbWord) : Qb :=
  match l with
  | [] => { q with words := [] }
  | w :: r => if qbEnd w.ends then { q with words := r, dropping := false, inside := false, pkts := q.pkts - 1 } else qbSkip q r
/-- Each side whose clock runs (`r`, `w`) counts what the other has done, and a running skip consumes what it finds; a side whose clock stands holds its counts
(07 R321, R327). -/
def qbCatch (r w : Bool) (q : Qb) : Qb :=
  let q1 :=
    if r then
      let q0 := { q with newWords := 0, newEnds := 0 }
      if q.dropping && q.flush == 0 then
        let q2 := qbSkip q0 q.words
        { q2 with freed := q.freed + (q.words.length - q2.words.length) }
      else q0
    else q
  if w then { q1 with freed := 0 } else q1
/-- The block as its sides count it now. -/
def qbNow (s : State) (b : Nat) : Qb := qbCatch (qbRclk s b) (qbWclk s b) (tabGet s.mem.qbs b {})
/-- WCOUNT and RCOUNT (07 R319 to R321, R325). -/
def qbWcount (q : Qb) : Nat := q.words.length + q.freed
def qbRcount (q : Qb) : Nat := if q.flush = 0 then q.words.length - q.newWords else 0
/-- FULL (07 R319, R326); EMPTY: high from a flush until its end (07 R320, R325); AFULL (07 R319). -/
def qbFull (q : Qb) : Bool := !q.discard && 1024 ≤ qbWcount q
def qbEmpty (q : Qb) : Bool := qbRcount q == 0
def qbAfull (q : Qb) : Bool := q.thr ≤ qbWcount q
/-- An output of a queue block toward fabric logic (07 R319, R320): FULL, AFULL, DISCARD as 0, 1, 2; WCOUNT from 16; EMPTY, AEMPTY, FLUSH_BUSY, DROPPING, RVALID,
REND, RPOISON from 32; RBYTES from 40; RCOUNT from 48; PKTCOUNT from 64; RDATA from 128. All are 0 while the partition does not run (R330). What AEMPTY compares with
is not stated: a free value. -/
def qbBit (s : State) (b n : Nat) : Bool :=
  let q := qbNow s b
  if !partRuns s (qbPart b) then false
  else if n < 16 then (if n = 0 then qbFull q else if n = 1 then qbAfull q else n == 2 && q.discard)
  else if n < 32 then (qbWcount q).testBit (n - 16)
  else if n < 40 then
    (match n with
      | 32 => qbEmpty q | 33 => extBit s (32768 + b) | 34 => q.flush != 0 | 35 => q.dropping | 36 => q.valid | 37 => q.out.last
      | 38 => q.out.poison | _ => false)
  else if n < 48 then q.out.bytes.getLsbD (n - 40)
  else if n < 64 then (qbRcount q).testBit (n - 48)
  else if n < 128 then (if q.flush = 0 then q.pkts - q.newEnds else 0).testBit (n - 64)
  else q.out.data.getLsbD (n - 128)
/-- Outputs of a crossing cell: BUSY (an XHOLD: REQ or ACK is high), OVERRUN (DROPPED), a destination bit (03 R146 to R154). -/
def crossBusy (x : XState) : Bool :=
  match x with | .toggle a _ b _ _ _ => a != b | .count _ _ _ _ => false | .hold _ r a _ _ _ _ _ _ => r || a
def crossOver (x : XState) : Bool :=
  match x with | .toggle _ _ _ o _ _ => o | .count _ _ _ _ => false | .hold _ _ _ _ _ d _ _ _ => d
def crossBit (x : XState) (b : Nat) : Bool :=
  match x with
  | .toggle _ _ _ _ p _ => b == 0 && p
  | .count _ _ _ d => d.getLsbD b
  | .hold _ _ _ _ _ _ v l _ => if b = 128 then v else l.getLsbD b

/-- The pre-adder: D + A or D - A, wrapping modulo 2^27 (06 R263). -/
def preAdd (x : PreAdd) (a d : BitVec 27) : BitVec 27 := match x with | .none => a | .add => d + a | .sub => d - a
/-- The accumulator: base plus or minus the product, wrapped modulo 2^58, and whether it wrapped (06 R263). -/
def accNext (base : BitVec 58) (prod : BitVec 54) (sub : Bool) : BitVec 58 × Bool :=
  let v := if sub then base.toInt - prod.toInt else base.toInt + prod.toInt
  (BitVec.ofInt 58 v, decide (v < -2 ^ 57 ∨ 2 ^ 57 ≤ v))
/-- The operands as the multiplier takes them: from the input registers where they are used, else the signals, which `v` reads. -/
def mulIn (v : List Sig → Nat) (y : Mul) : Mul :=
  if y.cfg.inReg then y else
  { y with ra := BitVec.ofNat 27 (v y.cfg.a), rb := BitVec.ofNat 27 (v y.cfg.b), rd := BitVec.ofNat 27 (v y.cfg.d), rc := BitVec.ofNat 58 (v y.cfg.c) }
/-- The product of the operands as the accumulator takes it, with the C that goes with it. -/
def mulProd (y : Mul) : BitVec 54 × BitVec 58 :=
  if y.cfg.prodReg then (y.prod, y.rc2)
  else (BitVec.ofInt 54 ((preAdd y.cfg.pre y.ra y.rd).toInt * y.rb.toInt), y.rc)
/-- What the accumulator takes: the base it is configured for plus or minus the product, and whether that wraps (06 R263). -/
def mulOut (v : List Sig → Nat) (casc : BitVec 58) (y : Mul) : BitVec 58 × Bool :=
  let x := mulProd (mulIn v y)
  accNext (match y.cfg.base with | .p => y.p | .c => x.2 | .cascade => casc) x.1 y.cfg.sub
/-- The multiply cell of a number. -/
def keyMul (k : Nat) : MulId := { die := Fin.ofNat 8 (k / 6144), n := Fin.ofNat 6144 k }
/-- P of the cell to the north within a chain of 48, its signals read by `v`; 0 at the head of a chain (06 R263, R264; log entry 84). -/
def cascadeOf (v : List Sig → Nat) (k : Nat) : BitVec 58 :=
  if k % 48 = 0 then 0#58 else BitVec.ofNat 58 (v ((List.range 58).map fun j => .mul (keyMul (k - 1)) (Fin.ofNat 59 j)))

/-- The reset tree of the clock of a seam signal's group holds its crossing register (06 R268). -/
def seamHeld (s : State) (k : Nat) : Bool :=
  match tabFind s.fab.logic.groups (seamGroup k) with | some (_, _, g) => treeIn s g (seamTo k) | none => false

/-- The value of a signal as the logic of partition `q` sees it. `n` bounds the depth: a loop without a register has a free value (log entry 82). -/
def sigVal (s : State) (n q : Nat) (x : Sig) : Bool :=
  match n with
  | 0 => extBit s 0
  | n + 1 =>
    if !sigSeen s q x then false else
    let lutVal (c : CellId) (y : Cell) : Bool :=
      y.cfg.lut.getLsbD (y.cfg.ins.toList.foldr (fun i a => 2 * a + (sigVal s n (tilePart c.tile) i).toNat) 0)
    let carry (c : CellId) : BitVec 2 :=
      match tabFind s.fab.logic.cells (cellKey c) with
      | none => 0#2
      | some y =>
        let ci := match cellBefore c with | some b => sigVal s n (tilePart c.tile) (.cout b) | none => extBit s 1
        Config.carry (BitVec.ofBool (lutVal c y) ++ BitVec.ofBool (sigVal s n (tilePart c.tile) y.cfg.byp) ++ BitVec.ofBool ci)
    match x with
    | .zero => false
    | .one => true
    | .lut c => (match tabFind s.fab.logic.cells (cellKey c) with | some y => lutVal c y | none => false)
    | .sum c => (carry c).getLsbD 0
    | .cout c => (carry c).getLsbD 1
    | .ff c k =>
      (match tabFind s.fab.logic.cells (cellKey c) with
      | none => false
      | some y => match (if k.val = 0 then y.cfg.ff0 else y.cfg.ff1) with
        | none => false
        | some f =>
          let sr := match tabFind s.fab.logic.tiles (tileKey c.tile), f.sr with
            | some x, some i => x.async[i] && sigVal s n (tilePart c.tile) x.sr[i]
            | _, _ => false
          ffShow s (tilePart c.tile) f sr (if k.val = 0 then y.q0 else y.q1))
    | .seg e =>
      (match tabFind s.fab.logic.segs (segKey e) with
      | none => false
      | some y => if y.cfg.used then (if treeIn s y.cfg.tree.val (tilePart e.tile) then y.cfg.init else y.q)
        else sigVal s n (tilePart e.tile) y.cfg.src)
    | .port k =>
      (match tabFind s.fab.logic.ports k with
      | none => false
      | some y => y.frm / 16 == y.dest / 16 && passes s y.frm y.dest && sigVal s n y.frm y.src)
    | .seam x =>
      let k := seamKey x
      passes s (seamFrom k) (seamTo k) && !seamHeld s k && (match tabFind s.fab.logic.seams k with | some y => y.q | none => false)
    | .mul m b =>
      (match tabFind s.fab.logic.muls (mulKey m) with
      | none => false
      | some y =>
        let p := mulPart (mulKey m)
        let held := treeIn s y.cfg.tree.val p
        if y.cfg.accReg then !held && (if b.val = 58 then y.ovf else y.p.getLsbD b.val)
        else if y.cfg.base == .p then extBit s 2
        else
          let v (l : List Sig) : Nat := l.foldr (fun i a => 2 * a + (sigVal s n p i).toNat) 0
          let r := mulOut v (cascadeOf v (mulKey m)) (if held then { cfg := y.cfg } else y)
          if b.val = 58 then (!held && y.ovf) || r.2 else r.1.getLsbD b.val)
    | .pin k second =>
      (match tabFind s.fab.logic.pins k.val with
      | none => false
      | some y =>
        let p := pinPart k.val
        if y.cfg.inReg == .none then
          let oe := if y.cfg.oeReg == .none then sigVal s n p y.cfg.oe else y.oeQ
          if pinLive s k.val y.cfg && oe then ((serBit s k.val).getD (if y.cfg.outReg == .none then sigVal s n p y.cfg.out else y.outQ))
          else extBit s (1024 + 2 * k.val + second.toNat)
        else if second then y.inQ2 else y.inQ)
    | .des k b => (match tabFind s.fab.logic.serdes k.val with | some y => y.cfg.des && y.word.getLsbD b.val | none => false)
    | .ram r p b => ramBit s r p b.val
    | .qb b k => qbBit s b.val k.val
    | .busy x => (match tabFind s.fab.logic.cross (crossKey x) with | some y => crossBusy y.st | none => false)
    | .overrun x => (match tabFind s.fab.logic.cross (crossKey x) with | some y => crossOver y.st | none => false)
    | .xbit x b => (match tabFind s.fab.logic.cross (crossKey x) with | some y => crossBit y.st b.val | none => false)
    | .unit p k => extBit s (2 ^ 32 + 128 * k + p.val)

/-- Depth of the logic followed: longer than any path without a register through the carry chain of a column (06 R260). -/
abbrev sigDepth : Nat := 2 ^ 20
/-- The present value of a signal in partition `q`. -/
def sig (s : State) (q : Nat) (x : Sig) : Bool := sigVal s sigDepth q x
/-- The number that a list of signals carries, bit 0 first. -/
def sigNat (s : State) (q : Nat) (l : List Sig) : Nat := l.foldr (fun i a => 2 * a + (sig s q i).toNat) 0

/-! ## One step of the registers (06 R258 to R286) -/

/-- The next value of a register under the precedence of 06 R262: tree, asynchronous set/reset, then at an edge synchronous set/reset, a low enable, D. -/
def regNext (held init sr async srval edge en d q : Bool) : Bool :=
  if held then init else if sr && async then srval else if edge then (if sr then srval else if en then d else q) else q

/-- Next value of a flip-flop of a cell in tile number `t` of partition `p`; `e`: clocks may have an edge. -/
def ffNext (s : State) (e : Bool) (t p : Nat) (f : FfCfg) (d q : Bool) : Bool :=
  match tabFind s.fab.logic.tiles t with
  | none => if f.restore && treeIn s f.tree.val p then f.init else q
  | some x =>
    let sr := match f.sr with | some i => sig s p x.sr[i] | none => false
    let async := match f.sr with | some i => x.async[i] | none => false
    let en := match f.en with | some i => sig s p x.en[i] | none => true
    let edge := e && (match x.clk[f.clk] with | some c => edgeAt s (p / 16) c | none => false)
    regNext (f.restore && treeIn s f.tree.val p) f.init sr async f.srval edge en d q
/-- The tile and number of a cell by its key. -/
def keyCell (k : Nat) : CellId :=
  { tile := { die := Fin.ofNat 8 (k / 16 / 196608), col := Fin.ofNat 384 (k / 16 % 384), row := Fin.ofNat 512 (k / 16 / 384) }, n := Fin.ofNat 16 k }
/-- A logic cell after the step. -/
def cellStep (s : State) (e : Bool) (k : Nat) (y : Cell) : Cell :=
  let p := keyPart (k / 16)
  if !partRuns s p then y else
  let d (f : FfCfg) : Bool := sig s p (if f.byp then y.cfg.byp else .lut (keyCell k))
  { y with
    q0 := match y.cfg.ff0 with | some f => ffNext s e (k / 16) p f (d f) y.q0 | none => false
    q1 := match y.cfg.ff1 with | some f => ffNext s e (k / 16) p f (d f) y.q1 | none => false }

/-- P of the cell to the north within a chain of 48; 0 at the head of a chain (06 R263, R264; log entry 84). -/
def cascadeIn (s : State) (k : Nat) : BitVec 58 := cascadeOf (fun x => sigNat s (mulPart k) x) k
/-- A multiply cell after the step (06 R263, R264): its registers act as flip-flops with INIT 0; local set/reset clears them and OVF. `e`: clocks may have an edge. -/
def mulStep (s : State) (e : Bool) (k : Nat) (y : Mul) : Mul :=
  let p := mulPart k
  let clear : Mul := { cfg := y.cfg }
  if !partRuns s p then y
  else if treeIn s y.cfg.tree.val p then clear
  else if !(e && edgeAt s (p / 16) y.cfg.clk) then y
  else if (match y.cfg.sr with | some x => sig s p x | none => false) then clear
  else if !(match y.cfg.en with | some x => sig s p x | none => true) then y
  else
    let v (l : List Sig) : Nat := sigNat s p l
    let m := mulIn v y
    let r := mulOut v (cascadeIn s k) y
    { y with
      ra := BitVec.ofNat 27 (v y.cfg.a), rb := BitVec.ofNat 27 (v y.cfg.b), rd := BitVec.ofNat 27 (v y.cfg.d), rc := BitVec.ofNat 58 (v y.cfg.c)
      rc2 := m.rc
      prod := BitVec.ofInt 54 ((preAdd y.cfg.pre m.ra m.rd).toInt * m.rb.toInt)
      p := if y.cfg.accReg then r.1 else 0#58
      ovf := y.ovf || r.2 }

/-- A hop register after the step (06 R265). -/
def segStep (s : State) (e : Bool) (k : Nat) (y : Seg) : Seg :=
  let t := segTile k
  let p := keyPart t
  if !partRuns s p || !y.cfg.used then y
  else
    let edge := e && (match tabFind s.fab.logic.tiles t with | some x => (match x.clk[y.cfg.clk] with | some c => edgeAt s (p / 16) c | none => false) | none => false)
    { y with q := regNext (treeIn s y.cfg.tree.val p) y.cfg.init false false false edge true (sig s p y.cfg.src) y.q }

/-- A seam crossing register after the step: 0 while its source die is dormant; INIT 0 under the reset tree of its group's clock (06 R268, R270; log entry 83). -/
def seamStep (s : State) (e : Bool) (k : Nat) (y : Seam) : Seam :=
  if dieOf s (seamFrom k / 16) == .dormant then { y with q := false }
  else match tabFind s.fab.logic.groups (seamGroup k) with
    | none => y
    | some (_, c, g) =>
      { y with q := regNext (treeIn s g (seamTo k)) false false false false (e && keyEdge s c) true (sig s (seamFrom k) y.src) y.q }

/-- The level at a pad as its input sees it: what the pin drives, else what stands outside; `second` in the second half of the clock period. -/
def padIn (s : State) (k : Nat) (y : UPin) (second : Bool) : Bool :=
  let p := pinPart k
  let oe := if y.cfg.oeReg == .none then sig s p y.cfg.oe else if second && y.cfg.oeReg == .double then y.oeQ2 else y.oeQ
  if pinLive s k y.cfg && oe then
    (serBit s k).getD (if y.cfg.outReg == .none then sig s p y.cfg.out else if second && y.cfg.outReg == .double then y.outQ2 else y.outQ)
  else extBit s (1024 + 2 * k + second.toNat)
/-- The registers of a pin after the step: at double data rate each edge takes two bits (06 R285). -/
def pinStep (s : State) (k : Nat) (y : UPin) : UPin :=
  let p := pinPart k
  if !partRuns s p || !(match y.cfg.clk with | some c => edgeAt s (p / 16) c | none => false) then y
  else { y with
    inQ := padIn s k y false
    inQ2 := if y.cfg.inReg == .double then padIn s k y true else false
    outQ := sig s p y.cfg.out
    outQ2 := sig s p y.cfg.out2
    oeQ := sig s p y.cfg.oe
    oeQ2 := sig s p y.cfg.oe2 }
/-- Eight bits as a word: which bit of the word goes first is not stated (log entry 83). -/
def serWord (l : List Bool) : BitVec 8 := BitVec.ofNat 8 ((if Config.serLow then l else l.reverse).foldr (fun b a => 2 * a + b.toNat) 0)
/-- The serialiser sends a bit and the deserialiser takes one of its pair (06 R285). -/
def serStep (s : State) (k : Nat) (y : SerDes) : SerDes :=
  let p := pinPart (2 * k)
  if !partRuns s p || !edgeAt s (p / 16) y.cfg.clk then y
  else
    let bits := y.cfg.bits.toList.map (sig s p)
    let full := if Config.serLow then bits else bits.reverse
    let bit := match tabFind s.fab.logic.pins (2 * k) with | some x => padIn s (2 * k) x false | none => extBit s (8192 + k)
    let got := y.got ++ [bit]
    { y with
      left := if !y.cfg.ser then [] else match y.left with | [] => full | _ :: r => if r.isEmpty then full else r
      got := if !y.cfg.des || 8 ≤ got.length then [] else got
      word := if y.cfg.des && 8 ≤ got.length then serWord got else y.word }

/-! ## Crossing cells (03 R144 to R154) -/

/-- Gray code of a count, and the count of a Gray code (03 R149). -/
def grayOf (v : BitVec 16) : BitVec 16 := v ^^^ (v >>> 1)
def ofGray (g : BitVec 16) : BitVec 16 :=
  let a := g ^^^ (g >>> 8)
  let b := a ^^^ (a >>> 4)
  let c := b ^^^ (b >>> 2)
  c ^^^ (c >>> 1)
/-- An edge of the source clock. -/
def crossSrc (s : State) (p : Nat) (x : XState) : XState :=
  match x with
  | .toggle sent seen _ o pulse n => .toggle sent seen seen o pulse n
  | .count ce g seen d => .count ce (if sig s p ce then grayOf (ofGray g + 1) else g) seen d
  | .hold w r a dn sk _ v l n => .hold w (r && !a) a dn sk (r && a && sk) v l n
/-- An edge of the destination clock. Outside the VALID cycle the data output of XHOLD keeps the word last delivered (log entry 81). -/
def crossDst (x : XState) : XState :=
  match x with
  | .toggle sent seen back o _ n => .toggle sent sent back o (sent != seen) (if sent != seen then n + 1 else n)
  | .count ce g seen _ => .count ce g (ofGray g) (ofGray g - seen)
  | .hold w r a dn sk dr _ l n =>
    if r && !a then .hold w r true true false dr true w (n + 1)
    else if !r && a then .hold w r false false false dr false l n
    else .hold w r a dn sk dr false l n
/-- A crossing cell after the step: each side advances at an edge of its own clock, from what stood before the step. -/
def crossStep (s : State) (k : Nat) (y : XCell) : XCell :=
  if !partRuns s (k / 65536) then y
  else
    let d := k / 65536 / 16
    let x := if edgeAt s d y.src then crossSrc s (k / 65536) y.st else y.st
    { y with st := if edgeAt s d y.dst then (match x, crossDst y.st with
        | .toggle a _ b o _ _, .toggle _ c _ _ p n => .toggle a c b o p n
        | .count ce g _ _, .count _ _ seen d => .count ce g seen d
        | .hold w r _ _ _ dr _ _ _, .hold _ _ a dn sk _ v l n => .hold w r a dn sk dr v l n
        | z, _ => z) else x }

/-- What the asynchronous inputs of the registers that reset trees and local set/resets act on make of them, and with `e` the edges of this step (06 R262). -/
def logicRegs (s : State) (e : Bool) : Logic :=
  let f := s.fab.logic
  { f with
    cells := f.cells.map fun x => (x.1, cellStep s e x.1 x.2)
    muls := f.muls.map fun x => (x.1, mulStep s e x.1 x.2)
    segs := f.segs.map fun x => (x.1, segStep s e x.1 x.2)
    seams := f.seams.map fun x => (x.1, seamStep s e x.1 x.2) }
/-- The asynchronous inputs take effect at once: an asserted tree restores its registers without a clock (06 R262, R278). -/
def settle (s : State) : State := setLogic s (logicRegs s false)
/-- One step of the whole fabric: every register takes its next value from the values before the step. -/
def logicStep (s : State) : Logic :=
  let f := s.fab.logic
  { logicRegs s true with
    pins := f.pins.map fun x => (x.1, pinStep s x.1 x.2)
    serdes := f.serdes.map fun x => (x.1, serStep s x.1 x.2)
    cross := f.cross.map fun x => (x.1, crossStep s x.1 x.2) }

/-! ## What configuration sets and a wipe removes -/

/-- The partition an item of the design belongs to. -/
def itemPart (i : DesignItem) : Nat :=
  match i with
  | .tile t _ => tilePart t
  | .cell c _ => tilePart c.tile
  | .mul m _ => mulPart (mulKey m)
  | .seg e _ => tilePart e.tile
  | .port _ a _ _ => a.val
  | .seam x _ => seamFrom (seamKey x)
  | .pin n _ => pinPart n.val
  | .serdes k _ => pinPart (2 * k.val)
  | .spare n => pinPart n.val
  | .tap p _ _ _ => p.val
  | .cross x _ _ _ => x.part.val
  | .ram r _ _ _ _ _ _ => ramPart r
  | .qb b _ _ _ _ _ _ _ _ => qbPart b.val
  | .seamGroup h _ _ _ _ _ | .bank h _ _ _ | .clock h _ _ | .tree h _ _ _ => h.val

/-- Enter a setting that belongs to no partition: it changes only with the frames of the partition that set it (06 R273). -/
def putHome {α : Type} (t : Tab (Nat × α)) (k home : Nat) (v : α) : Tab (Nat × α) :=
  match tabFind t k with
  | some x => if x.1 = home then tabPut t k (home, v) else t
  | none => tabPut t k (home, v)

/-- The configured fabric after an item of a design; every register holds INIT (06 R278). -/
def logicPut (f : Logic) (i : DesignItem) : Logic :=
  match i with
  | .tile t c => { f with tiles := tabPut f.tiles (tileKey t) c }
  | .cell c x =>
    let y : Cell := { cfg := x, q0 := (x.ff0.map (·.init)).getD false, q1 := (x.ff1.map (·.init)).getD false }
    { f with cells := tabPut f.cells (cellKey c) y }
  | .mul m c => { f with muls := tabPut f.muls (mulKey m) { cfg := c } }
  | .seg e c => if !segOk e c.src then f else { f with segs := tabPut f.segs (segKey e) { cfg := c, q := c.init } }
  | .port n a b x => { f with ports := tabPut f.ports n { frm := a.val, dest := b.val, src := x } }
  | .seamGroup h x b g c t => { f with groups := putHome f.groups ((x.val * 2 + (if b then 1 else 0)) * 24 + g.val) h.val (c.val, t.val) }
  | .seam x y => { f with seams := tabPut f.seams (seamKey x) { src := y } }
  | .bank h b v r => { f with banks := putHome f.banks b.val h.val (v, r) }
  | .pin n c => { f with pins := tabPut f.pins n.val { cfg := c } }
  | .serdes k c => { f with serdes := tabPut f.serdes k.val { cfg := c } }
  | .tap p n c k => { f with taps := tabPut f.taps (p.val * 2048 + n.val) (cellKey c * 2 + k.val) }
  | .clock h c x => if clkLegal c x then { f with clocks := putHome f.clocks (clkKey c) h.val x } else f
  | .cross x kind a b =>
    let st : XState := match kind with
      | .toggle => .toggle false false false false false 0
      | .count ce => .count ce 0#16 0#16 0#16
      | .hold => .hold 0#128 false false false false false false 0#128 0
    { f with cross := tabPut f.cross (crossKey x) { src := a, dst := b, st := st } }
  | .spare _ | .tree _ _ _ _ | .ram _ _ _ _ _ _ _ | .qb _ _ _ _ _ _ _ _ _ => f

/-! ## Loads of trees across dies (04 R172) -/

/-- Is clock tree `k` selected by a register of die `d`? -/
def clkLoads (s : State) (k d : Nat) : Bool :=
  let f := s.fab.logic
  let hit (c : ClkSel) : Bool := clkKey c == k
  f.tiles.any (fun x => x.1 / 196608 == d && x.2.clk.toList.any fun c => (c.map hit).getD false)
    || f.muls.any (fun x => x.1 / 6144 == d && hit x.2.cfg.clk)
    || f.pins.any (fun x => pinPart x.1 / 16 == d && (x.2.cfg.clk.map hit).getD false)
    || f.serdes.any (fun x => pinPart (2 * x.1) / 16 == d && hit x.2.cfg.clk)
    || f.seams.any (fun x => seamTo x.1 / 16 == d && (match tabFind f.groups (seamGroup x.1) with | some g => g.2.1 == k | none => false))
    || f.cross.any (fun x => x.1 / 65536 / 16 == d && (hit x.2.src || hit x.2.dst))
    || s.mem.rams.any (fun x => x.1 % 32768 / 2560 == d && (hit x.2.a.clk || hit x.2.b.clk))
    || s.mem.qbs.any (fun x => qbPart x.1 / 16 == d && (hit x.2.wclk || hit x.2.rclk))
/-- Does a register of die `d` hang on reset tree `g`? -/
def treeLoads (s : State) (g d : Nat) : Bool :=
  let f := s.fab.logic
  let ff (o : Option FfCfg) : Bool := match o with | some c => c.restore && c.tree.val == g | none => false
  f.cells.any (fun x => x.1 / 16 / 196608 == d && (ff x.2.cfg.ff0 || ff x.2.cfg.ff1))
    || f.muls.any (fun x => x.1 / 6144 == d && x.2.cfg.tree.val == g)
    || f.segs.any (fun x => segTile x.1 / 196608 == d && x.2.cfg.used && x.2.cfg.tree.val == g)
    || f.seams.any (fun x => seamTo x.1 / 16 == d && (match tabFind f.groups (seamGroup x.1) with | some y => y.2.2 == g | none => false))
/-- A global clock or reset tree sourced in die `d` has a load on another die that is not dormant (04 R172). -/
def dieLoaded (s : State) (d : Nat) : Bool :=
  let others := (List.range 8).filter fun x => x != d && dieOf s x != .dormant
  (s.fab.logic.clocks.any fun c => c.1 < 24 && srcDie c.2.2 == d && others.any (clkLoads s c.1))
    || ((List.range 8).any fun g => (match treeFrom s g with | some p => p / 16 == d | none => false) && others.any (treeLoads s g))

end Sys2Proof.Machine
end

