-- ==== Sys2Proof/Machine/Fabric.lean ====
section
/-! DEFINITION. Programmable fabric: reset trees, frame checker, probes and capture (06). -/
namespace Sys2Proof.Machine

/-- GRST_PULSE asserts each tree whose bit is set (06 R275): its registers take INIT at once (06 R278). -/
def wrGrstPulse (r : Req) (len val : Nat) (s : State) : State :=
  objWriteP r O_GRST_PULSE len val (fun s => settle (setFab s { s.fab with pulse := s.fab.pulse ||| BitVec.ofNat 8 val })) s

/-- `GRST_PULSE` (06 R275). -/
def execGrstPulse (r : Req) (trees : BitVec 8) (s : State) : Res := .next (wrGrstPulse r 1 trees.toNat s)

/-- `GRST_RELEASE` (06 R275): 16 cycles of the release clock have run; while it is stopped the tree stays asserted. -/
def execGrstRelease (g : Fin 8) (s : State) : Res :=
  .next (match tabFind s.fab.trees g.val with
    | some t => if treeClkOn s t.release.val then setFab s { s.fab with pulse := setBit s.fab.pulse g.val false } else s
    | none => s)

/-- GRST_STATE: trees asserted by any source (06 R295). -/
def grstState (s : State) : BitVec 8 :=
  if s.rst.treesHeld then 0xFF#8
  else (List.range 8).foldl (fun m g => if userOn s g || (s.fab.userHold.getLsbD g && (treeFrom s g).isSome) then setBit m g true else m) (s.fab.pulse ||| s.fab.relHold)

/-- Log event 0x2505 for the partitions of a list from which tree `g` is first held back since their configuration, with the tenant of that
partition (06 R276; log entry 85). -/
def holdBack (s : State) (g : Nat) (l : List Nat) : State :=
  match l with
  | [] => s
  | p :: r =>
    if s.fab.heldBack.getLsbD p then holdBack s g r
    else holdBack (logEvT (setFab s { s.fab with heldBack := setBit s.fab.heldBack p true }) 0x2505 sevWarn (g * 65536 + p) (partOwner s p) 0xFFFF) g r

/-- The running partitions of other tenants than the source's, from which a user assertion of tree `g` is held back (06 R276). -/
def heldParts (s : State) (g : Nat) : List Nat :=
  match treeFrom s g with
  | some src => if userOn s g then (List.range 128).filter fun p => partRuns s p && partOwner s p != partOwner s src else []
  | none => []
/-- Report what is held back now: at an assertion, and when a partition has begun to run (06 R276). -/
def holdCheck (s : State) : State := (List.range 8).foldl (fun a g => holdBack a g (heldParts a g)) s

/-- The user source of tree `g` stands at level `up`: a rise asserts at once; a fall releases on the tree's release clock, so that the tree stays asserted while that
clock stands (03 R143). -/
def setUser (s : State) (g : Nat) (t : RTree) (up : Bool) : State :=
  setFab s { s.fab with
    user := setBit s.fab.user g up
    userHold := if up then setBit s.fab.userHold g false
      else if s.fab.user.getLsbD g then setBit s.fab.userHold g (!treeClkOn s t.release.val) else s.fab.userHold }
/-- `GRST_USER_ASSERT` (06 R276): the user source rises or falls; a fabric signal of a partition that does not run is low; a tree without a user source does
nothing. -/
def execGrstUserAssert (g : Fin 8) (level : Bool) (s : State) : Res :=
  .next (match tabFind s.fab.trees g.val with
    | none => s
    | some t => match t.src with
      | none => s
      | some x =>
        let up := level && (match x with | .logic p _ => partRuns s p.val | .pin _ => true)
        settle (holdCheck (setUser s g.val t up)))
/-- The signal that is a tree's user source, where the fabric computes it; what another unit gives is reported by GRST_USER_ASSERT (06 R274; log entry 82). -/
def treeSig (t : RTree) : Option (Nat × Sig) :=
  match t.src with | some (.logic _ (.unit _ _)) => none | some (.logic p x) => some (p.val, x) | _ => none
/-- The trees after a step: an edge of its release clock releases a tree that waits for one (03 R143), and a fabric signal that is a user source asserts its tree
while it is high (06 R274, R276). `s0` is the state before the step. -/
def treeTick (s0 s : State) : State :=
  let gone (m : BitVec 8) : BitVec 8 := s.fab.trees.foldl (fun m x => if keyEdge s0 x.2.release.val then setBit m x.1 false else m) m
  let s1 := setFab s { s.fab with relHold := gone s.fab.relHold, userHold := gone s.fab.userHold }
  let s2 := s.fab.trees.foldl (fun a x => match treeSig x.2 with | some (p, y) => setUser a x.1 x.2 (partRuns s p && sig s p y) | none => a) s1
  settle (holdCheck s2)

/-- What a code that corrects one bit and detects two makes of `n` bad bits: 0 clean, 1 corrected, 2 uncorrectable; three or more are left
open, a free value (log entry 2). -/
def eccKind (n free : Nat) : Nat := if n ≤ 2 then n else Config.freeNat free % 3

/-- A valid frame address: reserved bits zero, INDEX in range (05 R221). -/
def frameValid (a : Nat) : Bool :=
  a < 2 ^ 19 && (if a.testBit 11 then a % 2048 < 552 else a % 2048 < 1368)

/-- The checker has found a correctable word of partition `p` and rewrites it (06 R288). -/
def scrubCorrect (s : State) (p frame word : Nat) : State :=
  let s1 := oBump (setFab s { s.fab with badWords := tabDel s.fab.badWords (frame * 512 + word) }) O_SCRUB_CORRECTED 1 (2 ^ 32 - 1)
  if s.fab.scrubPass.getLsbD p then s1
  else logEvT (setFab s1 { s1.fab with scrubPass := setBit s1.fab.scrubPass p true }) 0x2504 sevWarn frame (partOwner s p) 0xFFFF

/-- The checker has found a word that it cannot correct (06 R289). -/
def scrubBad (s : State) (p frame word : Nat) (bad : BitVec 64) : State :=
  let d := frame + word % 32 * 2 ^ 19
  let s1 := oBump (setFab s { s.fab with badWords := tabPut s.fab.badWords (frame * 512 + word) bad }) O_SCRUB_UNCORRECTABLE 1 (2 ^ 32 - 1)
  recordFault (logEvT s1 0x2503 sevErr d (partOwner s p) 0xFFFF) (partOwner s p) 0 d

/-- The checker gives way on a die's configuration path: a load writes a partition of the die, or a readback of one of its frames waits (06 R287). -/
def pathTaken (s : State) (d : Nat) : Bool :=
  (match s.ld.load with | some l => l.phase == .writing && (List.range 16).any (fun i => l.parts.getLsbD (16 * d + i)) | none => false)
    || (match s.dbg.rbWait with | some f => f / 65536 == d | none => false)

/-- One word of a logic frame is checked; `passMs` closes a pass (06 R287 to R289). -/
def scrubCheck (s : State) (frame word : Nat) (bad : BitVec 64) (passMs : Option (BitVec 32)) : State :=
  let p := frameX frame
  let s1 :=
    if oGet s O_SCRUB_EN = 1 && !pathTaken s (frame / 65536) && frameValid frame && !frame.testBit 11 && partRuns s p then
      match eccKind (popUpTo 64 bad.toNat) s.freeCtr with
      | 0 => s
      | 1 => scrubCorrect s p frame word
      | _ => scrubBad s p frame word bad
    else s
  match passMs with
  | none => freeStep s1
  | some ms =>
    if oGet s O_SCRUB_EN = 1 then freeStep (oSet (setFab s1 { s1.fab with scrubPass := 0#128 }) O_SCRUB_PASS_TIME ms.toNat) else freeStep s1

/-- `SCRUB_FRAME_CHECK` (06 R287): `bad` marks the bits of the word found in error. -/
def execScrubFrameCheck (frame : BitVec 19) (word : Fin 512) (bad : BitVec 64) (passMs : Option (BitVec 32)) (s : State) : Res :=
  .next (if operating s then scrubCheck s frame.toNat word.val bad passMs else s)

/-- Partition in which tap `tap` of channel `ch` lies (06 R290). -/
def tapPart (ch tap : Nat) : Nat := 16 * (ch / 8) + 2 * (ch % 8) + tap / 2048

/-- Under a tenant token the tunnel's DEBUG role may select only taps of its tenant (17 R727). -/
def tapAllowed (s : State) (r : Req) (ch tap : Nat) : Bool :=
  match r.path, roleOf s r, s.dbg.token with
  | .goith, .debug, some t => (match t.tenant with | some n => s.rst.lc != 2#3 || partOwner s (tapPart ch tap) == n | none => true)
  | _, _, _ => true

/-- PROBE_SEL of a channel: the new selection outputs 0 until it takes effect (06 R291). -/
def wrProbeSel (r : Req) (ch len val : Nat) (s : State) : State :=
  objWriteG r (O_PROBE_SEL ch) len val { owns := tapAllowed s r ch (val % 4096) } noRej
    (fun s => oSet (setFab s { s.fab with probeNew := setBit s.fab.probeNew ch true }) (O_PROBE_SEL ch) val) s
/-- `PROBE_SEL_WRITE` (06 R291). -/
def execProbeSelWrite (r : Req) (ch : Fin 64) (v : BitVec 16) (s : State) : Res := .next (wrProbeSel r ch.val 2 v.toNat s)

/-- PROBE_ROUTE (06 R292): route 0b11 is reserved; a pin of another die is no value of the channel; a pin not marked spare is refused. -/
def wrProbeRoute (r : Req) (ch len val : Nat) (s : State) : State :=
  let route := val / 2 ^ 14
  let pin := val % 1024
  objWriteG r (O_PROBE_ROUTE ch) len val
    { value := route != 3 && (route != 1 || (104 * (ch / 8) ≤ pin && pin < 104 * (ch / 8) + 104))
      state := route != 1 || tabGet s.fab.spare pin false } noRej
    (fun s => oSet s (O_PROBE_ROUTE ch) val) s
/-- `PROBE_ROUTE_WRITE` (06 R292). -/
def execProbeRouteWrite (r : Req) (ch : Fin 64) (v : BitVec 16) (s : State) : Res := .next (wrProbeRoute r ch.val 2 v.toNat s)

/-- Does channel `ch` deliver its tap (06 R291): enabled, settled, its tap in a running partition, or one of a die whose dormancy is emulated (17 R724), whose tenant is
not being reset (06 R282)? -/
def probeLive (s : State) (ch : Nat) : Bool :=
  let v := oGet s (O_PROBE_SEL ch)
  let p := tapPart ch (v % 4096)
  v.testBit 15 && !s.fab.probeNew.getLsbD ch && (partRuns s p || s.rst.dieEmul.getLsbD (p / 16)) && !partRefuses s p

/-- The channels that deliver. -/
def probeMask (s : State) : BitVec 64 :=
  (List.range 64).foldl (fun m c => if probeLive s c then setBit m c true else m) 0#64

/-- The flip-flop output that the selected tap of channel `ch` carries; a tap that the design names no flip-flop for has a free value (06 R290). -/
def tapBit (s : State) (ch : Nat) : Bool :=
  let v := oGet s (O_PROBE_SEL ch)
  let p := tapPart ch (v % 4096)
  match tabFind s.fab.logic.taps (p * 2048 + v % 2048) with
  | some k => sig s p (.ff (keyCell (k / 2)) (Fin.ofNat 2 k))
  | none => extBit s (16384 + ch)
/-- One sample of all channels (06 R291). -/
def probeSample (s : State) : BitVec 64 :=
  (List.range 64).foldl (fun m c => if probeLive s c && tapBit s c then setBit m c true else m) 0#64
/-- The channel that is routed to a user pin (06 R292): the pin is marked spare, its partition runs. -/
def probeFor (s : State) (pin : Nat) : Option Nat :=
  if tabGet s.fab.spare pin false && partRuns s (pinPart pin) then
    (List.range 64).find? fun ch => oGet s (O_PROBE_ROUTE ch) / 2 ^ 14 == 1 && oGet s (O_PROBE_ROUTE ch) % 1024 == pin
  else none
/-- What a user pin drives: nothing while its output is disabled or its bank has no supply; a routed probe channel; its configured output (06 R281, R286, R292; 02 R72). -/
def padOut (s : State) (pin : Nat) : Option Bool :=
  if !bankOn s pin then none
  else match probeFor s pin with
    | some ch => some (probeLive s ch && tapBit s ch)
    | none => match tabFind s.fab.logic.pins pin with
      | none => none
      | some y =>
        let p := pinPart pin
        let oe := if y.cfg.oeReg == .none then sig s p y.cfg.oe else y.oeQ
        if pinLive s pin y.cfg && oe then some ((serBit s pin).getD (if y.cfg.outReg == .none then sig s p y.cfg.out else y.outQ)) else none

/-- CAP_CONTROL (06 R293, R294): 1 arms, refused while a capture runs or PROBE is gated; 2 stops. -/
def wrCapControl (r : Req) (len val : Nat) (s : State) : State :=
  let busy := oGet s O_CAP_STATE == 1 || oGet s O_CAP_STATE == 2
  objWriteG r O_CAP_CONTROL len val { state := val != 1 || (!busy && enabled s unProbe) } noRej
    (fun s =>
      if val = 1 then
        oSet (oSet (setFab s { s.fab with cap := [], capWritten := 0, capAfter := 0 }) O_CAP_STATE 1) O_TRIG_INDEX 0xFFFF
      else if busy then oSet s O_CAP_STATE 4 else s) s
/-- `CAP_ARM` (06 R293). -/
def execCapArm (r : Req) (s : State) : Res := .next (wrCapControl r 1 1 s)
/-- `CAP_STOP` (06 R293). -/
def execCapStop (r : Req) (s : State) : Res := .next (wrCapControl r 1 2 s)

/-- A sample enters the capture buffer. -/
def capPush (s : State) (x : BitVec 64) : State :=
  setFab s { s.fab with
    cap := (x :: s.fab.cap).take 4096
    capWritten := s.fab.capWritten + 1
    capAfter := if oGet s O_CAP_STATE = 2 then s.fab.capAfter + 1 else 0 }
/-- Does a sample match the trigger (06 R293)? -/
def trigMatch (s : State) (x : BitVec 64) : Bool :=
  (x ^^^ BitVec.ofNat 64 (oGet s O_TRIG_VALUE)) &&& BitVec.ofNat 64 (oGet s O_TRIG_MASK) == 0#64
/-- A triggered capture is complete once 4,095 - TRIG_POS samples have followed the trigger sample (06 R293 step 3). -/
def capEnd (s : State) : State :=
  if oGet s O_CAP_STATE = 2 ∧ 4095 ≤ s.fab.capAfter + oGet s O_TRIG_POS then
    logEv (oSet (oSet s O_CAP_STATE 3) O_TRIG_INDEX (oGet s O_TRIG_POS)) 0x2502 sevInfo (oGet s O_TRIG_POS)
  else s
/-- The capture takes a sample (06 R293): the trigger sample is the first one that matches with at least TRIG_POS samples before it. -/
def capSample (s : State) (x : BitVec 64) : State :=
  if oGet s O_CAP_STATE = 1 then
    let s1 := capPush s x
    if oGet s O_TRIG_POS ≤ s.fab.capWritten ∧ trigMatch s x then
      capEnd (logEv (oSet s1 O_CAP_STATE 2) 0x2501 sevInfo (min s1.fab.capWritten 0xFFFFFF))
    else s1
  else if oGet s O_CAP_STATE = 2 then capEnd (capPush s x)
  else s
/-- The capture can take samples: PROBE is enabled and the clock that CAP_CLOCK names runs, else it pauses (06 R294). -/
def capRuns (s : State) : Bool := operating s && enabled s unProbe && treeClkOn s (oGet s O_CAP_CLOCK)
/-- Samples as they are taken one after another, each as the live channels give it at its time (06 R291, R293). -/
def capFeed (s : State) (l : List (BitVec 64)) : State := l.foldl (fun a x => capSample a (x &&& probeMask a)) s

/-- `CAPTURE_TRIGGER` (06 R293): the armed capture takes samples, the trigger sample last. -/
def execCaptureTrigger (samples : List (BitVec 64)) (s : State) : Res :=
  .next (if capRuns s && oGet s O_CAP_STATE == 1 then capFeed s samples else s)
/-- `CAPTURE_COMPLETE` (06 R293): the triggered capture takes the samples after the trigger. -/
def execCaptureComplete (samples : List (BitVec 64)) (s : State) : Res :=
  .next (if capRuns s && oGet s O_CAP_STATE == 2 then capFeed s samples else s)

/-! ## Crossing cells of user logic (03 R146 to R154) -/

/-- A crossing cell changes; a cell that no running partition configures is none. -/
def onCross (s : State) (x : XId) (f : XCell → XState) : State :=
  match tabFind s.fab.logic.cross (crossKey x) with
  | some y => if partRuns s x.part.val
      then setLogic s { s.fab.logic with cross := tabPut s.fab.logic.cross (crossKey x) { y with st := f y } } else s
  | none => s
/-- `XTOGGLE_PULSE` (03 R146, R147): a pulse of the source clock flips the toggle; one that meets BUSY is discarded and sets OVERRUN. -/
def execXtogglePulse (cell : XId) (s : State) : Res :=
  .next (onCross s cell fun y =>
    match y.st with
    | .toggle a c b o p n => if !clkOn s y.src then y.st else if a != b then .toggle a c b true p n else .toggle (!a) c b o p n
    | x => x)
/-- `XTOGGLE_CLR` (03 R147). -/
def execXtoggleClr (cell : XId) (s : State) : Res :=
  .next (onCross s cell fun y =>
    match y.st with
    | .toggle a c b o p n => if clkOn s y.src then .toggle a c b false p n else .toggle a c b o p n
    | x => x)
/-- `XHOLD_REQ` (03 R151): with REQ and ACK low the source registers the word and raises REQ; before that it does not start a transfer. -/
def execXholdReq (cell : XId) (word : BitVec 128) (s : State) : Res :=
  .next (onCross s cell fun y =>
    match y.st with
    | .hold w r a dn sk d v l n => if clkOn s y.src && !r && !a then .hold word true false false false d v l n else .hold w r a dn sk d v l n
    | x => x)
/-- `XHOLD_DEST_RESET_END` (03 R154): with REQ high and the word not delivered, the destination acknowledges without delivering. -/
def execXholdDestResetEnd (cell : XId) (s : State) : Res :=
  .next (onCross s cell fun y =>
    match y.st with
    | .hold w r a dn sk d v l n => if r && !dn then .hold w r true true true d v l n else .hold w r a dn sk d v l n
    | x => x)

end Sys2Proof.Machine
end

