-- ==== Sys2Proof/Machine/Memories.lean ====
section
/-! DEFINITION. Embedded memories and queue blocks (07). -/
namespace Sys2Proof.Machine

/-! ## Codes -/

/-- What a code whose data and check bits have columns of odd weight and whose address bits have columns of even weight makes of a word with `n` stored bits in
error, coded for an address that differs in `d` bits: 0 clean, 1 corrected, 2 uncorrectable (07 R307, R308, R316). One error is corrected, two are detected, as is a
difference of 1 to 3 address bits; of more errors the syndrome's parity alone is known, the rest is a free value (log entry 86). `blind`: a larger difference that is
one of those not detected. -/
def codeKind (n d : Nat) (blind : Bool) (free : Nat) : Nat :=
  if d = 0 ∧ n ≤ 2 then n
  else if n = 0 then (if blind then 0 else 2)
  else if n % 2 = 1 then 1 + Config.freeNat free % 2
  else 2 * (Config.freeNat free % 2)

/-! ## Leaf and deep RAM -/

/-- Does the RAM exist (07 R297)? -/
def ramExists (r : RamId) : Bool := !r.deep || r.num.val < 640
/-- Words of a RAM (07 R298). -/
def ramDepth (r : RamId) : Nat := if r.deep then 4096 else 512
/-- The RAM's record. -/
def ramOf (s : State) (r : RamId) : Ram := tabGet s.mem.rams (ramKey r) {}
/-- Set it. -/
def setRam (s : State) (r : RamId) (m : Ram) : State := setMem s { s.mem with rams := tabPut s.mem.rams (ramKey r) m }

/-- A port's configuration. -/
def portOf (m : Ram) (p : Port) : RamPort := match p with | .a => m.a | .b => m.b
/-- Words of a port in one stored word: 64 / w for the narrow modes, which do not reach the ninth bits, 72 / w for the others (07 R298, R299). -/
def portRatio (w : Nat) : Nat := if w < 9 then 64 / max 1 w else 72 / w
/-- Lowest bit of a port's word `a` within the stored word, bytes of nine bits from bit 0 (07 R299). -/
def portShift (w a : Nat) : Nat :=
  let i := a % portRatio w
  if w < 9 then (i * w / 8) * 9 + i * w % 8 else i * w
/-- Stored word of a port's address. -/
def portWord (ecc : Bool) (w a : Nat) : Nat := if ecc then a else a / portRatio w

/-- Give a port its output (07 R300). -/
def setOut (m : Ram) (p : Port) (o : RamOut) : Ram := match p with | .a => { m with outA := o } | .b => { m with outB := o }
/-- The port's output. -/
def outOf (m : Ram) (p : Port) : RamOut := match p with | .a => m.outA | .b => m.outB

/-- A stored word. -/
def ramWord (m : Ram) (i : Nat) : RamWord := tabGet m.words i {}
/-- Store a word; a clean zero word is not listed. A write abandons the scrubber's pending write of the word (07 R315). -/
def putWord (m : Ram) (i : Nat) (w : RamWord) : Ram :=
  { m with words := tabSet m.words i w {}
           back := match m.back with | some (j, v) => if i = j then none else some (j, v) | none => none }

/-- Is an address difference one of those that the code does not detect: at most 3 in a leaf and 31 in a deep RAM, each of 4 bits or more (07 R308)? -/
def ramBlind (deep : Bool) (d : Nat) : Bool := 4 ≤ popUpTo 15 d && ((Config.ramBlind deep).take (if deep then 31 else 3)).contains d
/-- What an ECC read of a stored word gives at presented address `addr` when the array has reached `reach` (07 R308). -/
def ramJudge (r : RamId) (x : RamWord) (addr reach free : Nat) : Nat :=
  let d := (addr ^^^ reach) ^^^ x.adr.toNat
  codeKind (popUpTo 72 x.err.toNat) (popUpTo 15 d) (ramBlind r.deep d) free
/-- The stored bits of a word's data. -/
def ramStored (x : RamWord) : BitVec 72 := x.val ^^^ x.err
/-- The data that an ECC read of kind `k` delivers: corrected, or as stored; what the code makes of more errors than it corrects is a free value. -/
def ramFixed (x : RamWord) (k : Nat) (same : Bool) (free : Nat) : BitVec 72 :=
  (if k = 1 then (if popUpTo 72 x.err.toNat = 1 ∧ same then x.val else Config.free 72 (free + 1)) else ramStored x) &&& 0xFFFFFFFFFFFFFFFF#72
/-- The port output of an ECC read of kind `k` (07 R308). -/
def eccOut (d : BitVec 72) (k : Nat) : RamOut := { data := d, sbe := k == 1, dbe := k == 2 }

/-- A corrected error of a RAM (07 R313). -/
def ramCorrected (s : State) (r : RamId) : State :=
  let p := ramPart r
  let s1 := oBump s (O_RAM_CORRECTED p) 1 (2 ^ 32 - 1)
  if s.mem.ramMark.getLsbD p then s1
  else logEvT (setMem s1 { s1.mem with ramMark := setBit s1.mem.ramMark p true }) 0x2601 sevWarn p (partOwner s p) 0xFFFF

/-- An uncorrectable error at word `a` of a RAM (07 R313). -/
def ramUncorrectable (s : State) (r : RamId) (a : Nat) : State :=
  let p := ramPart r
  let k := if r.deep then 1 else 0
  let s1 := oBump s (O_RAM_UNCORRECTABLE p) 1 (2 ^ 32 - 1)
  let s2 := oSet s1 (O_RAM_LAST_UNCORR p) (2 ^ 31 + k * 2 ^ 30 + r.num.val * 2 ^ 18 + a)
  let d := k * 2 ^ 23 + r.die.val * 2 ^ 20 + r.num.val * 256 + a % 256
  recordFault (logEvT s2 0x2602 sevErr d (partOwner s p) 0xFFFF) (partOwner s p) 1 d

/-- Count and report an ECC read of kind `k`. -/
def ramReport (s : State) (r : RamId) (k a : Nat) : State :=
  if k = 1 then ramCorrected s r else if k = 2 then ramUncorrectable s r a else s

/-- The RAM can be reached: its partition runs (07 R297, 04 R166). -/
def ramUsable (s : State) (r : RamId) : Bool := operating s && ramExists r && partRuns s (ramPart r)
/-- A port can be used: the RAM is configured and the port's clock runs (07 R299). -/
def portUsable (s : State) (r : RamId) (p : Port) : Bool := ramUsable s r && clkOn s (portOf (ramOf s r) p).clk

/-- A port reads (07 R308, R309): the stored error stays. -/
def ramRead (s : State) (r : RamId) (p : Port) (addr reach : Nat) (upset : BitVec 72) : State :=
  let m := ramOf s r
  let w := (portOf m p).width
  let i := portWord m.ecc w reach % ramDepth r
  let x := { ramWord m i with err := (ramWord m i).err ^^^ upset }
  let m1 := { m with words := tabSet m.words i x {} }
  if m.ecc then
    let a := addr % ramDepth r
    let k := ramJudge r x a i s.freeCtr
    ramReport (freeStep (setRam s r (setOut m1 p (eccOut (ramFixed x k ((a ^^^ i) == x.adr.toNat) s.freeCtr) k)))) r k a
  else
    let v := (ramStored x).toNat / 2 ^ portShift w reach % 2 ^ w
    freeStep (setRam s r (setOut m1 p { data := BitVec.ofNat 72 v }))

/-- `RAM_READ` (07 R308) of a port that reads: `reach` is the address that the array reaches, `upset` marks stored bits that have flipped since the last access. -/
def execRamRead (ram : RamId) (port : Port) (addr reach : BitVec 15) (upset : BitVec 72) (s : State) : Res :=
  .next (if portUsable s ram port && (portOf (ramOf s ram) port).reads then ramRead s ram port addr.toNat reach.toNat upset else s)

/-- The bits a write of width `w` with byte enables `en` covers, from bit 0: 9 bits a byte, 8 in ECC mode, all of a narrow port (07 R298). -/
def enMask (ecc : Bool) (w en : Nat) : Nat :=
  if !ecc && w < 9 then 2 ^ w - 1
  else
    let b := if ecc then 8 else 9
    (List.range (w / b)).foldl (fun m j => if en.testBit j then m ||| (2 ^ b - 1) * 2 ^ (b * j) else m) 0

/-- Output of a port that also reads in the cycle of a write, by its configured rule (07 R301). -/
def rdwOut (c : RamPort) (reads : Bool) (old : RamOut) (new : BitVec 72) (keep : RamOut) : RamOut :=
  if reads && c.reads then (match c.rdw with | .writeFirst => { data := new } | .readFirst => old | .noChange => keep) else keep
/-- What a write leaves inverted in the check bits, INJ2 before INJ1 (07 R312). -/
def injMask (inj1 inj2 : Bool) : BitVec 72 :=
  if inj2 then 0x30000000000000000#72 else if inj1 then 0x10000000000000000#72 else 0#72

/-- Output of a port whose merged write is refused (07 R301, R311): DBE is high; a port that also reads shows under READ_FIRST the word as stored, under NO_CHANGE
its previous data; what WRITE_FIRST shows where nothing is written is not stated, a free value (log entry 86). -/
def refusedOut (c : RamPort) (reads : Bool) (stored keep : RamOut) (free : Nat) : RamOut :=
  if reads && c.reads then
    (match c.rdw with
      | .readFirst => stored
      | .writeFirst => { data := Config.free 72 free &&& 0xFFFFFFFFFFFFFFFF#72, dbe := true }
      | .noChange => { keep with dbe := true })
  else { keep with dbe := true }
/-- A merged ECC write of fewer than eight bytes (07 R310, R311): refused on an uncorrectable word. -/
def ramMerge (s : State) (r : RamId) (p : Port) (addr reach : Nat) (w : BitVec 64) (en : Nat) (upset inj : BitVec 72) (reads : Bool) : State :=
  let m := ramOf s r
  let a := addr % ramDepth r
  let i := reach % ramDepth r
  let x := { ramWord m i with err := (ramWord m i).err ^^^ upset }
  let k := ramJudge r x a i s.freeCtr
  if k = 2 then
    let o := refusedOut (portOf m p) reads (eccOut (ramFixed x 2 false s.freeCtr) 2) (outOf m p) (s.freeCtr + 1)
    ramUncorrectable (freeStep (setRam s r (setOut { m with words := tabSet m.words i x {} } p o))) r a
  else
    let mask := enMask true 64 en
    let old := ramFixed x k ((a ^^^ i) == x.adr.toNat) s.freeCtr
    let v := BitVec.ofNat 72 ((old.toNat &&& (2 ^ 64 - 1 - mask)) ||| (w.toNat &&& mask))
    let m1 := putWord m i { val := v, err := inj, adr := BitVec.ofNat 12 (a ^^^ i) }
    ramReport (freeStep (setRam s r (setOut m1 p (rdwOut (portOf m p) reads (eccOut old k) v (outOf m p))))) r k a

/-- A write of all eight bytes of an ECC word (07 R310, R312): fresh check bits for the address presented. -/
def ramFull (s : State) (r : RamId) (p : Port) (addr reach : Nat) (w inj : BitVec 72) (reads : Bool) : State :=
  let m := ramOf s r
  let c := portOf m p
  let a := addr % ramDepth r
  let i := reach % ramDepth r
  let x := ramWord m i
  let v := w &&& 0xFFFFFFFFFFFFFFFF#72
  let k := if reads && c.reads && c.rdw == .readFirst then ramJudge r x a i s.freeCtr else 0
  let old := eccOut (ramFixed x k ((a ^^^ i) == x.adr.toNat) s.freeCtr) k
  let m1 := putWord m i { val := v, err := inj, adr := BitVec.ofNat 12 (a ^^^ i) }
  ramReport (freeStep (setRam s r (setOut m1 p (rdwOut c reads old v (outOf m p))))) r k a

/-- A write outside ECC mode (07 R298, R299, R301). -/
def ramPlain (s : State) (r : RamId) (p : Port) (reach : Nat) (w : BitVec 72) (en : Nat) (reads : Bool) : State :=
  let m := ramOf s r
  let c := portOf m p
  let i := portWord false c.width reach % ramDepth r
  let sh := portShift c.width reach
  let old := ramStored (ramWord m i)
  let mask := enMask false c.width en * 2 ^ sh
  let v := BitVec.ofNat 72 ((old.toNat &&& (2 ^ 72 - 1 - mask)) ||| ((w.toNat * 2 ^ sh) &&& mask))
  let seen (x : BitVec 72) : BitVec 72 := BitVec.ofNat 72 (x.toNat / 2 ^ sh % 2 ^ c.width)
  freeStep (setRam s r (setOut (putWord m i { val := v }) p (rdwOut c reads { data := seen old } (seen v) (outOf m p))))

/-- A write of a port (07 R298, R301, R310, R312). -/
def ramWrite (s : State) (r : RamId) (p : Port) (addr reach : Nat) (w : BitVec 72) (en : Nat) (upset inj : BitVec 72) (reads : Bool) : State :=
  if !(ramOf s r).ecc then ramPlain s r p reach w en reads
  else if en = 0xFF then ramFull s r p addr reach w inj reads
  else ramMerge s r p addr reach (w.setWidth 64) en upset inj reads

/-- `RAM_WRITE` (07 R310) of a port that writes: `reach` is the address that the array reaches, `reads` tells that the port also reads, `lost` that port A writes
the same word at the same edge, so that port B's write is lost (07 R302). -/
def execRamWrite (ram : RamId) (port : Port) (addr reach : BitVec 15) (w : BitVec 72) (en : BitVec 8) (inj1 inj2 lost reads : Bool) (s : State) : Res :=
  .next (if portUsable s ram port && (portOf (ramOf s ram) port).writes && !(lost && port == .b)
    then ramWrite s ram port addr.toNat reach.toNat w en.toNat 0#72 (injMask inj1 inj2) reads else s)

/-- `RAM_NARROW_WRITE` (07 R311): `upset` marks stored bits found flipped by the read of step 1. Outside ECC mode a write with fewer byte enables is an ordinary
write. -/
def execRamNarrowWrite (ram : RamId) (port : Port) (addr reach : BitVec 15) (w : BitVec 64) (en : BitVec 8) (inj1 inj2 : Bool) (upset : BitVec 72) (reads : Bool) (s : State) : Res :=
  .next (if portUsable s ram port && (portOf (ramOf s ram) port).writes
    then ramWrite s ram port addr.toNat reach.toNat (w.setWidth 72) en.toNat upset (injMask inj1 inj2) reads else s)

/-- The scrubber reads its next word (07 R314, R315). -/
def ramScrub (s : State) (r : RamId) (upset : BitVec 72) : State :=
  let m := ramOf s r
  let i := m.pos % ramDepth r
  let x := { ramWord m i with err := (ramWord m i).err ^^^ upset }
  let k := ramJudge r x i i s.freeCtr
  let m1 := { m with words := tabSet m.words i x {}, pos := (i + 1) % ramDepth r
                     back := if k = 1 then some (i, ramFixed x k (x.adr == 0#12) s.freeCtr) else m.back }
  let s1 := freeStep (setRam s r m1)
  if k = 2 then ramUncorrectable s1 r i else s1

/-- `RAM_SCRUB_VISIT` (07 R314): the scrubber runs on port B's clock. -/
def execRamScrubVisit (ram : RamId) (upset : BitVec 72) (s : State) : Res :=
  .next (if portUsable s ram .b && (ramOf s ram).ecc && (ramOf s ram).scrub then ramScrub s ram upset else s)

/-- `RAM_SCRUB_WRITEBACK` (07 R315): unless either port has written the word since. -/
def execRamScrubWriteback (ram : RamId) (s : State) : Res :=
  .next (if portUsable s ram .b then
    (match (ramOf s ram).back with
     | none => s
     | some (i, v) => ramCorrected (setRam s ram { ramOf s ram with words := tabSet (ramOf s ram).words i { val := v } {}, back := none }) ram)
  else s)

/-! ## RAM frames (07 R303 to R305) -/

/-- A stored 72-bit word as frames hold it: data in [63:0], check bits or ninth bits in [71:64]; and back (07 R304; log entry 87). -/
def ninthOut (v : BitVec 72) : Nat :=
  (List.range 8).foldl (fun a k => a + fld v (9 * k) 8 * 2 ^ (8 * k) + fld v (9 * k + 8) 1 * 2 ^ (64 + k)) 0
def ninthIn (v : Nat) : BitVec 72 :=
  BitVec.ofNat 72 ((List.range 8).foldl (fun a k => a + v / 2 ^ (8 * k) % 256 * 2 ^ (9 * k) + v / 2 ^ (64 + k) % 2 * 2 ^ (9 * k + 8)) 0)
/-- The bits that word `i` of a RAM holds: in ECC mode the check bits of its code word, errors included. -/
def ramBits (deep ecc : Bool) (i : Nat) (x : RamWord) : Nat :=
  let v := ramStored x
  if ecc then fld v 0 64 + ((Config.ramCheck deep (i ^^^ x.adr.toNat) (x.val.setWidth 64)).toNat ^^^ fld x.err 64 8) * 2 ^ 64 else ninthOut v
/-- The word that 72 bits from a frame make: check bits that do not belong to the data are stored errors (07 R303). -/
def ramLoad (deep ecc : Bool) (i v : Nat) : RamWord :=
  if ecc then
    let d := BitVec.ofNat 64 v
    { val := d.setWidth 72, err := BitVec.ofNat 72 (((v / 2 ^ 64 % 256) ^^^ (Config.ramCheck deep i d).toNat) * 2 ^ 64) }
  else { val := ninthIn v }
/-- Byte `o` of the frames from address `f` on, across frames of rising INDEX. -/
def frameByte (s : State) (f o : Nat) : Nat := tabGet s.fab.frames (f + o / 4096) 0 / 2 ^ (8 * (o % 4096)) % 256
/-- The words of a RAM as its frames give them, nine bytes each, little-endian (07 R304). -/
def ramInit (s : State) (r : RamId) (ecc : Bool) (frame off : Nat) : Tab RamWord :=
  (List.range (ramDepth r)).foldl (fun t i =>
    let v := (List.range 9).foldl (fun a j => a + frameByte s frame (off + 9 * i + j) * 2 ^ (8 * j)) 0
    tabSet t i (ramLoad r.deep ecc i v) {}) []
/-- Byte `o` of RAM frame `f` as it is read back: of a word of a RAM its present bits, else what the frame holds (05 R223; 07 R305). -/
def ramFrameByte (s : State) (f o : Nat) : Nat :=
  let a := f * 4096 + o
  let hit (x : Nat × Ram) : Bool :=
    let b := x.2.frame * 4096 + x.2.off
    b ≤ a && a < b + 9 * (if 32768 ≤ x.1 then 4096 else 512)
  match s.mem.rams.find? hit with
  | some (k, m) =>
    let j := a - (m.frame * 4096 + m.off)
    ramBits (32768 ≤ k) m.ecc (j / 9) (ramWord m (j / 9)) / 2 ^ (8 * (j % 9)) % 256
  | none => frameByte s f o
/-- A RAM frame as it is read back. -/
def ramFrame (s : State) (f : Nat) : Nat := (List.range 4096).foldr (fun o a => ramFrameByte s f o + 256 * a) 0

/-- RAM_CNT_CLEAR (07 R331): the counts, the once-only report and the valid bit of RAM_LAST_UNCORR of one or every partition. -/
def clearRamCounts (s : State) (p : Nat) : State :=
  let s1 := oSet (oSet s (O_RAM_CORRECTED p) 0) (O_RAM_UNCORRECTABLE p) 0
  let s2 := oSet s1 (O_RAM_LAST_UNCORR p) (oGet s (O_RAM_LAST_UNCORR p) % 2 ^ 31)
  setMem s2 { s2.mem with ramMark := setBit s2.mem.ramMark p false }
/-- The write. -/
def wrRamCntClear (r : Req) (len val : Nat) (s : State) : State :=
  objWriteP r O_RAM_CNT_CLEAR len val (fun s =>
    if val = 0xFF then (List.range 128).foldl clearRamCounts s else clearRamCounts s (val - 1)) s
/-- `RAM_CNT_CLEAR` (07 R331). -/
def execRamCntClear (r : Req) (v : BitVec 8) (s : State) : Res := .next (wrRamCntClear r 1 v.toNat s)

/-! ## Queue blocks -/

/-- The block. -/
def qbOf (s : State) (b : Nat) : Qb := tabGet s.mem.qbs b {}
/-- Set it. -/
def setQb (s : State) (b : Nat) (q : Qb) : State := setMem s { s.mem with qbs := tabPut s.mem.qbs b q }
/-- The block works: its partition runs. -/
def qbUsable (s : State) (b : Nat) : Bool := operating s && partRuns s (qbPart b)
/-- Fabric logic holds the producer side, the consumer side, and the side's clock runs (07 R317, R319, R320). -/
def qbFabricIn (s : State) (b : Nat) : Bool := qbUsable s b && (qbOf s b).prod == .fabric && clkOn s (qbOf s b).wclk
def qbFabricOut (s : State) (b : Nat) : Bool := qbUsable s b && (qbOf s b).cons == .fabric && clkOn s (qbOf s b).rclk
/-- The three copies of an end mark. -/
def qbEnds (last : Bool) : BitVec 3 := if last then 7#3 else 0#3

/-- The sides count what has happened. -/
def qbPut (s : State) (b : Nat) (q : Qb) : State := setQb s b (qbCatch (qbRclk s b) (qbWclk s b) q)

/-- The producer writes a word (07 R319, R322, R323, R326). -/
def qbPush (q : Qb) (w : QbWord) : Qb :=
  if q.discard then (if w.last then { q with discard := false } else q)
  else if qbFull q then q
  else
    let e := q.packet && w.last
    { q with words := q.words ++ [w], open_ := !w.last, newWords := q.newWords + 1
             pkts := if e then q.pkts + 1 else q.pkts, newEnds := if e then q.newEnds + 1 else q.newEnds }

/-- What WINJ1 and WINJ2 leave inverted in the check bits (07 R319, R312). -/
def qbInj (inj1 inj2 : Bool) : BitVec 142 :=
  if inj2 then BitVec.ofNat 142 (3 * 2 ^ 133) else if inj1 then BitVec.ofNat 142 (2 ^ 133) else 0#142
/-- `QB_WRITE` (07 R319, R312): `adr` tells how the word's address differs from the one it is coded for. -/
def execQbWrite (b : Fin 1024) (data : BitVec 128) (last : Bool) (bytes : BitVec 4) (inj1 inj2 : Bool) (adr : BitVec 10) (s : State) : Res :=
  .next (if qbFabricIn s b.val then
    qbPut s b.val (qbPush (qbNow s b.val) { data := data, last := last, bytes := bytes, err := qbInj inj1 inj2, adr := adr, ends := qbEnds last })
  else s)

/-- The consumer takes the oldest word; `upset` flips copies of its end mark (07 R316, R320, R323). -/
def qbPop (q : Qb) (upset : BitVec 3) : Option (QbWord × Qb) :=
  if qbEmpty q || q.dropping then none
  else match q.words with
    | [] => none
    | w :: r =>
      let e := w.ends ^^^ upset
      some ({ w with ends := e }, { q with
        words := r, inside := q.packet && !qbEnd e, freed := q.freed + 1
        pkts := if q.packet && qbEnd e then q.pkts - 1 else q.pkts })

/-- Report a read of kind `k` (07 R329). -/
def qbReport (s : State) (b k : Nat) : State :=
  let t := partOwner s (qbPart b)
  if k = 0 then s
  else if k = 1 then
    let s1 := oBump s (O_QB_CORRECTED b) 1 0xFFFF
    if s.mem.qbCorrMark.getLsbD b then s1
    else logEvT (setMem s1 { s1.mem with qbCorrMark := setBit s1.mem.qbCorrMark b true }) 0x2604 sevWarn b t 0xFFFF
  else
    let s1 := oBump s (O_QB_POISONED b) 1 0xFFFF
    let s2 := if s.mem.qbPoisMark.getLsbD b then s1
      else logEvT (setMem s1 { s1.mem with qbPoisMark := setBit s1.mem.qbPoisMark b true }) 0x2605 sevErr b t 0xFFFF
    recordFault s2 t 1 b

/-- A word as it is delivered with stored bits `err` in error (payload, end mark, byte count, check bits from bit 0), judged of kind `k`: corrected, or the stored
payload and byte count, poisoned; the end mark comes from the side array (07 R316, R320, R329). What the code makes of more errors than it corrects is a free
value. -/
def qbDeliver (w : QbWord) (err : BitVec 142) (k : Nat) (one : Bool) (free : Nat) : QbOut :=
  { data := if k = 1 then (if one then w.data else Config.free 128 (free + 1)) else w.data ^^^ err.extractLsb' 0 128
    last := qbEnd w.ends
    bytes := if k = 1 then (if one then w.bytes else Config.free 4 (free + 2)) else w.bytes ^^^ err.extractLsb' 129 4
    poison := k == 2 }
/-- The consumer reads a word: `upset` marks stored bits that have flipped, `ends` copies of the end mark, `adr` how the address reached differs (07 R320, R329). -/
def qbRead (s : State) (b : Nat) (upset : BitVec 142) (ends : BitVec 3) (adr : BitVec 10) : State :=
  match qbPop (qbNow s b) ends with
  | none => s
  | some (w, q) =>
    let e := w.err ^^^ upset
    let n := popUpTo 142 e.toNat
    let d := popUpTo 10 (w.adr ^^^ adr).toNat
    let k := codeKind n d (4 ≤ d && Config.freeNat (s.freeCtr + 3) % 2 == 1) s.freeCtr
    let o := qbDeliver w e k (n == 1 && d == 0) s.freeCtr
    qbReport (freeStep (qbPut s b { q with out := o, valid := true })) b k

/-- `QB_READ` (07 R320). -/
def execQbRead (b : Fin 1024) (upset : BitVec 142) (ends : BitVec 3) (adr : BitVec 10) (s : State) : Res :=
  .next (if qbFabricOut s b.val then qbRead s b.val upset ends adr else s)

/-- `QB_FLUSH` (07 R325 step 1, R324, R328): a skip in progress ends. -/
def execQbFlush (b : Fin 1024) (s : State) : Res :=
  let q := qbNow s b.val
  .next (if qbFabricOut s b.val && q.flushOk && q.flush == 0 then
    qbPut s b.val { q with flush := 1, dropping := false, inside := false } else s)

/-- `QB_FLUSH_OBSERVED` (07 R325 steps 2 and 3, R326, R328). -/
def execQbFlushObserved (b : Fin 1024) (s : State) : Res :=
  let q := qbNow s b.val
  .next (if qbUsable s b.val && qbWclk s b.val && q.flush == 1 then
    qbPut s b.val { q with flush := 2, words := [], pkts := 0, open_ := false, newWords := 0, newEnds := 0, freed := 0
                           discard := q.packet && (q.open_ || q.discard) } else s)

/-- `QB_FLUSH_DONE` (07 R325 step 4). -/
def execQbFlushDone (b : Fin 1024) (s : State) : Res :=
  let q := qbNow s b.val
  .next (if qbFabricOut s b.val && qbWclk s b.val && q.flush == 2 then qbPut s b.val { q with flush := 0 } else s)

/-- `QB_DROP` (07 R327, R324). -/
def execQbDrop (b : Fin 1024) (s : State) : Res :=
  let q := qbNow s b.val
  .next (if qbFabricOut s b.val && q.dropOk && q.packet && q.inside && q.flush == 0 && !q.dropping then
    qbPut s b.val { q with dropping := true } else s)

/-- QB_CNT_CLEAR (07 R331). -/
def clearQbCounts (s : State) (b : Nat) : State :=
  let s1 := oSet (oSet s (O_QB_CORRECTED b) 0) (O_QB_POISONED b) 0
  setMem s1 { s1.mem with qbCorrMark := setBit s1.mem.qbCorrMark b false, qbPoisMark := setBit s1.mem.qbPoisMark b false }
/-- The write. -/
def wrQbCntClear (r : Req) (len val : Nat) (s : State) : State :=
  objWriteP r O_QB_CNT_CLEAR len val (fun s =>
    if val = 0xFFFF then (List.range 1024).foldl clearQbCounts s else clearQbCounts s val) s
/-- `QB_CNT_CLEAR` (07 R331). -/
def execQbCntClear (r : Req) (v : BitVec 16) (s : State) : Res := .next (wrQbCntClear r 2 v.toNat s)

/-- An edge of RCLK after a delivery ends RVALID, and a block whose clocks have come back catches up (07 R320, R321). -/
def tickQbs (s : State) : State :=
  setMem s { s.mem with qbs := s.mem.qbs.map fun x =>
    let q := qbCatch (qbRclk s x.1) (qbWclk s x.1) x.2
    (x.1, if q.valid && (match q.cons with | .fabric => clkEdge s q.rclk | .engine _ => true) then { q with valid := false } else q) }

/-! ## Configuration and wipe -/

/-- An engine port may be attached to block `b`: the engine is on the block's die and no other block holds the port (07 R317). -/
def portFree (s : State) (b k e : Nat) : Bool := e / 96 == b / 128 && (tabFind s.mem.links k).isNone
/-- Attach the engine sides of a block; an attachment that is not allowed is not made. -/
def qbAttach (s : State) (b : Nat) (prod cons : QbSide) : State :=
  let s1 := match prod with
    | .engine e => if portFree s b (e.val * 2 + 1) e.val then setMem s { s.mem with links := tabPut s.mem.links (e.val * 2 + 1) (b + 1) } else s
    | .fabric => s
  match cons with
  | .engine e => if portFree s1 b (e.val * 2) e.val then setMem s1 { s1.mem with links := tabPut s1.mem.links (e.val * 2) (b + 1) } else s1
  | .fabric => s1
/-- What an item of a design configures (06 R256 to R292; 07 R298 to R304, R316, R317). -/
def applyItem (s : State) (i : DesignItem) : State :=
  match i with
  | .ram r ecc a b scrub frame off =>
    setRam s r { ecc := ecc, a := a, b := b, scrub := scrub, frame := frame.toNat, off := off.val, words := ramInit s r ecc frame.toNat off.val }
  | .qb b packet flush drop thr prod cons wclk rclk =>
    let q : Qb := { packet := packet, flushOk := flush, dropOk := drop, thr := thr, prod := prod, cons := cons, wclk := wclk, rclk := rclk }
    qbAttach (setQb s b.val q) b.val prod cons
  | .tree h g src rel =>
    match tabFind s.fab.trees g.val with
    | some t => if t.home = h.val then setFab s { s.fab with trees := tabPut s.fab.trees g.val { home := h.val, src := src, release := rel } } else s
    | none => setFab s { s.fab with trees := tabPut s.fab.trees g.val { home := h.val, src := src, release := rel } }
  | .spare pin => setFab s { s.fab with spare := tabPut s.fab.spare pin.val true }
  | i => setLogic s (logicPut s.fab.logic i)

end Sys2Proof.Machine
end

