-- ==== Sys2Proof/Machine/Engine.lean ====
section
/-! DEFINITION. Geyser engines: registers, memories, results in flight, interrupts, exceptions, debug entries, loops and the loop cache (08). -/
namespace Sys2Proof.Machine

/-! ## The engine's record -/

/-- Engine `e`. -/
def engOf (s : State) (e : Nat) : Engine := tabGet s.eng e {}
/-- Set it. -/
def setEng (s : State) (e : Nat) (g : Engine) : State := { s with eng := tabSet s.eng e g {} }
/-- Die of an engine, and the number of its hub within the die (08 R333). -/
def engDie (e : Nat) : Nat := e / 96
def engHub (e : Nat) : Nat := e % 96 / 8
/-- The engine hubs of its die are clocked and the device works (08 R362). -/
def engClocked (s : State) (e : Nat) : Bool := operating s && s.clk.clkRun.getLsbD (unHub (engDie e)) && dieOf s (engDie e) == .on

/-- Element of a register file. -/
def vecGet {α : Type} {n : Nat} [NeZero n] (v : Vector α n) (i : Nat) : α := v[(Fin.ofNat n i)]
/-- Replace an element. -/
def vecSet {α : Type} {n : Nat} [NeZero n] (v : Vector α n) (i : Nat) (x : α) : Vector α n := v.set (Fin.ofNat n i) x

/-- The bank in use, or a bank by number (08 R342). -/
def bankOf (g : Engine) (shadow : Bool) : EngBank := if shadow then g.sh else g.fg
/-- Set a bank. -/
def setBank (g : Engine) (shadow : Bool) (b : EngBank) : Engine := if shadow then { g with sh := b } else { g with fg := b }
/-- The active bank. -/
def actBank (g : Engine) : EngBank := bankOf g g.shadow

/-- Fields of CSTAT (08 R343). -/
def csIE (c : BitVec 32) : Bool := c.getLsbD 31
def csRW (c : BitVec 32) : Nat := fld c 26 2
def csRB (c : BitVec 32) : Nat := fld c 22 4
def csDepth (c : BitVec 32) : Nat := fld c 20 2
def csSat (c : BitVec 32) : Bool := c.getLsbD 15
def csRnd (c : BitVec 32) : Nat := fld c 13 2
/-- Replace `n` bits at `lo`. -/
def putFld {w : Nat} (c : BitVec w) (lo n v : Nat) : BitVec w :=
  BitVec.ofNat w (c.toNat - fld c lo n * 2 ^ lo + v % 2 ^ n * 2 ^ lo)
/-- CSTAT as it is read: IBANK in bit 30. -/
def cstatRead (g : Engine) (shadow : Bool) : BitVec 32 := setBit (bankOf g shadow).cstat 30 g.shadow

/-! ## Memories (08 R334, R336) -/

/-- A word of program memory: the monitor image from 0xF800 (08 R336). -/
def progWord (g : Engine) (i : Nat) : BitVec 256 :=
  if 1984 ≤ i ∧ i < 2048 then BitVec.ofNat 256 (leNat ((List.range 32).map fun k => Config.monitorImage ((i - 1984) * 32 + k)))
  else tabGet g.prog i 0#256
/-- A word of X (false) or Y (true) memory. -/
def dataWord (g : Engine) (y : Bool) (i : Nat) : BitVec 256 := tabGet (if y then g.ymem else g.xmem) i 0#256
/-- Write a word of a data memory. -/
def setData (g : Engine) (y : Bool) (i : Nat) (v : BitVec 256) : Engine :=
  if y then { g with ymem := tabSet g.ymem i v 0#256 } else { g with xmem := tabSet g.xmem i v 0#256 }
/-- A store through the engine port: what the word held before this cycle is noted for the external port (08 R335). -/
def engStore (g : Engine) (y : Bool) (i : Nat) (v : BitVec 256) : Engine :=
  { setData g y i v with stored := (y, i, dataWord g y i) :: g.stored }
/-- A word as the external port reads it. An access that meets a store of the engine port in one cycle returns the contents before it (08 R335); whether it falls
into that cycle or after it is a free value (log entry 107). -/
def extWord (free : Nat) (g : Engine) (y : Bool) (i : Nat) : BitVec 256 :=
  match g.stored.find? fun x => x.1 == y && x.2.1 == i with
  | some x => if Config.freeNat free % 2 = 1 then x.2.2 else dataWord g y i
  | none => dataWord g y i
/-- A 32-bit word of a memory word. -/
def putWord32 (w : BitVec 256) (k : Nat) (v : BitVec 32) : BitVec 256 := putFld w (32 * k) 32 v.toNat
/-- The bundle at an address. -/
def bundleAt (g : Engine) (pc : Nat) : BitVec 64 := BitVec.ofNat 64 (lane (progWord g (pc / 32)) 64 (pc / 8 % 4))
/-- An external write of program memory: it invalidates the loop cache (08 R340). -/
def setProg (g : Engine) (i : Nat) (v : BitVec 256) : Engine :=
  if 1984 ≤ i then g else { g with prog := tabSet g.prog i v 0#256, cacheOk := false, capTag := none }

/-! ## Interrupt sources (08 R364) -/

/-- The queue block attached to a port of an engine: port 0 is SP0, port 1 is SP1 (07 R317). -/
def streamBlock (s : State) (e : Nat) (out : Bool) : Option Nat :=
  match tabGet s.mem.links (if out then e * 2 + 1 else e * 2) 0 with
  | 0 => none
  | b + 1 => some b
/-- Does the link carry data (07 R318)? -/
def linkOpen (s : State) (e b : Nat) : Bool :=
  partRuns s (qbPart b) && (engOf s e).state != .off && (engOf s e).state != .notready
    && (engOwner s e == partOwner s (qbPart b) || oGet s (O_QB_LINK_GRANT b) == 1)
/-- SP0 holds a word; SP1 can accept one. -/
def spHolds (s : State) (e : Nat) : Bool :=
  match streamBlock s e false with | none => false | some b => linkOpen s e b && !qbEmpty (qbNow s b) && !(qbNow s b).dropping
def spAccepts (s : State) (e : Nat) : Bool :=
  match streamBlock s e true with | none => false | some b => linkOpen s e b && !qbFull (qbNow s b)

/-- Pending sources of an engine (08 R364). -/
def irqPend (s : State) (e : Nat) : BitVec 16 :=
  let g := engOf s e
  let dma (c : Nat) : Bool := let d := vecGet g.dma c; d.ctrl.getLsbD 3 && (d.done || d.error || d.aborted)
  let p0 := (List.range 4).foldl (fun m c => setBit m c (dma c)) (g.pend &&& 0x7F80#16)
  setBit (setBit (setBit (setBit p0 4 (spHolds s e)) 5 (spAccepts s e)) 6 (g.sstat.getLsbD 5)) 15 (0 < throttleLevel s)

/-- A source is pending and enabled. -/
def irqActive (s : State) (e : Nat) : Bool := irqPend s e &&& (engOf s e).irqEn != 0#16

/-! ## Results in flight (08 R353, R354, 09 R416 to R420) -/

/-- Merge `val` into `old` under a mask. -/
def maskMerge {w : Nat} (old val mask : BitVec w) : BitVec w := (old &&& ~~~mask) ||| (val &&& mask)

/-- The control register write of 09 R405, as it lands. RO fields of CSTAT, its IE in the shadow bank, and RW and RB under a rotating loop
keep their values. -/
def csrLand (g : Engine) (sh : Bool) (n : Nat) (v : BitVec 32) : Engine :=
  let b := bankOf g sh
  match n with
  | 0x00 =>
    let mask : BitVec 32 := (if sh then 0x0000E0F8#32 else 0x8000E0F8#32) ||| (if b.rot = 0#2 then 0x0FC00000#32 else 0#32)
    setBank g sh { b with cstat := maskMerge b.cstat v mask }
  | 0x01 => { g with bexp := v.setWidth 5 }
  | 0x02 => setBank g sh { b with lcnt := vecSet b.lcnt 0 (v.setWidth 16) }
  | 0x03 => setBank g sh { b with lcnt := vecSet b.lcnt 1 (v.setWidth 16) }
  | 0x08 => { g with pend := g.pend &&& ~~~ (v.setWidth 16 &&& 0x7F80#16) }
  | 0x09 => { g with irqEn := v.setWidth 16 }
  | 0x0A => { g with ivec := v.setWidth 16 }
  | 0x0B => { g with ipc := v.setWidth 16 }
  | 0x0E => if v.getLsbD 5 then { g with sstat := setBit g.sstat 5 false, poisLogged := false } else g
  | 0x11 => { g with timer := putFld g.timer 0 32 v.toNat }
  | 0x12 => { g with timer := putFld g.timer 32 32 v.toNat }
  | 0x14 => { g with inbox := v }
  | _ => g

/-- Write a result. -/
def land (g : Engine) (w : WriteBack) : Engine :=
  let b := bankOf g w.shadow
  match w.dest with
  | .v n x m => { g with v := vecSet g.v n (maskMerge (vecGet g.v n) x m) }
  | .a n x m => { g with a := vecSet g.a n (maskMerge (vecGet g.a n) x m) }
  | .s n x => setBank g w.shadow { b with s := vecSet b.s n x }
  | .p n x => setBank g w.shadow { b with p := vecSet b.p n x }
  | .m n x => setBank g w.shadow { b with m := vecSet b.m n x }
  | .cp n x => setBank g w.shadow { b with cp := vecSet b.cp n x }
  | .bexp x => { g with bexp := x }
  | .track x => { g with bexp := if x.toNat < g.bexp.toNat then x else g.bexp }
  | .csr n x => csrLand g w.shadow n x
  | .sticky x => setBank g w.shadow { b with cstat := b.cstat ||| x }
  | .sstat n l p => { g with sstat := BitVec.ofNat 6 (n.toNat + (if l then 16 else 0) + if p || g.sstat.getLsbD 5 then 32 else 0) }

/-- Sticky results land after the values of the same cycle (09 R420). -/
def isSticky (w : WriteBack) : Bool := match w.dest with | .sticky _ => true | .sstat _ _ _ => true | _ => false

/-- The end of a cycle that is no freeze cycle: results come one cycle closer, those at their end land, older first, flags last. -/
def cycleEnd (g : Engine) : Engine :=
  let due := g.flight.filter fun w => w.left ≤ 1
  let rest := (g.flight.filter fun w => 1 < w.left).map fun w => { w with left := w.left - 1 }
  { (due.filter isSticky).foldl land ((due.filter fun w => !isSticky w).foldl land g) with flight := rest }

/-- Cycles pass without an issue. -/
def cyclesPass (n : Nat) (g : Engine) : Engine :=
  match n with
  | 0 => g
  | k + 1 => cyclesPass k (cycleEnd g)

/-- Every result in flight lands (the longest latency is 4). -/
def drain (g : Engine) : Engine := cyclesPass 4 g

/-! ## Happenings at a boundary -/

/-- Event of an engine's owner (08 R385). -/
def engEvent (s : State) (e code sev data : Nat) : State := logEvT s code sev data (engOwner s e) (0x200 + e)

/-- The save area's words of a bank (08 R374): 128 bytes from X 0xFF80, as a number. -/
def saveArea (g : Engine) (dpc : BitVec 16) (cause idx : Nat) : Nat :=
  let b := actBank g
  packLanes 32 (b.s.toList.map (·.toNat))
    + 2 ^ 512 * packLanes 16 (b.p.toList.map (·.toNat))
    + 2 ^ 640 * packLanes 32 (b.m.toList.map (·.toNat))
    + 2 ^ 896 * packLanes 32 (b.cp.toList.map (·.toNat))
    + 2 ^ 960 * (cstatRead g g.shadow).toNat
    + 2 ^ 992 * dpc.toNat + 2 ^ 1008 * (cause % 256) + 2 ^ 1016 * ((if g.shadow then 1 else 0) + 2 * (idx % 8))

/-- Write the four words of the save area. -/
def writeSave (g : Engine) (x : Nat) : Engine :=
  (List.range 4).foldl (fun a k => setData a false (2044 + k) (BitVec.ofNat 256 (x / 2 ^ (256 * k)))) g
/-- Read the save area. -/
def readSave (g : Engine) : Nat := packLanes 256 ((List.range 4).map fun k => (dataWord g false (2044 + k)).toNat)

/-- Take a debug entry (08 R373): DPC is the bundle that would have issued next. Loop state, RW and RB move to the debug copy and read 0. -/
def debugEntry (s : State) (e cause idx : Nat) : State :=
  let g0 := drain (engOf s e)
  let g := writeSave g0 (saveArea g0 g0.pc cause idx)
  let b := actBank g
  let g1 := setBank g g.shadow { b with
    cstat := b.cstat &&& 0xF00FFFFF#32, lcnt := Vector.replicate 2 0#16, lstart := Vector.replicate 2 0#16
    lend := Vector.replicate 2 0#16, rot := 0#2 }
  let s1 := setEng s e { g1 with
    copy := b, state := .monitor, dpc := g.pc, dcause := BitVec.ofNat 8 cause, pc := 0xF800#16, wait := 9
    haltReq := false, dbgEvt := none, stepArm := false, frozen := none, cldPaid := false, dbgLogged := true }
  if g.dbgLogged then s1 else engEvent s1 e 0x2706 sevInfo (e + cause * 1024)

/-- Take an exception at the bundle at PC (08 R369 to R371): the engine goes to FAULT, or to MONITOR when EXCMON is set. -/
def engException (s : State) (e code : Nat) : State :=
  let g := drain (engOf s e)
  let cause := code + if g.shadow then 128 else 0
  let g1 := { g with epc := g.pc, ecause := BitVec.ofNat 8 cause, frozen := none, cldPaid := false }
  let s1 := setEng s e g1
  if g.dbgCtrl.getLsbD 3 && g.state != .monitor then debugEntry s1 e 5 0
  else
    let d := e + cause * 1024
    recordFault (engEvent (setEng s1 e { g1 with state := .fault, haltReq := false, dbgEvt := none, stepArm := false }) e 0x2701 sevErr d)
      (engOwner s e) 2 d

/-- Interrupt entry (08 R366): the shadow bank takes over, its loop state and flags cleared. -/
def irqEntry (g : Engine) : Engine :=
  let c := g.fg.cstat &&& 0x0000E000#32
  { cycleEnd g with
    ipc := g.pc, pc := g.ivec, shadow := true, wait := 2, frozen := none, cldPaid := false
    sh := { (cycleEnd g).sh with cstat := c, rot := 0#2 } }

/-- An interrupt is recognised at a boundary (08 R365, R375). -/
def irqDue (s : State) (e : Nat) : Bool :=
  let g := engOf s e
  irqActive s e && csIE g.fg.cstat && !g.shadow

/-- The breakpoint that matches the bundle at PC. -/
def bpMatch (g : Engine) : Option Nat :=
  (List.range 4).find? fun i => let b := vecGet g.bp i; b.getLsbD 31 && fld b 3 13 == g.pc.toNat / 8

/-- The debug event due at the boundary: cause and index (08 R372). After the one bundle of a single step its entry is taken whatever else is due (R376). -/
def debugDue (g : Engine) : Option (Nat × Nat) :=
  if g.state == .monitor then none
  else
    match g.dbgEvt, bpMatch g, g.haltReq with
    | some (4, i), _, _ => some (4, i)
    | _, some i, _ => some (1, i)
    | some (2, i), none, _ => some (2, i)
    | _, none, true => some (3, 0)
    | o, none, false => o
/-- The debug event that ends WAITING: what the bundle before has raised, or a halt request (08 R357, R372, R376). -/
def debugWait (g : Engine) : Option (Nat × Nat) := match g.dbgEvt, g.haltReq with | some x, _ => some x | none, h => if h then some (3, 0) else none

/-- Watchpoint that an access matches (08 R372, R383). -/
def wpMatch (g : Engine) (y write : Bool) (a : Nat) : Option Nat :=
  if g.state == .monitor then none
  else (List.range 2).find? fun i =>
    let w := vecGet g.wp i
    w.getLsbD 63 && w.getLsbD 62 == y && (if write then w.getLsbD 61 else w.getLsbD 60)
      && (BitVec.ofNat 16 a ^^^ BitVec.ofNat 16 (fld w 0 16)) &&& BitVec.ofNat 16 (fld w 16 16) &&& 0xFFE0#16 == 0#16

/-! ## Loops (08 R340, R350 to R352) -/

/-- Index of the innermost loop. -/
def loopTop (b : EngBank) : Option Nat := match csDepth b.cstat with | 0 => none | d + 1 => some d
/-- Does the bundle at PC issue from the loop cache (08 R340)? -/
def fromCache (g : Engine) : Bool :=
  let b := actBank g
  match loopTop b with
  | none => false
  | some l => g.cacheOk && vecGet b.lstart l == g.cacheTag && g.cacheTag.toNat ≤ g.pc.toNat && g.pc.toNat < g.cacheTag.toNat + 8 * g.cacheLen

/-- Bundles of a loop body. -/
def bodyLen (b : EngBank) (l : Nat) : Nat := ((vecGet b.lend l).toNat - (vecGet b.lstart l).toNat) / 8 + 1

/-- A body is to be captured, unless the cache holds it already or it is too long (08 R340); a handler's capture replaces a foreground body, which is noted (R368). -/
def beginCapture (g : Engine) (b : EngBank) (l : Nat) : Engine :=
  if g.cacheOk && vecGet b.lstart l == g.cacheTag then { g with capTag := none }
  else if bodyLen b l ≤ 16 then
    { g with
      capTag := some (vecGet b.lstart l), cacheOk := false
      lost := if g.shadow then g.lost.orElse (fun _ => if g.cacheOk then some g.cacheTag else g.capTag) else none }
  else { g with capTag := none }
/-- An iteration of loop `l` after the first: a foreground loop whose body a handler has replaced captures it again; no other captures (08 R340, R368). -/
def nextIteration (g : Engine) (b : EngBank) (l : Nat) : Engine :=
  if !g.shadow && g.lost == some (vecGet b.lstart l) then beginCapture g b l else g

/-- The body being captured is complete when its last bundle issues. -/
def endCapture (g : Engine) (b : EngBank) (l : Nat) : Engine :=
  if g.capTag = some (vecGet b.lstart l) then
    { g with capTag := none, cacheOk := true, cacheTag := vecGet b.lstart l, cacheLen := bodyLen b l }
  else g

/-- After the bundle at PC has issued without branching: the address of the next one, with the loop's count, depth and rotation (08 R351). -/
def advancePc (g : Engine) : Engine :=
  let b := actBank g
  let next := { g with pc := g.pc + 8#16 }
  match loopTop b with
  | none => next
  | some l =>
    if vecGet b.lend l = g.pc then
      let g1 := endCapture g b l
      let cnt := vecGet b.lcnt l
      if 1 < cnt.toNat then
        let w := match csRW b.cstat with | 0 => 1 | 1 => 4 | 2 => 8 | _ => 16
        let rb := if b.rot.getLsbD l then (csRB b.cstat + 1) % w else csRB b.cstat
        let b1 := { b with lcnt := vecSet b.lcnt l (cnt - 1#16), cstat := putFld b.cstat 22 4 rb }
        nextIteration { setBank g1 g.shadow b1 with pc := vecGet b.lstart l } b1 l
      else
        let b1 := { b with cstat := putFld b.cstat 20 2 l, rot := setBit b.rot l false }
        { setBank g1 g.shadow b1 with pc := g.pc + 8#16 }
    else next

/-- A taken branch to `t` ends every loop whose body does not hold the target (08 R352). -/
def leaveLoops (b : EngBank) (t : Nat) : EngBank :=
  let outside (l : Nat) : Bool := t < (vecGet b.lstart l).toNat || (vecGet b.lend l).toNat < t
  match csDepth b.cstat with
  | 0 => b
  | 1 => if outside 0 then { b with cstat := putFld b.cstat 20 2 0, rot := 0#2 } else b
  | _ =>
    if outside 1 then
      (if outside 0 then { b with cstat := putFld b.cstat 20 2 0, rot := 0#2 }
       else { b with cstat := putFld b.cstat 20 2 1, rot := setBit b.rot 1 false })
    else b

/-- A taken branch: the target issues in the third cycle after it (08 R341). -/
def takeBranch (g : Engine) (t : Nat) : Engine :=
  { setBank g g.shadow (leaveLoops (actBank g) t) with pc := BitVec.ofNat 16 t, wait := 2 }

/-- A cycle counted by CYCLES, with the match of source 7 (08 R364, R382). -/
def countCycle (g : Engine) : Engine :=
  let c := g.cycles + 1#64
  { g with cycles := c, pend := if c = g.timer then setBit g.pend 7 true else g.pend }

end Sys2Proof.Machine
end

