-- ==== Sys2Proof/Machine/EngineIssue.lean ====
section
/-! DEFINITION. Issue of a Geyser bundle: what each operation writes and when (09 R397 to R415), the exceptions of a bundle in their order
(09 R421), the write conflicts (09 R416), and one ENG cycle of an engine (08). -/
namespace Sys2Proof.Machine

/-- A result: latency and destination. -/
abbrev Wr := Nat × Dest

/-- All ones. -/
abbrev ones (w : Nat) : BitVec w := BitVec.ofNat w (2 ^ w - 1)
/-- A full write of a vector register, by name. -/
def wrV (g : Engine) (l n : Nat) (x : BitVec 256) : Wr := (l, .v (physV (actBank g).cstat n) x (ones 256))
/-- A vector register by name, as it is read at issue. -/
def rdV (g : Engine) (n : Nat) : BitVec 256 := vecGet g.v (physV (actBank g).cstat n)
/-- A scalar of the active bank. -/
def rdS (g : Engine) (n : Nat) : BitVec 32 := vecGet (actBank g).s n
/-- OVF set with latency `l` under a condition. -/
def ovfIf (l : Nat) (c : Bool) : List Wr := if c then [(l, .sticky 8#32)] else []

/-! ## MAC class (09 R397, R398) -/

/-- The value a MAC operation adds to: every MAC result in flight for Ad is taken (08 R346; log entry 11). -/
def accChain (g : Engine) (d : Nat) : BitVec 768 :=
  g.flight.foldl (fun x w => match w.dest with | .a n v m => if n = d then maskMerge x v m else x | _ => x) (vecGet g.a d)

/-- The exact addend of accumulator lane `i`, where the operation writes the lane. -/
def macAddend (op : MacOp) (va vb : BitVec 256) (sb : Int) (aa : BitVec 768) (i : Nat) : Option Int :=
  let a (k : Nat) : Int := slane va 16 k
  let b (k : Nat) : Int := slane vb 16 k
  let pair : Int := slane va 8 (2 * i) * slane vb 8 (2 * i) + slane va 8 (2 * i + 1) * slane vb 8 (2 * i + 1)
  let cmul (conj : Bool) : Int :=
    let r := i / 2 * 2
    if i % 2 = 0 then (if conj then a r * b r + a (r + 1) * b (r + 1) else a r * b r - a (r + 1) * b (r + 1))
    else (if conj then a (r + 1) * b r - a r * b (r + 1) else a r * b (r + 1) + a (r + 1) * b r)
  match op with
  | .vmacH => some (a i * b i)
  | .vmsuH => some (-(a i * b i))
  | .vmacB => some pair
  | .vmsuB => some (-pair)
  | .cmacL => if i < 8 then some (cmul false) else none
  | .cmacH => if 8 ≤ i then some (cmul false) else none
  | .cmacjL => if i < 8 then some (cmul true) else none
  | .cmacjH => if 8 ≤ i then some (cmul true) else none
  | .vmacsH => some (a i * sb)
  | .aadd => some (slane aa 48 i)
  | .ald => some (a i)

/-- A MAC operation's results, latency 3; `z` starts the lanes written from zero. -/
def macWrites (g : Engine) (op : MacOp) (d a b : Nat) (z : Bool) : List Wr :=
  let old := accChain g d
  let add := macAddend op (rdV g a) (rdV g b) (slane (rdS g b) 16 0) (vecGet g.a a)
  let base (i : Nat) : Int := if z || op == .ald then 0 else slane old 48 i
  let res (i : Nat) : Option Int := (add i).map fun x => base i + (if op == .ald then x * 2 ^ b else x)
  let sat := csSat (actBank g).cstat
  let ix := List.range 16
  let val := packLanes 48 (ix.map fun i => ((res i).map (markS sat 48)).getD 0)
  let mask := packLanes 48 (ix.map fun i => if (res i).isSome then 2 ^ 48 - 1 else 0)
  (3, .a d (BitVec.ofNat 768 val) (BitVec.ofNat 768 mask)) ::
    ovfIf 3 (ix.any fun i => match res i with | some x => !fitsS 48 x | none => false)

/-! ## Vector ALU (09 R399, R400) -/

/-- The exact result of a lane, and whether mark S applies; `fr` is the free value of a halving difference that does not fit its lane, for
which the spec states no result (log entry 12). -/
def valuLane (op : ValuOp) (w rnd : Nat) (d a b sh fr : Nat) : Int × Bool :=
  let x := signed w a
  let y := signed w b
  match op with
  | .vadd => (x + y, true)
  | .vsub => (x - y, true)
  | .vhadd => (rndShift rnd (x + y) 1, false)
  | .vhsub => let r := rndShift rnd (x - y) 1; (if fitsS w r then r else (Config.freeNat fr : Int), false)
  | .vmin => (min x y, false)
  | .vmax => (max x y, false)
  | .vabs => (if x < 0 then -x else x, true)
  | .vneg => (-x, true)
  | .vand => ((a &&& b : Nat), false)
  | .vor => ((a ||| b : Nat), false)
  | .vxor => ((a ^^^ b : Nat), false)
  | .vsra => (rndShift rnd x sh, false)
  | .vsrl => ((a / 2 ^ sh : Nat), false)
  | .vshl => (x * 2 ^ sh, true)
  | .vcmpgt => (if y < x then -1 else 0, false)
  | .vcmpeq => (if x = y then -1 else 0, false)
  | .vsel => (((d &&& a) ||| ((2 ^ w - 1 - d) &&& b) : Nat), false)

/-- A vector ALU operation's results, latency 2. -/
def valuWrites (g : Engine) (op : ValuOp) (wc d a b : Nat) (f : Bool) (free : Nat) : List Wr :=
  let w := laneBits wc
  let c := (actBank g).cstat
  let va := rdV g a
  let vb := rdV g b
  let vd := rdV g d
  let res (i : Nat) : Int × Bool :=
    valuLane op w (csRnd c) (lane vd w i) (lane va w i) (if f then lane (rdS g b) w 0 else lane vb w i) b (free + i)
  let spill (i : Nat) : Bool := (res i).2 && !fitsS w (res i).1
  wrV g 2 d (vecOf w fun i => if (res i).2 then markS (csSat c) w (res i).1 else wrapTo w (res i).1)
    :: ovfIf 2 ((List.range (256 / w)).any spill)

/-- A permutation's lanes: width of the result and its lane `i` as an exact value with its mark (0 none, 1 S, 2 N) (09 R400). -/
def vpermLane (op : VpermOp) (w b : Nat) (va vb : BitVec 256) (i : Nat) : Int × Nat :=
  let n := 256 / w
  let a (k : Nat) : Int := slane va w k
  let b' (k : Nat) : Int := slane vb w k
  match op with
  | .vmulj => if i % 2 = 0 then (-a (i + 1), 1) else (a (i - 1), 1)
  | .vmulnj => if i % 2 = 0 then (a (i + 1), 1) else (-a (i - 1), 1)
  | .vconj => if i % 2 = 0 then (a i, 1) else (-a i, 1)
  | .vsplat => (a b, 0)
  | .vrot => (a ((i + b) % n), 0)
  | .vilvl => (if i % 2 = 0 then a (i / 2) else b' (i / 2), 0)
  | .vilvh => (if i % 2 = 0 then a (n / 2 + i / 2) else b' (n / 2 + i / 2), 0)
  | .vevn => (if i < n / 2 then a (2 * i) else b' (2 * (i - n / 2)), 0)
  | .vodd => (if i < n / 2 then a (2 * i + 1) else b' (2 * (i - n / 2) + 1), 0)
  | .vunpl => (a i, 0)
  | .vunph => (a (n / 2 + i), 0)
  | .vpack => (if i < n then a i else b' (i - n), 2)

/-- A permutation's results, latency 2. -/
def vpermWrites (g : Engine) (op : VpermOp) (wc d a b : Nat) : List Wr :=
  let w := laneBits wc
  let wo := match op with | .vunpl => 2 * w | .vunph => 2 * w | .vpack => w / 2 | _ => w
  let c := (actBank g).cstat
  let res (i : Nat) : Int × Nat := vpermLane op w b (rdV g a) (rdV g b) i
  let put (i : Nat) : Nat := match (res i).2 with
    | 1 => markS (csSat c) wo (res i).1
    | 2 => markN wo (res i).1
    | _ => wrapTo wo (res i).1
  wrV g 2 d (vecOf wo put) :: ovfIf 2 ((List.range (256 / wo)).any fun i => (res i).2 != 0 && !fitsS wo (res i).1)

/-! ## fp32, scalars, moves (09 R402 to R405) -/

/-- Does the fp32 operation take the MAC unit and one half? -/
def vfpHalf (op : VfpOp) : Bool := match op with | .vfma => true | .vfms => true | .vfmul => true | _ => false

/-- An fp32 operation's results: latency 3 on one half, or 2 on all lanes. -/
def vfpWrites (g : Engine) (op : VfpOp) (d a b : Nat) (high : Bool) (free : Nat) : List Wr :=
  let half := vfpHalf op
  let wr (i : Nat) : Bool := !half || (if high then 4 ≤ i else i < 4)
  let res (i : Nat) : Nat × Nat := fpLane op (lane (rdV g d) 32 i) (lane (rdV g a) 32 i) (lane (rdV g b) 32 i) (free + i)
  let l := if half then 3 else 2
  let flags := (List.range 8).foldl (fun f i => if wr i then f ||| (res i).2 else f) 0
  [(l, .v (physV (actBank g).cstat d) (vecOf 32 fun i => (res i).1) (vecOf 32 fun i => if wr i then 2 ^ 32 - 1 else 0)),
   (l, .sticky (BitVec.ofNat 32 (16 * flags)))]

/-- A scalar operation (09 R403). -/
def saluVal (op : SaluOp) (x y : BitVec 32) : BitVec 32 :=
  match op with
  | .add => x + y
  | .sub => x - y
  | .and => x &&& y
  | .or => x ||| y
  | .xor => x ^^^ y
  | .shl => x <<< (y.toNat % 32)
  | .shr => x >>> (y.toNat % 32)
  | .sra => x.sshiftRight (y.toNat % 32)
  | .mul => x * y
  | .min => if x.toInt ≤ y.toInt then x else y
  | .max => if x.toInt ≤ y.toInt then y else x
  | .slt => if x.toInt < y.toInt then 1#32 else 0#32
  | .sltu => if x.toNat < y.toNat then 1#32 else 0#32
  | .seq => if x = y then 1#32 else 0#32

/-- SSTAT as it is read (08 R383). -/
def sstatRead (s : State) (e : Nat) : Nat :=
  (engOf s e).sstat.toNat + (if (streamBlock s e false).isSome then 64 else 0) + if (streamBlock s e true).isSome then 128 else 0

/-- CSRR (09 R405). -/
def csrRead (s : State) (e n : Nat) : BitVec 32 :=
  let g := engOf s e
  let b := actBank g
  match n with
  | 0x00 => cstatRead g g.shadow
  | 0x01 => g.bexp.setWidth 32
  | 0x02 => (vecGet b.lcnt 0).setWidth 32
  | 0x03 => (vecGet b.lcnt 1).setWidth 32
  | 0x04 => (vecGet b.lstart 0).setWidth 32
  | 0x05 => (vecGet b.lstart 1).setWidth 32
  | 0x06 => (vecGet b.lend 0).setWidth 32
  | 0x07 => (vecGet b.lend 1).setWidth 32
  | 0x08 => (irqPend s e).setWidth 32
  | 0x09 => g.irqEn.setWidth 32
  | 0x0A => g.ivec.setWidth 32
  | 0x0B => g.ipc.setWidth 32
  | 0x0C => g.epc.setWidth 32
  | 0x0D => g.ecause.setWidth 32
  | 0x0E => BitVec.ofNat 32 (sstatRead s e)
  | 0x0F => g.cycles.setWidth 32
  | 0x10 => g.cycHi
  | 0x11 => g.timer.setWidth 32
  | 0x12 => (g.timer >>> 32).setWidth 32
  | 0x13 => BitVec.ofNat 32 e
  | 0x14 => g.inbox
  | _ => 0#32

/-- An INBOX value is permitted (08 R382). -/
def inboxOk (v : BitVec 32) : Bool :=
  fld v 0 6 == 0 && (fld v 16 16 == 0 || fld v 0 16 + 64 * fld v 16 16 ≤ 0xFF80)

/-- CSRW of `v` to register `n` raises no ILLEGAL (09 R405). -/
def csrwOk (g : Engine) (n : Nat) (v : BitVec 32) : Bool :=
  let b := actBank g
  match n with
  | 0x00 => fld v 13 2 != 3 && v &&& 0x300F1F07#32 == 0#32 &&
      (b.rot == 0#2 || (fld v 26 2 == csRW b.cstat && fld v 22 4 == csRB b.cstat))
  | 0x01 => fld v 5 27 == 0
  | 0x02 => fld v 16 16 == 0
  | 0x03 => fld v 16 16 == 0
  | 0x08 => true
  | 0x09 => fld v 16 16 == 0
  | 0x0A => fld v 16 16 == 0 && fld v 0 3 == 0
  | 0x0B => fld v 16 16 == 0 && fld v 0 3 == 0
  | 0x0E => true
  | 0x11 => true
  | 0x12 => true
  | 0x14 => inboxOk v
  | _ => false

/-- A move's results (09 R404). -/
def moveWrites (s : State) (e : Nat) (op : MoveOp) (d a b : Nat) : List Wr :=
  let g := engOf s e
  let k := actBank g
  let c := k.cstat
  match op with
  | .vmov => [wrV g 2 d (rdV g a)]
  | .vget => [(2, .s d (BitVec.ofNat 32 (lane (rdV g a) 32 b)))]
  | .vput => [(2, .v (physV c d) (vecOf 32 fun _ => (rdS g a).toNat) (vecOf 32 fun i => if i = b then 2 ^ 32 - 1 else 0))]
  | .vbcst => [wrV g 2 d (vecOf (laneBits b) fun _ => (rdS g a).toNat)]
  | .anarrow =>
    let r (i : Nat) : Int := rndShift (csRnd c) (slane (vecGet g.a a) 48 i) b
    wrV g 2 d (vecOf 16 fun i => markN 16 (r i)) :: ovfIf 2 ((List.range 16).any fun i => !fitsS 16 (r i))
  | .movsp => [(1, .s d ((vecGet k.p a).setWidth 32))]
  | .movps => [(1, .p d ((rdS g a).setWidth 16))]
  | .movsm => [(1, .s d (vecGet k.m a))]
  | .movms => [(1, .m d (rdS g a))]
  | .movsc => [(1, .s d (vecGet k.cp a))]
  | .movcs => [(1, .cp d (rdS g a))]
  | .csrr => [(1, .s d (csrRead s e a))]
  | .csrw => [(1, .csr d (rdS g a))]

/-- The results of an M operation. -/
def mWrites (s : State) (e : Nat) (m : MOp) : List Wr :=
  let g := engOf s e
  match m with
  | .none => []
  | .mac op d a b z => macWrites g op d a b z
  | .valu op w d a b f => valuWrites g op w d a b f s.freeCtr
  | .vperm op w d a b => vpermWrites g op w d a b
  | .vfp op d a b h => vfpWrites g op d a b h s.freeCtr
  | .salu op imm d a b =>
    [(1, .s d (saluVal op (rdS g a) (if imm then BitVec.ofInt 32 (signed 8 b) else rdS g b)))]
  | .move op d a b => moveWrites s e op d a b

/-! ## Slots (09 R406 to R408) -/

/-- Address of an access: pointer value, and the required multiple in bytes (1 when the operation makes no access). -/
def slotAddr (g : Engine) (t : SlotOp) : Nat × Nat :=
  let p (n : Nat) : Nat := (vecGet (actBank g).p n).toNat
  match t with
  | .vld _ n _ => (p n, 32)
  | .vldb _ n _ => (p n, 4)
  | .vst _ n _ _ _ => (p n, 32)
  | .staH _ n _ _ _ => (p n, 32)
  | .staW _ n _ _ _ _ => (p n, 32)
  | .sld _ n _ => (p n, 4)
  | .sst _ n _ => (p n, 4)
  | _ => (0, 1)

/-- Pointer that a slot operation post-modifies. -/
def slotPost (t : SlotOp) : Option Nat :=
  match t with
  | .vld _ n u => if u then some n else none
  | .vldb _ n u => if u then some n else none
  | .vst _ n u _ _ => if u then some n else none
  | .staH _ n u _ _ => if u then some n else none
  | .staW _ n u _ _ _ => if u then some n else none
  | .sld _ n u => if u then some n else none
  | .sst _ n u => if u then some n else none
  | .pmod n => some n
  | _ => none

/-- The word that a store writes, with the flags it raises and its track width (09 R406). -/
def storeWord (g : Engine) (y : Bool) (t : SlotOp) : Option (BitVec 256 × Bool × Option Nat) :=
  let c := (actBank g).cstat
  let nar (a w sh off : Nat) : BitVec 256 × Bool :=
    let r (i : Nat) : Int := rndShift (csRnd c) (slane (vecGet g.a a) 48 (off + i)) sh
    (vecOf w fun i => markN w (r i), (List.range (256 / w)).any fun i => !fitsS w (r i))
  match t with
  | .vst v _ _ tr w => some (rdV g v, false, if tr then some (laneBits w) else none)
  | .staH a _ _ tr sh => let x := nar a 16 sh 0; some (x.1, x.2, if tr then some 16 else none)
  | .staW a _ _ tr hi sh => let x := nar a 32 sh (if hi then 8 else 0); some (x.1, x.2, if tr then some 32 else none)
  | .sst r n _ =>
    let p := (vecGet (actBank g).p n).toNat
    some (putWord32 (dataWord g y (p / 32)) (p / 4 % 8) (rdS g r), false, none)
  | _ => none

/-- The results of a slot operation on memory X (false) or Y (true). -/
def slotWrites (g : Engine) (y : Bool) (t : SlotOp) : List Wr :=
  let k := actBank g
  let a := (slotAddr g t).1
  let w := dataWord g y (a / 32)
  let post : List Wr := match slotPost t with
    | some n => [(1, .p n (postMod (vecGet k.m n) (vecGet k.p n)))]
    | none => []
  let store : List Wr := match storeWord g y t with
    | some (x, o, tr) => ovfIf 2 o ++ (match tr with | some b => [(3, .track (BitVec.ofNat 5 (fewestSigns b x)))] | none => [])
    | none => []
  let load : List Wr := match t with
    | .vld v _ _ => [wrV g 4 v w]
    | .vldb v _ _ => [wrV g 4 v (vecOf 32 fun _ => lane w 32 (a / 4 % 8))]
    | .sld r _ _ => [(4, .s r (BitVec.ofNat 32 (lane w 32 (a / 4 % 8))))]
    | .padd n imm => [(1, .p n (BitVec.ofNat 16 (wrapTo 16 ((vecGet k.p n).toNat + 32 * signed 7 imm))))]
    | .pmovs n r => [(1, .p n ((rdS g r).setWidth 16))]
    | _ => []
  post ++ store ++ load

/-- Perform a slot's store: a load of any later bundle returns the stored data (08 R353). -/
def slotStore (g g0 : Engine) (y : Bool) (t : SlotOp) : Engine :=
  match storeWord g0 y t with
  | some (x, _, _) => engStore g y ((slotAddr g0 t).1 / 32) x
  | none => g

/-- The watchpoint that a slot's access matches. -/
def slotWatch (g : Engine) (y : Bool) (t : SlotOp) : Option Nat :=
  if (slotAddr g t).2 = 1 then none else wpMatch g y (storeWord g y t).isSome (slotAddr g t).1

/-- The absolute accesses as slot operations with an address (09 R415). -/
def absWrites (g : Engine) (mem : Bool) (sub reg addr : Nat) : List Wr :=
  let w := dataWord g mem (addr / 32)
  match sub with
  | 0 => [(4, .s reg (BitVec.ofNat 32 (lane w 32 (addr / 4 % 8))))]
  | 2 => [wrV g 4 reg w]
  | _ => []
/-- The store of an absolute access. -/
def absStore (g g0 : Engine) (mem : Bool) (sub reg addr : Nat) : Engine :=
  match sub with
  | 1 => engStore g mem (addr / 32) (putWord32 (dataWord g0 mem (addr / 32)) (addr / 4 % 8) (rdS g0 reg))
  | 3 => engStore g mem (addr / 32) (rdV g0 reg)
  | _ => g

/-! ## Checks (09 R416, R421, R422) -/

/-- Register that a destination names, for the conflict check: V, A, S, P, M and CP registers (09 R416). -/
def destReg (d : Dest) : Option (Nat × Nat) :=
  match d with
  | .v n _ _ => some (0, n) | .a n _ _ => some (1, n) | .s n _ => some (2, n) | .p n _ => some (3, n)
  | .m n _ => some (4, n) | .cp n _ => some (5, n) | _ => none
/-- Do two results of one bundle meet in one register at the end of the same cycle? -/
def conflicts (l : List Wr) : Bool :=
  match l with
  | [] => false
  | (t, d) :: r => ((destReg d).isSome && r.any fun x => x.1 == t && destReg x.2 == destReg d) || conflicts r

/-- The results of a bundle, the stream operation's excepted. -/
def bundleWrites (s : State) (e : Nat) (b : Bundle) : List Wr :=
  let g := engOf s e
  let k := actBank g
  match b with
  | .par p m x y =>
    (match p with
      | some (c, v) => [wrV g 4 v (progWord g (fld (vecGet k.cp c) 5 11)), (1, .cp c (cpAdvance (vecGet k.cp c)))]
      | none => [])
    ++ mWrites s e m ++ slotWrites g false x ++ slotWrites g true y
    ++ (match x with | .sin v _ => [(4, .v (physV k.cstat v) 0#256 0#256)] | _ => [])
  | .ctl c =>
    match c with
    | .branch 9 _ _ sl _ => [(1, .s sl ((g.pc + 8#16).setWidth 32))]
    | .simm 0 i v => [(1, .s i (BitVec.ofNat 32 v))]
    | .simm 1 i v => [(1, .m i (BitVec.ofNat 32 v))]
    | .simm 2 i v => [(1, .cp i (BitVec.ofNat 32 v))]
    | .simm _ i v => [(1, .p i (BitVec.ofNat 16 v))]
    | .vimm v w x => [wrV g 2 v (vecOf (laneBits w) fun _ => x)]
    | .sys .bxclr => [(1, .bexp 31#5)]
    | .abs m sub r a => absWrites g m sub r a
    | _ => []

/-- ILLEGAL by the values a bundle meets (09 R404, R405, R409, R416). -/
def valueIllegal (s : State) (e : Nat) (b : Bundle) : Bool :=
  let g := engOf s e
  (match b with
    | .par _ (.move .movms _ a _) _ _ => !modifierOk (rdS g a)
    | .par _ (.move .movcs _ a _) _ _ => !coeffPtrOk (rdS g a)
    | .par _ (.move .csrw d a _) _ _ => !csrwOk g d (rdS g a)
    | .ctl (.loop _ _ _ _ lend) => lend < g.pc.toNat + 8
    | _ => false)
  || conflicts (bundleWrites s e b)

/-- LOOP (08 R350, 09 R410). -/
def loopFault (g : Engine) (b : Bundle) : Bool :=
  let k := actBank g
  let d := csDepth k.cstat
  let atEnd := (List.range d).any fun l => vecGet k.lend l == g.pc
  match b with
  | .ctl (.loop rw _ _ _ lend) =>
    2 ≤ d || (rw != 0 && k.rot != 0#2) || (d == 1 && (vecGet k.lend 0).toNat ≤ lend) || atEnd
  | .ctl (.branch _ _ _ _ _) => atEnd
  | _ => false

/-- Target of a branch. -/
def branchTarget (g : Engine) (cond sa target : Nat) : Nat := if cond = 10 then (rdS g sa).toNat % 65536 else target

/-- PROTECT on a coefficient address or branch target, and of RETI and DRET (09 R394, R411, R414). -/
def protectFault (g : Engine) (b : Bundle) : Bool :=
  let mon := g.state == .monitor
  match b with
  | .par (some (c, _)) _ _ _ => !mon && 0xF800 ≤ fld (vecGet (actBank g).cp c) 0 16
  | .ctl (.branch c sa _ _ t) => !mon && 0xF800 ≤ branchTarget g c sa t
  | .ctl (.sys .reti) => !g.shadow
  | .ctl (.sys .dret) => !mon
  | _ => false

/-- ALIGN (08 R348, R349, 09 R411). -/
def alignFault (g : Engine) (b : Bundle) : Bool :=
  let bad (t : SlotOp) : Bool := let a := slotAddr g t; a.1 % a.2 != 0
  match b with
  | .par p _ x y => bad x || bad y || (match p with | some (c, _) => fld (vecGet (actBank g).cp c) 0 5 != 0 | none => false)
  | .ctl (.branch 10 sa _ _ _) => fld (rdS g sa) 0 3 != 0
  | .ctl (.abs _ sub _ a) => a % (if sub < 2 then 4 else 32) != 0
  | _ => false

/-- The stream operation of a bundle: true SOUT. -/
def streamOp (b : Bundle) : Option Bool :=
  match b with
  | .par _ _ (.sin _ _) _ => some false
  | .par _ _ (.sout _ _ _ _) _ => some true
  | _ => none

/-- The first exception of the bundle `w` at PC, by the order of 09 R421. -/
def bundleFault (s : State) (e : Nat) (w : BitVec 64) : Option Nat :=
  let g := engOf s e
  if g.state != .monitor && 0xF800 ≤ g.pc.toNat then some 3
  else match decBundle w with
    | none => some 1
    | some b =>
      if valueIllegal s e b then some 1
      else if loopFault g b then some 4
      else if protectFault g b then some 3
      else if alignFault g b then some 2
      else match streamOp b with
        | some o => if (streamBlock s e o).isNone then some 5 else none
        | none => none

/-! ## Control operations -/

/-- Condition of a branch (09 R411). -/
def branchTaken (cond : Nat) (a b : BitVec 32) : Bool :=
  match cond with
  | 1 => a == b
  | 2 => a != b
  | 3 => a.toInt < b.toInt
  | 4 => b.toInt ≤ a.toInt
  | 5 => a.toNat < b.toNat
  | 6 => b.toNat ≤ a.toNat
  | 7 => a == 0#32
  | 8 => a != 0#32
  | _ => true

/-- LOOP without an exception (08 R350, 09 R409). -/
def doLoop (g : Engine) (rw count lend : Nat) : Engine :=
  if count = 0 then { g with pc := BitVec.ofNat 16 (lend + 8) }
  else
    let b := actBank g
    let l := csDepth b.cstat
    let c1 := putFld b.cstat 20 2 (l + 1)
    let b1 := { b with
      lcnt := vecSet b.lcnt l (BitVec.ofNat 16 count), lstart := vecSet b.lstart l (g.pc + 8#16)
      lend := vecSet b.lend l (BitVec.ofNat 16 lend), rot := setBit b.rot l (rw != 0)
      cstat := if rw = 0 then c1 else putFld (putFld c1 26 2 rw) 22 4 0 }
    beginCapture { setBank g g.shadow b1 with pc := g.pc + 8#16 } b1 l

/-- Restore a bank from the save area; loop state, RW and RB from the debug copy (08 R376). -/
def restoreBank (b : EngBank) (x : Nat) (copy : EngBank) (shadow : Bool) : EngBank :=
  let v := BitVec.ofNat 1024 x
  let md (i : Nat) : BitVec 32 :=
    let n := BitVec.ofNat 32 (fld v (640 + 32 * i) 32)
    if modifierOk n then n else maskMerge (vecGet b.m i) n 0xFFFF#32
  let c := BitVec.ofNat 32 (fld v 960 32)
  let mask : BitVec 32 := (if shadow then 0x000080F8#32 else 0x800080F8#32) ||| (if fld c 13 2 = 3 then 0#32 else 0x6000#32)
  { b with
    s := Vector.ofFn fun i => BitVec.ofNat 32 (fld v (32 * i.val) 32)
    p := Vector.ofFn fun i => BitVec.ofNat 16 (fld v (512 + 16 * i.val) 16)
    m := Vector.ofFn fun i => md i.val
    cp := Vector.ofFn fun i => BitVec.ofNat 32 (fld v (896 + 32 * i.val) 27)
    cstat := maskMerge (maskMerge b.cstat c mask) copy.cstat 0x0FF00000#32
    lcnt := copy.lcnt, lstart := copy.lstart, lend := copy.lend, rot := copy.rot }

/-- DRET (08 R376). -/
def doDret (g0 : Engine) : Engine :=
  let g := drain g0
  let x := readSave g
  let sh := (x / 2 ^ 1016) % 2 == 1
  { setBank g sh (restoreBank (bankOf g sh) x g.copy sh) with
    shadow := sh, pc := BitVec.ofNat 16 (x / 2 ^ 992 % 65536 / 8 * 8), state := .running, wait := 5
    stepArm := g.dbgCtrl.getLsbD 2 }

/-- WAIT (08 R361): the clock gates unless a source is pending and enabled; the monitor does not wait (log entry 13). -/
def doWait (s : State) (e : Nat) (g : Engine) : Engine :=
  let g1 := advancePc g
  if g.state == .monitor || irqActive s e then g1 else { drain g1 with state := .waiting }

/-- What a control operation does to PC, loops, banks and state, once no exception applies. -/
def ctlStep (s : State) (e : Nat) (g : Engine) (c : CtlOp) : Engine :=
  match c with
  | .loop rw cs sa count lend => doLoop g rw (if cs then (rdS g sa).toNat % 65536 else count) lend
  | .branch cond sa sb _ t =>
    if branchTaken cond (rdS g sa) (rdS g sb) then takeBranch g (branchTarget g cond sa t) else advancePc g
  | .sys .wait => doWait s e g
  | .sys .reti => { g with shadow := false, pc := g.ipc, wait := 2 }
  | .sys .dret => doDret g
  | .sys (.sirq n) => advancePc { g with pend := setBit g.pend n true }
  | .sys .stop => { drain { g with pc := g.pc + 8#16 } with state := .halted, wait := 0 }
  | _ => advancePc g

/-! ## Issue -/

/-- Step, watchpoint or BKPT raised by the bundle that has just issued: the one bundle of a step is followed by the step's entry (08 R372, R376). -/
def afterIssue (g0 : Engine) (b : Bundle) : Option (Nat × Nat) :=
  let watch := match b with
    | .par _ _ x y => (slotWatch g0 false x).orElse fun _ => slotWatch g0 true y
    | .ctl (.abs m sub _ a) => wpMatch g0 m (sub % 2 == 1) a
    | _ => none
  if g0.state == .monitor then none
  else if g0.stepArm then some (4, 0)
  else match watch with
    | some i => some (2, 4 + i)
    | none => if b == .ctl (.sys .bkpt) then some (6, 0) else none

/-- SIN and SOUT move their word (09 R408, 08 R379). -/
def streamMove (s : State) (e : Nat) (b : Bundle) : State × List Wr :=
  let g := engOf s e
  match b with
  | .par _ _ (.sin v h) _ =>
    match streamBlock s e false with
    | none => (s, [])
    | some q =>
      let s1 := qbRead s q 0#142 0#3 0#10
      let o := (qbOf s1 q).out
      let x := BitVec.ofNat 256 (o.data.toNat * (if h then 2 ^ 128 else 1))
      let m := BitVec.ofNat 256 ((2 ^ 128 - 1) * (if h then 2 ^ 128 else 1))
      let s2 := setEng s1 e { engOf s1 e with spIn := 2, poisLogged := g.poisLogged || o.poison }
      let s3 := if o.poison && !g.poisLogged then engEvent s2 e 0x2705 sevWarn e else s2
      (s3, [(4, .v (physV (actBank g).cstat v) x m), (4, .sstat o.bytes o.last o.poison)])
  | .par _ _ (.sout v h l n) _ =>
    match streamBlock s e true with
    | none => (s, [])
    | some q =>
      let w : QbWord := { data := BitVec.ofNat 128 ((rdV g v).toNat / (if h then 2 ^ 128 else 1)), last := l, bytes := BitVec.ofNat 4 n, ends := qbEnds l }
      (setEng (qbPut s q (qbPush (qbNow s q) w)) e { g with spOut := 2 }, [])
  | _ => (s, [])

/-- The bundle issues: every operation reads its sources and its results enter the pipeline; then the cycle ends. -/
def applyBundle (s : State) (e : Nat) (b : Bundle) : State :=
  let g0 := engOf s e
  let ws := bundleWrites s e b
  let mv := streamMove s e b
  let g1 := { engOf mv.1 e with stored := [] }
  let g2 := match b with
    | .par _ _ x y => slotStore (slotStore g1 g0 false x) g0 true y
    | .ctl (.abs m sub r a) => absStore g1 g0 m sub r a
    | _ => g1
  let g3 := { g2 with
    flight := g2.flight ++ (ws ++ mv.2).map fun w => { left := w.1, shadow := g0.shadow, dest := w.2 }
    last := g0.pc, frozen := none, cldPaid := false
    stepArm := if g0.state == .monitor then g2.stepArm else false
    cycHi := match b with | .par _ (.move .csrr _ 15 _) _ _ => (g0.cycles >>> 32).setWidth 32 | _ => g2.cycHi }
  let g4 := match b with | .par _ _ _ _ => advancePc g3 | .ctl c => ctlStep s e g3 c
  let g5 := countCycle (cycleEnd g4)
  freeStep (setEng mv.1 e { g5 with
    dbgEvt := (afterIssue g0 b).orElse fun _ => g5.dbgEvt, spIn := g5.spIn - 1, spOut := g5.spOut - 1 })

/-- A freeze cycle: counted, and every operation in flight holds its stage (08 R338). -/
def freezeCycle (g : Engine) : Engine := { countCycle g with spIn := g.spIn - 1, spOut := g.spOut - 1 }

/-- A stream operation cannot be performed now (08 R379). -/
def streamBlocked (s : State) (e : Nat) (b : Bundle) : Bool :=
  match streamOp b with
  | none => false
  | some false => (engOf s e).spIn != 0 || !spHolds s e
  | some true => (engOf s e).spOut != 0 || !spAccepts s e

/-- The first refusal of a link on tenant grounds since the partition's configuration logs event 0x2606 (07 R318). -/
def linkRefusal (s : State) (e : Nat) (b : Bundle) : State :=
  match (streamOp b).bind (streamBlock s e) with
  | none => s
  | some q =>
    if partRuns s (qbPart q) && !linkOpen s e q && !s.mem.linkMark.getLsbD (qbPart q) then
      logEvT (setMem s { s.mem with linkMark := setBit s.mem.linkMark (qbPart q) true }) 0x2606 sevWarn (q + e * 2 ^ 14) (partOwner s (qbPart q)) 0xFFFF
    else s

/-- The bundle `w` is to issue at PC: an exception, a freeze on a stream port, or the issue. -/
def issueWord (s : State) (e : Nat) (w : BitVec 64) : State :=
  match bundleFault s e w, decBundle w with
  | some c, _ => engException s e c
  | none, none => s
  | none, some b =>
    if streamBlocked s e b then
      linkRefusal (setEng s e { freezeCycle (engOf s e) with frozen := some w }) e b
    else applyBundle s e b

/-- The bundle carries a coefficient load. -/
def hasCld (w : BitVec 64) : Bool := fld w 60 4 < 6 && w.getLsbD 59

/-- The boundary before bundle `w`: debug event, then interrupt, then issue (08 R363, R365, R372). -/
def boundary (s : State) (e : Nat) (w : BitVec 64) : State :=
  let g := engOf s e
  match debugDue g with
  | some (c, i) => debugEntry s e c i
  | none => if irqDue s e then setEng s e (irqEntry g) else issueWord s e w

/-- The engine issues bundles. -/
def engIssues (g : Engine) : Bool := g.state == .running || g.state == .monitor

/-- A wake from WAITING (08 R361): a debug event at the bundle after WAIT is taken before the interrupt (R363); with IE set the interrupt is taken; otherwise that
bundle issues next. -/
def engWake (s : State) (e : Nat) : State :=
  let g := { engOf s e with state := EngState.running }
  let s1 := setEng s e g
  match debugDue g with
  | some (c, i) => debugEntry s1 e c i
  | none => if irqDue s1 e then setEng s1 e (irqEntry g) else s1
/-- A new cycle of the engine begins. -/
def freshCycle (s : State) (e : Nat) : State := if (engOf s e).stored = [] then s else setEng s e { engOf s e with stored := [] }

/-- One ENG cycle of engine `e`; `held` withholds it (02 R91). -/
def engCycle (s0 : State) (e : Nat) (held : Bool) : State :=
  let s := freshCycle s0 e
  let g := engOf s e
  if !engClocked s e then s
  else if g.state == .waiting then
    (match debugWait g with | some (c, i) => debugEntry s e c i | none => if irqActive s e then engWake s e else s)
  else if !engIssues g then s
  else if held then setEng s e (freezeCycle g)
  else if 0 < g.wait then setEng s e { cycleEnd g with wait := g.wait - 1, spIn := g.spIn - 1, spOut := g.spOut - 1 }
  else
    let w := g.frozen.getD (bundleAt g g.pc.toNat)
    if (debugDue g).isNone && !irqDue s e && hasCld w && !fromCache g && !g.cldPaid && (bundleFault s e w).isNone then
      setEng s e { freezeCycle g with cldPaid := true }
    else boundary s e w

/-- Set an engine's record unless it is so already. -/
def toEng (s : State) (e : Nat) (g : Engine) : State := if engOf s e = g then s else setEng s e g

/-- The cycles that an engine has to wait before its next issue have passed. -/
def passWait (g : Engine) : Engine := { cyclesPass g.wait g with wait := 0, spIn := g.spIn - g.wait, spOut := g.spOut - g.wait }

/-- The meaning of a row that names one operation: engine `e`, not frozen, reaches the boundary before the bundle `w` that carries it. The
cycles that pass before (after a taken branch or an entry, a coefficient load's freeze, a port's rate) pass first. -/
def issueRow (e : Nat) (w : BitVec 64) (s : State) : State :=
  let g := engOf s e
  if engClocked s e && engIssues g && g.frozen.isNone then
    let g1 := passWait g
    let s1 := toEng s e g1
    let quiet := (debugDue g1).isNone && !irqDue s1 e && (bundleFault s1 e w).isNone
    let g2 := if !quiet then { g1 with stored := [] } else if hasCld w && !fromCache g1 && !g1.cldPaid then freezeCycle g1 else g1
    let k := if quiet then (match (decBundle w).bind streamOp with | some true => g2.spOut | some false => g2.spIn | none => 0) else 0
    boundary (toEng s1 e ((List.range k).foldl (fun a _ => freezeCycle a) g2)) e w
  else s

end Sys2Proof.Machine
end

