-- ==== Sys2Proof/Machine/EngineRegs.lean ====
section
/-! DEFINITION. Engine commands, the engine window and its registers, DMA channels up to their requests (08 R357 to R363, R378 to R383). -/
namespace Sys2Proof.Machine

/-- Response codes (10 R436). -/
abbrev rOk : Nat := 0
abbrev rSlverr : Nat := 1
abbrev rDecerr : Nat := 2
abbrev rGated : Nat := 3
abbrev rFenced : Nat := 4
abbrev rEpoch : Nat := 5
abbrev rPoison : Nat := 6
abbrev rNotready : Nat := 7
abbrev rTenantReset : Nat := 8
abbrev rRetry : Nat := 9

/-- State code (08 R357). -/
def engStateCode (st : EngState) : Nat :=
  match st with | .off => 0 | .notready => 1 | .halted => 2 | .running => 3 | .waiting => 4 | .fault => 5 | .monitor => 6

/-- A load is writing the engine (05 R217, 08 R383). -/
def engLoading (s : State) (e : Nat) : Bool :=
  match s.ld.load with
  | some l => l.phase == .writing && l.engs.any fun r => r.eng == e
  | none => false

/-- Is a command permitted in the present state (08 R358, R363)? -/
def engPermits (s : State) (e code : Nat) : Bool :=
  let g := engOf s e
  let load := engLoading s e
  g.power.isNone &&
    match code with
    | 1 => g.state == .notready && !load
    | 2 => g.state == .halted && !load
    | 3 => g.state == .running || g.state == .waiting
    | 4 => g.state == .fault
    | 5 => (g.state == .notready || g.state == .halted || g.state == .fault) && !load && g.dma.toList.all fun d => !d.busy
    | 6 => g.state == .off
    | _ => false

/-- HALT meets its boundary: a debug event or an exception there discards it; otherwise no bundle issues and what is in flight
completes (08 R358, R363). -/
def engHalt (s : State) (e : Nat) : State :=
  let g := engOf s e
  if g.state == .waiting then (match debugWait g with | some (c, i) => debugEntry s e c i | none => setEng s e { g with state := .halted })
  else match debugDue g with
    | some (c, i) => debugEntry s e c i
    | none =>
      match bundleFault s e (g.frozen.getD (bundleAt g g.pc.toNat)) with
      | some c => engException s e c
      | none => setEng s e { drain g with state := .halted, wait := 0, frozen := none, cldPaid := false }

/-- A permitted command takes effect (08 R358). -/
def engCommand (s : State) (e code : Nat) : State :=
  let g := engOf s e
  match code with
  | 1 => setEng s e { g with state := .halted, pc := 0#16, dbgLogged := false }
  | 2 => setEng s e { g with state := .running }
  | 3 => engHalt s e
  | 4 => setEng s e { g with state := .halted, pc := g.epc }
  | 5 => setEng s e { g with power := some false }
  | _ => setEng s e { g with power := some true }

/-- ENG_COMMAND (08 R358, R362). -/
def wrEngCommand (r : Req) (e len val : Nat) (s : State) : State :=
  objWriteG r (O_ENG_COMMAND e) len val { state := engClocked s e && engPermits s e val } noRej (fun s => engCommand s e val) s

/-- The engine returns as NOTREADY, wiped (08 R357, R362, R363): OFF stays, and a POWER_ON in progress completes by itself. -/
def wipeEng (s : State) (e : Nat) : State :=
  let g := engOf s e
  if g.state == .off then s else setEng s e {}

/-- An access to an engine that is OFF or NOTREADY is answered NOTREADY; the first since NOTREADY was entered logs event 0x2702 (08 R359). -/
def engNotReady (s : State) (e : Nat) : State :=
  let g := engOf s e
  if g.state == .notready && !g.nrLogged then engEvent (setEng s e { g with nrLogged := true }) e 0x2702 sevWarn e else s

/-! ## DMA channels (08 R380, R381) -/

/-- Channel `c`. -/
def dmaOf (s : State) (e c : Nat) : Dma := vecGet (engOf s e).dma c
/-- Set it. -/
def setDma (s : State) (e c : Nat) (d : Dma) : State := setEng s e { engOf s e with dma := vecSet (engOf s e).dma c d }
/-- Rows and lines of a channel. -/
def dmaRows (d : Dma) : Nat := fld d.shape 16 10 + 1
def dmaLines (d : Dma) : Nat := fld d.shape 0 10 + 1
def dmaTotal (d : Dma) : Nat := dmaRows d * dmaLines d
/-- The transfer is refused (08 R380). -/
def dmaRefused (d : Dma) : Bool :=
  let region := fld d.ctrl 4 2
  let last := d.loc.toNat + 64 * dmaTotal d
  region == 3 || 0x10000 < last || fld d.loc 0 6 != 0 || fld d.sys 0 6 != 0 || fld d.stride 0 6 != 0
    || (region == 0 && 0xF800 < last) || (region == 1 && 0xFF80 < last)
/-- Event 0x2703. -/
def dmaEvent (s : State) (e c resp : Nat) : State := engEvent s e 0x2703 sevErr (e + c * 1024 + resp * 4096)

/-- A running transfer whose lines have all answered ends (08 R381). -/
def dmaSettle (s : State) (e c : Nat) : State :=
  let d := dmaOf s e c
  if d.busy && d.flight.isEmpty && (d.abort || d.resp != 0#4 || dmaTotal d ≤ d.issued) then
    let bad := d.resp != 0#4
    let s1 := setDma s e c { d with busy := false, abort := false, aborted := d.abort, error := bad, done := !d.abort && !bad }
    if bad then dmaEvent s1 e c d.resp.toNat else s1
  else s

/-- START is accepted (08 R380). -/
def dmaStart (s : State) (e c : Nat) : State :=
  let d := { dmaOf s e c with done := false, error := false, aborted := false, resp := 0#4, lines := 0#11, issued := 0, flight := [], abort := false }
  if dmaRefused d then dmaEvent (setDma s e c { d with error := true, resp := 1#4 }) e c 1
  else setDma s e c { d with busy := true }

/-- A write of DMA_CTRL: START while BUSY is refused with SLVERR; ABORT acts on a running transfer (08 R380, R381). -/
def dmaCtrlWrite (s : State) (e c val mask : Nat) : State × Bool :=
  let d := dmaOf s e c
  let v := val &&& mask
  if v.testBit 31 && d.busy then (s, false)
  else
    let keep := BitVec.ofNat 10 (mask &&& 0x3F9)
    let d1 := { d with ctrl := maskMerge d.ctrl (BitVec.ofNat 10 v) keep, abort := d.abort || (v.testBit 30 && d.busy) }
    let s1 := dmaSettle (setDma s e c d1) e c
    (if v.testBit 31 then dmaStart s1 e c else s1, true)

/-- DMA_STATUS (08 R383). -/
def dmaStatus (d : Dma) : Nat :=
  (if d.busy then 2 ^ 31 else 0) + (if d.done then 2 ^ 30 else 0) + (if d.error then 2 ^ 29 else 0) + (if d.aborted then 2 ^ 28 else 0)
    + d.resp.toNat * 2 ^ 24 + d.lines.toNat

/-! ## Register image -/

/-- The image of a bank, 140 bytes (08 R382). -/
def bankImage (g : Engine) (sh : Bool) : Nat :=
  let b := bankOf g sh
  packLanes 32 (b.s.toList.map (·.toNat))
    + 2 ^ 512 * packLanes 16 (b.p.toList.map (·.toNat))
    + 2 ^ 640 * packLanes 32 (b.m.toList.map (·.toNat))
    + 2 ^ 896 * packLanes 32 (b.cp.toList.map (·.toNat))
    + 2 ^ 960 * (cstatRead g sh).toNat
    + 2 ^ 992 * (if sh then 0 else g.bexp.toNat)
    + 2 ^ 1024 * packLanes 16 ((b.lcnt.toList ++ b.lstart.toList ++ b.lend.toList).map (·.toNat))

/-- A window write of a modifier: a reserved MODE, or a LEN reserved under it, keeps both; INC takes effect (08 R347). -/
def modifierWin (old new : BitVec 32) : BitVec 32 :=
  let v := new &&& 0xC7FFFFFF#32
  if modifierOk v then v else maskMerge old v 0xFFFF#32
/-- A window write of CSTAT (08 R343): RND 0b11 leaves RND unchanged; IE of the shadow bank is ignored. -/
def cstatWin (old new : BitVec 32) (sh : Bool) : BitVec 32 :=
  maskMerge old new ((if sh then 0x0FC080F8#32 else 0x8FC080F8#32) ||| (if fld new 13 2 = 3 then 0#32 else 0x6000#32))

/-- A bank whose image becomes `x` (08 R343, R347, R349). -/
def setBankImage (g : Engine) (sh : Bool) (x : Nat) : Engine :=
  let b := bankOf g sh
  let v := BitVec.ofNat 1120 x
  let h (k : Nat) : BitVec 16 := BitVec.ofNat 16 (fld v (1024 + 16 * k) 16)
  let g1 := setBank g sh { b with
    s := Vector.ofFn fun i => BitVec.ofNat 32 (fld v (32 * i.val) 32)
    p := Vector.ofFn fun i => BitVec.ofNat 16 (fld v (512 + 16 * i.val) 16)
    m := Vector.ofFn fun i => modifierWin (vecGet b.m i.val) (BitVec.ofNat 32 (fld v (640 + 32 * i.val) 32))
    cp := Vector.ofFn fun i => BitVec.ofNat 32 (fld v (896 + 32 * i.val) 27)
    cstat := cstatWin b.cstat (BitVec.ofNat 32 (fld v 960 32)) sh
    lcnt := Vector.ofFn fun i => h i.val, lstart := Vector.ofFn fun i => h (2 + i.val), lend := Vector.ofFn fun i => h (4 + i.val) }
  if sh then g1 else { g1 with bexp := BitVec.ofNat 5 (fld v 992 32) }

/-- Is the byte at register offset `o` part of the register image (08 R359, R382)? -/
def imageByte (o : Nat) : Bool :=
  (0x200 ≤ o && o < 0x28C) || (0x300 ≤ o && o < 0x38C) || (0x390 ≤ o && o < 0x394) || (0x400 ≤ o && o < 0xC00)
/-- Does an access at register offset `lo` with byte enables `be` touch the register image? -/
def imageTouched (lo be : Nat) : Bool := (List.range 64).any fun i => be.testBit i && imageByte (lo + i)

/-- ENG_STATUS (08 R383). -/
def engStatus (s : State) (e : Nat) : Nat :=
  let g := engOf s e
  engEpoch s e * 65536 + engOwner s e * 4096 + (if s.dbg.attached then 512 else 0) + (if engLoading s e then 256 else 0)
    + (if g.frozen.isSome then 128 else 0) + (if g.shadow then 64 else 0) + engStateCode g.state

/-- The value of the 8-byte slot at register offset `o` (08 R382); an unassigned offset reads zero. -/
def engSlotRead (s : State) (e o : Nat) : Nat :=
  let g := engOf s e
  if 0x100 ≤ o ∧ o < 0x200 then
    let d := dmaOf s e ((o - 0x100) / 64)
    match (o - 0x100) % 64 with
    | 0x00 => d.ctrl.toNat
    | 0x08 => d.loc.toNat
    | 0x10 => d.sys.toNat
    | 0x18 => d.shape.toNat
    | 0x20 => d.stride.toNat
    | 0x28 => dmaStatus d
    | _ => 0
  else if 0x200 ≤ o ∧ o < 0x290 then bankImage g false / 2 ^ (8 * (o - 0x200)) % 2 ^ 64
  else if 0x300 ≤ o ∧ o < 0x390 then bankImage g true / 2 ^ (8 * (o - 0x300)) % 2 ^ 64
  else if 0x400 ≤ o ∧ o < 0x800 then lane (vecGet g.v ((o - 0x400) / 32)) 64 ((o - 0x400) / 8 % 4)
  else if 0x800 ≤ o ∧ o < 0xC00 then wrapTo 64 (slane (vecGet g.a ((o - 0x800) / 128)) 48 ((o - 0x800) / 8 % 16))
  else if 0xC10 ≤ o ∧ o < 0xC30 then (vecGet g.bp ((o - 0xC10) / 8)).toNat
  else match o with
    | 0x000 => e
    | 0x008 => engStatus s e
    | 0x018 => if g.state == .halted || g.state == .fault then g.pc.toNat else g.last.toNat
    | 0x020 => g.ivec.toNat
    | 0x028 => (irqPend s e).toNat
    | 0x030 => g.irqEn.toNat
    | 0x040 => g.epc.toNat
    | 0x048 => g.ecause.toNat
    | 0x050 => g.cycles.toNat
    | 0x058 => g.timer.toNat
    | 0x060 => g.inbox.toNat
    | 0x068 => sstatRead s e
    | 0x390 => g.ipc.toNat
    | 0xC00 => g.dbgCtrl.toNat &&& 0xC
    | 0xC08 => g.dcause.toNat + if g.state == .monitor then 256 else 0
    | 0xC30 => (vecGet g.wp 0).toNat
    | 0xC38 => (vecGet g.wp 1).toNat
    | 0xC40 => g.dpc.toNat
    | _ => 0

/-- Bits of `old` replaced by those of `val` under `mask`. -/
def natMerge (old val mask : Nat) : Nat := (old ^^^ (old &&& mask)) ||| (val &&& mask)

/-- A watchpoint after a window write (08 R383): KIND 0b00 leaves KIND unchanged. -/
def wpWin (old : BitVec 64) (val mask : Nat) : BitVec 64 :=
  let v := BitVec.ofNat 64 (natMerge old.toNat val (mask &&& 0xF0000000FFFFFFFF))
  if fld v 60 2 = 0 then v ||| (old &&& 0x3000000000000000#64) else v

/-- Write the slot at register offset `o` under a bit mask; false where the access is answered SLVERR. -/
def engSlotWrite (s : State) (e o val mask : Nat) : State × Bool :=
  let g := engOf s e
  let mg (old top : Nat) : Nat := natMerge old val mask &&& top
  let set (g : Engine) : State × Bool := (setEng s e g, true)
  if 0x100 ≤ o ∧ o < 0x200 then
    let c := (o - 0x100) / 64
    let d := dmaOf s e c
    match (o - 0x100) % 64 with
    | 0x00 => dmaCtrlWrite s e c val mask
    | 0x08 => (setDma s e c { d with loc := BitVec.ofNat 16 (mg d.loc.toNat 0xFFFF) }, true)
    | 0x10 => (setDma s e c { d with sys := BitVec.ofNat 52 (mg d.sys.toNat (2 ^ 52 - 1)) }, true)
    | 0x18 => (setDma s e c { d with shape := BitVec.ofNat 32 (mg d.shape.toNat 0x03FF03FF) }, true)
    | 0x20 => (setDma s e c { d with stride := BitVec.ofNat 52 (mg d.stride.toNat (2 ^ 52 - 1)) }, true)
    | 0x28 =>
      let v := val &&& mask
      (setDma s e c { d with done := d.done && !v.testBit 30, error := d.error && !v.testBit 29, aborted := d.aborted && !v.testBit 28 }, true)
    | _ => (s, true)
  else if 0x200 ≤ o ∧ o < 0x290 then
    set (setBankImage g false (natMerge (bankImage g false) (val * 2 ^ (8 * (o - 0x200))) (mask * 2 ^ (8 * (o - 0x200)))))
  else if 0x300 ≤ o ∧ o < 0x390 then
    set (setBankImage g true (natMerge (bankImage g true) (val * 2 ^ (8 * (o - 0x300))) (mask * 2 ^ (8 * (o - 0x300)))))
  else if 0x400 ≤ o ∧ o < 0x800 then
    let n := (o - 0x400) / 32
    let k := (o - 0x400) / 8 % 4
    set { g with v := vecSet g.v n (putFld (vecGet g.v n) (64 * k) 64 (mg (lane (vecGet g.v n) 64 k) (2 ^ 64 - 1))) }
  else if 0x800 ≤ o ∧ o < 0xC00 then
    let n := (o - 0x800) / 128
    let k := (o - 0x800) / 8 % 16
    set { g with a := vecSet g.a n (putFld (vecGet g.a n) (48 * k) 48 (mg (lane (vecGet g.a n) 48 k) (2 ^ 48 - 1))) }
  else if 0xC10 ≤ o ∧ o < 0xC30 then
    let i := (o - 0xC10) / 8
    set { g with bp := vecSet g.bp i (BitVec.ofNat 32 (mg (vecGet g.bp i).toNat 0x8000FFF8)) }
  else match o with
    | 0x010 =>
      if mask % 256 = 0 then (s, true)
      else if engPermits s e (val % 256) then (engCommand s e (val % 256), true) else (s, false)
    | 0x018 => if g.state == .halted || g.state == .fault then set { g with pc := BitVec.ofNat 16 (mg g.pc.toNat 0xFFF8) } else (s, true)
    | 0x020 => set { g with ivec := BitVec.ofNat 16 (mg g.ivec.toNat 0xFFF8) }
    | 0x028 => set { g with pend := g.pend &&& ~~~BitVec.ofNat 16 (val &&& mask &&& 0x7F80) }
    | 0x030 => set { g with irqEn := BitVec.ofNat 16 (mg g.irqEn.toNat 0xFFFF) }
    | 0x038 => set { g with pend := g.pend ||| BitVec.ofNat 16 (val &&& mask &&& 0x3F00) }
    | 0x058 => set { g with timer := BitVec.ofNat 64 (mg g.timer.toNat (2 ^ 64 - 1)) }
    | 0x060 =>
      let v := BitVec.ofNat 32 (mg g.inbox.toNat 0xFFFFFFFF)
      if inboxOk v then set { g with inbox := v } else (s, true)
    | 0x068 => if (val &&& mask).testBit 5 then set { g with sstat := setBit g.sstat 5 false, poisLogged := false } else (s, true)
    | 0x390 => set { g with ipc := BitVec.ofNat 16 (mg g.ipc.toNat 0xFFF8) }
    | 0xC00 => set { g with dbgCtrl := BitVec.ofNat 4 (mg g.dbgCtrl.toNat 0xC), haltReq := g.haltReq || (val &&& mask).testBit 1 }
    | 0xC30 => set { g with wp := vecSet g.wp 0 (wpWin (vecGet g.wp 0) val mask) }
    | 0xC38 => set { g with wp := vecSet g.wp 1 (wpWin (vecGet g.wp 1) val mask) }
    | _ => (s, true)

/-! ## The window (08 R359, R382; 01 R19, R20) -/

/-- Bit mask of a byte mask. -/
def byteMask (n be : Nat) : Nat := packLanes 8 ((List.range n).map fun i => if be.testBit i then 255 else 0)

/-- The byte enables of a permitted register access: 4 or 8 bytes naturally aligned, or all 64 (08 R382). -/
def regSizeOk (be : Nat) : Bool :=
  be == 2 ^ 64 - 1 || (List.range 16).any (fun k => be == 15 * 2 ^ (4 * k)) || (List.range 8).any (fun k => be == 255 * 2 ^ (8 * k))

/-- The slots of a line that an access covers; a DMA_CTRL slot comes last, so that a START finds the values of its own access (log entry 14). -/
def lineSlots (lo be : Nat) : List Nat :=
  let l := ((List.range 8).filter fun i => be / 2 ^ (8 * i) % 256 != 0).map fun i => lo + 8 * i
  let late (o : Nat) : Bool := 0x100 ≤ o && o < 0x200 && o % 64 == 0
  (l.filter fun o => !late o) ++ l.filter late

/-- Region of a window offset: 0 to 2 the memories, 3 the registers (01 R19, R20). -/
def winRegion (off : Nat) : Option Nat :=
  if off < 0x300000 then (if off % 0x100000 < 0x10000 then some (off / 0x100000) else none)
  else if off < 0x301000 then some 3 else none

/-- A line of an engine memory. -/
def memLine (g : Engine) (region i : Nat) : BitVec 512 :=
  let w (k : Nat) : BitVec 256 := if region = 0 then progWord g k else dataWord g (region == 2) k
  (w (2 * i + 1)) ++ (w (2 * i))
/-- A line as the external port reads it (08 R335). -/
def extLine (free : Nat) (g : Engine) (region i : Nat) : BitVec 512 :=
  let w (k : Nat) : BitVec 256 := if region = 0 then progWord g k else extWord free g (region == 2) k
  (w (2 * i + 1)) ++ (w (2 * i))
/-- Write a line of an engine memory under a bit mask; a line of the monitor image is refused before this (08 R336). -/
def setMemLine (g : Engine) (region i : Nat) (data mask : BitVec 512) : Engine :=
  let x := maskMerge (memLine g region i) data mask
  let put (g : Engine) (k : Nat) (v : BitVec 256) : Engine := if region = 0 then setProg g k v else setData g (region == 2) k v
  put (put g (2 * i) (x.setWidth 256)) (2 * i + 1) ((x >>> 256).setWidth 256)

/-- The window answers NOTREADY by state: a command that OFF or NOTREADY excepts is performed (08 R359). -/
def winClosed (s : State) (e : Nat) (write : Bool) (off be : Nat) (data : BitVec 512) : State × Nat :=
  let want := if (engOf s e).state == .off then 6 else 1
  if write && off == 0x300000 && (be == 0xF * 2 ^ 16 || be == 0xFF * 2 ^ 16) && fld data 128 8 == want then
    (if engPermits s e want then (engCommand s e want, rOk) else (s, rSlverr))
  else (engNotReady s e, rNotready)

/-- A write through the window of engine `e`, at a line offset with byte enables; the response code. -/
def winWrite (s : State) (e off be : Nat) (data : BitVec 512) : State × Nat :=
  let g := engOf s e
  match winRegion off with
  | none => (s, rDecerr)
  | some 3 =>
    if g.state == .off || g.state == .notready then winClosed s e true off be data
    else if !regSizeOk be then (s, rSlverr)
    else
      let slots := lineSlots (off % 0x1000) be
      if (engIssues g || g.state == .waiting) && imageTouched (off % 0x1000) be then (s, rSlverr)
      else
        let r := slots.foldl (fun (a : State × Bool) o =>
          let i := 8 * (o % 64)
          let x := engSlotWrite a.1 e o (fld data i 64) (byteMask 8 (be / 2 ^ (o % 64) % 256))
          (x.1, a.2 && x.2)) (s, true)
        (r.1, if r.2 then rOk else rSlverr)
  | some m =>
    if g.state == .off then (s, rNotready)
    else if m = 0 ∧ 0xF800 ≤ off % 0x100000 then (s, rSlverr)
    else (setEng s e (setMemLine g m (off % 0x100000 / 64) data (BitVec.ofNat 512 (byteMask 64 be))), rOk)

/-- A read through the window: the response code and the line, bytes not enabled zero. -/
def winRead (s : State) (e off be : Nat) : State × Nat × BitVec 512 :=
  let g := engOf s e
  let mask := BitVec.ofNat 512 (byteMask 64 be)
  match winRegion off with
  | none => (s, rDecerr, 0#512)
  | some 3 =>
    if g.state == .off || g.state == .notready then let r := winClosed s e false off be 0#512; (r.1, r.2, 0#512)
    else if !regSizeOk be then (s, rSlverr, 0#512)
    else
      let slots := lineSlots (off % 0x1000) be
      if (engIssues g || g.state == .waiting) && imageTouched (off % 0x1000) be then (s, rSlverr, 0#512)
      else
        let x := slots.foldl (fun n o => n + engSlotRead s e o * 2 ^ (8 * (o % 64))) 0
        (s, rOk, BitVec.ofNat 512 x &&& mask)
  | some m =>
    if g.state == .off || g.state == .notready then (engNotReady s e, rNotready, 0#512)
    else (s, rOk, extLine (s.freeCtr + 2 ^ 41) g m (off % 0x100000 / 64) &&& mask)

/-- A register access of 4 bytes, or 8 for `wide`, by a unit that has passed the access checks; the answer takes the response code and the value. -/
def winReg (s : State) (e o : Nat) (wide write : Bool) (v : Nat) : State :=
  let be := (if wide then 255 else 15) * 2 ^ (o % 64)
  let off := 0x300000 + o / 64 * 64
  if !engClocked s e then
    let s1 := if operating s && !enabled s (unHub (engDie e)) then answerGated s (unHub (engDie e)) else s
    { s1 with ans := { answered := true, resp := rGated } }
  else if write then
    let r := winWrite s e off be (BitVec.ofNat 512 (v * 2 ^ (8 * (o % 64))))
    { r.1 with ans := { answered := true, resp := r.2 } }
  else
    let r := winRead s e off be
    { r.1 with ans := { answered := true, resp := r.2.1, value := fld r.2.2 (8 * (o % 64)) (if wide then 64 else 32) } }

/-- An inbox write that has passed the checks before it (08 R378): the line lands in X memory and sets source 14. -/
def inboxWrite (s : State) (e line : Nat) (data : BitVec 512) : State × Nat :=
  let g := engOf s e
  if g.state == .off || g.state == .notready then (engNotReady s e, rNotready)
  else if fld g.inbox 16 16 ≤ line then (s, rDecerr)
  else
    let g1 := setMemLine g 1 ((fld g.inbox 0 16 + 64 * line) / 64) data (ones 512)
    (setEng s e { g1 with pend := setBit g1.pend 14 true }, rOk)

end Sys2Proof.Machine
end

