-- ==== Sys2Proof/Machine/EngineRows.lean ====
section
/-! DEFINITION. The engine commands and happenings that are no operation of a bundle (08 R357 to R383). -/
namespace Sys2Proof.Machine

/-- `READY` (08 R358), through ENG_COMMAND. -/
def execReady (r : Req) (e : Fin 768) (s : State) : Res := .next (wrEngCommand r e.val 1 1 s)
/-- `START` (08 R358). -/
def execStart (r : Req) (e : Fin 768) (s : State) : Res := .next (wrEngCommand r e.val 1 2 s)
/-- `HALT` (08 R358). -/
def execHalt (r : Req) (e : Fin 768) (s : State) : Res := .next (wrEngCommand r e.val 1 3 s)
/-- `CLEAR_FAULT` (08 R358). -/
def execClearFault (r : Req) (e : Fin 768) (s : State) : Res := .next (wrEngCommand r e.val 1 4 s)
/-- `POWER_OFF` (08 R358). -/
def execPowerOff (r : Req) (e : Fin 768) (s : State) : Res := .next (wrEngCommand r e.val 1 5 s)
/-- `POWER_ON` (08 R358). -/
def execPowerOn (r : Req) (e : Fin 768) (s : State) : Res := .next (wrEngCommand r e.val 1 6 s)

/-- `ENG_POWER_OFF_DONE` (08 R358): contents lost. -/
def execEngPowerOffDone (e : Fin 768) (s : State) : Res :=
  .next (if (engOf s e.val).power == some false then setEng s e.val { state := .off } else s)

/-- `ENG_POWER_ON_DONE` (08 R358): NOTREADY, wiped, the epoch advanced, event 0x2704. -/
def execEngPowerOnDone (e : Fin 768) (s : State) : Res :=
  .next (if (engOf s e.val).power == some true then
    engEvent (advanceEpochs (setEng s e.val {}) [] [e.val]) e.val 0x2704 sevInfo e.val else s)

/-- `ENG_INTERRUPT_ENTRY` (08 R366): at a boundary where a debug event is due instead, that is taken (08 R363). -/
def execEngInterruptEntry (e : Fin 768) (s : State) : Res :=
  let g := engOf s e.val
  .next (if engClocked s e.val && engIssues g && (debugDue g).isNone && irqDue s e.val then
    setEng s e.val (irqEntry (cyclesPass g.wait g)) else s)

/-- `ENG_WAKE` (08 R361). -/
def execEngWake (e : Fin 768) (s : State) : Res :=
  .next (if engClocked s e.val && (engOf s e.val).state == .waiting && irqActive s e.val then engWake s e.val else s)

/-- `ENG_TIMER_MATCH` (08 R364). -/
def execEngTimerMatch (e : Fin 768) (s : State) : Res :=
  let g := engOf s e.val
  .next (if engClocked s e.val && engIssues g && g.cycles == g.timer then setEng s e.val { g with pend := setBit g.pend 7 true } else s)

/-- `ENG_DEBUG_ENTRY` (08 R373): a halt request also ends WAITING. -/
def execEngDebugEntry (e : Fin 768) (s : State) : Res :=
  let g := engOf s e.val
  .next (if !engClocked s e.val then s
  else if g.state == .waiting then (match debugWait g with | some (c, i) => debugEntry s e.val c i | none => s)
  else if g.state == .running then
    (match debugDue g with
     | some (c, i) => debugEntry (setEng s e.val { cyclesPass g.wait g with wait := 0 }) e.val c i
     | none => s)
  else s)

/-- `DBG_HALT_REQ` (08 R383): a window write of DBG_CTRL with HALT_REQ. -/
def execDbgHaltReq (e : Fin 768) (v : BitVec 32) (s : State) : Res := .next (winReg s e.val 0xC00 false true (v ||| 2#32).toNat)

/-- `ENG_STREAM_UNFREEZE` (08 R379): the frozen bundle issues once its port can move a word. -/
def execEngStreamUnfreeze (e : Fin 768) (s : State) : Res :=
  let g := { engOf s e.val with spIn := 0, spOut := 0 }
  .next (match g.frozen with
    | none => s
    | some w => if engClocked s e.val && engIssues g then boundary (setEng s e.val g) e.val w else s)

/-- `IRQ_PEND_CLEAR` (08 R382): a window write of IRQ_PEND. -/
def execIrqPendClear (e : Fin 768) (v : BitVec 32) (s : State) : Res := .next (winReg s e.val 0x028 false true v.toNat)
/-- `IRQ_SET` (08 R382): a window write of IRQ_SET. -/
def execIrqSet (e : Fin 768) (v : BitVec 32) (s : State) : Res := .next (winReg s e.val 0x038 false true v.toNat)
/-- `SSTAT_POISON_CLEAR` (08 R383): a window write of SSTAT. -/
def execSstatPoisonClear (e : Fin 768) (v : BitVec 32) (s : State) : Res := .next (winReg s e.val 0x068 false true v.toNat)
/-- `DMA_START` (08 R380): a window write of DMA_CTRL with START. -/
def execDmaStart (e : Fin 768) (c : Fin 4) (v : BitVec 32) (s : State) : Res :=
  .next (winReg s e.val (0x100 + 64 * c.val) false true (v ||| 0x80000000#32).toNat)
/-- `DMA_ABORT` (08 R381): a window write of DMA_CTRL with ABORT. -/
def execDmaAbort (e : Fin 768) (c : Fin 4) (v : BitVec 32) (s : State) : Res :=
  .next (winReg s e.val (0x100 + 64 * c.val) false true (v ||| 0x40000000#32).toNat)
/-- `DMA_STATUS_CLEAR` (08 R383): a window write of DMA_STATUS. -/
def execDmaStatusClear (e : Fin 768) (c : Fin 4) (v : BitVec 32) (s : State) : Res :=
  .next (winReg s e.val (0x128 + 64 * c.val) false true v.toNat)

end Sys2Proof.Machine
end

