-- ==== Sys2Proof/Machine/Sam.lean ====
section
/-! DEFINITION. The system address map: fields of an entry, the checks of a write, which entry covers an address (10 R449 to R453),
hashing and interleaving (R459, R460), port IDs of the units (R424 to R426), packets as they arrive (R428, R431, R435). -/
namespace Sys2Proof.Machine

/-- Bits `hi` to `lo` of a number, as `n` bits from `lo`. -/
def bitsAt (v lo n : Nat) : Nat := v / 2 ^ lo % 2 ^ n

/-- Object key of SAM entry `e` (10 R465). -/
def samKey (e : Nat) : Nat := if e < 128 then O_SAM_ENTRY_LO e else O_SAM_ENTRY_HI (e - 128)
/-- The 16 bytes of live entry `e` as a number. -/
def samRaw (s : State) (e : Nat) : Nat := oGet s (samKey e)

/-! ## Fields (10 R450) -/
def samValid (x : Nat) : Bool := x.testBit 63
def samSize (x : Nat) : Nat := bitsAt x 52 6
def samBase (x : Nat) : Nat := bitsAt x 20 32 * 2 ^ 20
def samKind (x : Nat) : Nat := bitsAt x 16 4
def samTmask (x : Nat) : Nat := bitsAt x 0 16
def samRd (x : Nat) : Bool := x.testBit 127
def samWr (x : Nat) : Bool := x.testBit 126
def samCache (x : Nat) : Bool := x.testBit 125
def samIset (x : Nat) : Nat := bitsAt x 120 4
def samDev (x : Nat) : Nat := bitsAt x 116 4
def samOffset (x : Nat) : Nat := bitsAt x 84 32 * 2 ^ 20
def samTarget (x : Nat) : Nat := bitsAt x 64 14

abbrev kDevmem : Nat := 1
abbrev kHostmem : Nat := 2
abbrev kRemote : Nat := 3
abbrev kControl : Nat := 4
abbrev kRemoteControl : Nat := 5
abbrev kEngine : Nat := 6
abbrev kPartition : Nat := 7
abbrev kEndpoint : Nat := 8

/-- Base of control space (01 R16; 10 R457). -/
abbrev controlBase : Nat := 0xFFF0000000000
/-- The entry covers an address. -/
def samCovers (x a : Nat) : Bool := samValid x && samBase x ≤ a && a < samBase x + 2 ^ samSize x
/-- Address within the window plus the translated base. -/
def samForm (x a : Nat) : Nat := (a - samBase x + samOffset x) % 2 ^ 52

/-- The first of `n` entries from `i` that covers an address; valid windows never overlap (R452). -/
def samFind (s : State) (a n i : Nat) : Option Nat :=
  match n with
  | 0 => none
  | k + 1 => if samCovers (samRaw s i) a then some i else samFind s a k (i + 1)
/-- The live entry that covers an address. -/
def samLookup (s : State) (a : Nat) : Option Nat := samFind s a 256 0

/-! ## Checks of a write (10 R452) -/

/-- The reserved bits of an entry. -/
def samReserved (x : Nat) : Bool := bitsAt x 58 5 != 0 || x.testBit 124 || bitsAt x 78 6 != 0

/-- Fields that the entry's kind does not use are zero. -/
def samUnusedZero (x : Nat) : Bool :=
  let k := samKind x
  (k == kDevmem || k == kHostmem || !samCache x)
    && (k == kDevmem || samIset x == 0)
    && (k == kRemote || k == kRemoteControl || samDev x == 0)
    && (k == kDevmem || k == kHostmem || k == kRemoteControl || samOffset x == 0)
    && (k == kHostmem || k == kEngine || k == kPartition || k == kEndpoint || samTarget x == 0)

/-- TARGET is in range. -/
def samTargetOk (x : Nat) : Bool :=
  match samKind x with
  | 2 => samTarget x < 4
  | 6 => samTarget x < 768
  | 7 => samTarget x < 128
  | 8 => 0x500 ≤ samTarget x
  | _ => true

/-- The value checks of a valid entry. -/
def samValueOk (x : Nat) : Bool :=
  let k := samKind x
  let top := samBase x + 2 ^ samSize x
  !samReserved x && (!samValid x ||
    (1 ≤ k && k ≤ 8 && 20 ≤ samSize x && samSize x ≤ 52 && samBase x % 2 ^ samSize x == 0
      && samUnusedZero x && samTargetOk x
      && (if k = kControl then controlBase ≤ samBase x && top ≤ 2 ^ 52 else top ≤ controlBase)
      && (k != kRemoteControl || samOffset x + 2 ^ samSize x ≤ 2 ^ 40)))

/-- The state checks of a valid entry: a set with channels, no other valid window overlapped. -/
def samStateOk (s : State) (e x : Nat) : Bool :=
  !samValid x ||
    ((samKind x != kDevmem || oGet s (O_ISET_MASK (samIset x)) != 0)
      && (List.range 256).all fun j =>
          let y := samRaw s j
          j == e || !samValid y || samBase x + 2 ^ samSize x ≤ samBase y || samBase y + 2 ^ samSize y ≤ samBase x)

/-! ## Hashing (10 R459, R460) -/

/-- The xor of the `k`-bit groups of `x`, of which `n` are taken. -/
def xorGroups (k n x : Nat) : Nat :=
  match n with
  | 0 => 0
  | m + 1 => (x % 2 ^ k) ^^^ xorGroups k m (x / 2 ^ k)
/-- Slice of a device or host address. -/
def sliceOf (a : Nat) : Nat := xorGroups 6 8 (a / 64 % 2 ^ 46)
/-- Slice of a host address on a port. -/
def hostSlice (port a : Nat) : Nat := sliceOf a ^^^ (16 * port)

/-- The (m + 1)-th lowest set bit of a 16-bit mask. -/
def nthBit (mask m : Nat) : Nat := (((List.range 16).filter fun i => mask.testBit i)[m]?).getD 0
/-- k of an interleave set: log2 of its channel count. -/
def isetK (mask : Nat) : Nat := Nat.log2 (popUpTo 16 mask)
/-- Channel of a device address in a set. -/
def chanOf (mask dpa : Nat) : Nat :=
  let k := isetK mask
  nthBit mask (if k = 0 then 0 else xorGroups k 44 (dpa / 256 % 2 ^ 44))
/-- Channel address. -/
def chanAddr (mask dpa : Nat) : Nat := dpa / 2 ^ (8 + isetK mask) * 256 + dpa % 256

/-! ## Port IDs (10 R424 to R426) -/

/-- Row of distance `q` for a die: dies 0 to 3 in rows 0 to 7. -/
def rowOf (d q : Nat) : Nat := if d < 4 then q else 15 - q
/-- Local endpoint ID of a router port. -/
def portId (x y p : Nat) : Nat := 32 * y + 2 * x + p
/-- Port ID of the access point of partition `p` (01 R26, 06 R257). -/
def apPort (p : Nat) : Nat :=
  let d := p / 16
  let pp := p % 16
  portId (4 * (d % 4) + pp / 4) (rowOf d (2 * (pp % 4))) 0
/-- Port ID of engine hub `h` of die `d`. -/
def hubPort (d h : Nat) : Nat :=
  let x := 4 * (d % 4) + h / 3
  match h % 3 with
  | 0 => portId x (rowOf d 0) 1
  | 1 => portId x (rowOf d 3) 0
  | _ => portId x (rowOf d 5) 1
/-- Port ID of a CXL port, of a cascade port (N, E, S, W), of the gateway. -/
def cxlPort (p : Nat) : Nat := if p = 0 then portId 0 7 1 else if p = 1 then portId 0 8 1 else if p = 2 then portId 15 7 1 else portId 15 8 1
def cascPort (p : Nat) : Nat := if p = 0 then portId 7 1 0 else if p = 1 then portId 15 1 0 else if p = 2 then portId 8 14 0 else portId 0 14 0
abbrev gatePort : Nat := 239
/-- Port ID of a DDR5 controller. -/
def ddrPort (c : Nat) : Nat := portId c (if c % 2 = 0 then 7 else 8) 0
/-- Partition whose access point has a port ID, if one does. -/
def partOfPort (id : Nat) : Option Nat := (List.range 128).find? fun p => apPort p == id

/-- Port ID of cache slice `x` (10 R424). -/
def slicePort (x : Nat) : Nat :=
  let y := match x % 4 with | 0 => 2 | 1 => 5 | 2 => 10 | _ => 13
  portId (x / 4) y (if x % 4 = 0 || x % 4 = 3 then 1 else 0)
/-- Port ID of the engine hub of engine `e`. -/
def engPort (e : Nat) : Nat := hubPort (e / 96) (e % 96 / 8)

/-- Port ID of hub port HUB0 to HUB3; the one of the quadrant that contains a port (10 R425). -/
def meshHub (k : Nat) : Nat := portId (7 + k % 2) (7 + k / 2) 1
def quadrantHub (id : Nat) : Nat := meshHub ((if id / 2 % 16 < 8 then 0 else 1) + if id / 32 < 8 then 0 else 2)
/-- A port that stands as a base slot in the table of R424. -/
def baseSlot (id : Nat) : Bool :=
  let y := id / 32
  match (if y < 8 then y else 15 - y), id % 2 with
  | 1, _ | 7, _ => true
  | 3, p | 4, p | 6, p => p == 1
  | _, _ => false
/-- A base slot without a unit (10 R425). -/
def emptySlot (id : Nat) : Bool :=
  baseSlot id && !((List.range 16).any fun c => ddrPort c == id)
    && !((List.range 4).any fun k => cxlPort k == id || cascPort k == id || meshHub k == id)

/-! ## The mesh (10 R423, R444) -/

/-- Mesh ports of a router. -/
inductive MeshDir where | north | east | south | west deriving DecidableEq, Repr
/-- The router beyond a mesh port of router (X, Y); none toward the edge. -/
def neighbour (r : Nat × Nat) (d : MeshDir) : Option (Nat × Nat) :=
  match d with
  | .north => if r.2 = 0 then none else some (r.1, r.2 - 1)
  | .east => if r.1 = 15 then none else some (r.1 + 1, r.2)
  | .south => if r.2 = 15 then none else some (r.1, r.2 + 1)
  | .west => if r.1 = 0 then none else some (r.1 - 1, r.2)
/-- The mesh port that a packet for router `d` leaves router `r` by: first in X, then in Y; none at the router itself. -/
def meshNext (r d : Nat × Nat) : Option MeshDir :=
  if r.1 < d.1 then some .east else if d.1 < r.1 then some .west
  else if r.2 < d.2 then some .south else if d.2 < r.2 then some .north else none
/-- The routers of a packet's route, at most `n` hops. -/
def meshRoute : Nat → Nat × Nat → Nat × Nat → List (Nat × Nat)
  | 0, r, _ => [r]
  | n + 1, r, d => r :: match (meshNext r d).bind (neighbour r) with | some x => meshRoute n x d | none => []
/-- Router of a port. -/
def routerOf (id : Nat) : Nat × Nat := (id / 2 % 16, id / 32)
/-- Router at hop `n` of the route between two ports, the last one beyond it. -/
def hopRouter (src at_ n : Nat) : Nat × Nat :=
  let l := meshRoute 30 (routerOf src) (routerOf at_)
  (l[n]?).getD (routerOf at_)

/-! ## Packets as they arrive (10 R425, R428, R431, R435) -/

/-- A header has an uncorrectable error: the packet is discarded with its data where it is found (10 R431). -/
def headerBad (s : State) (p : Pkt) (vn src at_ : Nat) : State :=
  let r := hopRouter src at_ p.hop.val
  logEv (oBump s O_HDR_UNCORRECTABLE 1 (2 ^ 32 - 1)) 0x2802 sevErr (r.1 * 16 + r.2 + vn * 256)
/-- A header's single-bit error is corrected (10 R431). -/
def headerOk (s : State) (p : Pkt) : State := if p.herr = 1 then oBump s O_HDR_CORRECTED 1 (2 ^ 32 - 1) else s
/-- A packet is discarded at port `at_` (10 R428, R435). -/
def packetOdd (s : State) (cmd vn at_ : Nat) : State := logEvT s 0x2804 sevWarn (cmd + vn * 256 + at_ * 2048) 0 at_
/-- A packet on `vn`, of command `cmd`, from port `src`, for port `at_`: lost, discarded, or taken; `lose` tells of a packet that is not taken, and whether it arrived
on VN0, where the unit answers SLVERR. An empty slot is no unit and logs nothing (log entry 108). -/
def packet (s : State) (p : Pkt) (vn cmd src at_ : Nat) (lose : Bool → State → State) (take : State → State) : State :=
  if p.herr = 2 then lose false (headerBad s p vn src at_)
  else match p.odd with
    | .reserved c v => lose (v == 0#3) (packetOdd (headerOk s p) c.toNat v.toNat at_)
    | .misaddressed q => lose false (if emptySlot q.val then headerOk s p else packetOdd (headerOk s p) cmd vn q.val)
    | .fine => take (headerOk s p)

/-! ## Open transactions -/

/-- Set the network's record. -/
def setVent (s : State) (v : Vent) : State := { s with vent := v }
/-- Set or drop an open transaction; a packet that it sends takes the next number (10 R440). -/
def putTx (s : State) (k : Nat) (t : Tx) : State :=
  setVent s { s.vent with txs := tabPut s.vent.txs k { t with sent := s.vent.seq }, seq := s.vent.seq + 1 }
def dropTx (s : State) (k : Nat) : State := setVent s { s.vent with txs := tabDel s.vent.txs k }

/-! ## Trackers (10 R438, 11 R468) -/

/-- Those whom the requests of hosts and guests, and the flows of the device's own requests, answer: running, waiting, held for a twin, waiting for a mirror record
or for a link that retrains. -/
def openWhos (s : State) : List Who :=
  s.hub.flows.map (fun f => f.2.req.who) ++ (s.hub.waiting.flatMap (·.2)).map (·.who) ++ s.twin.waits.map (·.who)
    ++ s.hub.held.map (fun q => .host q.port q.tag) ++ s.hub.ports.flatMap fun p => p.2.wait.map fun a => .host p.1 a.tag
/-- How many of them are such as `f` names. -/
def flowsOf (s : State) (f : Who → Bool) : Nat := ((openWhos s).filter f).length
/-- Who is the host of a port, the guest of a gate, or either? -/
def isHost (p : Nat) (w : Who) : Bool := match w with | .host q _ => q == p | _ => false
def isGuest (g : Nat) (w : Who) : Bool := match w with | .guest h _ | .half h _ | .gone h => h == g | _ => false
def isOutside (w : Who) : Bool := match w with | .host _ _ | .guest _ _ | .half _ _ | .gone _ => true | _ => false
/-- A flow of the hub's own that back-invalidates a victim; 1,024 trackers are reserved for these (11 R468). -/
def isVictim (x : Nat × Flow) : Bool := match x.2.req.kind with | .victim _ => true | _ => false
/-- Trackers that are granted, and those in use with the hub's own. -/
def trackersGranted (s : State) : Nat := (s.vent.txs.filter fun t => t.2.tracked).length + flowsOf s isOutside
def trackersInUse (s : State) : Nat := trackersGranted s + (s.hub.flows.filter isVictim).length
/-- Trackers that the initiators at a port hold. -/
def trackersOf (s : State) (port : Nat) : Nat := (s.vent.txs.filter fun t => t.2.tracked && t.1 / 65536 % 512 == port).length

end Sys2Proof.Machine
end

