-- ==== Sys2Proof/Machine/Flash.lean ====
section
/-! DEFINITION. The flash image: bytes, directory, slot headers, training areas (05 R194 to R203, 12 R527). -/
namespace Sys2Proof.Machine

/-- Set the load unit's record. -/
def setLd (s : State) (l : LoadUnit) : State := { s with ld := l }

/-- A byte of the image; a byte that nothing has programmed reads 0xFF. -/
def flashByte (f : FlashInfo) (i : Nat) : Byte := tabGet f.cells i 0xFF#8
/-- `n` bytes of the image from `i`. -/
def flashBytes (f : FlashInfo) (i n : Nat) : List Byte := (List.range n).map fun k => flashByte f (i + k)
/-- A little-endian field of the image. -/
def flashNat (f : FlashInfo) (i n : Nat) : Nat := leNat (flashBytes f i n)
/-- Program bytes of the image. -/
def flashWrite (f : FlashInfo) (i : Nat) (l : List Byte) : FlashInfo :=
  match l with
  | [] => f
  | b :: r => flashWrite { f with cells := tabSet f.cells i b 0xFF#8 } (i + 1) r
/-- Erase a range of the image. -/
def flashErase (f : FlashInfo) (i n : Nat) : FlashInfo := { f with cells := f.cells.filter fun c => c.1 < i || i + n ≤ c.1 }
/-- A flash is present: its ID is neither all 0x00 nor all 0xFF and its SFDP describes an 8D-8D-8D mode (05 R195). -/
def chipFound (c : FlashChip) : Bool := c.jedec != 0#24 && c.jedec != ~~~0#24 && c.octal
/-- Image offset of physical offset `p` of flash `k` of `n`: block b of two flashes lies on flash b mod 2 (05 R196). -/
def imageAt (n k p : Nat) : Nat := if n = 2 then (2 * (p / 4096) + k) * 4096 + p % 4096 else p
/-- The bytes of a flash, in the image. -/
def chipIn (n k : Nat) (c : FlashChip) (t : Tab Byte) : Tab Byte := c.cells.foldl (fun t x => tabSet t (imageAt n k x.1) x.2 0xFF#8) t
/-- What discovery finds on XSPI0 and XSPI1 (05 R195, R196): of a pair whose capacities differ the lesser counts (log entry 98). -/
def discover (x0 x1 : FlashChip) : FlashInfo :=
  match chipFound x0, chipFound x1 with
  | true, true => { count := 2, cap := min x0.cap x1.cap, cells := (chipIn 2 1 x1 (chipIn 2 0 x0 [])).filter fun c => c.1 < 2 * min x0.cap x1.cap }
  | true, false => { count := 1, cap := x0.cap, cells := chipIn 1 0 x0 [] }
  | false, true => { count := 1, cap := x1.cap, cells := chipIn 1 0 x1 [] }
  | false, false => { count := 0, cap := 0, cells := [] }
/-- Bytes of the image (05 R196). -/
def imageSize (f : FlashInfo) : Nat := f.count * f.cap

/-! ## Directory (05 R197, R198) -/

/-- Offset of the entry of slot `k` in a directory at `d`. -/
def entryOff (d k : Nat) : Nat := d + 24 + 24 * k
def slotOff (f : FlashInfo) (d k : Nat) : Nat := flashNat f (entryOff d k) 4
def slotSize (f : FlashInfo) (d k : Nat) : Nat := flashNat f (entryOff d k + 4) 4
def slotFallback (f : FlashInfo) (d k : Nat) : Nat := flashNat f (entryOff d k + 8) 1
def paramOff (f : FlashInfo) (d k : Nat) : Nat := flashNat f (entryOff d k + 12) 4
def paramSize (f : FlashInfo) (d k : Nat) : Nat := flashNat f (entryOff d k + 16) 4
def trainOff (f : FlashInfo) (d k : Nat) : Nat := flashNat f (entryOff d k + 20) 4
def journalOff (f : FlashInfo) (d j : Nat) : Nat := flashNat f (d + 8 + 4 * j) 4

/-- A slot entry is well formed. -/
def entryOk (f : FlashInfo) (d k : Nat) : Bool :=
  flashNat f (entryOff d k + 9) 3 == 0 &&
    (slotSize f d k == 0 ||
      (slotOff f d k % 65536 == 0 && slotSize f d k % 65536 == 0
        && (slotFallback f d k < 4 || slotFallback f d k == 0xFF)
        && paramOff f d k % 4096 == 0
        && (paramSize f d k == 0 || (paramSize f d k % 8192 == 0 && 16384 ≤ paramSize f d k))
        && trainOff f d k % 4096 == 0))

/-- The regions that must not overlap one another. -/
def hardRegions (f : FlashInfo) (d : Nat) : List (Nat × Nat) :=
  [(0, 0x2000), (journalOff f d 0, 0x1000), (journalOff f d 1, 0x1000)]
    ++ ((List.range 4).filter fun k => slotSize f d k != 0).map (fun k => (slotOff f d k, slotSize f d k))
    ++ ((List.range 4).filter fun k => slotSize f d k != 0 && paramSize f d k != 0).map fun k => (paramOff f d k, paramSize f d k)
/-- The slots alone, inside which a training area may lie. -/
def trainRegions (f : FlashInfo) (d : Nat) : List (Nat × Nat) :=
  ((List.range 4).filter fun k => slotSize f d k != 0).map fun k => (trainOff f d k, 0x8000)

/-- Two ranges do not meet. -/
def apart (a b : Nat × Nat) : Bool := a.1 + a.2 ≤ b.1 || b.1 + b.2 ≤ a.1
/-- No two ranges of a list meet. -/
def allApart (l : List (Nat × Nat)) : Bool :=
  match l with
  | [] => true
  | a :: r => r.all (apart a) && allApart r

/-- The regions lie within the image and overlap only as allowed. -/
def regionsOk (f : FlashInfo) (d : Nat) : Bool :=
  let h := hardRegions f d
  let t := trainRegions f d
  let slots := ((List.range 4).filter fun k => slotSize f d k != 0).map fun k => (slotOff f d k, slotSize f d k)
  (h ++ t).all (fun r => r.1 + r.2 ≤ imageSize f) && allApart h
    && t.all (fun a => (h.filter fun b => !slots.contains b).all (apart a))
    && t.all (fun a => t.all fun b => a.1 == b.1 || apart a b)

/-- A directory at image offset `d` is valid: R198 does not list the journal sector size, which R197 states as 0x1000, and it is not judged (log entry 98). -/
def dirOk (f : FlashInfo) (d : Nat) : Bool :=
  flashNat f d 4 == 0x4E475A44 && flashNat f (d + 4) 2 == 1 && crc32 (flashBytes f d 124) == flashNat f (d + 124) 4
    && flashNat f (d + 7) 1 == 0 && flashNat f (d + 20) 4 == 0 && flashNat f (d + 120) 4 == 0
    && journalOff f d 0 % 4096 == 0 && journalOff f d 1 % 4096 == 0
    && (List.range 4).all (entryOk f d) && regionsOk f d

/-! ## Training area of the chosen slot (12 R526 to R528) -/

/-- The flash, the directory and the chosen slot. -/
def chosenSlot (s : State) : Option (FlashInfo × Nat × Nat) :=
  match s.ld.flash, s.ld.dir, s.ld.slot with
  | some f, some d, some k => some (f, d, k)
  | _, _, _ => none
/-- The flash and the offset of the chosen slot's training area; none with CFGSRC at 1. -/
def trainArea (s : State) : Option (FlashInfo × Nat) :=
  if strapCfgSrc s then none else (chosenSlot s).map fun x => (x.1, trainOff x.1 x.2.1 x.2.2)
/-- The area header is valid. -/
def trainHeaderOk (f : FlashInfo) (a : Nat) : Bool :=
  flashNat f a 4 == 0x4E475A54 && flashNat f (a + 4) 2 == 1 && crc32 (flashBytes f a 60) == flashNat f (a + 60) 4
/-- Rate limit of channel `c` in the area header; 0xFF when the header is not valid. -/
def areaLimit (s : State) (c : Nat) : Nat :=
  match trainArea s with
  | some (f, a) => if trainHeaderOk f a then flashNat f (a + 8 + c) 1 else 0xFF
  | none => 0xFF
/-- Offset of the record of channel `c`. -/
def recOff (a c : Nat) : Nat := a + 0x1000 + 0x400 * c

end Sys2Proof.Machine
end

