-- ==== Sys2Proof/Machine/Ddr.lean ====
section
/-! DEFINITION. DDR5 channels: training, line accesses, the check code, counters, epochs and the walker, refresh, alerts (12). -/
namespace Sys2Proof.Machine

/-- Set the device-memory record. -/
def setDdr (s : State) (d : Ddr) : State := { s with ddr := d }
/-- A channel. -/
def chan (s : State) (c : Nat) : Chan := tabGet s.ddr.chans c {}
/-- Set it. -/
def setChan (s : State) (c : Nat) (x : Chan) : State := setDdr s { s.ddr with chans := tabPut s.ddr.chans c x }
/-- Log an event that controller `c` raises. -/
def ddrEv (s : State) (code sev data c : Nat) : State := logEvT s code sev data 0 (ddrPort c)
/-- CHAN_STATE (12 R562). -/
def chanState (s : State) (c : Nat) : Nat := oGet s (O_CHAN_STATE c)

/-! ## Sizing and rates (12 R519, R520, R523, R524) -/

/-- The sizing word of R527. -/
def sizingWord (density : Nat) (x8 two2 dimms2 : Bool) : Nat :=
  512 * (density + 1) + (if x8 then 256 else 0) + (if two2 then 32 else 16) + (if dimms2 then 2 else 1)
/-- DIMMs, ranks per DIMM, density code (1 to 3) and width of a sizing word. -/
def szDimms (z : Nat) : Nat := z % 4
def szRanks (z : Nat) : Nat := z / 16 % 4
def szDensity (z : Nat) : Nat := z / 512 % 8
def szX8 (z : Nat) : Bool := z.testBit 8
/-- Installed capacity in bytes: 32 GiB for one rank of x4 devices of 16 Gb. -/
def szBytes (z : Nat) : Nat :=
  szDimms z * (2 ^ 35 * 2 ^ (szDensity z - 1) / (if szX8 z then 2 else 1)) * szRanks z
/-- Data lines M (12 R523). -/
def szLines (z : Nat) : Nat := 31 * (szBytes z / 64) / 32

/-- Data lines of a channel. -/
def chanLines (s : State) (c : Nat) : Nat := szLines (oGet s (O_DDR_SIZING c))
/-- Regions Q of a channel. -/
def chanRegions (s : State) (c : Nat) : Nat := (chanLines s c + 2 ^ 24 - 1) / 2 ^ 24
/-- Line count of region `r`. -/
def regionLines (s : State) (c r : Nat) : Nat := min (2 ^ 24) (chanLines s c - r * 2 ^ 24)

/-- Permitted rate codes by DIMM count, rising (12 R520). -/
def permittedRates (dimms : Nat) : List Nat := if dimms = 1 then [2, 4, 5] else [1, 2, 3]
/-- Rate of the first full attempt: the highest permitted one not above the limit, else the lowest (12 R525 step 3). -/
def firstRate (dimms limit : Nat) : Nat :=
  match ((permittedRates dimms).filter fun x => x ≤ limit).getLast? with
  | some x => x
  | none => (permittedRates dimms).headD 0
/-- Rate of the next attempt (12 R525 step 4). -/
def nextRate (dimms rate : Nat) : Nat := (((permittedRates dimms).filter fun x => x < rate).getLast?).getD rate

/-! ## Training (12 R525, R526, R529) -/

/-- Owners of the valid DEVMEM windows whose interleave set has channel `c`. -/
def chanOwners (s : State) (c : Nat) : List Nat :=
  ((List.range 256).filter fun e =>
    samValid (samRaw s e) && samKind (samRaw s e) == kDevmem && (oGet s (O_ISET_MASK (samIset (samRaw s e)))).testBit c).map (samOwner s)

/-- The channel fails (12 R529, R530): its DIMMs are held in reset, its lines lost; that it ran full training, and the
epochs that its keys have used, stay known (R528, R560). -/
def chanFail (s : State) (c code : Nat) : State :=
  let d := c * 65536 + code
  let x := chan s c
  let s1 := setChan s c { ({} : Chan) with
    beyond := x.beyond, corrMark := x.corrMark, full := x.full, sized := true, recs := x.recs, regions := x.regions.map fun g => (g.1, { epoch := g.2.epoch }) }
  let s2 := ddrEv (oSet s1 (O_CHAN_STATE c) 3) 0x2A02 sevErr d c
  (chanOwners s2 c).foldl (fun a t => recordFault a t 4 d) s2

/-- Full training begins (12 R525 step 3). -/
def fullTraining (s : State) (c : Nat) : State :=
  let z := oGet s (O_DDR_SIZING c)
  oSet (setChan s c { chan s c with stage := 1, attempt := 1, usesStored := false, full := true })
    (O_DDR_RATE c) (firstRate (szDimms z) (areaLimit s c))

/-- Why the stored results of channel `c` are not accepted: the first reason that holds (12 R526, R563); 0 when they are. -/
def storedReason (s : State) (c z : Nat) : Nat :=
  match trainArea s with
  | none => 1
  | some (f, a) =>
    let r := recOff a c
    let rate := flashNat f (r + 4) 1
    if !trainHeaderOk f a || crc32 (flashBytes f r 1020) != flashNat f (r + 1020) 4 then 1
    else if flashNat f r 4 != z then 2
    else if s.ddr.ignoreStored then 4
    else if !(permittedRates (szDimms z)).contains rate || (areaLimit s c < rate) then 5
    else 0

/-- Sizing has found DIMMs: stored results are tried, or full training begins. -/
def sizingDone (s : State) (c z : Nat) : State :=
  let s1 := oSet (oSet (oSet s (O_DDR_SIZING c) z) (O_CHAN_STATE c) 1) (O_USABLE_BYTES c) (64 * szLines z)
  let s2 := setChan s1 c { chan s1 c with resetN := true, sized := true }
  if strapCfgSrc s then fullTraining s2 c
  else
    let why := storedReason s2 c z
    if why = 0 then
      match trainArea s2 with
      | some (f, a) =>
        oSet (setChan s2 c { chan s2 c with stage := 1, attempt := 0, usesStored := true }) (O_DDR_RATE c) (flashNat f (recOff a c + 4) 1)
      | none => s2
    else fullTraining (ddrEv s2 0x2A04 sevWarn (c * 65536 + why) c) c

/-- Training of channel `c` runs from step 6 of boot, once the directory has been read where there is one, while the controller is clocked (12 R525,
R526; 03 R128). -/
def ddrTrains (s : State) (c : Nat) : Bool :=
  clocked s && enabled s (unDdr c) &&
    match s.rst.phase with | .held | .wiping | .waitHot | .waitRoot => false | .directory => strapCfgSrc s | _ => true

/-- `DDR_SIZING_DONE` (12 R525 steps 1 and 2). -/
def execDdrSizingDone (c : Fin 16) (found : DdrFound) (s : State) : Res :=
  .next (if ddrTrains s c.val && (chan s c.val).stage == 0 && !(chan s c.val).kept && !(chan s c.val).sized && chanState s c.val == 0 then
    match found with
    | .empty => setChan s c.val { chan s c.val with sized := true }
    | .fails second => chanFail s c.val (if second then 2 else 1)
    | .dimms d x8 r2 n2 => sizingDone s c.val (sizingWord d.val x8 r2 n2)
  else s)

/-- An attempt of channel `c` has ended. -/
def attemptDone (s : State) (c : Nat) (result : DdrTry) : State :=
  let x := chan s c
  match result with
  | .pass => setChan s c { x with stage := 2 }
  | _ =>
    if x.attempt = 0 then
      fullTraining (if x.kept then s else ddrEv s 0x2A04 sevWarn (c * 65536 + 3) c) c
    else if x.attempt < 3 then
      let rate := nextRate (szDimms (oGet s (O_DDR_SIZING c))) (oGet s (O_DDR_RATE c))
      ddrEv (oSet (setChan s c { x with attempt := x.attempt + 1 }) (O_DDR_RATE c) rate) 0x2A03 sevWarn (c * 65536 + rate) c
    else chanFail s c (if result = .incomplete then 3 else 4)

/-- `DDR_ATTEMPT_DONE` (12 R525 step 4, R526, R529, R560). An attempt that cannot complete ends like one whose check fails (log entry 15). -/
def execDdrAttemptDone (c : Fin 16) (result : DdrTry) (s : State) : Res :=
  .next (if ddrTrains s c.val && chanState s c.val == 1 && (chan s c.val).stage == 1 then attemptDone s c.val result else s)

/-- Region of line `n`. -/
def regionOf (n : Nat) : Nat := n / 2 ^ 24
/-- A region's record. -/
def region (x : Chan) (r : Nat) : Region := tabGet x.regions r {}
/-- Set it. -/
def setRegion (x : Chan) (r : Nat) (g : Region) : Chan := { x with regions := tabPut x.regions r g }

/-- Bytes 0 to 11 of the record of region `r`, as a number (12 R547). -/
def regionWord (s : State) (c r : Nat) : Nat :=
  let g := region (chan s c) r
  g.epoch.toNat + 2 ^ 32 * (g.wm.getD (regionLines s c r)) + 2 ^ 64 * g.state
/-- The record of region `r` as it is rewritten: with its CRC-32 in bytes 12 to 15, the rest zero (12 R547). -/
def regionRecord (s : State) (c r : Nat) : BitVec 512 :=
  BitVec.ofNat 512 (regionWord s c r + 2 ^ 96 * crc32 (leBytes 12 (regionWord s c r)))
/-- The record of a region is rewritten in DRAM (12 R547). -/
def storeRec (s : State) (c r : Nat) : State := setChan s c { chan s c with recs := tabPut (chan s c).recs r (regionRecord s c r) }
/-- Every record of a channel is rewritten: at the flush of 04 R167, and the walked one when the controller stops (12 R547, R561). -/
def storeRecs (s : State) (c : Nat) : State := ((chan s c).regions.map (·.1)).foldl (fun a r => storeRec a c r) s
/-- A record as it is read and restored (12 R560). -/
def readRec (s : State) (c r : Nat) (v : BitVec 512) : Region :=
  { epoch := BitVec.ofNat 32 (fld v 0 32), wm := if fld v 32 32 = regionLines s c r then none else some (fld v 32 32), state := fld v 64 8 }

/-- The walk of an idle or queued region starts (12 R554). -/
def startWalk (s : State) (c r : Nat) : State :=
  let x := chan s c
  let g := region x r
  ddrEv (storeRec (setChan s c { setRegion x r { epoch := g.epoch + 1#32, wm := some 0, state := 2, mark := false } with
    walk := some r, deriving_ := true }) c r) 0x2A08 sevInfo (c * 2 ^ 20 + r) c

/-- With no region walked, the next queued region starts, in the order of the requests (12 R554). -/
def nextWalk (s : State) (c : Nat) : State :=
  match (chan s c).walk, (chan s c).queue with
  | none, q :: rest => startWalk (setChan s c { chan s c with queue := rest }) c q
  | _, _ => s

/-- A region record whose CRC fails (12 R560): its lines are unreadable until written, its epoch passes every value it can have used. -/
def badRecord (x : Chan) (r free : Nat) : Chan :=
  let g := tabGet x.regions r {}
  { x with
    lines := x.lines.filter fun l => l.1 / 2 ^ 24 != r
    counters := x.counters.filter fun l => l.1 / 2 ^ 24 != r
    tags := x.tags.filter fun l => l.1 / 2 ^ 19 != r
    queue := x.queue.filter (· != r)
    walk := if x.walk = some r then none else x.walk
    regions := tabPut x.regions r { epoch := BitVec.ofNat 32 (min (g.epoch.toNat + 1 + Config.freeNat free) 0xFFFFFFFF) } }

/-- The region table is read at a boot that keeps the DDR key: walks resume at their watermarks, the order of the queue is the controller's own where it has kept it
(12 R560). -/
def readTable (s : State) (c : Nat) (bad : List (Fin 512)) : Chan :=
  let x := chan s c
  let gs := x.recs.map fun v => (v.1, readRec s c v.1 v.2)
  let queued := (gs.filter fun g => g.2.state == 1).map (·.1)
  bad.foldl (fun a r => badRecord a r.val s.freeCtr)
    { x with
      regions := gs
      walk := (gs.find? fun g => 2 ≤ g.2.state).map (·.1)
      queue := x.queue.filter queued.contains ++ queued.filter fun r => !x.queue.contains r }
/-- Training step 5 (12 R525, R547, R560): the table is read where the reset kept the DDR key, else written afresh; where the region that was walked is lost with its
record, the next queued one starts. -/
def channelReady (s : State) (c : Nat) (bad : List (Fin 512)) : State :=
  let x := chan s c
  let y := if s.ddr.keyKept then readTable s c bad
    else { x with regions := [], recs := [], queue := [], walk := none, deriving_ := false, lines := [], counters := [], tags := [], ccache := [] }
  let d := c * 65536 + oGet s (O_DDR_RATE c) * 256 + (if x.usesStored then 1 else 0) + (if x.kept then 2 else 0)
  let s1 := freeStep (setChan s c { y with stage := 0, resetN := true })
  let s2 := oSet s1 O_TRAIN_STORED (oGet s1 O_TRAIN_STORED ||| (if x.usesStored && !x.kept then 2 ^ c else 0))
  nextWalk (ddrEv (oSet s2 (O_CHAN_STATE c) 2) 0x2A01 sevInfo d c) c

/-- `DDR_CHANNEL_READY` (12 R525 step 5). -/
def execDdrChannelReady (c : Fin 16) (badRecords : List (Fin 512)) (s : State) : Res :=
  .next (if ddrTrains s c.val && chanState s c.val == 1 && (chan s c.val).stage == 2 then channelReady s c.val badRecords else s)

/-! ## What a channel answers (12 R522, R523, R736) -/

/-- The response of channel `c` when it does not serve a request for channel address `ca`. -/
def chanAnswer (s : State) (c ca : Nat) : Option Nat :=
  if !enabled s (unDdr c) then some rGated
  else match chanState s c with
    | 0 => some rDecerr
    | 2 => if ca < 64 * chanLines s c then none else some rDecerr
    | 3 => some rSlverr
    | _ => some rNotready

/-- A request beyond the usable capacity (12 R523): event 0x2A0B once per channel and reset. -/
def noteBeyond (s : State) (c ca : Nat) : State :=
  if enabled s (unDdr c) && chanState s c == 2 && 64 * chanLines s c ≤ ca && !(chan s c).beyond then
    ddrEv (setChan s c { chan s c with beyond := true }) 0x2A0B sevWarn (c * 65536) c
  else s

/-! ## Banks (12 R524, R532) -/

/-- Column bits c and rank bits k of R524. -/
def colBits (z : Nat) : Nat := if szX8 z then 6 else 7
def rankBits (z : Nat) : Nat := Nat.log2 (szDimms z * szRanks z)
/-- Row of line `n`. -/
def rowOfLine (z n : Nat) : Nat := n / 2 ^ (6 + colBits z + rankBits z)
/-- Burst of line `n` within its row, of 16 columns each. -/
def burstOfLine (z n : Nat) : Nat := n / 16 % 2 ^ colBits z
/-- Bank of line `n`: subchannel, bank group, bank and rank as one number of 8 bits. -/
def bankOfLine (z n : Nat) : Nat :=
  let row := rowOfLine z n
  n % 2 + 2 * ((n / 2 % 8) ^^^ (row % 8)) + 16 * ((n / 2 ^ (4 + colBits z) % 4) ^^^ (row / 8 % 4))
    + 64 * (n / 2 ^ (6 + colBits z) % 2 ^ rankBits z)

/-- A request that waits hits the row of line `n` (12 R532). -/
def rowWanted (s : State) (c n : Nat) : Bool :=
  let z := oGet s (O_DDR_SIZING c)
  s.hub.waiting.any fun w => w.2.any fun r => r.ref.chan == c && bankOfLine z r.ref.n == bankOfLine z n && rowOfLine z r.ref.n == rowOfLine z n
/-- An access leaves its bank's row open or closes it, by its hint; a queued request for the row keeps it open (12 R532, R561). -/
def touchBank (s : State) (c n hint : Nat) : State :=
  let z := oGet s (O_DDR_SIZING c)
  let b := bankOfLine z n
  let x := chan s c
  let close := (hint = 2 || (hint = 0 && oGet s (O_PAGE_DEFAULT c) = 1)) && !rowWanted s c n
  setChan s c { x with rows := if close then tabDel x.rows b else tabPut x.rows b (rowOfLine z n) }

/-! ## The check code (12 R539 to R542) -/

/-- A line found uncorrectable at line index `n` (12 R540). -/
def eccDetected (s : State) (c n : Nat) : State :=
  let s1 := oBump s (O_ECC_UNCORRECTABLE c) 1 (2 ^ 32 - 1)
  ddrEv (oSet s1 (O_ECC_LAST_UNCORR c) (2 ^ 63 + n)) 0x2A06 sevErr (c * 2 ^ 20 + n % 2 ^ 20) c
/-- A line read and corrected (12 R540, R563). -/
def eccCorrected (s : State) (c : Nat) : State :=
  let s1 := oBump s (O_ECC_CORRECTED c) 1 (2 ^ 32 - 1)
  if (chan s c).corrMark then s1
  else ddrEv (setChan s1 c { chan s1 c with corrMark := true }) 0x2A05 sevWarn (c * 65536) c

/-- Kind of a read of a line whose stored bits are in condition `err` and take the upset `up` in this read: 0 clean, 1 correctable, 2
detected. Two correctable patterns together are a free value. -/
def lineKind (err up free : Nat) : Nat :=
  if 2 ≤ err || 2 ≤ up then 2 else if err + up = 2 then 1 + Config.freeNat free % 2 else err + up

/-- What a line read gives: contents and POISON. A line not written since its key was renewed gives free contents or POISON (12 R559);
`code` is what a channel answers that has stopped serving since the request was accepted (12 R736). -/
structure LineRead where
  data : BitVec 512
  poison : Bool
  bad : Bool
  code : Option Nat := none
  deriving DecidableEq, Repr

/-- Read data line `n` of channel `c` (12 R540, R550): `up` is the upset met in this read (0 none, 1 correctable, 2 uncorrectable, 3 another line's
contents from a wrong address). -/
def ddrRead (s : State) (c n up hint : Nat) : State × LineRead :=
  let s0 := freeStep (freeStep (touchBank s c n hint))
  let x := chan s0 c
  match tabFind x.lines n with
  | none =>
    if Config.freeNat s.freeCtr % 2 = 1 || 2 ≤ up then (eccDetected s0 c n, { data := Config.free 512 (s.freeCtr + 1), poison := true, bad := true })
    else (s0, { data := Config.free 512 (s.freeCtr + 1), poison := false, bad := false })
  | some l =>
    match lineKind l.err up s.freeCtr with
    | 2 =>
      let y := { l with err := if up = 3 then l.err else 2 }
      (eccDetected (setChan s0 c { x with lines := tabPut x.lines n y }) c n,
        { data := Config.free 512 (s.freeCtr + 1), poison := true, bad := true })
    | k =>
      let s1 := if k = 1 then
          eccCorrected (setChan s0 c { x with lines := tabPut x.lines n { l with err := 1 }, back := n :: x.back.filter (· != n) }) c
        else s0
      (if l.poison then oBump s1 (O_POISON_READS c) 1 (2 ^ 32 - 1) else s1, { data := l.data, poison := l.poison, bad := l.poison })

/-! ## Regions and the walker (12 R545 to R548, R554 to R557) -/

/-- An advance of a region is requested (12 R554). -/
def requestAdvance (s : State) (c r : Nat) : State :=
  let x := chan s c
  let g := region x r
  if g.epoch = 0xFFFFFFFF#32 then s
  else match g.state with
    | 0 =>
      if x.walk.isNone then startWalk s c r
      else storeRec (setChan s c { setRegion x r { g with state := 1, mark := false } with queue := x.queue ++ [r] }) c r
    | 1 => s
    | _ => storeRec (setChan s c (setRegion x r { g with state := 3 })) c r

/-- A write with the counter at 4,095 reuses its tweak (12 R556). -/
def tweakReuse (s : State) (c r : Nat) : State :=
  let s1 := oBump s (O_TWEAK_REUSES c) 1 (2 ^ 32 - 1)
  let g := region (chan s c) r
  if g.mark || g.state = 0 then s1
  else ddrEv (setChan s1 c (setRegion (chan s1 c) r { g with mark := true })) 0x2A0A sevWarn (c * 2 ^ 20 + r) c

/-- Epoch under which line `n` stands: the old one at or above the watermark (12 R546, R548). -/
def epochOf (x : Chan) (n : Nat) : BitVec 32 :=
  let g := region x (regionOf n)
  let old := match g.wm with | some w => decide (w ≤ n % 2 ^ 24) | none => false
  if old then g.epoch - 1#32 else g.epoch
/-- A counter line carries the tag of the epoch that is expected of it (12 R548). -/
def tagOk (x : Chan) (i : Nat) : Bool := tabFind x.tags i == some (epochOf x (32 * i))
/-- Write counter of a line: zero in a counter line without a valid tag (12 R548; log entry 101). -/
def lineCount (x : Chan) (n : Nat) : Nat := if tagOk x (n / 32) then (tabGet x.counters n 0#12).toNat else 0
/-- Write the counters of a counter line under the expected tag. -/
def putCounts (x : Chan) (i : Nat) (cs : List (Nat × BitVec 12)) : Chan :=
  let kept := if tagOk x i then x.counters else x.counters.filter fun y => y.1 / 32 != i
  { x with counters := cs.foldl (fun t y => tabSet t y.1 y.2 0#12) kept, tags := tabPut x.tags i (epochOf x (32 * i)) }

/-- Counter line `i` is lost (12 R553). -/
def counterLost (s : State) (c i : Nat) : State :=
  let x := chan s c
  let ns := (List.range 32).map fun j => 32 * i + j
  let y := putCounts { x with
    lines := ns.foldl (fun t n => tabPut t n { data := (tabGet x.lines n {}).data, poison := true }) x.lines
    back := x.back.filter fun n => !ns.contains n } i (ns.map fun n => (n, 0xFFF#12))
  ddrEv (requestAdvance (setChan s c y) c (regionOf (32 * i))) 0x2A07 sevErr (c * 2 ^ 20 + i % 2 ^ 20) c
/-- Counter line `i`, a line of the carve-out, is read and meets an upset (12 R540, R541, R553). -/
def counterRead (s : State) (c i up : Nat) : State :=
  match up with
  | 0 => s
  | 1 =>
    let s1 := eccCorrected s c
    let x := chan s1 c
    setChan s1 c { x with back := (chanLines s c + i) :: x.back.filter (· != chanLines s c + i) }
  | _ => counterLost (eccDetected s c (chanLines s c + i)) c i

/-- The counter line of a line is looked up in the counter cache, read where it misses, and is dirty after a write (12 R549, R550); `up` is the upset met in the read. -/
def counterTouch (s : State) (c i : Nat) (dirty : Bool) (up : Nat) : State :=
  let x := chan s c
  let k := Config.counterSet i % 2048
  let set := tabGet x.ccache k []
  let hit := set.find? fun e => e.1 == i
  let e := (i, dirty || (hit.map (·.2)).getD false)
  let s1 := setChan s c { x with ccache := tabPut x.ccache k ((e :: set.filter fun y => y.1 != i).take 16) }
  if hit.isSome then s1 else counterRead (oSet s1 (O_CCACHE_MISSES c) ((oGet s1 (O_CCACHE_MISSES c) + 1) % 2 ^ 64)) c i up

/-- The counter of a written line advances (12 R551, R554, R556). -/
def countWrite (s : State) (c n up : Nat) : State :=
  let s0 := counterTouch s c (n / 32) true up
  let x := chan s0 c
  let k := lineCount x n
  if k = 4095 then tweakReuse s0 c (regionOf n)
  else
    let s1 := setChan s0 c (putCounts x (n / 32) [(n, BitVec.ofNat 12 (k + 1))])
    if k + 1 = 4095 then requestAdvance s1 c (regionOf n) else s1

/-! An upset operand of a request: `up % 4` is met in reading the data line, `up / 4` in reading its counter line. -/

/-- Write all of data line `n` (12 R542, R551); a line that reaches a failed channel is lost (R530). -/
def ddrWrite (s : State) (c n : Nat) (data : BitVec 512) (poison : Bool) (up hint : Nat) : State :=
  if chanState s c = 3 then s
  else
    let s0 := countWrite (touchBank s c n hint) c n (up / 4)
    let x := chan s0 c
    setChan s0 c { x with lines := tabPut x.lines n { data := data, poison := poison }, back := x.back.filter (· != n) }

/-- A read of a line on behalf of a request: the counter line is looked up too (12 R550). -/
def ddrServe (s : State) (c n up hint : Nat) : State × LineRead := ddrRead (counterTouch s c (n / 32) false (up / 4)) c n (up % 4) hint

/-- A write of the enabled bytes of line `n` by the fall-back path (12 R542, R552); false where it is refused. -/
def ddrNarrow (s : State) (c n : Nat) (data mask : BitVec 512) (poison : Bool) (up hint : Nat) : State × Bool :=
  let r := ddrServe s c n up hint
  if r.2.bad then (ddrEv r.1 0x2A0F sevWarn (c * 2 ^ 20 + n % 2 ^ 20) c, false)
  else (ddrWrite r.1 c n (maskMerge r.2.data data mask) poison 0 hint, true)

/-- Requests to a region wait while its key is derived, those of a channel while ALERT_n is low and its commands are issued again (12 R530, R554, R561). -/
def ddrHeld (s : State) (c n : Nat) : Bool :=
  (chan s c).alert || ((chan s c).deriving_ && (chan s c).walk == some (regionOf n))

/-- The key of region `r` of channel `c` at epoch `e` (12 R545). -/
def regionKey (s : State) (c r e : Nat) : BitVec 384 :=
  Config.hmac (s.ddr.key ++ 0#128) ([0, 0, 0, 1, 0x4E, 0x47, 0x5A, 0x2D, 0x44, 0x52, 0x41, 0x4D, 0, BitVec.ofNat 8 c] ++ (leBytes 2 r).reverse
    ++ (leBytes 4 e).reverse ++ (leBytes 2 (oGet s O_PART_ID)).reverse ++ [0, 0, 1, 0x20])
/-- The tag of region `r` at epoch `e`: bytes 32 to 35 of the derivation (12 R545). -/
def regionTag (s : State) (c r e : Nat) : BitVec 32 := ((regionKey s c r e) >>> 96).setWidth 32
/-- The line that stands in the DIMM for line `n` of channel `c`: its contents mixed under the region's key on its side of the watermark and
the tweak of its counter (12 R543, R546, R550). -/
def dimmLine (s : State) (c n : Nat) (l : DdrLine) : BitVec 512 :=
  let h := regionKey s c (regionOf n) (epochOf (chan s c) n).toNat
  Config.mixLine ((h >>> 128).setWidth 256) (BitVec.ofNat 64 (c * 2 ^ 60 + n * 2 ^ 24 + lineCount (chan s c) n)) l.data

/-- The stored line: 512 data bits on 32 lanes, 128 check bits on 8, over the line as scrambled, its line index and the poison marker (12 R539). -/
def storedLine (s : State) (c n : Nat) (l : DdrLine) : BitVec 640 :=
  let d := dimmLine s c n l
  Config.lineCheck d (BitVec.ofNat 48 n) l.poison ++ d

/-- Counter line `i` as it is written back: 32 counters of 12 bits and the tag of its epoch in [415:384] (12 R548). Byte 32 of H is the
tag's highest (log entry 100). -/
def counterLine (s : State) (c i : Nat) : BitVec 512 :=
  (List.range 32).foldl (fun a j => a ||| BitVec.ofNat 512 (lineCount (chan s c) (32 * i + j) * 2 ^ (12 * j)))
    (BitVec.ofNat 512 ((regionTag s c (regionOf (32 * i)) (tabGet (chan s c).tags i 0#32).toNat).toNat * 2 ^ 384))

/-- The controller works: enabled, its channel ready, no alert. -/
def chanWorks (s : State) (c : Nat) : Bool :=
  clocked s && enabled s (unDdr c) && chanState s c == 2 && !(chan s c).alert

/-- One line is read, checked and converted (12 R540, R555); `up` is the upset met in the read. -/
def convertLine (s : State) (c n up : Nat) : State :=
  let x := chan s c
  match tabFind x.lines n with
  | none => s
  | some l =>
    let k := lineKind l.err up s.freeCtr
    let s1 := if k = 2 then eccDetected s c n
      else
        let s2 := if k = 1 then eccCorrected s c else s
        if l.poison then oBump s2 (O_POISON_READS c) 1 (2 ^ 32 - 1) else s2
    let y := chan s1 c
    setChan s1 c { y with lines := tabPut y.lines n { l with err := 0, poison := l.poison || k == 2 }, back := y.back.filter (· != n) }

/-- The walk of region `r` ends: the next queued region starts, after a pending advance has joined the queue (12 R554, R555). -/
def walkEnd (s : State) (c r : Nat) : State :=
  let x := chan s c
  let g := region x r
  let pending := g.state = 3 && g.epoch != 0xFFFFFFFF#32
  let s1 := ddrEv (storeRec (setChan s c { setRegion x r { g with wm := none, state := if pending then 1 else 0, mark := false } with
    walk := none, queue := if pending then x.queue ++ [r] else x.queue }) c r) 0x2A09 sevInfo (c * 2 ^ 20 + r) c
  nextWalk s1 c

/-- The walker converts its next 32 lines: the counter line is looked up, the lines are converted, the counter line is written with the new tag; the record is
rewritten when the watermark has advanced by 2^20 lines since it was (12 R547, R555). `line` meets upset `up`. -/
def walkUnit (s : State) (c r line up : Nat) : State :=
  let w := ((region (chan s c) r).wm).getD 0
  let n := r * 2 ^ 24 + w
  let s0 := counterTouch s c (n / 32) true (up / 4)
  let s1 := (List.range 32).foldl (fun a i => convertLine a c (n + i) (if i = line then up % 4 else 0)) s0
  let x := chan s1 c
  let y := setRegion x r { region x r with wm := some (w + 32) }
  let s2 := freeStep (setChan s1 c (putCounts y (n / 32) ((List.range 32).map fun i => (n + i, 0#12))))
  if regionLines s c r ≤ w + 32 then walkEnd s2 c r
  else if fld (tabGet y.recs r 0#512) 32 32 + 2 ^ 20 ≤ w + 32 then storeRec s2 c r else s2

/-- `DDR_WALK_UNIT` (12 R555, R557): not while the controller's enable is clear. -/
def execDdrWalkUnit (c : Fin 16) (line : Fin 32) (up : Fin 16) (s : State) : Res :=
  .next (match (chan s c.val).walk with
    | some r => if chanWorks s c.val && !(chan s c.val).deriving_ then walkUnit s c.val r line.val up.val else s
    | none => s)

/-- `DDR_KEY_DERIVED` (12 R545, R554): the requests that wait for the key may proceed. -/
def execDdrKeyDerived (c : Fin 16) (s : State) : Res :=
  .next (if chanWorks s c.val then setChan s c.val { chan s c.val with deriving_ := false } else s)

/-! ## Patrol and corrections (12 R541, R553) -/

/-- The patrol reads the line at its position. -/
def patrolRead (s : State) (c up : Nat) : State :=
  let m := chanLines s c
  let pos := (chan s c).patrol
  let s1 :=
    if pos < m then (ddrServe s c pos up 0).1
    else if pos < m + m / 32 then counterRead s c (pos - m) up
    else if up = 1 then eccCorrected s c
    else if up = 0 then s
    else eccDetected s c pos
  let next := if m + m / 32 + chanRegions s c ≤ pos + 1 then 0 else pos + 1
  setChan s1 c { chan s1 c with patrol := next }

/-- `DDR_PATROL_READ` (12 R541): `found` is the upset met (0 none, 1 correctable, 2 or 3 uncorrectable). -/
def execDdrPatrolRead (c : Fin 16) (found : Fin 4) (s : State) : Res :=
  .next (if chanWorks s c.val && oGet s O_PATROL_HOURS != 0 && !ddrHeld s c.val (chan s c.val).patrol then patrolRead s c.val found.val else s)

/-- `DDR_CORRECTION_WRITEBACK` (12 R541): unless the line has been written since. -/
def execDdrCorrectionWriteback (c : Fin 16) (line : BitVec 33) (s : State) : Res :=
  let x := chan s c.val
  let n := line.toNat
  .next (if chanWorks s c.val && x.back.contains n then
    setChan s c.val { x with
      back := x.back.filter (· != n)
      lines := match tabFind x.lines n with | some l => tabPut x.lines n { l with err := if l.err = 1 then 0 else l.err } | none => x.lines }
  else s)

/-! ## Refresh, pages, alerts (12 R530, R532, R536 to R538) -/

/-- `DDR_PAGE_IDLE_CLOSE` (12 R532). -/
def execDdrPageIdleClose (c : Fin 16) (bank : BitVec 8) (s : State) : Res :=
  .next (if chanWorks s c.val then setChan s c.val { chan s c.val with rows := tabDel (chan s c.val).rows bank.toNat } else s)

/-- Same-bank refreshes owed by bank index `b` of a rank, plus 4. -/
def owedAt (x : Chan) (rank b : Nat) : Nat := tabGet x.owed (4 * rank + b) 4
/-- All eight banks `b` of a rank are closed. -/
def banksIdle (x : Chan) (rank b : Nat) : Bool := x.rows.all fun y => !(y.1 / 16 % 4 == b && y.1 / 64 == rank)
/-- One same-bank refresh of bank index `b`, if its banks are idle and fewer than four intervals are paid ahead (12 R536). -/
def refreshBank (x : Chan) (rank b : Nat) : Chan :=
  if banksIdle x rank b && 0 < owedAt x rank b then { x with owed := tabPut x.owed (4 * rank + b) (owedAt x rank b - 1) } else x

/-- The debt has reached four intervals: every row of the rank closes and an all-bank refresh is issued (12 R537). -/
def forcedRefab (s : State) (c rank : Nat) : State :=
  let x := chan s c
  let y := { x with
    rows := x.rows.filter fun r => r.1 / 64 != rank
    owed := (List.range 4).foldl (fun t b => tabPut t (4 * rank + b) (owedAt x rank b - 1)) x.owed }
  let s1 := oBump (setChan s c y) (O_FORCED_REFAB c) 1 (2 ^ 32 - 1)
  let due := match x.refabAt with | none => true | some t => decide (t + 1000000000 ≤ s.fw.dtime)
  if due then ddrEv (setChan s1 c { chan s1 c with refabAt := some s.fw.dtime }) 0x2A0C sevWarn (c * 65536 + rank) c else s1

/-- Another interval is owed by the rank; `issued` are the same-bank refreshes issued since (12 R536,
R537). The controller issues none while ALERT_n is low (12 R530); the debt is counted for each bank index (log entry 100). -/
def refreshDue (s : State) (c rank : Nat) (issued : List (Fin 4)) : State :=
  let x := chan s c
  let pays := if chanWorks s c then issued else []
  let y := { x with owed := (List.range 4).foldl (fun t b => tabPut t (4 * rank + b) (owedAt x rank b + 1)) x.owed }
  let z := pays.foldl (fun a b => refreshBank a rank b.val) y
  let s1 := setChan s c z
  if chanWorks s c && (List.range 4).any fun b => 8 ≤ owedAt z rank b then forcedRefab s1 c rank else s1

/-- `DDR_REFRESH_DUE` (12 R536). -/
def execDdrRefreshDue (c : Fin 16) (rank : Fin 4) (pays : List (Fin 4)) (s : State) : Res :=
  let z := oGet s (O_DDR_SIZING c.val)
  .next (if clocked s && chanState s c.val == 2 && rank.val < szDimms z * szRanks z then refreshDue s c.val rank.val pays else s)

/-- `DDR_MR4_POLL` (12 R538): `doubled` holds what each rank asks for. -/
def execDdrMr4Poll (c : Fin 16) (doubled : BitVec 4) (s : State) : Res :=
  let z := oGet s (O_DDR_SIZING c.val)
  let on := doubled.toNat % 2 ^ (szDimms z * szRanks z) != 0
  let old := oGet s O_REFRESH_2X
  .next (if chanWorks s c.val && old.testBit c.val != on then
    ddrEv (oSet s O_REFRESH_2X (old ^^^ 2 ^ c.val)) 0x2A0D sevInfo (c.val * 65536 + if on then 1 else 0) c.val
  else s)

/-- The 1 ms in which replays are counted still runs (12 R530). -/
def replayWindow (s : State) (x : Chan) : Bool := 0 < x.replays && s.fw.dtime ≤ x.replayAt + 1000000

/-- `DDR_ALERT` (12 R530): no more commands issue; after three failed replays in 1 ms the channel fails. -/
def execDdrAlert (c : Fin 16) (s : State) : Res :=
  let x := chan s c.val
  .next (if clocked s && chanState s c.val == 2 && !x.alert then
    (if x.replays = 3 && replayWindow s x then chanFail s c.val 0x10 else setChan s c.val { x with alert := true })
  else s)

/-- `DDR_ALERT_RELEASE` (12 R530): the replay, and event 0x2A0E. -/
def execDdrAlertRelease (c : Fin 16) (s : State) : Res :=
  let x := chan s c.val
  let n := if replayWindow s x then x.replays + 1 else 1
  .next (if clocked s && x.alert then
    ddrEv (setChan s c.val { x with alert := false, replays := n, replayAt := if replayWindow s x then x.replayAt else s.fw.dtime })
      0x2A0E sevErr (c.val * 65536 + n % 4) c.val
  else s)

/-! ## Objects (12 R562) -/

/-- Clear the counts of a channel. -/
def clearEcc (s : State) (c : Nat) : State :=
  let s1 := oSet (oSet (oSet s (O_ECC_CORRECTED c) 0) (O_ECC_UNCORRECTABLE c) 0) (O_POISON_READS c) 0
  let s2 := oSet s1 (O_ECC_LAST_UNCORR c) (oGet s1 (O_ECC_LAST_UNCORR c) % 2 ^ 63)
  setChan s2 c { chan s2 c with corrMark := false }
/-- ECC_CNT_CLEAR. -/
def wrEccCntClear (r : Req) (len val : Nat) (s : State) : State :=
  objWriteP r O_ECC_CNT_CLEAR len val (fun s =>
    if val = 0xFF then (List.range 16).foldl clearEcc s else clearEcc s (val - 1)) s
/-- `ECC_CNT_CLEAR` (12 R562). -/
def execEccCntClear (r : Req) (v : BitVec 8) (s : State) : Res := .next (wrEccCntClear r 1 v.toNat s)

/-- WALK_STATUS (12 R562). -/
def walkStatus (s : State) (c : Nat) : Nat :=
  let x := chan s c
  match x.walk with
  | none => x.queue.length * 65536
  | some r => 2 ^ 31 + (if (region x r).state = 3 then 2 ^ 30 else 0) + x.queue.length * 65536 + r

/-- REGION_TABLE (12 R547, R562): 16 bytes a region, as a number and its length. -/
def regionTable (s : State) (c : Nat) : Nat × Nat :=
  let q := chanRegions s c
  ((List.range q).foldr (fun r a => regionWord s c r + 2 ^ 128 * a) 0, 16 * q)

/-- `UNIT_CLOCK_STOPPED` (03 R130): the accepted requests of a unit whose enable is clear are complete; its clock stops. A DDR5 controller has put
its DIMMs into self-refresh, written back its counter cache and written its records (12 R561). -/
def execUnitClockStopped (unit : Fin 38) (s : State) : Res :=
  .next (if s.clk.clkRun.getLsbD unit.val && !s.clk.clkEn.getLsbD unit.val then
    let s1 := chanSleep s unit.val 2 4
    let s2 := setClk s1 { s1.clk with clkRun := setBit s1.clk.clkRun unit.val false }
    if 1 ≤ unit.val ∧ unit.val < 0x11 then
      let s3 := storeRecs s2 (unit.val - 1)
      { s3 with ddr := { s3.ddr with chans := s3.ddr.chans.map fun x =>
          if x.1 = unit.val - 1 then (x.1, { x.2 with ccache := x.2.ccache.map fun y => (y.1, y.2.map fun z => (z.1, false)) }) else x } }
    else s2
  else s)

end Sys2Proof.Machine
end

