-- ==== Sys2Proof/Machine/Links.lean ====
section
/-! DEFINITION. What a cascade or twin port has to send: packets and mirror records in flit slots, link messages, credits (14 R599 to R603, R625). -/
namespace Sys2Proof.Machine

/-- Set the cascade's record. -/
def setCasc (s : State) (c : Casc) : State := { s with casc := c }
/-- A port above its bring-up. -/
def cport (s : State) (p : Nat) : CascPort := tabGet s.casc.ports p {}
/-- Set it. -/
def setCport (s : State) (p : Nat) (x : CascPort) : State := setCasc s { s.casc with ports := tabPut s.casc.ports p x }

/-- A header flit's slot, a data flit's slot (14 R599). -/
def headSlot (f : BitVec 512) : BitVec 514 := 1#2 ++ f
def dataSlot (f : BitVec 512) : BitVec 514 := 2#2 ++ f
/-- Flits that a buffer of the receiving port holds, by 2 VN + dateline channel (10 R441, 14 R603). -/
def linkRoom : List Nat := [8, 8, 8, 8, 8, 8, 34, 34, 4, 4]
/-- A packet waits to be sent on port `p`; `credit` numbers the buffer it goes to, none for a mirror record. -/
def pushPkt (s : State) (p : Nat) (credit : Option Nat) (flits : List (BitVec 514)) (poison : Bool := false) : State :=
  setCport s p { cport s p with out := (cport s p).out ++ [{ credit := credit, flits := flits, poison := poison }] }
/-- A link message waits to be sent (14 R601). -/
def pushMsg (s : State) (p type payload : Nat) : State :=
  setCport s p { cport s p with msgs := (cport s p).msgs ++ [(type, BitVec.ofNat 120 payload)] }
/-- `n` flits that came over port `p` on VN `vn` and dateline channel `dvc` leave their buffer: their credits are owed to the partner (14 R600, R603). -/
def linkGot (s : State) (p vn : Nat) (dvc : Bool) (n : Nat) : State :=
  let i := 2 * vn + (if dvc then 1 else 0)
  setCport s p { cport s p with owed := (cport s p).owed.set i ((cport s p).owed.getD i 0 + n) }

/-- Order of the buffers by the priority of their VNs: VN4, VN2, VN3, VN1, VN0 (10 R443). -/
def linkOrder : List Nat := [8, 9, 4, 5, 6, 7, 2, 3, 0, 1]
/-- The next packet that may be sent: a mirror record, or by priority the oldest of a buffer that has room for all of it (10 R441, R443; 14 R603). -/
def linkPick (out : List LinkPkt) (credits : List Nat) : Option LinkPkt :=
  (out.find? fun k => k.credit == none).orElse fun _ =>
    linkOrder.findSome? fun i => (out.find? fun k => k.credit == some i).filter fun k => k.flits.length ≤ credits.getD i 0
/-- Fill `n` flit slots: a packet's flits go in consecutive slots; with nothing to send a slot is idle. -/
def fillSlots : Nat → CascPort → List (BitVec 514) × CascPort
  | 0, x => ([], x)
  | n + 1, x =>
    let y := if x.cur.isEmpty then
        match linkPick x.out x.credits with
        | some k => { x with
            cur := k.flits
            out := x.out.erase k
            credits := match k.credit with | some i => x.credits.set i (x.credits.getD i 0 - k.flits.length) | none => x.credits }
        | none => x
      else x
    let r := fillSlots n { y with cur := y.cur.tail }
    (y.cur.headD 0#514 :: r.1, r.2)

end Sys2Proof.Machine
end

