-- ==== Sys2Proof/Machine/Mirror.lean ====
section
/-! DEFINITION. Mirrored windows of a twin pair, and the routes of a cascade, as the memory system uses them (14 R597, R607, R610, R620 to
R627). -/
namespace Sys2Proof.Machine

/-- Set the twin record. -/
def setTwin (s : State) (t : Twin) : State := { s with twin := t }

/-- TWIN_STATE (14 R620). -/
def twinState (s : State) : Nat := oGet s O_TWIN_STATE
/-- The device is a twin that is not ACTIVE. -/
def twinPassive (s : State) : Bool := strapMode s == 2 && twinState s != 4

/-- Fields of window `i` (14 R623). -/
def twValid (x : Nat) : Bool := x.testBit 63
def twSync (x : Nat) : Bool := x.testBit 62
def twBase (x : Nat) : Nat := bitsAt x 16 36
def twGranules (x : Nat) : Nat := bitsAt x 64 25
/-- Raw window. -/
def twRaw (s : State) (i : Nat) : Nat := oGet s (O_TWIN_WINDOW i)
/-- The mirrored window that holds a line, if one does: its SYNC bit. -/
def mirrorWindow (s : State) (line : Nat) : Option Bool :=
  ((List.range 8).find? fun i =>
    let x := twRaw s i
    twValid x && twBase x ≤ line / 1024 && line / 1024 < twBase x + twGranules x).map fun i => twSync (twRaw s i)

/-- Granules of a list of ranges. -/
def rangeCount (l : List (Nat × Nat)) : Nat := l.foldl (fun a r => a + r.2) 0
/-- Is a granule dirty? -/
def granuleIn (l : List (Nat × Nat)) (g : Nat) : Bool := l.any fun r => r.1 ≤ g && g < r.1 + r.2
/-- Mark a granule. -/
def markGranule (l : List (Nat × Nat)) (g : Nat) : List (Nat × Nat) := if granuleIn l g then l else (g, 1) :: l
/-- Clear a granule. -/
def clearGranule (l : List (Nat × Nat)) (g : Nat) : List (Nat × Nat) :=
  l.flatMap fun r =>
    if r.1 ≤ g && g < r.1 + r.2 then ([(r.1, g - r.1), (g + 1, r.1 + r.2 - g - 1)]).filter fun x => x.2 != 0 else [r]
/-- Every granule of the mirrored windows. -/
def allGranules (s : State) : List (Nat × Nat) :=
  ((List.range 8).filter fun i => twValid (twRaw s i)).map fun i => (twBase (twRaw s i), twGranules (twRaw s i))

/-- The gateway, which HUB0 carries, refuses an access of initiator `code` that acts for tenant `ten` (01 R32; 00 R16). -/
def gwEvent (s : State) (ten code : Nat) : State := logEvT s 0x2901 sevWarn (code * 65536 + s.rst.lc.toNat) ten gatePort
/-- The gateway lets the twin-mirror engine reach a line: a mirrored window, MODE TWIN, BLANK to DEPLOYED (01 R31). -/
def mirrorAdmits (s : State) (line : Nat) : Bool := s.rst.lc.toNat ≤ 2 && strapMode s == 2 && (mirrorWindow s line).isSome
/-- A record is sent to the partner: a descriptor slot and a data slot on the twin link (14 R625). -/
def sendRecord (s : State) (line : Nat) (data : BitVec 512) (sync : Bool) : State :=
  let t := s.twin
  pushPkt (setTwin s { t with seq := t.seq + 1, unacked := t.unacked ++ [{ seq := t.seq + 1, line := line, data := data, sync := sync }] }) 3 none
    [headSlot (Config.mirrorDesc (BitVec.ofNat 46 line) (BitVec.ofNat 32 (t.seq + 1))), dataSlot data]
/-- Asynchronous records not acknowledged, oldest first: their mirror sequences. -/
def asyncOut (t : Twin) : List Nat := (t.unacked.filter fun r => !r.sync).map (·.seq)
/-- A line of a mirrored window has changed on the ACTIVE device (14 R625, R627): a record is sent to a partner in STANDBY or CATCHUP, if the gateway lets the
engine pass, or the granule becomes dirty. The second part is the mirror sequence whose acknowledgement a write's completion waits for. -/
def mirrorWrite (s : State) (line : Nat) (data : BitVec 512) : State × Option Nat :=
  if strapMode s = 2 && twinState s = 4 then
    match mirrorWindow s line with
    | none => (s, none)
    | some sync =>
      let t := s.twin
      if t.linkOk && (t.partner = 2 || t.partner = 3) && !mirrorAdmits s line then (gwEvent s 0 4, none)
      else if t.linkOk && (t.partner = 2 || t.partner = 3) then
        let s1 := sendRecord s line data sync
        (s1, if sync then some (t.seq + 1) else ((asyncOut s1.twin).reverse.drop 1024).head?)
      else (setTwin s { t with dirty := markGranule t.dirty (line / 1024) }, none)
  else (s, none)

/-! ## Cascade routes (14 R597, R607, R610) -/

/-- DX, DY. -/
def cascDx (s : State) : Nat := oGet s O_CASC_DIM / 16
def cascDy (s : State) : Nat := oGet s O_CASC_DIM % 16
/-- The port toward a device: N 0, E 1, S 2, W 3; none for the device itself. -/
def cascNext (s : State) (dev : Nat) : Option Nat :=
  let dx := cascDx s
  let dy := cascDy s
  let me := strapCascId s
  let hx := (dev % dx + dx - me % dx) % dx
  let hy := (dev / dx + dy - me / dx % dy) % dy
  if hx ≠ 0 then some (if 2 * hx ≤ dx then 1 else 3)
  else if hy ≠ 0 then some (if 2 * hy ≤ dy then 2 else 0)
  else none
/-- The port over which a packet from device `dev` arrives: it comes last in Y if it moves in Y at all. -/
def cascFrom (s : State) (dev : Nat) : Option Nat :=
  let dx := cascDx s
  let dy := cascDy s
  let me := strapCascId s
  let hx := (me % dx + dx - dev % dx) % dx
  let hy := (me / dx + dy - dev / dx % dy) % dy
  if hy ≠ 0 then some (if 2 * hy ≤ dy then 0 else 2)
  else if hx ≠ 0 then some (if 2 * hx ≤ dx then 3 else 1)
  else none
/-- The neighbour on a port. -/
def cascNeighbour (s : State) (p : Nat) : Nat :=
  let dx := cascDx s
  let dy := cascDy s
  let x := strapCascId s % dx
  let y := strapCascId s / dx
  match p with
  | 0 => x + (y + dy - 1) % dy * dx
  | 1 => (x + 1) % dx + y * dx
  | 2 => x + (y + 1) % dy * dx
  | _ => (x + dx - 1) % dx + y * dx
/-- A link is UP and has passed its checks. -/
def linkChecked (s : State) (p : Nat) : Bool := oGet s (O_CASC_TRAIN_STATE p) == 4 && oGet s (O_CASC_LINK_STATE p) == 3

/-- How a request toward device `dev` is completed when this device cannot forward it (14 R610); none when it is forwarded. -/
def cascAnswer (s : State) (dev : Nat) : Option Nat :=
  let members := oGet s O_CASC_MEMBERS
  if strapMode s ≠ 1 || !members.testBit dev then some rDecerr
  else match cascNext s dev with
    | none => some rDecerr
    | some p =>
      if oGet s (O_CASC_TRAIN_STATE p) = 0 then some rDecerr
      else if !linkChecked s p || !members.testBit (cascNeighbour s p) then some rRetry
      else none

end Sys2Proof.Machine
end

