-- ==== Sys2Proof/Machine/Flows.lean ====
section
/-! DEFINITION. Slices, the snoop filter and the coherent flows on device-memory lines (11 R470 to R489). -/
namespace Sys2Proof.Machine

/-- Set the hub's record. -/
def setHub (s : State) (h : Hub) : State := { s with hub := h }
/-- A CXL port. -/
def cxl (s : State) (p : Nat) : CxlPort := tabGet s.hub.ports p {}
/-- Set it. -/
def setCxl (s : State) (p : Nat) (x : CxlPort) : State := setHub s { s.hub with ports := tabPut s.hub.ports p x }
/-- A guest gate. -/
def gate (s : State) (g : Nat) : Gate := tabGet s.hub.gates g {}
/-- Set it. -/
def setGate (s : State) (g : Nat) (x : Gate) : State := setHub s { s.hub with gates := tabPut s.hub.gates g x }
/-- GG_STATE: 0 RESET, 1 TRAINING, 2 ACTIVE, 3 QUARANTINED. -/
def gateState (s : State) (g : Nat) : Nat := oGet s (O_GG_STATE g)
/-- Can an agent answer snoops (11 R476, R497, R513)? -/
def agentUp (s : State) (a : Nat) : Bool := if a < 4 then s.hub.cxlUp.getLsbD a else gateState s (a - 4) == 2
/-- The agents that can. -/
def upMask (s : State) : BitVec 6 := (List.range 6).foldl (fun m a => setBit m a (agentUp s a)) 0#6

/-! ## Lines in the slices (01 R52, R53; 11 R484) -/

/-- The copy of a device line that its slice holds. -/
def sliceGet (s : State) (line : Nat) : Option SliceLine := tabFind s.hub.slices line
/-- A line leaves its slice; a dirty one is written back to its channel (01 R53 step 9). -/
def sliceEvict (s : State) (line : Nat) : State :=
  match sliceGet s line with
  | none => s
  | some l =>
    let s1 := setHub s { s.hub with slices := tabDel s.hub.slices line }
    if l.dirty then ddrWrite s1 l.chan l.n l.data l.poison 0 0 else s1
/-- Lines that a slice has room for: 16 MiB less its share of the PR staging region (00 R8; 05 R238). -/
def sliceRoom (s : State) : Nat := 262144 - oGet s O_PR_STAGE_MIB * 256
/-- Slice of a host line. -/
def hlSlice (h : HostLine) : Nat := hostSlice h.port (h.line * 64)
/-- Host lines that a slice holds. -/
def hostIn (s : State) (slice : Nat) : Nat := (s.hub.hlines.filter fun h => hlSlice h == slice).length
/-- Allocate or replace a line; which other line of the slice is evicted is a free value, and whether one is while the slice has room: the spec gives no replacement
rule (log entry 16). -/
def slicePut (s : State) (line : Nat) (l : SliceLine) : State :=
  let s1 := freeStep (setHub s { s.hub with slices := tabPut s.hub.slices line l })
  let others := (s1.hub.slices.map (·.1)).filter fun x => sliceOf (x * 64) = sliceOf (line * 64) && x ≠ line
  let full := sliceRoom s ≤ others.length + hostIn s (sliceOf (line * 64))
  match others[Config.freeNat s.freeCtr % (if full then others.length else others.length + 1)]? with
  | some v => sliceEvict s1 v
  | none => s1

/-- Read a line for a request: from its slice, or from DDR5 on a miss (11 R484), if the channel still serves it (12 R736). -/
def memRead (s : State) (m : MemRef) (up hint : Nat) : State × LineRead :=
  match sliceGet s m.line with
  | some l => (s, { data := l.data, poison := l.poison, bad := l.poison })
  | none =>
    match chanAnswer s m.chan (64 * m.n) with
    | some c => (s, { data := 0#512, poison := false, bad := true, code := some c })
    | none =>
      let r := ddrServe s m.chan m.n up hint
      (if m.cache then slicePut r.1 m.line { data := r.2.data, dirty := false, poison := r.2.poison, chan := m.chan, n := m.n } else r.1, r.2)
/-- Does the slice take a write of this line: its window may be cached, or the slice holds the line? -/
def inSlice (s : State) (m : MemRef) : Bool := m.cache || (sliceGet s m.line).isSome
/-- Write a whole line. -/
def memWrite (s : State) (m : MemRef) (data : BitVec 512) (poison : Bool) (up hint : Nat) : State :=
  if inSlice s m then slicePut s m.line { data := data, dirty := true, poison := poison, chan := m.chan, n := m.n }
  else ddrWrite s m.chan m.n data poison up hint
/-- Write a whole line for a request: OK, or what a channel answers that no longer serves it (12 R736). -/
def memFull (s : State) (m : MemRef) (data : BitVec 512) (poison : Bool) (up hint : Nat) : State × Nat :=
  match if inSlice s m then none else chanAnswer s m.chan (64 * m.n) with
  | some c => (s, c)
  | none => (memWrite s m data poison up hint, rOk)
/-- Write the bytes of a mask: merged in the slice, or by the controller's fall-back path; SLVERR where refused (12 R542, R552, R736). -/
def memNarrow (s : State) (m : MemRef) (data mask : BitVec 512) (poison : Bool) (up hint : Nat) : State × Nat :=
  if inSlice s m then
    let r := memRead s m up hint
    match r.2.code with
    | some c => (r.1, c)
    | none =>
      if r.2.bad then (ddrEv r.1 0x2A0F sevWarn (m.chan * 2 ^ 20 + m.n % 2 ^ 20) m.chan, rSlverr)
      else (memWrite r.1 m (maskMerge r.2.data data mask) poison 0 hint, rOk)
  else match chanAnswer s m.chan (64 * m.n) with
    | some c => (s, c)
    | none => let r := ddrNarrow s m.chan m.n data mask poison up hint; (r.1, if r.2 then rOk else rSlverr)
/-- What the device's memory holds for a line, for the mirror and the streams; a free value where nothing has written it since the key was renewed (12 R559). -/
def lineNow (s : State) (m : MemRef) : BitVec 512 :=
  match sliceGet s m.line with
  | some l => l.data
  | none => match tabFind (chan s m.chan).lines m.n with
    | some l => l.data
    | none => Config.free 512 (s.freeCtr + 2 ^ 43 + m.line)

/-- The DEVMEM entries whose device range holds a line. -/
def entriesOf (s : State) (line : Nat) : List Nat :=
  (List.range 256).filter fun e =>
    let x := samRaw s e
    samValid x && samKind x == kDevmem && samOffset x ≤ line * 64 && line * 64 < samOffset x + 2 ^ samSize x
/-- Channel and line of a device address under an entry. -/
def refUnder (s : State) (x line : Nat) : MemRef :=
  let mask := oGet s (O_ISET_MASK (samIset x))
  { line := line, chan := chanOf mask (line * 64), n := chanAddr mask (line * 64) / 64, cache := samCache x }
/-- Channel and line of a device line, by the entry that holds it or by the slice's copy. -/
def refOfLine (s : State) (line : Nat) : Option MemRef :=
  match entriesOf s line with
  | e :: _ => some (refUnder s (samRaw s e) line)
  | [] => (sliceGet s line).map fun l => { line := line, chan := l.chan, n := l.n, cache := true }

/-- A line is written as poisoned because an owning agent was lost; its contents are then a free value (11 R482, R497, R498, R503). -/
def poisonLine (s : State) (line data : Nat) : State :=
  let s1 := match refOfLine s line with
    | some m => freeStep (memWrite s m (Config.free 512 s.freeCtr) true 0 0)
    | none => s
  ((entriesOf s line).map (samOwner s)).foldl (fun a t => recordFault a t 4 data) s1

/-! ## The snoop filter (11 R471 to R476) -/

/-- Set index of a line. -/
def sfIndex (line : Nat) : Nat := (line % 2 ^ 19) ^^^ (line / 2 ^ 19 % 2 ^ 19) ^^^ (line / 2 ^ 38 % 2 ^ 8)
/-- The ways of a set that are not INVALID. -/
def sfSet (s : State) (i : Nat) : List SfEntry := tabGet s.hub.sf i []
/-- The entry of a line. -/
def sfFind (s : State) (line : Nat) : Option SfEntry := (sfSet s (sfIndex line)).find? fun e => e.line == line
/-- STATE is OWNED; the entry reads as uncorrectable (11 R474, R476). -/
def SfEntry.owned (e : SfEntry) : Bool := e.st == 2#2
def SfEntry.bad (e : SfEntry) : Bool := e.st == 3#2 || e.err == 2
/-- Bits [55:0] and the 64 bits of an entry as it is stored: STATE, PRESENCE, zeros, TAG, above them CHECK (11 R472, R473); a stored error is not part of it. -/
def SfEntry.body (e : SfEntry) : BitVec 56 := e.st ++ e.pres ++ 0#21 ++ BitVec.ofNat 27 (e.line / 2 ^ 19)
def SfEntry.word (e : SfEntry) : BitVec 64 := Config.sfCheck e.body ++ e.body
/-- Enter or drop the entry of a line: none left, INVALID (11 R474). -/
def sfPut (s : State) (line : Nat) (owned : Bool) (pres : BitVec 6) : State :=
  let i := sfIndex line
  let r := (sfSet s i).filter fun e => e.line != line
  setHub s { s.hub with sf := tabSet s.hub.sf i (if pres = 0#6 then r else { line := line, st := if owned then 2#2 else 1#2, pres := pres } :: r) [] }

/-- Agent `a`'s presence bit. -/
def bit6 (a : Nat) : BitVec 6 := BitVec.ofNat 6 (2 ^ a)
/-- The presence bit of a request's agent. -/
def ownBit (r : FlowReq) : BitVec 6 := match r.agent with | some a => bit6 a | none => 0#6

/-- Snoops of a request on an entry: the agents to be snooped, and whether by SNP_INV (11 R483). -/
def snoopPlan (r : FlowReq) (owned : Bool) (pres : BitVec 6) : BitVec 6 × Bool :=
  let a := ownBit r
  let others := pres &&& ~~~a
  match r.kind with
  | .devRead | .rdShared | .rdCur => (if owned then others else 0#6, false)
  | .devWrite | .victim _ => (pres, true)
  | .rdOwn | .hostWrite _ _ => (if owned && pres == a then 0#6 else others, true)
  | .guestWrite => (others, true)
  | .guestEvict _ => (0#6, false)

/-- The entry after a request (11 R483): `snooped` tells that an owner was snooped, `kept` the agents that keep a copy. -/
def stateAfter (r : FlowReq) (owned : Bool) (pres : BitVec 6) (snooped : Bool) (kept : BitVec 6) : Bool × BitVec 6 :=
  let a := ownBit r
  match r.kind with
  | .devRead | .rdCur => if snooped then (false, kept) else (owned, pres)
  | .devWrite | .victim _ => (false, 0#6)
  | .rdShared => if snooped then (false, kept ||| a) else if owned then (owned, pres) else (false, pres ||| a)
  | .rdOwn => (true, a)
  | .hostWrite mv rec_ => if !rec_ || mv = 0 then (false, 0#6) else if mv = 1 then (false, a) else (true, a)
  | .guestWrite => (false, 0#6)
  | .guestEvict _ => if pres &&& ~~~a = 0#6 then (false, 0#6) else (owned && pres &&& a == 0#6, pres &&& ~~~a)

/-! ## Completions -/

/-- Give a host or a guest an answer; to a host whose link retrains it waits for the link (11 R516), and an answer to a guest whose link is not up is
discarded (R513). -/
def answerHost (s : State) (p : Nat) (a : HostAns) : State :=
  let x := cxl s p
  if !s.hub.cxlUp.getLsbD p then s
  else if x.retrain then setCxl s p { x with wait := x.wait ++ [a] }
  else setCxl s p { x with out := { a with number := x.out.number + 1 } }
def answerGuest (s : State) (g : Nat) (a : HostAns) : State :=
  let x := gate s g
  if gateState s g ≠ 2 then s else setGate s g { x with out := { a with number := x.out.number + 1 } }
/-- One of the two lines that a guest's request covers is done: with the second the request is answered, by the first code that is not OK (11 R509). -/
def answerHalf (s : State) (g : Nat) (a : HostAns) : State :=
  let x := gate s g
  match tabFind x.halves a.tag with
  | none => setGate s g { x with halves := tabPut x.halves a.tag a }
  | some b =>
    answerGuest (setGate s g { x with halves := tabDel x.halves a.tag }) g
      { a with resp := if b.resp = rOk then a.resp else b.resp, data := if a.resp = rOk && b.resp = rOk then b.data ||| a.data else 0#512
               form := if b.resp = rOk then a.form else b.form }

/-- A request is completed: an open transaction has its response ready; a host or guest is answered. -/
def complete (s : State) (w : Who) (resp : Nat) (data : BitVec 512) : State :=
  match w with
  | .tx k =>
    match tabFind s.vent.txs k with
    | some t => if t.phase = .atTarget then putTx s k { t with phase := .rsp, resp := resp, data := [data] } else s
    | none => s
  | .host p tag => answerHost s p { tag := tag, resp := resp, data := data }
  | .guest g tag => answerGuest s g { tag := tag, resp := resp, data := data }
  | .half g tag => answerHalf s g { tag := tag, resp := resp, data := data }
  | .gone _ | .nobody => s

/-- A write is completed, after the acknowledgement of the mirror record it waits for (01 R53 step 7, 14 R625). -/
def completeWrite (s : State) (w : Who) (resp : Nat) (wait : Option Nat) : State :=
  match wait with
  | some q => setTwin s { s.twin with waits := s.twin.waits ++ [{ seq := q, who := w, resp := resp }] }
  | none => complete s w resp 0#512

/-! ## Flows (11 R470, R475, R483 to R485) -/

/-- Every byte of the line is written. -/
def fullMask (m : BitVec 512) : Bool := m == ~~~0#512

/-- Write what a request presents, over what a snoop returned; the mirror record to wait for, and the response. -/
def flowStore (s : State) (f : Flow) : State × Option Nat × Nat :=
  let r := f.req
  let x := match f.dirty with
    | some d => memFull s r.ref (if fullMask r.mask then r.data else maskMerge d r.data r.mask) r.poison r.up r.hint
    | none => if fullMask r.mask then memFull s r.ref r.data r.poison r.up r.hint else memNarrow s r.ref r.data r.mask r.poison r.up r.hint
  if x.2 = rOk then
    let m := mirrorWrite x.1 r.ref.line (lineNow x.1 r.ref)
    (m.1, m.2, rOk)
  else (x.1, none, x.2)

/-- The data part of a flow and its completion. An eviction whose entry was uncorrectable comes from an agent that counts as present (11 R476). Data that a victim's
owner returns have no place where no window holds the line (log entry 109). -/
def flowData (s : State) (f : Flow) : State :=
  let r := f.req
  match r.kind with
  | .devRead | .rdShared | .rdOwn | .rdCur =>
    match f.dirty with
    | some d => complete (mirrorWrite (memWrite s r.ref d false r.up r.hint) r.ref.line d).1 r.who rOk (d &&& r.want)
    | none =>
      let x := memRead s r.ref r.up r.hint
      complete x.1 r.who (x.2.code.getD (if x.2.poison then rPoison else rOk)) (x.2.data &&& r.want)
  | .devWrite | .hostWrite _ _ | .guestWrite =>
    let x := flowStore s f
    completeWrite x.1 r.who x.2.2 x.2.1
  | .guestEvict d =>
    if d && (f.inv || f.pres &&& ownBit r != 0#6) then
      let x := flowStore s f
      completeWrite x.1 r.who x.2.2 x.2.1
    else complete s r.who rOk 0#512
  | .victim _ =>
    match f.dirty, refOfLine s r.ref.line with
    | some d, some m => (mirrorWrite (memWrite s m d false 0 0) r.ref.line d).1
    | _, _ => s

/-- Set, or drop, the running flow of a line. -/
def setFlow (s : State) (line : Nat) (f : Flow) : State := setHub s { s.hub with flows := tabPut s.hub.flows line f }
def dropFlow (s : State) (line : Nat) : State := setHub s { s.hub with flows := tabDel s.hub.flows line }

/-- A line that lost agent `a` owned has been written as poisoned: event 0x2905; the lines of a quarantined guest are counted with those of its walk (11 R518). -/
def ownerLost (s : State) (a line : Nat) : State :=
  if 4 ≤ a && gateState s (a - 4) = 3 && !(gate s (a - 4)).walked then
    let s1 := poisonLine s line (a + 256)
    setGate s1 (a - 4) { gate s1 (a - 4) with lost := (gate s1 (a - 4)).lost + 1 }
  else poisonLine (logEv s 0x2905 sevErr (a + 256)) line (a + 256)
/-- The entries of agents that cannot answer are lost at once: a line such an agent owned is written as poisoned (11 R497, R513, R516). -/
def loseOwned (s : State) (line : Nat) (owned : Bool) (mask : BitVec 6) : State :=
  match if owned then (List.range 6).find? fun a => (mask &&& ~~~upMask s).getLsbD a else none with
  | some a => ownerLost s a line
  | none => s

/-- Event 0x290D: an uncorrectable entry (11 R476). -/
def sfBadEvent (s : State) (line : Nat) : State :=
  logEv s 0x290D sevErr (sfIndex line % 4 * 65536 + sfIndex line / 8)
/-- The least recently used way of a set whose line is in no flow (11 R475). -/
def sfVictim (s : State) (i : Nat) : Option SfEntry :=
  (sfSet s i).reverse.find? fun e => (tabFind s.hub.flows e.line).isNone

/-- A flow takes a tracker, whose number its snoops carry (11 R468, R479; log entry 110). -/
def takeTrk (s : State) (line : Nat) (f : Flow) : State :=
  setFlow (setHub s { s.hub with trk := s.hub.trk + 1#16 }) line { f with trk := s.hub.trk }
/-- The flow that back-invalidates the victim of a flow on a line runs. -/
def evicting (s : State) (line : Nat) : Bool := s.hub.flows.any fun x => x.2.req.kind == .victim line
/-- A victim is chosen for a flow on `line`: SNP_INV goes to every agent present, in every agent that is up where the entry is uncorrectable (11 R475, R476); true once the
victim's entry is free. -/
def takeVictim (s : State) (line : Nat) (v : SfEntry) : State × Bool :=
  let s0 := if v.bad then sfBadEvent s v.line else s
  let s1 := loseOwned (oBump s0 O_SF_VICTIMS 1 (2 ^ 32 - 1)) v.line (v.owned && !v.bad) v.pres
  let up := if v.bad then upMask s1 else v.pres &&& upMask s1
  if up = 0#6 then (sfPut s1 v.line false 0#6, true)
  else
    (takeTrk s1 v.line
      { req := { kind := .victim line, who := .nobody, ref := (refOfLine s1 v.line).getD { line := v.line, chan := 16, n := 0, cache := false } }
        inv := true, toSend := up, sent := 0#6, owned := v.owned, pres := v.pres }, false)
/-- A flow whose snoops are all answered ends; one that must allocate in a full set first has a victim back-invalidated, one victim at a time (11 R475). -/
def finishFlow (s : State) (f : Flow) : State :=
  let line := f.req.ref.line
  let a := stateAfter f.req f.owned f.pres (f.inv == false && f.owned && f.pres &&& ~~~ownBit f.req != 0#6) f.kept
  let s0 := dropFlow s line
  let i := sfIndex line
  let done (t : State) : State := flowData (sfPut t line a.1 a.2) f
  if a.2 ≠ 0#6 && (sfFind s0 line).isNone && 16 ≤ (sfSet s0 i).length then
    match (if evicting s0 line || 1024 ≤ (s0.hub.flows.filter isVictim).length then none else sfVictim s0 i) with
    | none => setFlow s0 line { f with noWay := true }
    | some v =>
      let x := takeVictim s0 line v
      if x.2 then done x.1 else setFlow x.1 line { f with noWay := true }
  else done s0

/-- A flow begins: the filter is consulted and the snoops are named (11 R476, R483). -/
def beginFlow (s : State) (r : FlowReq) : State :=
  let line := r.ref.line
  let e := sfFind s line
  if e.isSome && (r.bad || (e.map SfEntry.bad).getD false) then
    let s1 := sfPut (sfBadEvent s line) line false 0#6
    let f : Flow := { req := r, inv := true, toSend := upMask s1, sent := 0#6, owned := false, pres := 0#6, trk := s1.hub.trk }
    if upMask s1 = 0#6 then finishFlow s1 f else takeTrk s1 line f
  else
    let owned := (e.map SfEntry.owned).getD false
    let pres := (e.map (·.pres)).getD 0#6
    let p := snoopPlan r owned pres
    let s1 := loseOwned s line owned p.1
    let f : Flow := { req := r, inv := p.2, toSend := p.1 &&& upMask s1, sent := 0#6, owned := owned, pres := pres, trk := s1.hub.trk }
    if f.toSend = 0#6 then finishFlow s1 f else takeTrk s1 line f

/-- A request to a line starts its flow, or waits behind the running one (R470), or for the key of its region (12 R554). -/
def startFlow (s : State) (r : FlowReq) : State :=
  let line := r.ref.line
  let q := tabGet s.hub.waiting line []
  if (tabFind s.hub.flows line).isSome || !q.isEmpty || (ddrHeld s r.ref.chan r.ref.n && (sliceGet s line).isNone) then
    setHub s { s.hub with waiting := tabPut s.hub.waiting line (q ++ [r]) }
  else beginFlow s r

/-- The next request of a line starts, or a flow that waits for a way tries again. -/
def lineResume (s : State) (line : Nat) : State :=
  match tabFind s.hub.flows line with
  | some f => if f.noWay && f.toSend = 0#6 then finishFlow s { f with noWay := false } else s
  | none =>
    match tabGet s.hub.waiting line [] with
    | [] => s
    | r :: q =>
      if ddrHeld s r.ref.chan r.ref.n && (sliceGet s line).isNone then s
      else beginFlow (setHub s { s.hub with waiting := tabSet s.hub.waiting line q [] }) r

/-- `LINE_FLOW_RESUME` (11 R470, R475). -/
def execLineFlowResume (line : BitVec 46) (s : State) : Res := .next (if operating s then lineResume s line.toNat else s)

/-! ## Snoops and their responses (11 R478 to R482) -/

/-- Port ID of an agent: a CXL port, or HUB0 for a guest gate, which has no port of its own (10 R425). -/
def agentPort (a : Nat) : Nat := if a < 4 then cxlPort a else gatePort
/-- Port ID of the slice of a device line. -/
def linePort (line : Nat) : Nat := slicePort (sliceOf (line * 64))
/-- A snoop leaves for an agent: the port or gate carries it out (11 R479, R481). -/
def snoopSend (s : State) (agent line : Nat) (inv : Bool) (pk : Pkt) : State :=
  match tabFind s.hub.flows line with
  | none => s
  | some f =>
    if f.inv != inv || !f.toSend.getLsbD agent then s
    else
      let s1 := setFlow s line { f with toSend := setBit f.toSend agent false, sent := setBit f.sent agent true }
      packet s1 pk 1 (if inv then 0x60 else 0x61) (linePort line) (agentPort agent) (fun _ s => s) fun s =>
        let n : Snoop := { inv := inv, line := line, txn := f.trk }
        if agent < 4 then setCxl s agent { cxl s agent with bi := some n }
        else setGate s (agent - 4) { gate s (agent - 4) with snp := some n }

/-- `SNP_INV` (11 R478). -/
def execSnpInv (agent : Fin 6) (line : BitVec 46) (pk : Pkt) (s : State) : Res := .next (if operating s then snoopSend s agent.val line.toNat true pk else s)
/-- `SNP_DATA` (11 R478). -/
def execSnpData (agent : Fin 6) (line : BitVec 46) (pk : Pkt) (s : State) : Res := .next (if operating s then snoopSend s agent.val line.toNat false pk else s)

/-- A snoop is answered: the flow ends with its last answer. A shared copy is kept only after SNP_DATA. -/
def snoopAnswer (s : State) (agent line : Nat) (shared : Bool) (dirty : Option (BitVec 512)) : State :=
  match tabFind s.hub.flows line with
  | none => s
  | some f =>
    if !(f.sent ||| f.toSend).getLsbD agent then s
    else
      let f1 := { f with
        sent := setBit f.sent agent false, toSend := setBit f.toSend agent false
        kept := if shared && !f.inv then setBit f.kept agent true else f.kept
        dirty := match dirty with | some d => some d | none => f.dirty }
      if f1.sent = 0#6 && f1.toSend = 0#6 then finishFlow s f1 else setFlow s line f1
/-- A response arrives from an agent; one for a snoop that is not open is discarded (11 R482). -/
def snoopResponse (s : State) (agent line : Nat) (txn : BitVec 16) (shared : Bool) (dirty : Option (BitVec 512)) : State :=
  match tabFind s.hub.flows line with
  | some f => if f.sent.getLsbD agent && f.trk == txn then snoopAnswer s agent line shared dirty else s
  | none => s

/-- A snoop response of command `cmd` arrives at the slice of its line (10 R435; 11 R478). -/
def srsp (s : State) (pk : Pkt) (cmd agent line : Nat) (txn : BitVec 16) (shared : Bool) (dirty : Option (BitVec 512)) : State :=
  packet s pk 2 cmd (agentPort agent) (linePort line) (fun _ s => s) fun s => snoopResponse s agent line txn shared dirty
/-- `SRSP_I` (11 R478). -/
def execSrspI (agent : Fin 6) (line : BitVec 46) (txn : BitVec 16) (pk : Pkt) (s : State) : Res := .next (srsp s pk 0x82 agent.val line.toNat txn false none)
/-- `SRSP_S` (11 R478). -/
def execSrspS (agent : Fin 6) (line : BitVec 46) (txn : BitVec 16) (pk : Pkt) (s : State) : Res := .next (srsp s pk 0x83 agent.val line.toNat txn true none)
/-- `SRSP_I_DATA` (11 R478). -/
def execSrspIData (agent : Fin 6) (line : BitVec 46) (txn : BitVec 16) (data : BitVec 512) (pk : Pkt) (s : State) : Res :=
  .next (srsp s pk 0x84 agent.val line.toNat txn false (some data))
/-- `SRSP_S_DATA` (11 R478). -/
def execSrspSData (agent : Fin 6) (line : BitVec 46) (txn : BitVec 16) (data : BitVec 512) (pk : Pkt) (s : State) : Res :=
  .next (srsp s pk 0x85 agent.val line.toNat txn true (some data))
/-- A host's answer to a back-invalidate: its response, and its write-back if it made one, become one snoop response (11 R481). -/
def hostBirsp (s : State) (p line : Nat) (txn : BitVec 16) (shared : Bool) (data : Option (BitVec 512)) : State :=
  let x := cxl s p
  if x.insecure then s
  else snoopResponse (setCxl s p { x with fold := tabDel x.fold line }) p line txn shared (data.orElse fun _ => tabFind x.fold line)
/-- `HOST_BIRSP` (11 R481). -/
def execHostBirsp (port : Fin 4) (line : BitVec 46) (txn : BitVec 16) (shared : Bool) (data : Option (BitVec 512)) (s : State) : Res :=
  .next (hostBirsp s port.val line.toNat txn shared data)

/-- A snoop ends without an answer: SRSP_I, and an owned line is written as poisoned (11 R482). -/
def snoopTimeout (s : State) (agent line : Nat) : State :=
  match tabFind s.hub.flows line with
  | none => s
  | some f =>
    if !f.sent.getLsbD agent then s
    else
      let owns := f.owned && f.pres.getLsbD agent
      let s1 := if agent < 4 then oBump (setCxl s agent { cxl s agent with fold := tabDel (cxl s agent).fold line }) (O_SNOOP_FAILS agent) 1 (2 ^ 32 - 1)
        else setGate s (agent - 4) { gate s (agent - 4) with snoopFails := min ((gate s (agent - 4)).snoopFails + 1) (2 ^ 32 - 1) }
      let s2 := logEv s1 0x2904 sevErr (agent + if owns then 256 else 0)
      let s3 := if owns then poisonLine (logEv s2 0x2905 sevErr (agent + 256)) line (agent + 256) else s2
      snoopAnswer s3 agent line false none
/-- `SNOOP_TIMEOUT` (11 R482). -/
def execSnoopTimeout (agent : Fin 6) (line : BitVec 46) (s : State) : Res := .next (snoopTimeout s agent.val line.toNat)

/-- A request of a lost agent leaves no presence behind when its flow ends (11 R497, R513). -/
def forgetAgent (agent : Nat) (r : FlowReq) : FlowReq := if r.agent = some agent then { r with agent := none } else r
/-- An agent is lost (11 R497, R513): its presence is cleared in every entry, the lines it owned are written as poisoned; the number of those
lines comes second. -/
def dropAgent (s : State) (agent : Nat) : State × Nat :=
  let all := s.hub.sf.flatMap (·.2)
  let owned := (all.filter fun e => e.owned && e.pres.getLsbD agent).map (·.line)
  let s1 := setHub s { s.hub with
    sf := (s.hub.sf.map fun x => (x.1, (x.2.map fun e => { e with pres := setBit e.pres agent false }).filter fun e => e.pres != 0#6)).filter fun x => !x.2.isEmpty
    flows := s.hub.flows.map fun x => (x.1, { x.2 with req := forgetAgent agent x.2.req })
    waiting := s.hub.waiting.map fun x => (x.1, x.2.map (forgetAgent agent)) }
  let open_ := s.hub.flows.map (·.1)
  let s2 := owned.foldl (fun a l => poisonLine a l (agent + min owned.length 0xFFFF * 256)) s1
  (open_.foldl (fun a l => snoopAnswer a agent l false none) s2, owned.length)

/-! ## Host lines (11 R486 to R490) -/

/-- Lines each slice may hold under a quota. -/
def hostShare (quota : Nat) : Nat := quota * 256
/-- The copy of a host line. -/
def hostFind (s : State) (p line : Nat) : Option HostLine := s.hub.hlines.find? fun h => h.port == p && h.line == line
/-- A host line is displaced: sent to its host as CleanEvict or DirtyEvict. -/
def hostDisplace (s : State) (h : HostLine) : State :=
  let s1 := setHub s { s.hub with hlines := s.hub.hlines.filter fun x => !(x.port == h.port && x.line == h.line) }
  setCxl s1 h.port { cxl s1 h.port with evicts := (cxl s1 h.port).evicts ++ [h] }
/-- A slice that holds more than its share loses its least recently used host line. -/
def hostTrimSlice (s : State) (quota slice : Nat) : State :=
  if hostShare quota < hostIn s slice then
    match s.hub.hlines.reverse.find? fun h => hlSlice h == slice with
    | some h => hostDisplace s h
    | none => s
  else s
/-- Slices that hold more than their share lose their least recently used host lines. -/
def hostTrim (s : State) (quota : Nat) (fuel : Nat) : State :=
  match fuel with
  | 0 => s
  | k + 1 =>
    match s.hub.hlines.reverse.find? fun h => hostShare quota < (s.hub.hlines.filter fun x => hlSlice x == hlSlice h).length with
    | some h => hostTrim (hostDisplace s h) quota k
    | none => s
/-- A slice that holds more than it has room for gives up a device line; which one, is a free value (00 R8; log entry 16). -/
def sliceTrim (s : State) (slice : Nat) : State :=
  let own := (s.hub.slices.map (·.1)).filter fun x => sliceOf (x * 64) = slice
  if own.length + hostIn s slice ≤ sliceRoom s then s
  else match own[Config.freeNat s.freeCtr % own.length]? with
    | some v => sliceEvict (freeStep s) v
    | none => s
/-- A host line enters its slice, or replaces its copy, as most recently used. -/
def hostPut (s : State) (h : HostLine) : State :=
  let quota := match s.hub.evicting with | some q => q | none => s.hub.quota
  if hostShare quota = 0 then s
  else
    let r := s.hub.hlines.filter fun x => !(x.port == h.port && x.line == h.line)
    sliceTrim (hostTrimSlice (setHub s { s.hub with hlines := h :: r }) quota (hlSlice h)) (hlSlice h)

/-- A host snoop of a line (11 R489): 0 SnpInv, 1 SnpData, 2 SnpCur. -/
def hostSnoop (s : State) (p line kind : Nat) : State :=
  match hostFind s p line with
  | none => setCxl s p { cxl s p with hsnp := {} }
  | some h =>
    let a : HsnpAns := { hit := true, dirty := h.dirty, kept := kind, data := if h.dirty then h.data else 0#512, poison := h.dirty && h.poison }
    let r := s.hub.hlines.filter fun x => !(x.port == p && x.line == line)
    let s1 := setHub s { s.hub with hlines := match kind with
      | 0 => r
      | 1 => { h with dirty := false, excl := false } :: r
      | _ => s.hub.hlines }
    setCxl s1 p { cxl s1 p with hsnp := a }
/-- Host snoops reach the slices while the link is up. -/
def cxlLive (s : State) (p : Nat) : Bool := operating s && s.hub.cxlUp.getLsbD p
/-- A host snoop of command `cmd` arrives at the slice of its line; the port drops every flit of a stream in the insecure state (11 R498). -/
def hsnp (s : State) (pk : Pkt) (cmd p line kind : Nat) : State :=
  if (cxl s p).insecure then s
  else packet s pk 1 cmd (cxlPort p) (slicePort (hostSlice p (line * 64))) (fun _ s => s) fun s => hostSnoop s p line kind
/-- `HSNP_INV` (11 R489). -/
def execHsnpInv (port : Fin 4) (line : BitVec 46) (pk : Pkt) (s : State) : Res := .next (if cxlLive s port.val then hsnp s pk 0x68 port.val line.toNat 0 else s)
/-- `HSNP_DATA` (11 R489). -/
def execHsnpData (port : Fin 4) (line : BitVec 46) (pk : Pkt) (s : State) : Res := .next (if cxlLive s port.val then hsnp s pk 0x69 port.val line.toNat 1 else s)
/-- `HSNP_CUR` (11 R489). -/
def execHsnpCur (port : Fin 4) (line : BitVec 46) (pk : Pkt) (s : State) : Res := .next (if cxlLive s port.val then hsnp s pk 0x6A port.val line.toNat 2 else s)

/-- HOST_QUOTA_MIB (11 R488): a multiple of 16 up to 256; refused while an earlier write evicts; a smaller value takes effect, and is
answered, when the eviction is done (15 R658). -/
def wrHostQuotaMib (r : Req) (len val : Nat) (s : State) : State :=
  objWriteG r O_HOST_QUOTA_MIB len val { value := val % 16 == 0 && val ≤ 256, state := s.hub.evicting.isNone } noRej
    (fun s => if s.hub.quota ≤ val then oSet (setHub s { s.hub with quota := val }) O_HOST_QUOTA_MIB val
      else unanswered (setHub s { s.hub with evicting := some val })) s
/-- `HOST_QUOTA_MIB` (11 R488). -/
def execHostQuotaMib (r : Req) (v : BitVec 16) (s : State) : Res := .next (wrHostQuotaMib r 2 v.toNat s)
/-- `HOST_QUOTA_EVICTION_DONE` (11 R487, R488). -/
def execHostQuotaEvictionDone (s : State) : Res :=
  .next (match s.hub.evicting with
    | none => s
    | some q =>
      let s1 := hostTrim s q s.hub.hlines.length
      answer (oSet (setHub s1 { s1.hub with quota := q, evicting := none }) O_HOST_QUOTA_MIB q) 0#32)

end Sys2Proof.Machine
end

