-- ==== Sys2Proof/Machine/Vent.lean ====
section
/-! DEFINITION. The Vent network: who injects, the route by the address map and its cached copies, the decision at the target, transactions
from header to completion (10, 01 R29 to R33, R47 to R54). -/
namespace Sys2Proof.Machine

/-! ## Initiators (10 R426, R448, 11 R499, R500) -/

/-- Port ID an initiator injects at. -/
def srcPort (i : Init) : Nat :=
  match i with
  | .ap p => apPort p.val
  | .eng e _ => hubPort (e.val / 96) (e.val % 96 / 8)
  | .cxl p => cxlPort p.val
  | .casc p _ _ => cascPort p.val
  | _ => gatePort
/-- Key of an open transaction: its source, for a cascade port with the source fields that the header carries, and its TXN, unique among those of the source. -/
def txKey (i : Init) (txn : Nat) : Nat :=
  match i with
  | .casc _ _ src => ((src.toNat + 1) * 512 + srcPort i) * 65536 + txn
  | _ => srcPort i * 65536 + txn
/-- The injection point with its own SAM cache and token buckets: an access point or an engine hub. -/
def pointOf (i : Init) : Option Nat :=
  match i with
  | .ap p => some p.val
  | .eng e _ => some (128 + 12 * (e.val / 96) + e.val % 96 / 8)
  | _ => none
/-- Tenant stamped into the header. -/
def tenantOf (s : State) (i : Init) : Nat :=
  match i with
  | .ap p => partOwner s p.val
  | .eng e _ => engOwner s e.val
  | .cxl p => oGet s (O_PORT_TENANT p.val)
  | .gate _ t => t.val
  | .casc _ t _ => t.val
  | .cfg t | .dbg t => (t.map Fin.val).getD 0
  | .mgmt | .crypto | .mirror => 0
/-- A request of a privileged initiator on its own account. -/
def ownAccount (i : Init) : Bool :=
  match i with
  | .mgmt | .crypto | .mirror => true
  | .cfg t | .dbg t => t.isNone
  | _ => false
/-- Initiator code of event 0x2901; none for an initiator that does not pass the gateway. -/
def gwCode (i : Init) : Option Nat :=
  match i with
  | .mgmt => some 1
  | .cfg _ => some 2
  | .crypto => some 3
  | .mirror => some 4
  | .dbg _ => some 5
  | .gate g _ => some (6 + g.val)
  | _ => none

/-- A command reads. -/
def cmdReads (cmd : Nat) : Bool := cmd == 1 || cmd == 2

/-- Does the privileged gateway let pass an access to a target of kind `kind` (01 R31)? `line` is the device line of a DEVMEM target, `cmd` the command, `c` what a
CONTROL address decodes to. The configuration engine writes engine memories and reads its load sources alone. Key storage and the identity and life-cycle
regions have no address that the spec gives, so no address is taken for one (log entry 89). Debug access reaches control space as well (17 R718; log
entry 29). -/
def gwAdmits (s : State) (i : Init) (kind line cmd : Nat) (c : Option Target) : Bool :=
  let lc := s.rst.lc.toNat
  match i with
  | .mgmt => lc ≤ 3 && (kind == kDevmem || kind == kControl)
  | .cfg _ => lc ≤ 3 && (if kind == kControl then (match c with | some (.window _ o) => ((winRegion o).map (· != 3)).getD false | _ => false)
      else (kind == kDevmem || kind == kHostmem) && cmdReads cmd)
  | .crypto => false
  | .mirror => kind == kDevmem && mirrorAdmits s line
  | .dbg t => (kind == kDevmem || kind == kControl) &&
      (lc == 0 || lc == 1 || lc == 3 ||
        (lc == 2 && match s.dbg.token with
          | some k => (match k.tenant, t with | none, _ => true | some a, some b => a == b.val | some _, none => false)
          | none => false))
  | .gate _ _ => lc ≤ 2 && kind == kDevmem
  | _ => true
/-- The gateway refuses a request: event 0x2901 with the tenant for which the initiator acts (01 R32; 00 R16). -/
def gwRefuse (s : State) (i : Init) (code : Nat) : State := gwEvent s (tenantOf s i) code

/-! ## Token buckets (10 R448) -/

/-- Tokens of a tenant's bucket at a point. -/
def tokensAt (s : State) (pt t : Nat) : Nat :=
  min (oGet s (O_TB_BURST t)) (tabGet s.vent.tokens (pt * 16 + t) (tabGet s.vent.tokLevel t 65535))
/-- TB_RATE as it is in force: a new value applies from the next microsecond (10 R464). -/
def rateOf (s : State) (t : Nat) : Nat := tabGet s.vent.rate t 0
/-- Take `n` tokens for a packet of `n` flits; none while the bucket lacks them. -/
def takeTokens (s : State) (i : Init) (n : Nat) : Option State :=
  match pointOf i with
  | none => some s
  | some pt =>
    let t := tenantOf s i
    let s1 := oSet s (O_TENANT_FLITS t) ((oGet s (O_TENANT_FLITS t) + n) % 2 ^ 64)
    if rateOf s t = 0 then some s1
    else if tokensAt s pt t < n then none
    else some (setVent s1 { s1.vent with tokens := tabPut s1.vent.tokens (pt * 16 + t) (tokensAt s pt t - n) })

/-- `TOKEN_BUCKET_REFILL` (10 R448; 11 R511): one microsecond. -/
def tokenRefill (s : State) : State :=
  let lvl (t : Nat) : Nat := min (oGet s (O_TB_BURST t)) (tabGet s.vent.tokLevel t 65535 + rateOf s t)
  let s1 := setVent s { s.vent with
    rate := ((List.range 16).map fun t => (t, oGet s (O_TB_RATE t))).filter fun x => x.2 != 0
    tokLevel := (List.range 16).map fun t => (t, lvl t)
    tokens := (s.vent.tokens.map fun b =>
        (b.1, min (oGet s (O_TB_BURST (b.1 % 16))) (b.2 + rateOf s (b.1 % 16)))).filter fun b => b.2 != lvl (b.1 % 16) }
  (List.range 2).foldl (fun a g =>
    setGate a g { gate a g with tokens := min (oGet a (O_GG_BURST g)) ((gate a g).tokens + oGet a (O_GG_RATE g)) }) s1
/-- TB_BURST: buckets hold no more than it from now on, and no more at once than they held (10 R448, R464). -/
def tbBurst (s : State) (t val : Nat) : State :=
  setVent (oSet s (O_TB_BURST t) val) { s.vent with
    tokLevel := tabPut s.vent.tokLevel t (min val (tabGet s.vent.tokLevel t 65535))
    tokens := s.vent.tokens.map fun b => if b.1 % 16 = t then (b.1, min val b.2) else b }
/-- GG_BURST, in the same way (11 R511). -/
def ggBurst (s : State) (g val : Nat) : State := setGate (oSet s (O_GG_BURST g) val) g { gate s g with tokens := min val (gate s g).tokens }
/-- `TOKEN_BUCKET_REFILL`. -/
def execTokenBucketRefill (s : State) : Res := .next (if operating s then tokenRefill s else s)

/-! ## Routes (10 R453 to R458) -/

/-- Partition a soft endpoint is bound to. -/
def softPart (s : State) (id : Nat) : Option Nat := tabFind s.vent.soft id
/-- Current role epoch of an entry's target (01 R47, 10 R461); `p` is the partition of a soft endpoint. -/
def targetEpoch (s : State) (x p : Nat) : Nat :=
  match samKind x with
  | 6 => engEpoch s (samTarget x)
  | 7 => partEpoch s (samTarget x)
  | 8 => partEpoch s p
  | _ => 0
/-- A route: the entry number, its 16 bytes as the route knows them, the partition of a soft endpoint, the epoch to stamp. -/
structure Route where
  entry : Nat
  raw : Nat
  part : Nat
  epoch : BitVec 8
  deriving DecidableEq, Repr

/-- Fetch the live entry for a tenant (10 R454). -/
def samFetch (s : State) (t a : Nat) : Option Route :=
  match samLookup s a with
  | none => none
  | some e =>
    let x := samRaw s e
    if !(samTmask x).testBit t then none
    else if samKind x = 8 then (softPart s (samTarget x)).map fun p => { entry := e, raw := x, part := p, epoch := BitVec.ofNat 8 (targetEpoch s x p) }
    else some { entry := e, raw := x, part := samTarget x, epoch := BitVec.ofNat 8 (targetEpoch s x 0) }
/-- A cached copy: the partition of a soft endpoint stands above the 16 bytes of the entry. -/
def cacheOf (r : Route) (t : Nat) : CacheEnt := { entry := r.entry, tenant := t, epoch := r.epoch, raw := r.raw + 2 ^ 128 * r.part }
def routeOf (c : CacheEnt) : Route := { entry := c.entry, raw := c.raw % 2 ^ 128, part := c.raw / 2 ^ 128, epoch := c.epoch }
/-- What a lookup gives: the fetch has not returned; it found nothing that may be cached; a route. -/
inductive Looked where | wait | absent | found (r : Route)
  deriving DecidableEq, Repr
/-- Look an address up at a point: its own copy, as the most recently used; on a miss the request waits for a fetch, which begins unless it is in flight (10 R454, R455). -/
def lookupAt (s : State) (pt t a : Nat) : State × Looked :=
  let l := tabGet s.vent.cache pt []
  match l.find? fun c => c.tenant == t && samCovers (c.raw % 2 ^ 128) a with
  | some c => (setVent s { s.vent with cache := tabPut s.vent.cache pt (c :: l.filter (· != c)) }, .found (routeOf c))
  | none =>
    match s.vent.fetch.find? fun f => f.point == pt && f.tenant == t && f.addr == a with
    | some f => if f.absent then (setVent s { s.vent with fetch := s.vent.fetch.erase f }, .absent) else (s, .wait)
    | none => (setVent s { s.vent with fetch := s.vent.fetch ++ [{ point := pt, tenant := t, addr := a }] }, .wait)
/-- A fetch returns: the live entry is cached, least recently used replaced; nothing is cached where none may be, and after an invalidation of the entry the request
fetches again (10 R454, R464). -/
def fetchReturn (s : State) (pt t a : Nat) : State :=
  match s.vent.fetch.find? fun f => f.point == pt && f.tenant == t && f.addr == a && !f.absent with
  | none => s
  | some f =>
    let v := { s.vent with fetch := s.vent.fetch.erase f }
    if f.stale then setVent s v
    else match samFetch s t a with
      | none => setVent s { v with fetch := { f with absent := true } :: v.fetch }
      | some r => setVent s { v with cache := tabPut v.cache pt ((cacheOf r t :: tabGet v.cache pt []).take 16) }
/-- The route of a request that uses no copy: the live entry as it stands (cascade ports, privileged initiators); none for a soft endpoint that is not bound (10 R453). -/
def liveRoute (s : State) (a : Nat) : Option Route :=
  (samLookup s a).bind fun e =>
    let x := samRaw s e
    (if samKind x = 8 then softPart s (samTarget x) else some (samTarget x)).map fun p =>
      { entry := e, raw := x, part := p, epoch := BitVec.ofNat 8 (targetEpoch s x p) }

/-! ## Checks at the target (10 R434, R453, R461) -/

/-- The live entry that covers an address, if the live check's conditions on tenant and permission hold; a request on a privileged initiator's own
account passes without them (11 R500). -/
def liveEntry (s : State) (a t : Nat) (own : Bool) (cmd : Nat) : Option Nat :=
  match samLookup s a with
  | none => none
  | some e =>
    let x := samRaw s e
    if own || ((samTmask x).testBit t && (if cmdReads cmd then samRd x else samWr x)) then some e else none

/-- What a target decides: a response code that is not OK, or acceptance. -/
inductive Verdict where | refuse (code : Nat) | accept (t : Target)
  deriving DecidableEq, Repr

/-- A request at a cache slice (DEVMEM, HOSTMEM, REMOTE) (10 R453, 11 R490, R497, 12 R532, R736, 14 R610, R626). `slice` is where its route took it. -/
def atSlice (s : State) (i : Init) (cmd a hint slice t : Nat) : Verdict :=
  if !enabled s unCache then .refuse rGated
  else match liveEntry s a t (ownAccount i) cmd with
    | none => .refuse rDecerr
    | some e =>
      let x := samRaw s e
      let b := samForm x a
      match samKind x with
      | 1 =>
        if sliceOf b ≠ slice then .refuse rDecerr
        else if cmd = 0x20 || hint = 3 then .refuse rSlverr
        else if twinPassive s && !cmdReads cmd && i != .mirror && (mirrorWindow s (b / 64)).isSome then .refuse rSlverr
        else
          let m := refUnder s x (b / 64)
          match sliceGet s m.line, chanAnswer s m.chan (chanAddr (oGet s (O_ISET_MASK (samIset x))) b) with
          | none, some c => .refuse c
          | _, _ => .accept (.dram b e)
      | 2 =>
        let p := samTarget x % 4
        if hostSlice p b ≠ slice then .refuse rDecerr
        else if cmd = 0x20 then .refuse rSlverr
        else if !enabled s (unCxl p) then .refuse rGated
        else if oGet s (O_PORT_MODE p) = 0 || !s.hub.cxlUp.getLsbD p then .refuse rSlverr
        else if (cxl s p).retrain && !(match hostFind s p (b / 64) with | some h => cmdReads cmd || h.excl | none => false) then .refuse rRetry
        else .accept (.host p b)
      | 3 =>
        if sliceOf a ≠ slice then .refuse rDecerr
        else match cascAnswer s (samDev x) with
          | some c => .refuse c
          | none => .accept (.remote (samDev x) a false)
      | _ => .refuse rDecerr

/-- Control space (10 R457): none where no unit and no engine is decoded. -/
def controlTarget (a : Nat) : Option Target :=
  let o := a - controlBase
  if o < 0x1000000000 then some (.unit o)
  else if o < 0x1300000000 then some (.window ((o - 0x1000000000) / 0x1000000) (o % 0x1000000))
  else none

/-- An engine's hub is gated, or its die dormant (10 R461 step 1). -/
def engGated (s : State) (e : Nat) : Bool := !enabled s (unHub (e / 96)) || dieOf s (e / 96) != .on

/-- A CONTROL request: `live` tells that a SAM entry is needed. Unit registers have no offset that a chapter assigns (10 R457). -/
def atControl (s : State) (i : Init) (cmd a t : Nat) (target : Target) (live : Bool) : Verdict :=
  let ok := !live || (match liveEntry s a t (ownAccount i) cmd with | some e => samKind (samRaw s e) == kControl | none => false)
  match target with
  | .window e _ =>
    if engGated s e then .refuse rGated
    else if engRefuses s e then .refuse rTenantReset
    else if !ok || !(ownAccount i || t == 0 || engOwner s e == t) then .refuse rDecerr
    else if cmd = 0x20 then .refuse (if (engOf s e).state == .off || (engOf s e).state == .notready then rNotready else rSlverr)
    else .accept target
  | _ => .refuse rDecerr

/-- An ENGINE request at the engine's hub. -/
def atInbox (s : State) (i : Init) (cmd a t e : Nat) (epoch : BitVec 8) : Verdict :=
  if engGated s e then .refuse rGated
  else if engRefuses s e then .refuse rTenantReset
  else if epoch.toNat ≠ engEpoch s e then .refuse rEpoch
  else match liveEntry s a t (ownAccount i) cmd with
    | none => .refuse rDecerr
    | some k =>
      let x := samRaw s k
      let st := (engOf s e).state
      if samKind x ≠ kEngine || samTarget x ≠ e then .refuse rDecerr
      else if st == .off || st == .notready then .refuse rNotready
      else if cmd ≠ 0x10 then .refuse rSlverr
      else .accept (.inbox e ((a - samBase x) / 64))

/-- A PARTITION or ENDPOINT request at the access point of partition `p`. -/
def atPart (s : State) (i : Init) (cmd a t p : Nat) (soft : Option Nat) (epoch : BitVec 8) : Verdict :=
  if dieOf s (p / 16) != .on then .refuse rGated
  else if partRefuses s p then .refuse rTenantReset
  else if epoch.toNat ≠ partEpoch s p then .refuse rEpoch
  else match liveEntry s a t (ownAccount i) cmd with
    | none => .refuse rDecerr
    | some k =>
      let x := samRaw s k
      let names := match soft with
        | none => samKind x == kPartition && samTarget x == p
        | some id => samKind x == kEndpoint && samTarget x == id && softPart s id == some p
      if !names then .refuse rDecerr
      else if !partRuns s p then .refuse rNotready
      else .accept (match soft with | none => .part p | some id => .soft id p)

/-- The decision on a request with its route. -/
def judge (s : State) (i : Init) (cmd a hint : Nat) (r : Route) : Verdict :=
  let t := tenantOf s i
  let x := r.raw
  match samKind x with
  | 1 => atSlice s i cmd a hint (sliceOf (samForm x a)) t
  | 2 => atSlice s i cmd a hint (hostSlice (samTarget x % 4) (samForm x a)) t
  | 3 => atSlice s i cmd a hint (sliceOf a) t
  | 4 => match controlTarget a with | some c => atControl s i cmd a t c (!ownAccount i) | none => .refuse rDecerr
  | 5 =>
    match cascAnswer s (samDev x) with
    | some c => .refuse c
    | none => .accept (.remote (samDev x) (controlBase + samOffset x + (a - samBase x)) true)
  | 6 => atInbox s i cmd a t (samTarget x) r.epoch
  | 7 => atPart s i cmd a t (samTarget x) none r.epoch
  | 8 => atPart s i cmd a t r.part (some (samTarget x)) r.epoch
  | _ => .refuse rDecerr

/-! ## Inbound requests of partition logic (10 R462, R463) -/

/-- Inbound requests that the logic has not answered, and accepted writes and messages whose data have not arrived. -/
def inOpen (s : State) (p : Nat) : Nat := (s.vent.inb.filter fun b => b.1 / 256 == p).length
def inReserved (s : State) (p : Nat) : Nat :=
  (s.vent.txs.filter fun x => (x.2.phase == .pull || x.2.phase == .data) && !cmdReads x.2.cmd
    && match x.2.target with | .part q | .soft _ q => q == p | _ => false).length
/-- The access point of a routed request accepts no further header: 256 inbound requests are open, those included for which it has reserved room (10 R442, R463). -/
def inFull (s : State) (r : Route) : Bool :=
  match samKind r.raw with
  | 7 => 256 ≤ inOpen s (samTarget r.raw) + inReserved s (samTarget r.raw)
  | 8 => 256 ≤ inOpen s r.part + inReserved s r.part
  | _ => false
/-- A free IN_ID. -/
def freeIn (s : State) (p : Nat) : Option Nat := (List.range 256).find? fun k => (tabFind s.vent.inb (p * 256 + k)).isNone
/-- Local ID of an initiator's endpoint, and its global ID (10 R426). -/
def localId (i : Init) : Nat := match i with | .eng e _ => 0x200 + e.val | .casc _ _ src => src.toNat % 16384 | _ => srcPort i
def globalId (s : State) (i : Init) : Nat :=
  16384 * (match i with | .casc _ _ src => src.toNat / 2 ^ 23 | _ => if strapMode s = 1 then strapCascId s else 0) + localId i
/-- The inbound form of a transaction. -/
def inboundOf (s : State) (k : Nat) (t : Tx) (sub : Nat) : Inbound :=
  { tx := some k, cmd := t.cmd, sub := sub, src := globalId s t.init, tenant := t.tenant, addr := t.addr, be := t.be, aux := t.aux, data := t.data, poison := t.poison }
/-- A request is delivered to the logic of partition `p` and waits for its answer. -/
def deliverIn (s : State) (k : Nat) (t : Tx) (p sub : Nat) : State :=
  match freeIn s p with
  | none => s
  | some id => setVent s { s.vent with inb := tabPut s.vent.inb (p * 256 + id) (inboundOf s k t sub) }
/-- A message is delivered, and answered OK by the access point. -/
def deliverMsg (s : State) (k : Nat) (t : Tx) (p sub : Nat) : State :=
  putTx (setVent s { s.vent with msgs := tabPut s.vent.msgs p (inboundOf s k t sub) }) k { t with phase := .rsp, resp := rOk }

/-! ## Packets over a cascade link (10 R430, R444, 14 R599, R603) -/

/-- Port ID of the unit that takes a routed request. -/
def takerPort (r : Route) (a : Nat) : Nat :=
  match samKind r.raw with
  | 1 => slicePort (sliceOf (samForm r.raw a))
  | 2 => slicePort (hostSlice (samTarget r.raw % 4) (samForm r.raw a))
  | 3 => slicePort (sliceOf a)
  | 6 => engPort (samTarget r.raw)
  | 7 => apPort (samTarget r.raw)
  | 8 => apPort r.part
  | _ => match controlTarget a with | some (.window e _) => engPort e | _ => gatePort
/-- Local ID of the endpoint that an accepted transaction addresses: an engine, a soft endpoint, or its port. -/
def endpointId (t : Tx) : Nat :=
  match t.target with
  | .window e _ | .inbox e _ => 0x200 + e
  | .soft id _ => id
  | _ => t.at_
/-- The header flit of a packet of transaction `t` that enters a link on dateline channel 0, from port `src` and local ID `sub` to the destination fields `dst`. -/
def linkHead (s : State) (t : Tx) (src sub cmd vn len resp addr : Nat) (dst : BitVec 27) : BitVec 514 :=
  let request := vn == 0
  let body : BitVec 502 := 0#182 ++ (if request then t.aux else 0#64) ++ (if request then t.be else 0#64) ++ 0#34 ++ BitVec.ofNat 4 resp
    ++ BitVec.ofNat 2 t.hint ++ t.qos ++ BitVec.ofNat 16 t.txn ++ BitVec.ofNat 52 addr ++ BitVec.ofNat 5 len ++ BitVec.ofNat 8 cmd
    ++ BitVec.ofNat 3 vn ++ t.epoch ++ BitVec.ofNat 4 t.tenant
    ++ BitVec.ofNat 4 (strapCascId s) ++ BitVec.ofNat 4 (src / 2 % 16) ++ BitVec.ofNat 4 (src / 32) ++ BitVec.ofNat 1 (src % 2) ++ BitVec.ofNat 14 sub
    ++ dst
  headSlot (Config.headCheck body ++ body)
/-- Destination fields toward device `dev`, which finds the place in itself by its own map: router, port and local ID are free values (log entry 102). -/
def toDevice (s : State) (dev : Nat) : BitVec 27 := BitVec.ofNat 4 dev ++ Config.free 23 s.freeCtr
/-- A packet leaves for device `dev` by the port that the torus route selects (10 R444, 14 R607). -/
def sendTo (s : State) (dev vn : Nat) (flits : List (BitVec 514)) (poison : Bool) : State :=
  match cascNext s dev with
  | some q => pushPkt s q (some (2 * vn)) flits poison
  | none => s
/-- A request leaves for device `dev`. -/
def sendRequest (s : State) (t : Tx) (dev addr : Nat) : State :=
  sendTo s dev 0 [linkHead s t (srcPort t.init) (localId t.init) t.cmd 0 t.len 0 addr (toDevice s dev)] false
/-- The data of a write leave for the device that asked for them. -/
def sendData (s : State) (t : Tx) (dev addr : Nat) (data : List (BitVec 512)) : State :=
  sendTo s dev 3 (linkHead s t (srcPort t.init) (localId t.init) 0x90 3 data.length 0 addr (toDevice s dev) :: data.map dataSlot) t.poison
/-- A completion, PULL or DATA packet leaves for the endpoint of another device that issued the request: its source fields are the destination. -/
def sendBack (s : State) (t : Tx) (cmd vn resp : Nat) (data : List (BitVec 512)) : State :=
  match t.init with
  | .casc _ _ src => sendTo s (src.toNat / 2 ^ 23) vn (linkHead s t t.at_ (endpointId t) cmd vn data.length resp 0 src :: data.map dataSlot) t.poison
  | _ => s
/-- A request that came over a link leaves its buffer. -/
def fromLink (s : State) (i : Init) (vn : Nat) (pk : Pkt) (n : Nat) : State :=
  match i with | .casc q _ _ => linkGot s q.val vn pk.dvc n | _ => s
/-- An answer of device `dev` leaves the buffer of the port over which its packets arrive. -/
def fromRemote (s : State) (target : Target) (vn : Nat) (pk : Pkt) (n : Nat) : State :=
  match target with
  | .remote dev _ _ => (match cascFrom s dev with | some q => linkGot s q vn pk.dvc n | none => s)
  | _ => s
/-- A packet of a transaction is not taken: its timeout alone ends it (10 R431, R435). One that came from another device on VN0 is answered SLVERR. -/
def loseTx (k : Nat) (t : Tx) (vn0 : Bool) (s : State) : State :=
  let s1 := putTx s k { t with lost := true }
  if vn0 then
    match t.target with
    | .remote dev _ _ => sendTo s1 dev 2 [linkHead s1 t (srcPort t.init) (localId t.init) 0x80 2 0 rSlverr 0 (toDevice s1 dev)] false
    | _ => sendBack s1 t 0x80 2 rSlverr []
  else s1

/-! ## The order of packets (10 R440) -/

/-- The VN on which a packet of the transaction is in flight, and whether it goes to the initiator. -/
def inFlight (t : Tx) : Option (Nat × Bool) :=
  match t.phase with
  | .atTarget => none
  | .pull | .rsp => some (2, true)
  | .data => some (3, cmdReads t.cmd)
/-- The target lies in another device, whose unit's place no operand gives. -/
def farTarget (t : Tx) : Bool := match t.target with | .remote _ _ _ => true | _ => false
/-- No packet sent earlier from the same source to the same destination on the same VN is in flight. -/
def inOrder (s : State) (k : Nat) (t : Tx) : Bool :=
  !t.tracked || farTarget t || s.vent.txs.all fun x =>
    !(x.2.at_ == t.at_ && x.1 / 65536 == k / 65536 && inFlight x.2 == inFlight t && x.2.tracked && !x.2.lost && !farTarget x.2) || t.sent ≤ x.2.sent

/-! ## A request reaches its target -/

/-- Bytes of a line that a read returns or a write covers. -/
def beMask (cmd : Nat) (be : BitVec 64) : BitVec 512 := if cmd = 2 || cmd = 0x11 then BitVec.ofNat 512 (byteMask 64 be.toNat) else ~~~0#512
/-- The transaction is answered. -/
def txAnswer (s : State) (k : Nat) (t : Tx) (resp : Nat) (data : List (BitVec 512)) : State :=
  putTx s k { t with phase := .rsp, resp := resp, data := data }
/-- The flow of a device-memory request. -/
def dramReq (s : State) (k : Nat) (t : Tx) (dpa entry : Nat) (data : BitVec 512) (poison : Bool) (up : Nat) : FlowReq :=
  { kind := if cmdReads t.cmd then .devRead else .devWrite, who := .tx k, ref := refUnder s (samRaw s entry) (dpa / 64)
    data := data, mask := beMask t.cmd t.be, poison := poison, up := up, hint := t.hint, want := beMask t.cmd t.be }
/-- May host lines of the entry be held in the slices: CACHE set, port of Type 1 or Type 2 (11 R486, R490)? -/
def hostCached (s : State) (p a : Nat) : Bool :=
  let m := oGet s (O_PORT_MODE p)
  (m == 1 || m == 2) && match samLookup s a with | some e => samCache (samRaw s e) | none => false

/-- A read at its target: served at once, or waiting there. -/
def readAt (s : State) (k : Nat) (t : Tx) (up : Nat) : State :=
  match t.target with
  | .dram dpa e => startFlow (putTx s k t) (dramReq s k t dpa e 0#512 false up)
  | .host p hpa =>
    match hostFind s p (hpa / 64) with
    | some h => txAnswer (hostPut s h) k t (if h.poison then rPoison else rOk) [h.data &&& beMask t.cmd t.be]
    | none => putTx s k t
  | .window e o =>
    let r := winRead s e (o / 64 * 64) (if t.cmd = 2 then t.be.toNat else 2 ^ 64 - 1)
    txAnswer r.1 k t r.2.1 [r.2.2]
  | .part p => deliverIn (putTx s k t) k t p (apPort p)
  | .soft id p => deliverIn (putTx s k t) k t p id
  | .remote dev a _ => sendRequest (putTx s k t) t dev a
  | _ => putTx s k t

/-- A write of a host line at its slice: a line held exclusive takes it, and the write completes there with nothing sent to the host (log entry 108); any other must
cross the port, whose link may have begun to retrain since the header was accepted (11 R497). -/
def hostWriteAt (s : State) (k : Nat) (t : Tx) (p hpa : Nat) (d : BitVec 512) : State :=
  let m := beMask t.cmd t.be
  let cross (u : Unit) : State := match u with | () => if (cxl s p).retrain then txAnswer s k t rRetry [] else putTx s k t
  match hostFind s p (hpa / 64) with
  | some h =>
    if h.excl then
      txAnswer (hostPut s { h with data := maskMerge h.data d m, dirty := true, poison := t.poison || (h.poison && !fullMask m) }) k t rOk []
    else cross ()
  | none => cross ()
/-- The data of a write reach their target. An engine's memory holds no mark for a poisoned flit (log entry 108). -/
def writeAt (s : State) (k : Nat) (t : Tx) (data : List (BitVec 512)) (poison : Bool) (up : Nat) : State :=
  let d := data.headD 0#512
  let t1 := { t with phase := .atTarget, data := data, poison := poison }
  match t.target with
  | .dram dpa e => startFlow (putTx s k t1) (dramReq s k t dpa e d poison up)
  | .host p hpa => hostWriteAt s k t1 p hpa d
  | .window e o =>
    let r := winWrite s e (o / 64 * 64) (if t.cmd = 0x11 then t.be.toNat else 2 ^ 64 - 1) d
    txAnswer r.1 k t1 r.2 []
  | .inbox e line =>
    let r := inboxWrite s e line d
    txAnswer r.1 k t1 r.2 []
  | .part p =>
    if !partRuns s p then txAnswer s k t1 rNotready []
    else if t.cmd = 0x20 then deliverMsg s k t1 p (apPort p) else deliverIn (putTx s k t1) k t1 p (apPort p)
  | .soft id p =>
    if !partRuns s p then txAnswer s k t1 rNotready []
    else if t.cmd = 0x20 then deliverMsg s k t1 p id else deliverIn (putTx s k t1) k t1 p id
  | .remote dev a _ => sendData (putTx s k t1) t1 dev a data
  | _ => putTx s k t1

/-- The gated unit that answers a request to address `a` (03 R129): the cache, a DDR5 controller, a CXL port, an engine hub; none where a dormant die is why. -/
def gatedUnit (s : State) (a : Nat) (r : Route) : Option Nat :=
  let off (u : Nat) : Option Nat := if enabled s u then none else some u
  match samKind r.raw with
  | 1 => (off unCache).orElse fun _ =>
    (samLookup s a).bind fun e => let x := samRaw s e; off (unDdr (chanOf (oGet s (O_ISET_MASK (samIset x))) (samForm x a)))
  | 2 => (off unCache).orElse fun _ => off (unCxl (samTarget r.raw % 4))
  | 3 => off unCache
  | 6 => off (unHub (samTarget r.raw / 96))
  | _ => match controlTarget a with | some (.window e _) => if controlBase ≤ a then off (unHub (e / 96)) else none | _ => none
/-- Notes of a refusal at a target: the unit's own report, and the first GATED answer of a unit. -/
def refusalNote (s : State) (a : Nat) (code : Nat) (r : Route) : State :=
  if code = rGated then (match gatedUnit s a r with | some u => answerGated s u | none => s)
  else if code = rNotready && samKind r.raw = kEngine then engNotReady s (samTarget r.raw)
  else if code = rNotready && controlBase ≤ a then
    match controlTarget a with | some (.window e _) => engNotReady s e | _ => s
  else if code = rDecerr && samKind r.raw = kDevmem then
    match samLookup s a with
    | some e =>
      let x := samRaw s e
      if samKind x = kDevmem then
        let mask := oGet s (O_ISET_MASK (samIset x))
        noteBeyond s (chanOf mask (samForm x a)) (chanAddr mask (samForm x a))
      else s
    | none => s
  else s

/-! ## Injection -/

/-- A header as it is to be injected. -/
structure Hdr where
  init : Init
  txn : Nat
  cmd : Nat
  addr : Nat
  be : BitVec 64
  len : Nat
  aux : BitVec 64
  tag : Nat
  hint : Nat
  wbase : Nat
  qos : BitVec 2 := 0#2
  deriving DecidableEq, Repr

/-- The transaction of a header, which port `at_` decides. -/
def txOf (s : State) (h : Hdr) (at_ : Nat) (target : Target) (entry : Option Nat) (epoch : BitVec 8) : Tx :=
  { init := h.init, txn := h.txn, cmd := h.cmd, tenant := tenantOf s h.init, addr := h.addr, be := h.be, len := h.len, aux := h.aux
    tag := h.tag, hint := h.hint, target := target, entry := entry, epoch := epoch, wbase := h.wbase, qos := h.qos, at_ := at_ }

/-! ### Trackers (10 R438, 11 R468, 14 R609) -/

/-- Trackers that count against an initiator's limit, those of guests with the gateway's; how many it may hold. -/
def trackersHeld (s : State) (i : Init) : Nat :=
  match i with
  | .cxl p => flowsOf s (isHost p.val)
  | .ap _ | .eng _ _ | .casc _ _ _ => trackersOf s (srcPort i)
  | _ => trackersOf s gatePort + flowsOf s fun w => match w with | .guest _ _ | .half _ _ | .gone _ => true | _ => false
def trackerLimit (i : Init) : Nat := match i with | .cxl _ => 8192 | .casc _ _ _ => 4096 | _ => 256
/-- A port that waits for a tracker still has a request to send, as far as the state tells. -/
def trkWants (s : State) (port : Nat) : Bool :=
  match partOfPort port with
  | some p => !(tabGet s.vent.apq p []).isEmpty
  | none => !((List.range 96).any fun h => hubPort (h / 12) (h % 12) == port)
      || (List.range 768).any fun e => engPort e == port && (List.range 4).any fun c => (dmaOf s e c).busy
/-- It is a port's turn: no other waits before it. -/
def trkTurn (s : State) (port : Nat) : Bool := match s.vent.trkWait.find? (trkWants s) with | none => true | some p => p == port
/-- A tracker is granted and the request goes on; an initiator at its limit waits, and one that finds no tracker waits for its turn: 64,512 are granted, the hub's own
1,024 apart. -/
def grant (s : State) (i : Init) (go : State → State) : State :=
  let port := srcPort i
  if trackerLimit i ≤ trackersHeld s i then s
  else if trackersGranted s < 64512 && trkTurn s port then go (setVent s { s.vent with trkWait := s.vent.trkWait.filter (· != port) })
  else setVent s { s.vent with trkWait := if s.vent.trkWait.contains port then s.vent.trkWait else s.vent.trkWait ++ [port] }

/-- The request is answered without injection, and holds no tracker. -/
def noInject (s : State) (h : Hdr) (code : Nat) : State :=
  txAnswer s (txKey h.init h.txn) { txOf s h (srcPort h.init) .nowhere none 0#8 with tracked := false } code [0#512]
/-- The injected request is answered by the port it reaches. -/
def refused (s : State) (h : Hdr) (at_ code : Nat) : State := txAnswer s (txKey h.init h.txn) (txOf s h at_ .nowhere none 0#8) code [0#512]

/-- The refusal of a write that an engine's unit knows from the header: it then sends no PULL (10 R437; 08 R336, R359, R378, R382; 01 R20). -/
def denyWrite (s : State) (target : Target) (be : Nat) : State × Option Nat :=
  match target with
  | .window e o =>
    let g := engOf s e
    let shut := g.state == .off || g.state == .notready
    match winRegion o with
    | none => (s, some rDecerr)
    | some 3 =>
      if shut then
        if o / 64 * 64 = 0x300000 ∧ (be = 0xF * 2 ^ 16 ∨ be = 0xFF * 2 ^ 16) then (s, none) else (engNotReady s e, some rNotready)
      else if !regSizeOk be || ((engIssues g || g.state == .waiting) && imageTouched (o / 64 * 64 % 0x1000) be) then (s, some rSlverr)
      else (s, none)
    | some m => if g.state == .off then (s, some rNotready) else if m = 0 ∧ 0xF800 ≤ o % 0x100000 then (s, some rSlverr) else (s, none)
  | .inbox e line => (s, if fld (engOf s e).inbox 16 16 ≤ line then some rDecerr else none)
  | _ => (s, none)

/-- A routed header arrives: refused, or accepted: a read is served, a write's data are asked for. -/
def arrive (s : State) (h : Hdr) (r : Route) (v : Verdict) (up : Nat) : State :=
  let k := txKey h.init h.txn
  let at_ := takerPort r h.addr
  match v with
  | .refuse c =>
    let s1 := refusalNote s h.addr c r
    let now := if samKind r.raw = 6 then engEpoch s (samTarget r.raw) else partEpoch s (if samKind r.raw = 8 then r.part else samTarget r.raw)
    txAnswer s1 k { txOf s h at_ .nowhere (some r.entry) (BitVec.ofNat 8 now) with epoch := if c = rEpoch then BitVec.ofNat 8 now else r.epoch } c [0#512]
  | .accept target =>
    let t := txOf s h at_ target (some r.entry) r.epoch
    if cmdReads h.cmd then readAt s k t up
    else
      let d := denyWrite s target (if h.cmd = 0x11 then h.be.toNat else 2 ^ 64 - 1)
      match d.2 with
      | some c => txAnswer d.1 k t c []
      | none =>
        let s1 := putTx s k { t with phase := .pull }
        match target with | .remote dev a _ => sendRequest s1 t dev a | _ => s1

/-- The request stays open until its timeout: its header was lost, or its packet discarded unanswered (10 R431, R435). -/
def headerLost (s : State) (h : Hdr) (at_ : Nat) : State := putTx s (txKey h.init h.txn) { txOf s h at_ .nowhere none 0#8 with lost := true }

/-- The header travels to its target (10 R428, R431, R435); an access point or engine hub injects no odd one. -/
def travel (s : State) (h : Hdr) (r : Route) (p : Pkt) (up : Nat) : State :=
  let at_ := takerPort r h.addr
  if p.herr = 2 then headerLost (headerBad s p 0 (srcPort h.init) at_) h at_
  else
    let s1 := headerOk s p
    match pointOf h.init, p.odd with
    | none, .reserved c v =>
      let s2 := packetOdd s1 c.toNat v.toNat at_
      if v = 0#3 then refused s2 h at_ rSlverr else headerLost s2 h at_
    | none, .misaddressed q => refused s1 h q.val rDecerr
    | _, _ => arrive s1 h r (judge s h.init h.cmd h.addr h.hint r) up

/-- A transaction concerns the line of a header: by its address, or by the device or host line that its route gives. -/
def sameLine (t : Tx) (h : Hdr) (r : Option Route) : Bool :=
  t.addr / 64 == h.addr / 64 || match t.target, r with
    | .dram dpa _, some r => samKind r.raw == kDevmem && dpa / 64 == samForm r.raw h.addr / 64
    | .host p hpa, some r => samKind r.raw == kHostmem && p == samTarget r.raw % 4 && hpa / 64 == samForm r.raw h.addr / 64
    | _, _ => false
/-- A message concerns the endpoint of a route. -/
def sameEnd (t : Tx) (r : Route) : Bool :=
  match t.target, samKind r.raw with
  | .part p, 7 => p == samTarget r.raw
  | .soft id _, 8 => id == samTarget r.raw
  | .remote d _ _, 3 | .remote d _ _, 5 => d == samDev r.raw
  | _, _ => false
/-- A request waits at its source, to be refused there too, while an earlier one of the same access point or engine hub to the same line is open, a message while an earlier
one of its initiator to the same endpoint is open: so they complete, and are delivered, in issue order (01 R54; 10 R440; log entry 90). -/
def behind (s : State) (h : Hdr) (r : Option Route) : Bool :=
  s.vent.txs.any fun x => !x.2.gone &&
    (((pointOf h.init).isSome && x.1 / 65536 == srcPort h.init && sameLine x.2 h r)
      || (h.cmd == 0x20 && x.2.cmd == 0x20 && x.2.init == h.init && (r.map (sameEnd x.2)).getD false))
/-- An answer without injection, in the order of the line. -/
def answerHere (s s1 : State) (h : Hdr) (r : Option Route) (code : Nat) : State := if behind s h r then s else noInject s1 h code

/-- A request of an access point or an engine hub (10 R435, R448, R454, R457, R458, R532). -/
def injectPoint (s : State) (pt : Nat) (h : Hdr) (p : Pkt) (up : Nat) : State :=
  if h.hint = 3 then answerHere s s h none rSlverr
  else
    let l := lookupAt s pt (tenantOf s h.init) h.addr
    match l.2 with
    | .wait => l.1
    | .absent => answerHere s l.1 h none rDecerr
    | .found r =>
      if samKind r.raw = kControl && (controlTarget h.addr).isNone then answerHere s l.1 h (some r) rDecerr
      else
        match if samKind r.raw = kRemoteControl then cascAnswer s (samDev r.raw) else none with
        | some c => answerHere s l.1 h (some r) c
        | none =>
          if behind s h (some r) || inFull s r then s
          else grant l.1 h.init fun a => match takeTokens a h.init 1 with | none => s | some b => travel b h r p up

/-- The route of a request to control space that needs no SAM entry (11 R500). -/
def controlRoute : Route := { entry := 0, raw := kControl * 65536, part := 0, epoch := 0#8 }
/-- A request through the privileged gateway (01 R29 to R33, 11 R500). -/
def injectGate (s : State) (code : Nat) (h : Hdr) (p : Pkt) (up : Nat) : State :=
  if controlBase ≤ h.addr then
    if !gwAdmits s h.init kControl 0 h.cmd (controlTarget h.addr) then noInject (gwRefuse s h.init code) h rFenced
    else match controlTarget h.addr with
      | none => noInject s h rDecerr
      | some _ => grant s h.init fun a => travel a h controlRoute p up
  else match liveRoute s h.addr with
    | none => noInject s h rDecerr
    | some r =>
      if !gwAdmits s h.init (samKind r.raw) (samForm r.raw h.addr / 64) h.cmd none then noInject (gwRefuse s h.init code) h rFenced
      else if behind s h (some r) || inFull s r then s else grant s h.init fun a => travel a h r p up

/-- Inject a request. An initiator whose tracker limit is reached, whose tokens are short, or whose transaction ID is in use waits. A request from another device leaves
its link's buffer once it has a tracker (14 R609). -/
def inject (s : State) (h : Hdr) (p : Pkt) (up : Nat) : State :=
  if (tabFind s.vent.txs (txKey h.init h.txn)).isSome then s
  else match pointOf h.init, gwCode h.init with
    | some pt, _ => injectPoint s pt h p up
    | none, some c => injectGate s c h p up
    | none, none =>
      match liveRoute s h.addr with
      | none => grant s h.init fun a => refused (fromLink a h.init 0 p 1) h (srcPort h.init) rDecerr
      | some r => if behind s h (some r) || inFull s r then s else grant s h.init fun a => travel (fromLink a h.init 0 p 1) h r p up

/-! ## Access points and DMA channels as sources (10 R462, 08 R380, R381) -/

/-- LEN of a request: what its command allows (10 R429, R433). -/
def rowLen (cmd len : Nat) : Nat := if cmdReads cmd then 0 else if cmd = 0x20 then min 16 (max 1 len) else 1
/-- The header of a row for an initiator that presents it itself. -/
def rowHdr (h : VHdr) (cmd : Nat) : Hdr :=
  { init := h.init, txn := h.txn.toNat, cmd := cmd, addr := h.addr.toNat, be := h.be, len := rowLen cmd h.len.val, aux := h.aux, tag := 0, hint := h.hint.toNat, wbase := 0
    qos := h.qos }

/-- Address of line `k` of a channel's transfer. -/
def dmaAddr (d : Dma) (k : Nat) : Nat :=
  (d.sys.toNat + k / dmaLines d * d.stride.toNat + k % dmaLines d * 64) % 2 ^ 52
/-- The channel has a line to issue with command `cmd`. -/
def dmaReady (s : State) (e c cmd : Nat) : Bool :=
  let d := dmaOf s e c
  engClocked s e && d.busy && !d.abort && d.resp == 0#4 && decide (d.issued < dmaTotal d) && decide (d.flight.length < 16)
    && cmd == (if d.ctrl.getLsbD 0 then 0x10 else 1)

/-- An access point gives its logic a completion (10 R462). -/
def apGive (s : State) (p tag resp : Nat) (data : BitVec 512) : State :=
  setVent s { s.vent with apOut := tabPut s.vent.apOut p { tag := tag, resp := resp, data := data, count := (tabGet s.vent.apOut p {}).count + 1 } }
/-- An access point answers the oldest requests that it refuses itself, each after the open ones to its line (01 R54; 10 R435). -/
def apDrain (s : State) (p : Nat) : Nat → State
  | 0 => s
  | n + 1 =>
    match tabGet s.vent.apq p [] with
    | [] => s
    | q :: rest =>
      match q.code with
      | none => s
      | some c =>
        if s.vent.txs.any fun x => !x.2.gone && x.1 / 65536 == apPort p && x.2.addr / 64 == q.addr / 64 then s
        else apDrain (apGive (setVent s { s.vent with apq := tabSet s.vent.apq p rest [] }) p q.tag c 0#512) p n
/-- All that can be answered so. -/
def apFlush (s : State) (p : Nat) : State := apDrain s p (tabGet s.vent.apq p []).length

/-- A request row with command `cmd`: an access point injects the oldest request its logic has presented, if it is of that command; a channel issues
its next line; another initiator presents the header of the row. Hosts and guests have rows of their own. A die that enters, holds or leaves DIE-DORMANT answers its
own requests GATED too (04 R173). -/
def ventRow (s : State) (h : VHdr) (cmd up : Nat) : State :=
  let key := txKey h.init h.txn.toNat
  let go (x : Hdr) (d : Option Nat) (refuses : Bool) : State :=
    if (tabFind s.vent.txs key).isSome then s
    else if refuses then answerHere s s x none rTenantReset
    else if entering s || (match d with | some d => dieOf s d != .on | none => false) then answerHere s s x none rGated
    else inject s x h.pk up
  match h.init with
  | .ap p =>
    match tabGet s.vent.apq p.val [] with
    | [] => s
    | q :: rest =>
      if q.cmd ≠ cmd || q.code.isSome || !partRuns s p.val then s
      else
        let x : Hdr := { init := h.init, txn := h.txn.toNat, cmd := cmd, addr := q.addr, be := q.be, len := q.len, aux := q.aux, tag := q.tag, hint := q.hint, wbase := q.wbase
                         qos := q.qos }
        let s1 := go x (some (p.val / 16)) (partRefuses s p.val)
        if (tabFind s1.vent.txs key).isSome && (tabFind s.vent.txs key).isNone then
          apFlush (setVent s1 { s1.vent with apq := tabSet s1.vent.apq p.val rest [] }) p.val
        else s1
  | .eng e c =>
    if !dmaReady s e.val c.val cmd then s
    else
      let d := dmaOf s e.val c.val
      let x : Hdr := { init := h.init, txn := h.txn.toNat, cmd := cmd, addr := dmaAddr d d.issued, be := ~~~0#64, len := if cmd = 1 then 0 else 1, aux := 0#64,
                       tag := d.issued, hint := fld d.ctrl 6 2, wbase := 0, qos := BitVec.ofNat 2 (fld d.ctrl 8 2) }
      let s1 := go x (some (e.val / 96)) (engRefuses s e.val)
      if (tabFind s1.vent.txs key).isSome && (tabFind s.vent.txs key).isNone then
        setDma s1 e.val c.val { dmaOf s1 e.val c.val with issued := d.issued + 1, flight := (dmaOf s1 e.val c.val).flight ++ [d.issued] } else s1
  | .cxl _ | .gate _ _ => s
  | _ => go (rowHdr h cmd) none false

/-- `RD` (10 R433): `up` are the upsets that a DRAM read of it meets (12 R540). -/
def execRd (h : VHdr) (up : Fin 16) (s : State) : Res := .next (if serving s then ventRow s h 1 up.val else s)
/-- `RDP` (10 R433). -/
def execRdp (h : VHdr) (up : Fin 16) (s : State) : Res := .next (if serving s then ventRow s h 2 up.val else s)
/-- `WR` (10 R433). -/
def execWr (h : VHdr) (s : State) : Res := .next (if serving s then ventRow s h 0x10 0 else s)
/-- `WRP` (10 R433). -/
def execWrp (h : VHdr) (s : State) : Res := .next (if serving s then ventRow s h 0x11 0 else s)
/-- `MSG` (10 R433). -/
def execMsg (h : VHdr) (s : State) : Res := .next (if serving s then ventRow s h 0x20 0 else s)

/-- RQ_LEN fits its command (10 R435). -/
def lenFits (cmd len : Nat) : Bool :=
  match cmd with
  | 1 | 2 => len == 0
  | 0x10 | 0x11 => len == 1
  | 0x20 => 1 ≤ len && len ≤ 16
  | _ => false
/-- A tag of the partition's logic is in use (10 R462). -/
def tagBusy (s : State) (p tag : Nat) : Bool :=
  (tabGet s.vent.apq p []).any (fun q => q.tag == tag)
    || s.vent.txs.any fun x => !x.2.gone && (match x.2.init with | .ap q => q.val == p | _ => false) && x.2.tag == tag
/-- A request of the partition's logic is taken, with the code by which the access point answers it itself (10 R435, R462; 01 R39; 04 R173). -/
def apRequest (s : State) (p : Nat) (q : ApReq) : State :=
  let s1 := setVent s { s.vent with wneed := tabPut s.vent.wneed p (tabGet s.vent.wneed p 0 + q.len) }
  let code := if entering s || dieOf s (p / 16) != .on then some rGated
    else if partRefuses s p then some rTenantReset
    else if !lenFits q.cmd q.len || q.hint = 3 then some rSlverr else none
  apFlush (setVent s1 { s1.vent with apq := tabPut s1.vent.apq p (tabGet s1.vent.apq p [] ++ [{ q with wbase := tabGet s.vent.wneed p 0, code := code }]) }) p
/-- `AP_REQUEST` (10 R462, R463): a partition that does not run sees no activity; a tag stays in use until its completion. -/
def execApRequest (p : Fin 128) (cmd : BitVec 8) (addr : BitVec 52) (be : BitVec 64) (len : BitVec 5) (aux : BitVec 64) (tag : BitVec 8) (qos hint : BitVec 2)
    (s : State) : Res :=
  .next (if serving s && partRuns s p.val && !tagBusy s p.val tag.toNat then
    apRequest s p.val { cmd := cmd.toNat, addr := addr.toNat, be := be, len := len.toNat, aux := aux, tag := tag.toNat, hint := hint.toNat, wbase := 0, qos := qos }
  else s)

/-- Does a waiting or open request of partition `p` want write-data flit `n`? -/
def flitWanted (s : State) (p n : Nat) : Bool :=
  (tabGet s.vent.apq p []).any (fun q => q.code.isNone && q.wbase ≤ n && n < q.wbase + q.len)
    || s.vent.txs.any fun t => (match t.2.init with | .ap x => x.val == p | _ => false) && t.2.phase == .pull && t.2.wbase ≤ n && n < t.2.wbase + t.2.len
/-- `AP_WRITE_DATA` (10 R462): the data of a request that was refused are discarded; WD_LAST is as the logic drives it. -/
def execApWriteData (p : Fin 128) (data : BitVec 512) (last : Bool) (s : State) : Res :=
  let n := tabGet s.vent.wrecv p.val 0
  .next (if serving s && partRuns s p.val && n < tabGet s.vent.wneed p.val 0 then
    setVent s { s.vent with
      wrecv := tabPut s.vent.wrecv p.val (n + 1)
      wlast := setBit s.vent.wlast p.val last
      wdata := if flitWanted s p.val n then tabPut s.vent.wdata (p.val * 2 ^ 40 + n) data else s.vent.wdata }
  else s)

/-! ## Responses (10 R437, R439, R462; 01 R40, R49) -/

/-- The held data of a write of an access point. -/
def heldData (s : State) (t : Tx) : Option (List (BitVec 512)) :=
  match t.init with
  | .ap p => (List.range t.len).mapM fun j => tabFind s.vent.wdata (p.val * 2 ^ 40 + t.wbase + j)
  | .eng e c =>
    let d := dmaOf s e.val c.val
    some [extLine (s.freeCtr + 2 ^ 41) (engOf s e.val) (fld d.ctrl 4 2) (d.loc.toNat / 64 + t.tag)]
  | .dbg _ => some t.data
  | _ => some []
/-- Drop what a closed request held. -/
def dropHeld (s : State) (t : Tx) : State :=
  match t.init with
  | .ap p => setVent s { s.vent with wdata := s.vent.wdata.filter fun x => !(p.val * 2 ^ 40 + t.wbase ≤ x.1 && x.1 < p.val * 2 ^ 40 + t.wbase + t.len) }
  | _ => s

/-- PULL has come (10 R437, R448): the data leave once they are held and the bucket holds the flits of their packet; those of a request from before its initiator's reset
are discarded (10 R464). -/
def pull (s : State) (k : Nat) (t : Tx) : State :=
  if t.gone then dropTx (dropHeld s t) k
  else match heldData s t with
    | none => s
    | some d =>
      match takeTokens s t.init (1 + t.len) with
      | none => s
      | some s1 => putTx (dropHeld s1 t) k { t with phase := .data, data := d }
/-- `PULL` (10 R437): to an initiator in another device it leaves over the link. -/
def execPull (i : Init) (txn : BitVec 16) (pk : Pkt) (s : State) : Res :=
  let k := txKey i txn.toNat
  .next (if !serving s then s else match tabFind s.vent.txs k with
    | some t =>
      if t.phase == .pull && t.init == i && !t.lost && inOrder s k t then
        packet (fromRemote s t.target 2 pk 1) pk 2 0x81 t.at_ (srcPort i) (loseTx k t) fun s => pull (sendBack s t 0x81 2 0 []) k t
      else s
    | none => s)

/-- A read's completion that brings data. -/
def bringsData (t : Tx) : Bool := cmdReads t.cmd && (t.resp == rOk || t.resp == rPoison)
/-- A completion reaches its initiator: an access point gives it to its logic, unless a reset discards it (01 R40); a channel and the Goith port take
theirs with a command of their own. -/
def deliver (s : State) (k : Nat) (t : Tx) (resp : Nat) (data : BitVec 512) : State :=
  match t.init with
  | .ap p => let s1 := dropTx (dropHeld s t) k; if t.gone || !partRuns s p.val then s1 else apFlush (apGive s1 p.val t.tag resp data) p.val
  | .eng _ _ => s
  | .dbg _ => if s.dbg.memOp.isSome && k == gatePort * 65536 + s.dbg.memTxn.toNat then s else dropTx s k
  | .mgmt | .cfg _ | .crypto | .mirror => { dropTx s k with ans := { answered := true, resp := resp, value := data.toNat } }
  | .casc _ _ _ =>
    let s1 := sendBack (dropTx s k) t 0x80 2 resp []
    if bringsData t then sendBack s1 t 0x90 3 resp [data] else s1
  | _ => dropTx s k
/-- On EPOCH the sender's copy of the entry takes the target's epoch (01 R49). -/
def refreshEpoch (s : State) (t : Tx) : State :=
  match pointOf t.init, t.entry with
  | some pt, some e =>
    setVent s { s.vent with cache := tabPut s.vent.cache pt ((tabGet s.vent.cache pt []).map fun c =>
      if c.entry == e && c.tenant == t.tenant then { c with epoch := t.epoch } else c) }
  | _, _ => s

/-- A response is ready and reaches the initiator. -/
def respond (s : State) (k : Nat) (t : Tx) : State :=
  if bringsData t then (match t.init with | .eng _ _ | .dbg _ => s | _ => putTx s k { t with phase := .data })
  else deliver (if t.resp = rEpoch && !t.gone then refreshEpoch s t else s) k t t.resp 0#512

/-- A host or another device answers a request that waits on it; a reserved code is treated as SLVERR. `line` is the line it returns. -/
def outsideAnswer (s : State) (k : Nat) (t : Tx) (code : Nat) (line : BitVec 512) : State :=
  let c := if 10 ≤ code then rSlverr else code
  let m := beMask t.cmd t.be
  match t.target with
  | .host p hpa =>
    let s1 := if c = rOk && hostCached s p t.addr then
        hostPut s { port := p, line := hpa / 64, data := if cmdReads t.cmd then line else maskMerge line (t.data.headD 0#512) m
                    dirty := !cmdReads t.cmd, excl := !cmdReads t.cmd }
      else s
    txAnswer s1 k t c [line &&& m]
  | .remote _ _ _ => txAnswer s k t c [line &&& m]
  | _ => s

/-- `RSP` (10 R433, R437). A transaction that waits on a host or another device takes the operands as that answer; a refusal by another device comes in place of its PULL,
and the held data are discarded. -/
def execRsp (i : Init) (txn : BitVec 16) (code : BitVec 4) (line : BitVec 512) (pk : Pkt) (s : State) : Res :=
  let k := txKey i txn.toNat
  .next (if !serving s then s else match tabFind s.vent.txs k with
    | some t =>
      if t.init != i || t.lost then s
      else if t.phase == .rsp then
        (if inOrder s k t then packet s pk 2 0x80 t.at_ (srcPort i) (loseTx k t) fun s => respond s k t else s)
      else match t.target with
        | .host _ _ => if t.phase == .atTarget then outsideAnswer s k t code.toNat line else s
        | .remote _ _ _ =>
          if t.phase == .data then s
          else
            let got := fromRemote s t.target 2 pk 1
            packet (if cmdReads t.cmd && (code == 0#4 || code == 6#4) then fromRemote got t.target 3 pk 2 else got) pk 2 0x80 t.at_ (srcPort i) (loseTx k t)
              fun s => outsideAnswer (if t.phase == .pull then dropHeld s t else s) k t code.toNat line
        | _ => s
    | none => s)

/-- The data that a DATA packet brings to a write's target: those its source held, or the operand's where its source has presented none before. -/
def dataOf (t : Tx) (data : List (BitVec 512)) : List (BitVec 512) := match t.init with | .ap _ | .eng _ _ | .dbg _ => t.data | _ => data
/-- `DATA` (10 R429, R432, R433): the data of a write, as many flits as its request's LEN names, reach the target, those of a read its initiator; `poison` marks a flit in
error. A channel and the Goith port take the data of a read with a command of their own. -/
def execData (i : Init) (txn : BitVec 16) (data : List (BitVec 512)) (poison : Bool) (up : Fin 16) (pk : Pkt) (s : State) : Res :=
  let k := txKey i txn.toNat
  .next (if !serving s then s else match tabFind s.vent.txs k with
    | some t =>
      if t.init != i || t.lost || !inOrder s k t then s
      else match t.phase, cmdReads t.cmd with
        | .data, true => packet s pk 3 0x90 t.at_ (srcPort i) (loseTx k t) fun s => deliver s k t (if poison then rPoison else t.resp) (t.data.headD 0#512)
        | .data, false =>
          if (dataOf t data).length ≠ t.len then s
          else packet (fromLink s i 3 pk (1 + t.len)) pk 3 0x90 (srcPort i) t.at_ (loseTx k t) fun s => writeAt s k t (dataOf t data) poison up.val
        | .rsp, true =>
          if bringsData t && (match i with | .eng _ _ | .dbg _ => true | _ => false) then
            packet s pk 3 0x90 t.at_ (srcPort i) (loseTx k t) fun s => if poison then putTx s k { t with resp := rPoison } else s
          else s
        | _, _ => s
    | none => s)

/-- `EPOCH_RESPONSE` (01 R49). -/
def execEpochResponse (i : Init) (txn : BitVec 16) (s : State) : Res :=
  let k := txKey i txn.toNat
  .next (if !serving s then s else match tabFind s.vent.txs k with
    | some t => if t.init == i && t.phase == .rsp && t.resp == rEpoch && !t.lost && inOrder s k t then respond s k t else s
    | none => s)

/-- Nothing answers transaction `k` any more: its flow, its mirror record and the logic that holds it go on without it (10 R439). The logic's place at its access point stays
taken until it answers (R463). -/
def muteTx (s : State) (k : Nat) : State :=
  let w (x : Who) : Who := if x = .tx k then .nobody else x
  { s with
    hub := { s.hub with
      flows := s.hub.flows.map fun f => (f.1, { f.2 with req := { f.2.req with who := w f.2.req.who } })
      waiting := s.hub.waiting.map fun q => (q.1, q.2.map fun r => { r with who := w r.who }) }
    twin := { s.twin with waits := s.twin.waits.map fun q => { q with who := w q.who } }
    vent := { s.vent with inb := s.vent.inb.map fun b => (b.1, { b.2 with tx := if b.2.tx = some k then none else b.2.tx }) } }
/-- A request times out (10 R439; 11 R503): completed with SLVERR, its tracker freed; a request of a tenant's logic or engines records a fault. -/
def reqTimeout (s : State) (k : Nat) (t : Tx) : State :=
  let d := srcPort t.init + t.cmd * 65536
  let s1 := muteTx (logEvT s 0x2803 sevErr d t.tenant gatePort) k
  let s2 := if (pointOf t.init).isSome then recordFault s1 t.tenant 3 d else s1
  let t1 := { t with tracked := false, lost := false }
  deliver (txAnswer s2 k t1 rSlverr []) k { t1 with resp := rSlverr } rSlverr 0#512
/-- `REQ_TIMEOUT` (10 R439). -/
def execReqTimeout (i : Init) (txn : BitVec 16) (s : State) : Res :=
  let k := txKey i txn.toNat
  .next (if !serving s then s else match tabFind s.vent.txs k with
    | some t => if t.init == i && t.tracked then reqTimeout s k t else s
    | none => s)

/-- `MGMT` (10 R433, R454): a fetch by an access point or engine hub returns from its quadrant's hub port; the live table's changes, which reach the replicas at once, and
tracker credits need nothing more here (log entry 90). -/
def execMgmt (point : Fin 224) (tenant : Fin 16) (addr : BitVec 52) (body : Mgmt) (pk : Pkt) (s : State) : Res :=
  let at_ := if point.val < 128 then apPort point.val else hubPort ((point.val - 128) / 12) ((point.val - 128) % 12)
  .next (if operating s then packet s pk 4 0xA0 (quadrantHub at_) at_ (fun _ s => s) fun s =>
      match body with | .fetch => fetchReturn s point.val tenant.val addr.toNat | _ => s
    else s)

/-- `AP_INBOUND_ANSWER` (10 R433, R462): the bytes that an RDP does not enable are zeroed. -/
def execApInboundAnswer (p : Fin 128) (id : BitVec 8) (resp : BitVec 4) (data : BitVec 512) (s : State) : Res :=
  let key := p.val * 256 + id.toNat
  .next (if !serving s || !partRuns s p.val then s else match tabFind s.vent.inb key with
    | none => s
    | some b =>
      let s1 := setVent s { s.vent with inb := tabDel s.vent.inb key }
      match b.tx.bind fun k => (tabFind s1.vent.txs k).map fun t => (k, t) with
      | some (k, t) => txAnswer s1 k t (if 10 ≤ resp.toNat then rSlverr else resp.toNat) [data &&& beMask t.cmd t.be]
      | none => s1)

/-- A line of a channel has answered (08 R381); the answer of a request issued before the engine's reset is discarded (01 R40). -/
def dmaLine (s : State) (e c k : Nat) (t : Tx) : State :=
  if t.gone then dropTx s k else
  let d := dmaOf s e c
  let s1 := if t.resp = rOk && cmdReads t.cmd then
      setEng s e (setMemLine (engOf s e) (fld d.ctrl 4 2) (d.loc.toNat / 64 + t.tag) (t.data.headD 0#512) (~~~0#512)) else s
  let s2 := dropTx (if t.resp = rEpoch then refreshEpoch s1 t else s1) k
  let d2 := dmaOf s2 e c
  dmaSettle (setDma s2 e c { d2 with
    flight := d2.flight.filter (· != t.tag)
    lines := if t.resp = rOk then d2.lines + 1#11 else d2.lines
    resp := if t.resp ≠ rOk && d2.resp = 0#4 then BitVec.ofNat 4 t.resp else d2.resp }) e c
/-- `DMA_LINE_RESPONSE` (08 R381). -/
def execDmaLineResponse (e : Fin 768) (c : Fin 4) (txn : BitVec 16) (s : State) : Res :=
  let k := txKey (.eng e c) txn.toNat
  .next (match tabFind s.vent.txs k with
    | some t => if engClocked s e.val && t.init == .eng e c && t.phase == .rsp && !t.lost && inOrder s k t then dmaLine s e.val c.val k t else s
    | none => s)

/-! ## The address map's objects (10 R427, R449, R452, R456, R465) -/

/-- Write a SAM entry: the live table and every replica take it; the entry becomes stale (10 R452, R456). -/
def samStore (s : State) (e v : Nat) : State :=
  let s1 := oSet s (samKey e) v
  let s2 := oSet s1 O_SAM_STALE (oGet s1 O_SAM_STALE ||| 2 ^ e)
  logEv (setVent s2 { s2.vent with inval := s2.vent.inval.map fun i => { i with written := setBit i.written e true } }) 0x2801 sevWarn e
/-- SAM_ENTRY_LO, SAM_ENTRY_HI. -/
def wrSamEntry (r : Req) (e len val : Nat) (s : State) : State :=
  objWriteG r (samKey e) len val { value := samValueOk val, state := samStateOk s e val } noRej (fun s => samStore s e val) s
/-- `SAM_ENTRY_WRITE` (10 R452). -/
def execSamEntryWrite (r : Req) (e : Fin 256) (v : BitVec 128) (s : State) : Res := .next (wrSamEntry r e.val 16 v.toNat s)

/-- An invalidation begins, merged with a running one of the same entry (10 R464): only the later then decides what stays stale. Fetches of a covered entry that have not
returned are not cached. -/
def beginInval (s : State) (e : Option Nat) : State :=
  setVent s { s.vent with
    inval := (s.vent.inval.filter fun i => i.entry != e) ++ [{ entry := e, written := 0#256 }]
    fetch := s.vent.fetch.map fun f => if e.isNone || samLookup s f.addr == e then { f with stale := true } else f }
/-- SAM_INVALIDATE: begins, or joins the running ones (10 R456, R464); it is answered when the invalidation completes (15 R658). -/
def wrSamInvalidate (r : Req) (len val : Nat) (s : State) : State :=
  objWriteP r O_SAM_INVALIDATE len val (fun s => unanswered (beginInval s (if val = 0xFFFF then none else some val))) s
/-- `SAM_INVALIDATE` (10 R456). -/
def execSamInvalidate (r : Req) (v : BitVec 16) (s : State) : Res := .next (wrSamInvalidate r 2 v.toNat s)

/-- One invalidation completes. -/
def invalDone (s : State) (i : Inval) : State :=
  let covered (e : Nat) : Bool := match i.entry with | none => true | some x => x == e
  let clear := (List.range 256).foldl (fun m e => if covered e && !i.written.getLsbD e then m + 2 ^ e else m) 0
  let st := oGet s O_SAM_STALE
  let s1 := oSet s O_SAM_STALE (st ^^^ (st &&& clear))
  logEv (setVent s1 { s1.vent with cache := s1.vent.cache.map fun c => (c.1, c.2.filter fun e => !covered e.entry) })
    0x2805 sevInfo (i.entry.getD 0xFFFF)
/-- `SAM_INVALIDATE_DONE` (10 R456, R464). -/
def execSamInvalidateDone (s : State) : Res :=
  .next (if s.vent.inval.isEmpty then s
    else answer (setVent (s.vent.inval.foldl invalDone s) { (s.vent.inval.foldl invalDone s).vent with inval := [] }) 0#32)

/-- The tenant a requester acts for: T0 for OWNER, its number for a tenant. -/
def actor (s : State) (r : Req) : Nat :=
  match r.view with
  | some v => v.toNat
  | none => match roleOf s r with | .tenant n => n | _ => 0

/-- EP_BIND (10 R427): ID, partition, operation. -/
def wrEpBind (r : Req) (len val : Nat) (s : State) : State :=
  let id := val % 65536
  let p := val / 65536 % 256
  let op := val / 2 ^ 24 % 256
  let t := actor s r
  objWriteG r O_EP_BIND len val
    { value := p < 128 && (op == 2 || (op == 1 && 0x500 ≤ id && id ≤ 0x3FFF))
      owns := t == 0 || (p < 128 && partOwner s p == t)
      cap := op != 1 || s.vent.soft.length < 15104
      state := if op == 1 then (softPart s id).isNone else softPart s id == some p } noRej
    (fun s => setVent s { s.vent with soft := if op = 1 then tabPut s.vent.soft id p else tabDel s.vent.soft id }) s
/-- `EP_BIND` (10 R427). -/
def execEpBind (r : Req) (id : BitVec 16) (part : BitVec 8) (s : State) : Res :=
  .next (wrEpBind r 4 (id.toNat + part.toNat * 65536 + 2 ^ 24) s)
/-- `EP_RELEASE` (10 R427). -/
def execEpRelease (r : Req) (id : BitVec 16) (part : BitVec 8) (s : State) : Res :=
  .next (wrEpBind r 4 (id.toNat + part.toNat * 65536 + 2 ^ 25) s)

end Sys2Proof.Machine
end

