-- ==== Sys2Proof/Machine/HubRows.lean ====
section
/-! DEFINITION. CXL ports and guest gates: host and guest requests, link events, IDE, decoders, quarantine (11 R491 to R515). -/
namespace Sys2Proof.Machine

/-! ## Host requests (11 R469, R494 to R496) -/


/-- A flow kind that reads. -/
def kindReads (k : FlowKind) : Bool := match k with | .devRead | .rdShared | .rdOwn | .rdCur => true | _ => false

/-- A refused host request (11 R494): poisoned data, a write discarded and completed, Unsupported Request on CXL.io and PCIe. -/
def hostRefused (s : State) (q : HostReq) : State :=
  answerHost s q.port { tag := q.tag, resp := if kindReads q.kind then rPoison else rOk, form := if q.io then .unsupported else .plain }

/-- The host writes back a line whose back-invalidate is open: its port folds the data into the snoop's response (11 R481). -/
def foldsBack (s : State) (q : HostReq) (line : Nat) : Bool :=
  !kindReads q.kind && !q.io && q.mask == ~~~0#512 && match tabFind s.hub.flows line with | some f => f.sent.getLsbD q.port | none => false

/-- A host request is decided and starts its flow (11 R494). -/
def hostStart (s : State) (q : HostReq) (bad : Bool) : State :=
  match liveEntry s q.addr (oGet s (O_PORT_TENANT q.port)) false (if kindReads q.kind then 1 else 0x10) with
  | none => hostRefused s q
  | some e =>
    let x := samRaw s e
    let b := samForm x q.addr
    let m := refUnder s x (b / 64)
    let ca := chanAddr (oGet s (O_ISET_MASK (samIset x))) b
    if samKind x ≠ kDevmem then hostRefused s q
    else if !enabled s unCache then hostRefused (answerGated s unCache) q
    else match sliceGet s m.line, chanAnswer s m.chan ca with
      | none, some c => hostRefused (if c = rGated then answerGated s (unDdr m.chan) else noteBeyond s m.chan ca) q
      | _, _ =>
        if foldsBack s q m.line then
          answerHost (setCxl s q.port { cxl s q.port with fold := tabPut (cxl s q.port).fold m.line q.data }) q.port { tag := q.tag, resp := rOk }
        else startFlow s { kind := q.kind, agent := some q.port, who := .host q.port q.tag, ref := m, data := q.data, mask := q.mask, poison := q.poison, up := q.up
                           want := if kindReads q.kind then q.mask else 0#512, bad := bad, io := q.io }

/-- A tracker is free for a request from outside; no request of a host or guest waits for one, since its credits are withheld (10 R438; 11 R468, R469). -/
def outsideFree (s : State) (i : Init) : Bool := trackersHeld s i < trackerLimit i && trackersGranted s < 64512 && trkTurn s (srcPort i)
/-- A host request reaches its port: withheld without a tracker (11 R469), held while a twin is not ACTIVE (14 R626). -/
def hostRequest (s : State) (q : HostReq) (bad : Bool) : State :=
  if !outsideFree s (.cxl (Fin.ofNat 4 q.port)) then s
  else if twinPassive s then setHub s { s.hub with held := s.hub.held ++ [q] }
  else hostStart s q bad

/-- The committed decoder that covers a CXL DPA. -/
def hdmFind (x : CxlPort) (dpa : Nat) : Option HdmDec :=
  (x.decoders.map (·.2)).find? fun d => d.committed && d.base ≤ dpa && dpa < d.base + d.size
/-- Device address of a CXL DPA on a port (11 R494). -/
def hostAddr (s : State) (p dpa : Nat) : Nat := (oGet s (O_HOST_WIN_BASE p) + dpa) % 2 ^ 52
/-- The port takes CXL.mem requests: Type 2 or 3, the stream not in the insecure state (11 R491, R498). -/
def memOpen (s : State) (p : Nat) : Bool :=
  let m := oGet s (O_PORT_MODE p)
  cxlLive s p && (m == 2 || m == 3) && !(cxl s p).insecure

/-- `CXL_MEMRD` (11 R483): `snp` is 0 no snoop, 1 SnpInv, 2 SnpData, 3 SnpCur; lines of HDM-H decoders are never recorded (R477). `bad` is an
uncorrectable filter entry met (R476), `up` the upsets of its DRAM reads (12 R540). -/
def execCxlMemrd (port : Fin 4) (tag : BitVec 16) (dpa : BitVec 52) (snp : Fin 4) (bad : Bool) (up : Fin 16) (s : State) : Res :=
  .next (if !memOpen s port.val then s else
    let q : HostReq := { port := port.val, tag := tag.toNat, addr := hostAddr s port.val (dpa.toNat / 64 * 64), kind := .rdCur, io := false, data := 0#512, mask := ~~~0#512, up := up.val }
    match hdmFind (cxl s port.val) dpa.toNat with
    | none => hostRefused s q
    | some d => hostRequest s { q with kind := if !d.db then .rdCur else match snp.val with | 1 => .rdOwn | 2 => .rdShared | _ => .rdCur } bad)

/-- `CXL_MEMWR` (11 R483): `mv` is the MetaValue, 0 Invalid, 1 Shared, 2 Any. -/
def execCxlMemwr (port : Fin 4) (tag : BitVec 16) (dpa : BitVec 52) (mv : Fin 3) (be : BitVec 64) (data : BitVec 512) (bad : Bool) (up : Fin 16) (s : State) : Res :=
  .next (if !memOpen s port.val then s else
    let q : HostReq := { port := port.val, tag := tag.toNat, addr := hostAddr s port.val (dpa.toNat / 64 * 64), kind := .hostWrite mv.val true, io := false
                         data := data, mask := BitVec.ofNat 512 (byteMask 64 be.toNat), up := up.val }
    match hdmFind (cxl s port.val) dpa.toNat with
    | none => hostRefused s q
    | some d => hostRequest s { q with kind := .hostWrite mv.val d.db } bad)

/-- `CXL_IO_REQUEST` (11 R494, R496): offset `x` from HOST_WIN_BASE; in PCIe mode within BAR2; never recorded. -/
def execCxlIoRequest (port : Fin 4) (tag : BitVec 16) (write : Bool) (x : BitVec 52) (be : BitVec 64) (data : BitVec 512) (up : Fin 16) (s : State) : Res :=
  .next (if !cxlLive s port.val then s else
    let q : HostReq := { port := port.val, tag := tag.toNat, addr := hostAddr s port.val (x.toNat / 64 * 64), kind := if write then .hostWrite 0 false else .rdCur
                         io := true, data := data, mask := BitVec.ofNat 512 (byteMask 64 be.toNat), up := up.val }
    if oGet s (O_PORT_MODE port.val) = 4 && 2 ^ oGet s (O_PCIE_BAR2_LOG2 port.val) ≤ x.toNat then hostRefused s q
    else hostRequest s q false)

/-- A twin has become ACTIVE: the held host requests proceed in their order (14 R626, R628). -/
def releaseHeld (s : State) : State := s.hub.held.foldl (fun a q => hostStart a q false) (setHub s { s.hub with held := [] })

/-- A memory device command of a Type 3 port is answered; the spec gives no contents, so the payload is a free value (11 R491). -/
def mailbox (s : State) (p cmd : Nat) : State :=
  if cxlLive s p && oGet s (O_PORT_MODE p) == 3 then freeStep (setCxl s p { cxl s p with mbox := some (cmd, s.freeCtr) }) else s
/-- `IDENTIFY_MEMORY_DEVICE` (11 R491). -/
def execIdentifyMemoryDevice (port : Fin 4) (s : State) : Res := .next (mailbox s port.val 0)
/-- `GET_HEALTH_INFO` (11 R491). -/
def execGetHealthInfo (port : Fin 4) (s : State) : Res := .next (mailbox s port.val 1)
/-- `GET_EVENT_RECORDS` (11 R491). -/
def execGetEventRecords (port : Fin 4) (s : State) : Res := .next (mailbox s port.val 2)
/-- `CLEAR_EVENT_RECORDS` (11 R491). -/
def execClearEventRecords (port : Fin 4) (s : State) : Res := .next (mailbox s port.val 3)
/-- `GET_POISON_LIST` (11 R491). -/
def execGetPoisonList (port : Fin 4) (s : State) : Res := .next (mailbox s port.val 4)

/-- Log an event that a CXL port raises. -/
def cxlEv (s : State) (code sev data p : Nat) : State := logEvT s code sev data 0 (cxlPort p)

/-- Two device-address ranges of committed decoders on different ports overlap. -/
def hdmOverlap (s : State) (p : Nat) (base size : Nat) (hOnly : Bool) : Bool :=
  (List.range 4).any fun q =>
    q != p && ((cxl s q).decoders.map (·.2)).any fun d =>
      d.committed && (!hOnly || !d.db) &&
        hostAddr s q d.base < hostAddr s p base + size && hostAddr s p base < hostAddr s q d.base + d.size

/-- `HDM_DECODER_COMMIT` (11 R491, R495): `ways` and `gran` stand for 2^ways ways and 2^(8 + gran) bytes. -/
def execHdmDecoderCommit (port : Fin 4) (dec : Fin 8) (db : Bool) (base size : BitVec 52) (ways : Fin 5) (gran : Fin 7) (s : State) : Res :=
  let p := port.val
  let m := oGet s (O_PORT_MODE p)
  let x := cxl s p
  let refuse := (db && !x.flit256) || hdmOverlap s p base.toNat size.toNat db
  let d : HdmDec := { committed := !refuse, error := refuse, db := db, base := base.toNat, size := size.toNat, ways := ways.val, gran := gran.val }
  .next (if cxlLive s p && (m == 3 || (m == 2 && db)) then
    let s1 := setCxl s p { x with decoders := tabPut x.decoders dec.val d }
    if refuse then cxlEv s1 0x290B sevWarn (p * 65536 + dec.val) p else s1
  else s)

/-! ## Link events (11 R497, R498) -/

/-- The lanes of a CXL port may run: each quad's reference pin is at 100 MHz and no lane's PLL has lost lock (13 R570, R572). -/
def cxlRefOk (s : State) (p : Nat) : Bool :=
  ((List.range 4).all fun q => oGet s (O_REFCLK_FREQ (oGet s (O_QUAD_REFSEL (4 * p + q)))) == 1)
    && (List.range 16).all fun i => !(tabGet s.lanes.lane (16 * p + i) {}).pllLost
/-- `CXL_LINK_UP` (11 R492, R497): within the modes, rates and widths permitted; 68-byte flits run at 32 GT/s and below, and no HDM-DB decoder stays committed
under them (R491). -/
def execCxlLinkUp (port : Fin 4) (rate : BitVec 3) (width : BitVec 5) (flit256 lopt ideLink : Bool) (s : State) : Res :=
  let p := port.val
  let x := cxl s p
  .next (if operating s && enabled s (unCxl p) && oGet s (O_PORT_MODE p) != 0 && !s.hub.cxlUp.getLsbD p && cxlRefOk s p
      && (if flit256 then true else !lopt && rate.toNat ≤ 5) && 1 ≤ rate.toNat && rate.toNat ≤ oGet s (O_PORT_MAX_RATE p) && (width == 4#5 || width == 8#5 || width == 16#5) && width.toNat ≤ oGet s (O_PORT_MAX_WIDTH p) then
    let s1 := setHub s { s.hub with cxlUp := setBit s.hub.cxlUp p true }
    cxlEv (setCxl s1 p { x with rate := rate.toNat, width := width.toNat, flit256 := flit256, lopt := lopt, ideLink := ideLink,
                                       retrain := false, insecure := false, ideMem := false, wait := [],
                                       decoders := x.decoders.filter (fun d => flit256 || !d.2.db) })
      0x2908 sevInfo (p * 65536 + rate.toNat * 256 + width.toNat) p
  else s)

/-- A transaction that a port's host has accepted and not completed; its write data may be under way. -/
def waitsOnHost (p : Nat) (t : Tx) : Bool :=
  (t.phase == .atTarget || t.phase == .pull || t.phase == .data && !cmdReads t.cmd) && match t.target with | .host q _ => q == p | _ => false
/-- Requests that wait on the host of a port complete with SLVERR (11 R497). -/
def failHostTxs (s : State) (p : Nat) : State :=
  (s.vent.txs.filter fun t => waitsOnHost p t.2).foldl (fun a t => putTx a t.1 { t.2 with phase := .rsp, resp := rSlverr, data := [0#512], lost := false }) s

/-- A link goes down (11 R497). -/
def cxlDown (s : State) (p : Nat) : State :=
  let x := cxl s p
  let h : Hub := { s.hub with
    cxlUp := setBit s.hub.cxlUp p false
    hlines := s.hub.hlines.filter (fun h => h.port != p)
    held := s.hub.held.filter (fun q => q.port != p) }
  let s1 := setCxl (setHub s h) p
    { x with rate := 0, width := 0, flit256 := false, lopt := false, ideMem := false, ideLink := false, insecure := false, retrain := false, wait := [], bi := none, fold := [] }
  let d := dropAgent s1 p
  let s2 := if d.2 = 0 then d.1 else cxlEv d.1 0x2905 sevErr (p + min d.2 0xFFFF * 256) p
  cxlEv (failHostTxs s2 p) 0x2909 sevWarn p p
/-- `CXL_LINK_DOWN` (11 R497). -/
def execCxlLinkDown (port : Fin 4) (s : State) : Res := .next (if s.hub.cxlUp.getLsbD port.val then cxlDown s port.val else s)
/-- `CXL_LINK_RETRAIN` (11 R497). -/
def execCxlLinkRetrain (port : Fin 4) (s : State) : Res :=
  .next (if cxlLive s port.val then setCxl s port.val { cxl s port.val with retrain := true } else s)
/-- `CXL_LINK_RETRAIN_DONE` (11 R497, R516): the completions that waited reach the host. -/
def execCxlLinkRetrainDone (port : Fin 4) (s : State) : Res :=
  let x := cxl s port.val
  .next (if cxlLive s port.val && x.retrain then
    x.wait.foldl (fun a h => answerHost a port.val h) (setCxl s port.val { x with retrain := false, wait := [] })
  else s)

/-- Change the request of every flow, running or waiting. -/
def mapFlows (s : State) (f : FlowReq → FlowReq) : State :=
  setHub s { s.hub with
    flows := s.hub.flows.map fun x => (x.1, { x.2 with req := f x.2.req })
    waiting := s.hub.waiting.map fun x => (x.1, x.2.map f) }
/-- The CXL.mem reads of a host that are in flight are answered with poisoned data (11 R498). -/
def poisonReads (s : State) (p : Nat) : State :=
  let mine (r : FlowReq) : Bool := isHost p r.who && kindReads r.kind && !r.io
  let late (q : HostReq) : Bool := q.port == p && kindReads q.kind && !q.io
  let tags := ((((s.hub.flows.map fun f => f.2.req) ++ s.hub.waiting.flatMap (·.2)).filter mine).map fun r => match r.who with | .host _ t => t | _ => 0)
    ++ (s.hub.held.filter late).map (·.tag)
  let s1 := mapFlows (setHub s { s.hub with held := s.hub.held.filter fun q => !late q }) fun r => if mine r then { r with who := .nobody } else r
  tags.foldl (fun a t => answerHost a p { tag := t, resp := rPoison }) s1
/-- The writes of a failed epoch that have not yet reached their lines write them as poisoned (11 R498, R516). -/
def poisonWrites (s : State) (p : Nat) (lines : List (BitVec 46)) : State :=
  let s1 := setHub s { s.hub with held := s.hub.held.map fun q =>
    if q.port == p && !q.io && (match samLookup s q.addr with | some e => lines.any fun l => l.toNat == samForm (samRaw s e) q.addr / 64 | none => false)
    then { q with poison := true } else q }
  mapFlows s1 fun r => if isHost p r.who && !r.io && lines.any (fun l => l.toNat == r.ref.line) then { r with poison := true } else r

/-- `IDE_MAC_FAIL` (11 R498): `lines` are the device lines that the flits of the failed epoch wrote. -/
def execIdeMacFail (port : Fin 4) (lines : List (BitVec 46)) (s : State) : Res :=
  let p := port.val
  .next (if cxlLive s p && (cxl s p).ideMem && lines.length ≤ 32 then
    let d := p * 65536 + lines.length
    let s1 := setCxl s p { cxl s p with insecure := true, ideMem := false }
    cxlEv (poisonReads (poisonWrites (lines.foldl (fun a l => poisonLine a l.toNat d) s1) p lines) p) 0x290A sevErr d p
  else s)

/-! ## Guest gates (11 R506 to R514) -/

/-- Raw window `w` of gate `g` (11 R507). -/
def ggRaw (s : State) (g w : Nat) : Nat := oGet s (if g = 0 then O_GG0_WINDOW w else O_GG1_WINDOW w)
def ggValid (x : Nat) : Bool := x.testBit 63
def ggSize (x : Nat) : Nat := bitsAt x 52 6
def ggBase (x : Nat) : Nat := bitsAt x 12 40 * 4096
def ggTenant (x : Nat) : Nat := x % 16
/-- A window write's checks. -/
def ggOk (x : Nat) : Bool :=
  12 ≤ ggSize x && ggSize x ≤ 52 && ggBase x % 2 ^ ggSize x == 0
    && bitsAt x 58 5 == 0 && bitsAt x 4 8 == 0 && bitsAt x 120 5 == 0 && !x.testBit 119 && bitsAt x 64 48 == 0
    && ggBase x + 2 ^ ggSize x ≤ controlBase
/-- The lowest-numbered valid window that covers an access. -/
def ggFind (s : State) (g a len : Nat) : Option Nat :=
  (List.range 64).find? fun w => let x := ggRaw s g w; ggValid x && ggBase x ≤ a && a + len ≤ ggBase x + 2 ^ ggSize x

/-- GG window objects (11 R507): every write is checked, one with VALID 0 too. -/
def wrGgWindow (r : Req) (g w len val : Nat) (s : State) : State :=
  let k := if g = 0 then O_GG0_WINDOW w else O_GG1_WINDOW w
  objWriteG r k len val { value := ggOk val } noRej (fun s => oSet s k val) s

/-- What completes for the guest of a gate from now on is discarded. -/
def goneWho (g : Nat) (w : Who) : Who := if isGuest g w then .gone g else w
def muteGuest (s : State) (g : Nat) : State :=
  let s1 := mapFlows s fun r => { r with who := goneWho g r.who }
  setGate (setTwin s1 { s1.twin with waits := s1.twin.waits.map fun d => { d with who := goneWho g d.who } }) g { gate s1 g with halves := [] }
/-- The guest is quarantined (11 R513 steps 1 to 3): completions of its requests in flight will be discarded, its open snoops are answered SRSP_I, lines that it owned
among them poisoned. -/
def quarantine (s : State) (g : Nat) : State :=
  let s0 := muteGuest s g
  let s1 := logEv (oSet (setGate s0 g { gate s0 g with walked := false, snp := none, lost := 0 }) (O_GG_STATE g) 3) 0x2907 sevErr g
  (s1.hub.flows.map (·.1)).foldl (fun a l =>
    match tabFind a.hub.flows l with
    | some f =>
      if (f.sent ||| f.toSend).getLsbD (4 + g) then
        snoopAnswer (if f.owned && f.pres.getLsbD (4 + g) then ownerLost a (4 + g) l else a) (4 + g) l false none
      else a
    | none => a) s1

/-- A violation (11 R510); an access of class `cls` is answered FENCED in the form of its protocol. -/
def violation (s : State) (g tag cls win reason : Nat) : State :=
  let d := g * 2 ^ 23 + win * 65536 + reason
  let s1 := logEv (oSet (oBump s (O_GG_VIOL_COUNT g) 1 (2 ^ 32 - 1)) (O_GG_LAST_VIOL g) d) 0x2906 sevWarn d
  let s2 := answerGuest s1 g { tag := tag, resp := rFenced, form := if cls < 2 then .completerAbort else .goErr }
  let lim := oGet s2 (O_GG_VIOL_LIMIT g)
  if lim ≠ 0 && lim ≤ oGet s2 (O_GG_VIOL_COUNT g) then quarantine s2 g else s2

/-- A guest request: CLASSES bit, permissions R, W, C needed, address, bytes, flow kind, data, flits, upsets of its DRAM reads. -/
structure GuestReq where
  cls : Nat
  needR : Bool
  needW : Bool
  needC : Bool
  addr : Nat
  len : Nat
  kind : FlowKind
  data : BitVec 512
  flits : Nat
  up : Nat
  deriving DecidableEq, Repr

/-- The request has passed the gate: gateway, live check, slice (11 R509); its flits cost their tokens when it is injected (R511). -/
def guestRun (s : State) (g t : Nat) (w : Who) (q : GuestReq) : State :=
  let i : Init := .gate (Fin.ofNat 2 g) (Fin.ofNat 16 t)
  let say (a : State) (c : Nat) : State := complete a w c 0#512
  let cmd := if kindReads q.kind || q.kind == .guestEvict false then 1 else 0x10
  match liveRoute s q.addr with
  | none => say s rDecerr
  | some r =>
    if samKind r.raw ≠ kDevmem then
      (if 2 ≤ q.cls then say s rDecerr else say (gwRefuse s i (6 + g)) rFenced)
    else if !gwAdmits s i kDevmem 0 cmd none then say (gwRefuse s i (6 + g)) rFenced
    else
      let s1 := setGate s g { gate s g with tokens := (gate s g).tokens - q.flits }
      match judge s1 i cmd q.addr 0 r with
      | .refuse c => say (refusalNote s1 q.addr c r) c
      | .accept _ =>
        let m := refUnder s1 r.raw (samForm r.raw q.addr / 64)
        let mask := BitVec.ofNat 512 (byteMask 64 ((2 ^ q.len - 1) * 2 ^ (q.addr % 64)))
        startFlow s1 { kind := q.kind, agent := if 2 ≤ q.cls then some (4 + g) else none, who := w, ref := m, data := q.data, mask := mask, up := q.up
                       want := if kindReads q.kind then mask else 0#512 }
/-- The parts of an access: one for each line it covers. Byte i of its data stands at position (address + i) mod 64 (log entry 108). -/
def guestParts (q : GuestReq) : List GuestReq :=
  let n := 64 - q.addr % 64
  if q.len ≤ n then [q] else [{ q with len := n }, { q with addr := q.addr + n, len := q.len - n }]

/-- A guest request reaches its gate (11 R508, R510, R511): GATED once the gate's clock enable is clear (03 R129, R130). -/
def guestRequest (s : State) (g tag : Nat) (q : GuestReq) : State :=
  let l := guestParts q
  if !serving s || gateState s g ≠ 2 || 128 ≤ flowsOf s (isGuest g) || !outsideFree s (.gate (Fin.ofNat 2 g) 0) then s
  else if entering s then answerGuest s g { tag := tag, resp := rGated }
  else if !enabled s (unGuest g) then answerGuest (answerGated s (unGuest g)) g { tag := tag, resp := rGated }
  else if (gate s g).tokens < q.flits * l.length then violation s g tag q.cls 0x7F 4
  else match ggFind s g q.addr q.len with
    | none => violation s g tag q.cls 0x7F 1
    | some w =>
      let x := ggRaw s g w
      if (q.needR && !x.testBit 127) || (q.needW && !x.testBit 126) || (q.needC && !x.testBit 125) then violation s g tag q.cls w 2
      else if !x.testBit (112 + q.cls) then violation s g tag q.cls w 3
      else l.foldl (fun a p => guestRun a g (ggTenant x) (if l.length = 1 then .guest g tag else .half g tag) p) s

/-- `IO_RD` (11 R508): `len` bytes. -/
def execIoRd (g : Fin 2) (tag : BitVec 16) (addr : BitVec 52) (len : Fin 65) (up : Fin 16) (s : State) : Res :=
  .next (guestRequest s g.val tag.toNat { cls := 0, needR := true, needW := false, needC := false, addr := addr.toNat, len := len.val, kind := .devRead, data := 0#512, flits := 1, up := up.val })
/-- `IO_WR` (11 R508). -/
def execIoWr (g : Fin 2) (tag : BitVec 16) (addr : BitVec 52) (len : Fin 65) (data : BitVec 512) (up : Fin 16) (s : State) : Res :=
  .next (guestRequest s g.val tag.toNat { cls := 1, needR := false, needW := true, needC := false, addr := addr.toNat, len := len.val, kind := .devWrite, data := data, flits := 2, up := up.val })
/-- `CC_RD_CUR` (11 R508). -/
def execCcRdCur (g : Fin 2) (tag : BitVec 16) (line : BitVec 46) (up : Fin 16) (s : State) : Res :=
  .next (guestRequest s g.val tag.toNat { cls := 2, needR := true, needW := false, needC := false, addr := line.toNat * 64, len := 64, kind := .rdCur, data := 0#512, flits := 1, up := up.val })
/-- `CC_RD_SHARED` (11 R508). -/
def execCcRdShared (g : Fin 2) (tag : BitVec 16) (line : BitVec 46) (up : Fin 16) (s : State) : Res :=
  .next (guestRequest s g.val tag.toNat { cls := 3, needR := true, needW := false, needC := true, addr := line.toNat * 64, len := 64, kind := .rdShared, data := 0#512, flits := 1, up := up.val })
/-- `CC_RD_OWN` (11 R508). -/
def execCcRdOwn (g : Fin 2) (tag : BitVec 16) (line : BitVec 46) (up : Fin 16) (s : State) : Res :=
  .next (guestRequest s g.val tag.toNat { cls := 4, needR := true, needW := true, needC := true, addr := line.toNat * 64, len := 64, kind := .rdOwn, data := 0#512, flits := 1, up := up.val })
/-- `CC_WR` (11 R508). -/
def execCcWr (g : Fin 2) (tag : BitVec 16) (line : BitVec 46) (data : BitVec 512) (up : Fin 16) (s : State) : Res :=
  .next (guestRequest s g.val tag.toNat { cls := 5, needR := false, needW := true, needC := false, addr := line.toNat * 64, len := 64, kind := .guestWrite, data := data, flits := 2, up := up.val })
/-- `CC_EVICT` (11 R508): `dirty` tells DirtyEvict. -/
def execCcEvict (g : Fin 2) (tag : BitVec 16) (line : BitVec 46) (dirty : Bool) (data : BitVec 512) (up : Fin 16) (s : State) : Res :=
  .next (guestRequest s g.val tag.toNat { cls := 6, needR := false, needW := dirty, needC := true, addr := line.toNat * 64, len := 64, kind := .guestEvict dirty, data := data, flits := if dirty then 2 else 1, up := up.val })

/-- GG_CONTROL (11 R506, R514). -/
def wrGgControl (r : Req) (g len val : Nat) (s : State) : State :=
  let st := gateState s g
  objWriteG r (O_GG_CONTROL g) len val
    { state := s.fuse.sites.getLsbD g && match val with
        | 1 => enabled s (unGuest g) && st == 0 && s.rst.lc.toNat ≤ 2
        | 2 => st == 3 && (gate s g).walked
        | _ => true } noRej
    (fun s => match val with
      | 1 => oSet s (O_GG_STATE g) 1
      | 2 => logEv (oSet (oSet (setGate s g { gate s g with walked := false }) (O_GG_VIOL_COUNT g) 0) (O_GG_STATE g) 1) 0x290C sevInfo g
      | _ => oSet (muteGuest s g) (O_GG_STATE g) 0) s
/-- `GG_ENABLE` (11 R506). -/
def execGgEnable (r : Req) (g : Fin 2) (s : State) : Res := .next (wrGgControl r g.val 1 1 s)
/-- `GG_RELEASE` (11 R514). -/
def execGgRelease (r : Req) (g : Fin 2) (s : State) : Res := .next (wrGgControl r g.val 1 2 s)
/-- `GG_HOLD_RESET` (11 R506): the link goes down, so what was in flight for the guest has no one to answer. -/
def execGgHoldReset (r : Req) (g : Fin 2) (s : State) : Res := .next (wrGgControl r g.val 1 3 s)
/-- `GG_LINK_UP` (11 R506). -/
def execGgLinkUp (g : Fin 2) (s : State) : Res :=
  .next (if operating s && enabled s (unGuest g.val) && gateState s g.val == 1 then oSet s (O_GG_STATE g.val) 2 else s)
/-- `GG_QUARANTINE_WALK_DONE` (11 R513 step 4). -/
def execGgQuarantineWalkDone (g : Fin 2) (s : State) : Res :=
  .next (if gateState s g.val == 3 && !(gate s g.val).walked then
    let d := dropAgent s (4 + g.val)
    let n := d.2 + (gate s g.val).lost
    let s1 := if n = 0 then d.1 else logEv d.1 0x2905 sevErr (4 + g.val + min n 0xFFFF * 256)
    setGate s1 g.val { gate s1 g.val with walked := true }
  else s)

end Sys2Proof.Machine
end

