-- ==== Sys2Proof/Machine/TenantRows.lean ====
section
/-! DEFINITION. Tenant resets, reassignment and fault records as commands (01 R34 to R44, 11 R501 to R505). -/
namespace Sys2Proof.Machine

/-- Set the tenants' record. -/
def setTen (s : State) (t : Tenants) : State := { s with ten := t }

/-- TENANT_RESET (11 R517; 01 R38): through a tenant's view only its own number. -/
def wrTenantReset (r : Req) (len val : Nat) (s : State) : State :=
  objWriteG r 0x292001 len val
    { value := val ≤ 15, owns := (match r.view with | some v => v.toNat == val | none => true) } noRej
    (fun s => startReset s val (match roleOf s r with | .tenant _ => 1 | _ => 2)) s
/-- `TENANT_RESET` (01 R39 steps 1 to 3). -/
def execTenantReset (r : Req) (v : BitVec 8) (s : State) : Res := .next (wrTenantReset r 1 v.toNat s)

/-- The target of a transaction is one of some partitions or engines. -/
def aimsAt (ps es : List Nat) (t : Tx) : Bool :=
  match t.target with
  | .part p | .soft _ p => ps.contains p
  | .window e _ | .inbox e _ => es.contains e
  | _ => false
/-- A transaction whose data are held at an access point or engine of those (10 R464). -/
def heldFrom (ps es : List Nat) (t : Tx) : Bool :=
  t.phase == .pull && (match t.init with | .ap p => ps.contains p.val | .eng e _ => es.contains e.val | _ => false)

/-- Every open transaction addressed to some partitions and engines completes with a code; held data of theirs are discarded (01 R39 step 4,
04 R173 step 2, 05 R242 step 2). -/
def drainTxs (s : State) (ps es : List Nat) (code : Nat) : State :=
  setVent s { s.vent with
    inb := s.vent.inb.filter fun b => !ps.contains (b.1 / 256)
    txs := (s.vent.txs.filter fun x => !heldFrom ps es x.2).map fun x =>
      if aimsAt ps es x.2 && x.2.phase != .rsp then (x.1, { x.2 with phase := .rsp, resp := code, data := [0#512] }) else x }

/-- Some partitions and engines are drained and wiped (01 R39 steps 4 and 5); answers still due to requests of theirs are discarded (01 R40; 08 R381). -/
def drainWipe (s : State) (ps es : List Nat) : State :=
  let s1 := drainTxs s ps es rTenantReset
  es.foldl wipeEng (ps.foldl wipePart (setVent s1 { s1.vent with txs := orphan ps es s1.vent.txs }))

/-- `TENANT_RESET_DRAIN_DONE` (01 R39 step 4; step 5 begins). -/
def execTenantResetDrainDone (t : Fin 16) (s : State) : Res :=
  .next (match tabFind s.ten.resets t.val with
    | some x => if x.step = 3 then
        setTen (drainWipe s (partsOf s t.val) (engsOf s t.val)) { s.ten with resets := tabPut s.ten.resets t.val { x with step := 5 } } else s
    | none => s)

/-- `TENANT_RESET_WIPE_DONE` (01 R39 step 6; 11 R505). -/
def execTenantResetWipeDone (t : Fin 16) (s : State) : Res :=
  .next (match tabFind s.ten.resets t.val with
    | some x => if x.step = 5 then
        logEvT (setTen s { s.ten with resets := tabDel s.ten.resets t.val }) 0x2902 sevInfo x.source t.val 0xFFFF else s
    | none => s)

/-! ## Reassignment (01 R36, R37, R44; 11 R501). A resource's key: partition p, or 128 + engine. -/

/-- Object that holds a resource's owner. -/
def ownerKey (k : Nat) : Nat := if k < 128 then O_PART_OWNER k else O_ENG_OWNER (k - 128)
/-- A running load names the resource (05 R243). -/
def loadHolds (s : State) (k : Nat) : Bool :=
  match s.ld.load with
  | some l => if k < 128 then l.parts.getLsbD k else l.engs.any (fun e => e.eng == k - 128)
  | none => false
/-- A tenant reset of the present owner or of the receiver runs (01 R44), or a load names the resource. -/
def reassignBlocked (s : State) (k owner : Nat) : Bool :=
  loadHolds s k || (tabFind s.ten.resets (oGet s (ownerKey k))).isSome || (tabFind s.ten.resets owner).isSome
/-- A resource as partitions and engines. -/
def resParts (k : Nat) : List Nat := if k < 128 then [k] else []
def resEngs (k : Nat) : List Nat := if k < 128 then [] else [k - 128]
/-- The treatment starts: the resource refuses, answers to its earlier requests are discarded, its epoch advances. -/
def reassignStart (s : State) (k owner : Nat) : State :=
  let s1 := setTen s { s.ten with reassign := tabPut s.ten.reassign k { owner := owner, step := 3 } }
  let s2 := { setVent s1 { s1.vent with txs := orphan (resParts k) (resEngs k) s1.vent.txs } with eng := abandonOff (resEngs k) s.eng }
  advanceEpochs s2 (resParts k) (resEngs k)
/-- Its requests are completed and its wipe begins (01 R39 steps 4 and 5). -/
def reassignWipe (s : State) (k : Nat) (x : Reassign) : State :=
  setTen (drainWipe s (resParts k) (resEngs k)) { s.ten with reassign := tabPut s.ten.reassign k { x with step := 5 } }
/-- What time alone brings to the treatments: the table has no command for the end of their step 4 (log entry 91). -/
def reassignTick (s : State) : State :=
  s.ten.reassign.foldl (fun a x => if x.2.step = 3 then reassignWipe a x.1 x.2 else a) s

/-- The tenant plan and stored parameters are being applied (01 R36). -/
def planTime (s : State) : Bool := s.rst.phase == .planning

/-- A write of an owner object. -/
def wrOwner (r : Req) (k len val : Nat) (s : State) : State :=
  objWriteG r (ownerKey k) len val { value := val ≤ 15, state := (tabFind s.ten.reassign k).isNone } noRej
    (fun s =>
      if oGet s (ownerKey k) = val then s
      else if planTime s then oSet s (ownerKey k) val
      else if reassignBlocked s k val then setTen s { s.ten with reassign := tabPut s.ten.reassign k { owner := val, step := 0 } }
      else reassignStart s k val) s
/-- `PART_OWNER` (11 R501). -/
def execPartOwner (r : Req) (p : Fin 128) (v : BitVec 8) (s : State) : Res := .next (wrOwner r p.val 1 v.toNat s)
/-- `ENG_OWNER` (11 R501). -/
def execEngOwner (r : Req) (e : Fin 768) (v : BitVec 8) (s : State) : Res := .next (wrOwner r (128 + e.val) 1 v.toNat s)

/-- `REASSIGN_START` (01 R44): a held reassignment, once no reset and no load it waits for runs. -/
def execReassignStart (k : Fin 896) (s : State) : Res :=
  .next (match tabFind s.ten.reassign k.val with
    | some x => if x.step = 0 && !reassignBlocked s k.val x.owner then reassignStart s k.val x.owner else s
    | none => s)

/-- `OWNER_CHANGE` (01 R37): the treatment ends, with its wipe if that has not begun, and the owner changes; soft IDs of a partition are released
(10 R427). -/
def execOwnerChange (k : Fin 896) (s : State) : Res :=
  .next (match tabFind s.ten.reassign k.val with
    | some x =>
      if x.step = 0 then s
      else
        let s1 := if x.step = 3 then reassignWipe s k.val x else s
        let s2 := setVent s1 { s1.vent with soft := if k.val < 128 then s1.vent.soft.filter (fun b => b.2 != k.val) else s1.vent.soft }
        oSet (setTen s2 { s2.ten with reassign := tabDel s2.ten.reassign k.val }) (ownerKey k.val) x.owner
    | none => s)

/-! ## Fault records (11 R503, R517) -/

/-- FAULT_CLEAR. -/
def wrFaultClear (r : Req) (t len val : Nat) (s : State) : State :=
  objWriteP r (O_FAULT_CLEAR t) len val (fun s =>
    let old := oGet s (O_FAULT_RECORD t)
    let new := old ^^^ (old &&& val)
    let s1 := oSet s (O_FAULT_RECORD t) new
    if new = 0 then oSet s1 (O_FAULT_INFO t) 0 else s1) s
/-- `FAULT_CLEAR` (11 R517). -/
def execFaultClear (r : Req) (t : Fin 16) (v : BitVec 32) (s : State) : Res := .next (wrFaultClear r t.val 4 v.toNat s)

end Sys2Proof.Machine
end

