-- ==== Sys2Proof/Machine/Cascade.lean ====
section
/-! DEFINITION. Cascade and twin ports above their bring-up: link checks, keys, codewords, enumeration and membership, DTIME across the
cascade, the twin pair (14). -/
namespace Sys2Proof.Machine

/-- Set the lanes' record. -/
def setLanes (s : State) (l : Lanes) : State := { s with lanes := l }
/-- Bring-up of a port. -/
def bup (s : State) (p : Nat) : Bringup := tabGet s.lanes.port p {}
/-- Set it. -/
def setBup (s : State) (p : Nat) (x : Bringup) : State := setLanes s { s.lanes with port := tabPut s.lanes.port p x }
/-- CASC_TRAIN_STATE: 0 STOPPED, 1 DETECT, 2 CAPS, 3 EQ, 4 UP, 5 DOWN. -/
def trainState (s : State) (p : Nat) : Nat := oGet s (O_CASC_TRAIN_STATE p)
/-- Log an event that a cascade port raises. -/
def cascEv (s : State) (code sev data p : Nat) : State := logEvT s code sev data 0 (cascPort p)

/-- Signed and saturating in 24 bits, in two's complement. -/
def sat24 (x : Int) : Nat := if x < -8388608 then 0x800000 else if 8388607 < x then 0x7FFFFF else (x % 16777216).toNat

/-! ## Port usage (13 R565, 14 R597) -/

/-- The device's CASCADE_ID is a position of the torus. -/
def cascPlaced (s : State) : Bool := strapCascId s < cascDx s * cascDy s
/-- MODE uses a port. -/
def portUsed (s : State) (p : Nat) : Bool :=
  match strapMode s with
  | 1 => cascPlaced s && (if p % 2 = 1 then 2 ≤ cascDx s else 2 ≤ cascDy s)
  | 2 => p == 3
  | _ => false
/-- Step 11 of boot has applied every plan, and no STANDBY entry runs (13 R581). -/
def portsMay (s : State) : Bool :=
  s.pwr.vaux && !s.pwr.tripped && s.rst.standby == .none && (s.rst.phase == .applied || s.rst.phase == .waitPin || s.rst.phase == .run)
/-- The conditions of a started port hold (13 R581). -/
def portWants (s : State) (p : Nat) : Bool := portsMay s && portUsed s p && enabled s (unCasc p) && oGet s (O_CASC_LINK_EN p) == 1

/-! ## The twin pair: its states (14 R620 to R634) -/

/-- MODE is TWIN and the device works. -/
def twinRuns (s : State) : Bool := operating s && strapMode s == 2 && enabled s unTwin
/-- Set TWIN_STATE. -/
def setTwinState (s : State) (v : Nat) : State := oSet s O_TWIN_STATE v
/-- The device becomes ACTIVE for a cause of event 0x2C10: the ports complete the requests they held (14 R626, R628). -/
def becomeActive (s : State) (why : Nat) : State :=
  let s1 := setTwinState (setTwin s { s.twin with sent := false, request := false, soloOver := false, why := why }) 4
  logEv (releaseHeld s1) 0x2C10 sevInfo why
/-- The device becomes FENCED for a cause of event 0x2C12. -/
def fenceDevice (s : State) (why : Nat) : State :=
  logEv (setTwinState (setTwin s { s.twin with sent := false, request := false }) 5) 0x2C12 sevErr why

/-- Heartbeat and twin link are both lost (14 R629). -/
def splitResolve (s : State) : State :=
  let w := oGet s O_WITNESS_EN == 1
  match twinState s with
  | 4 => if w then (if s.twin.gnt then s else fenceDevice s 2) else if strapSecondary s then fenceDevice s 3 else s
  | 3 =>
    if w then (if s.twin.gnt then becomeActive s 4 else setTwin s { s.twin with request := true, sent := false })
    else if strapSecondary s then fenceDevice s 3 else becomeActive s 5
  | _ => s

/-- The completions that wait for acknowledgements up to a mirror sequence. -/
def releaseWaits (s : State) (upTo : Nat) : State :=
  let out := s.twin.waits.filter fun w => w.seq ≤ upTo
  out.foldl (fun a w => complete a w.who w.resp 0#512) (setTwin s { s.twin with waits := s.twin.waits.filter fun w => upTo < w.seq })

/-- A STANDBY or CATCHUP device becomes STALE at the loss of the link (14 R631, R632). -/
def goStale (s : State) : State :=
  if twinState s = 2 ∨ twinState s = 3 then setTwinState (setTwin s { s.twin with intact := twinState s == 3, sent := false }) 1 else s

/-- The twin link is lost (14 R629, R631): the ACTIVE device completes every waiting write and marks the granules of unacknowledged records; its
partner becomes STALE, unless heartbeat edges are being missed too, which R629 then decides. -/
def twinLinkLost (s : State) : State :=
  let t := s.twin
  if !t.linkOk then s else
  let active := twinState s == 4
  let dirty := t.unacked.foldl (fun d r => markGranule d (r.line / 1024)) t.dirty
  let marked := if active then rangeCount dirty - rangeCount t.dirty else 0
  let s1 := setTwin s { t with
    linkOk := false
    unacked := []
    copyAt := none
    copies := []
    dirty := if active then dirty else t.dirty
    partner := if active then 1 else t.partner }
  let s2 := logEv (releaseWaits s1 t.seq) 0x2C14 sevWarn (min marked 0xFFFFFF)
  if t.hbLost then splitResolve s2 else if t.missed = 0 then goStale s2 else s2

/-- The twin link has passed its checks (14 R621, R624, R632). Mirror sequences begin anew. -/
def twinLinkPassed (s0 : State) : State :=
  let t := s0.twin
  let s := setTwin s0 { t with linkOk := true, seq := 0, acked := 0, unacked := [], applied := 0, copied := 0, copyAt := none, copies := [] }
  if !t.windowsOk then s
  else
    let s1 := if twinState s = 1 && !strapSecondary s && t.partner ≠ 4 then becomeActive s 1 else s
    if twinState s1 = 4 then
      (if t.partner = 5 || t.partner = 4 then s1
      else
        let dirty := if t.peerIntact then s1.twin.dirty else allGranules s1
        if rangeCount dirty = 0 then logEv (setTwin s1 { s1.twin with partner := 3, dirty := dirty }) 0x2C13 sevInfo 0
        else setTwin s1 { s1.twin with partner := 2, dirty := dirty })
    else if twinState s1 = 1 && (t.partner = 4 || (t.partner ≤ 1 && strapSecondary s1)) then setTwinState (setTwin s1 { s1.twin with partner := 4 }) 2
    else s1

/-! ## A port goes down (13 R587, 14 R602, R615) -/

/-- A port is above DOWN: it was started and is not DOWN. -/
def portAlive (s : State) (p : Nat) : Bool := 1 ≤ trainState s p && trainState s p ≤ 4
/-- The link of a port is gone: no port past its checks starts the count of R615; on the twin port the twin link is lost. -/
def linkGone (s : State) (p st : Nat) : State :=
  let was := oGet s (O_CASC_LINK_STATE p) == 3
  let s1 := oSet (setCport s p { refusedAt := (cport s p).refusedAt }) (O_CASC_LINK_STATE p) st
  if strapMode s = 2 then (if p = 3 then twinLinkLost s1 else s1)
  else if was && (List.range 4).all (fun q => q == p || oGet s1 (O_CASC_LINK_STATE q) != 3) then setCasc s1 { s1.casc with allDown := some s1.fw.dtime }
  else s1
/-- A started port goes DOWN for a reason of event 0x2B02, which is logged at most once per second. -/
def portDown (s : State) (p reason : Nat) : State :=
  if !portAlive s p then s else
  let b := bup s p
  let quiet := match b.downAt with | some t => decide (s.fw.dtime < t + 1000000000) | none => false
  let s1 := setBup s p { offer := b.offer, downAt := if quiet then b.downAt else some s.fw.dtime }
  let s2 := oBump (oSet s1 (O_CASC_TRAIN_STATE p) 5) (O_CASC_RETRAINS p) 1 (2 ^ 32 - 1)
  let s3 := if quiet then s2 else cascEv s2 0x2B02 sevWarn (p * 65536 + reason) p
  linkGone s3 p 1

/-! ## Link checks and keys (14 R598, R604, R605) -/

/-- Fields of a CAPS payload (13 R583). -/
def capsPort (x : Nat) : Nat := bitsAt x 36 2
def capsId (x : Nat) : Nat := bitsAt x 32 4
def capsRole (x : Nat) : Bool := x.testBit 31

/-- The link layer's check of the partner's CAPS fields. -/
def neighbourOk (s : State) (p : Nat) : Bool :=
  let c := oGet s (O_CASC_PARTNER_CAPS p)
  if strapMode s = 2 then capsPort c == 3 && capsRole c != strapSecondary s
  else capsPort c == (p + 2) % 4 && capsId c == cascNeighbour s p

/-- DOWN after a failed check is requested no more than once per second. -/
def refusedDown (s : State) (p : Nat) : State :=
  match (cport s p).refusedAt with
  | some t => if s.fw.dtime < t + 1000000000 then s else portDown (setCport s p { cport s p with refusedAt := some s.fw.dtime }) p 3
  | none => portDown (setCport s p { cport s p with refusedAt := some s.fw.dtime }) p 3
/-- A port fails a check. -/
def linkRefused (s : State) (p code data : Nat) : State :=
  refusedDown (cascEv (oSet s (O_CASC_LINK_STATE p) 4) code sevErr data p) p

/-- A port has reached UP: its link layer checks the partner and sends HELLO with a fresh nonce. -/
def linkUp (s : State) (p : Nat) : State :=
  let c := oGet s (O_CASC_PARTNER_CAPS p)
  if neighbourOk s p then
    let s1 := freeStep (setCport (oSet s (O_CASC_LINK_STATE p) 2) p
      { nonce := (Config.free 64 s.freeCtr).toNat, refusedAt := (cport s p).refusedAt })
    pushMsg s1 p 0x01 ((Config.free 64 s.freeCtr).toNat + (if strapMode s = 2 && s.twin.intact then 2 ^ 64 else 0))
  else linkRefused s p 0x2C02 (p * 65536 + capsId c * 256 + capsPort c)

/-- This device is the lower end of a link: the lower CASCADE_ID, or the PRIMARY. -/
def lowerEnd (s : State) (p : Nat) : Bool :=
  if strapMode s = 2 then !strapSecondary s else strapCascId s < cascNeighbour s p
/-- Bytes of a number, most significant first. -/
def beBytes (n v : Nat) : List Byte := (leBytes n v).reverse
/-- The message M of R605 for counter `k`. -/
def linkMsg (s : State) (p k : Nat) : List Byte :=
  let x := cport s p
  let lo := lowerEnd s p
  let me := strapCascId s
  let it := cascNeighbour s p
  let peer := x.peer.getD 0
  let twin := strapMode s == 2
  beBytes 4 k ++ [0x4E, 0x47, 0x5A, 0x2D, 0x4C, 0x49, 0x4E, 0x4B, 0]
    ++ (if twin then [0, 1] else if lo then [BitVec.ofNat 8 me, BitVec.ofNat 8 it] else [BitVec.ofNat 8 it, BitVec.ofNat 8 me])
    ++ [BitVec.ofNat 8 (if twin then 3 else if lo then p else (p + 2) % 4)]
    ++ (if lo then beBytes 8 x.nonce ++ beBytes 8 peer else beBytes 8 peer ++ beBytes 8 x.nonce)
    ++ beBytes 4 x.session ++ beBytes 2 (oGet s O_PART_ID) ++ beBytes 4 0x200
/-- The 64 bytes derived for a port's session, first byte most significant. -/
def linkKeys (s : State) (p : Nat) : BitVec 768 :=
  Config.hmac (s.casc.secret ++ 0#128) (linkMsg s p 1) ++ Config.hmac (s.casc.secret ++ 0#128) (linkMsg s p 2)
/-- The key of a direction of a port. -/
def linkKey (s : State) (p : Nat) (lowToHigh : Bool) : BitVec 256 :=
  ((linkKeys s p) >>> (if lowToHigh then 512 else 256)).setWidth 256
/-- The key confirmation of the end that sends under a key: the first 8 bytes, the first in bits [7:0] of the payload. -/
def keyConfirm (s : State) (p : Nat) (lowToHigh : Bool) : Nat :=
  let h := Config.hmac (linkKey s p lowToHigh ++ 0#128) ([0x4E, 0x47, 0x4B, 0x43, 0x4E, 0x46] ++ beBytes 4 (cport s p).session)
  leNat (beBytes 8 (h >>> 320).toNat)

/-- A port carries its link layer: it is UP and was not refused. -/
def linkLive (s : State) (p : Nat) : Bool := portsMay s && trainState s p == 4 && oGet s (O_CASC_LINK_STATE p) != 4

/-- `HELLO` (14 R605; R601, R624): the nonce arrives, the keys are derived and KCONF is sent; on the twin link the partner's mirror data and windows are compared. `partner` is the
state that the partner reports, `differ` the windows that differ. -/
def execHello (p : Fin 4) (nonce : BitVec 64) (intact : Bool) (partner : Fin 6) (differ : BitVec 8) (s : State) : Res :=
  .next (if linkLive s p.val && oGet s (O_CASC_LINK_STATE p.val) == 2 then
    let s0 := setCport s p.val { cport s p.val with peer := some nonce.toNat, txCount := 0, rxCount := 0 }
    let s1 := pushMsg s0 p.val 0x02 (keyConfirm s0 p.val (lowerEnd s0 p.val))
    if strapMode s = 2 then
      let s2 := setTwin s1 { s1.twin with peerIntact := intact, partner := partner.val, windowsOk := differ == 0#8 }
      if differ = 0#8 then s2 else logEv s2 0x2C15 sevErr differ.toNat
    else s1
  else s)

/-- `KCONF` (14 R605): checked against the partner's sending key. -/
def execKconf (p : Fin 4) (v : BitVec 64) (s : State) : Res :=
  let p := p.val
  .next (if linkLive s p && oGet s (O_CASC_LINK_STATE p) == 2 && (cport s p).peer.isSome then
    if v.toNat = keyConfirm s p (!lowerEnd s p) then
      let s1 := oSet s (O_CASC_LINK_STATE p) 3
      if strapMode s = 2 then twinLinkPassed s1 else setCasc s1 { s1.casc with allDown := none }
    else linkRefused s p 0x2C03 (p * 65536)
  else s)

/-- The keys of the next session are derived and COUNT restarts (14 R606). -/
def nextSession (s : State) (p idx : Nat) : State := setCport s p { cport s p with session := idx, rxCount := 0, txCount := 0 }
/-- `REKEY` (14 R606): only to the next session. -/
def execRekey (p : Fin 4) (idx : BitVec 32) (s : State) : Res :=
  .next (if linkChecked s p.val && portsMay s && idx.toNat == ((cport s p.val).session + 1) % 2 ^ 32 then nextSession s p.val idx.toNat else s)
/-- `TWEAK_COUNT_LIMIT` (14 R606): the device sends REKEY, one at a time. -/
def execTweakCountLimit (p : Fin 4) (s : State) : Res :=
  .next (if linkChecked s p.val && portsMay s && !((cport s p.val).msgs.any fun m => m.1 == 3) then
    pushMsg s p.val 0x03 (((cport s p.val).session + 1) % 2 ^ 32)
  else s)

/-! ## Codewords (14 R599 to R602) -/

/-- A flit slot as it goes on the line: its 512 bits mixed under the sending key of its direction, with the tweak of R606; its type stands as it is. Before the
partner's nonce is known there is no key. -/
def sealSlot (s : State) (p count i : Nat) (slot : BitVec 514) : BitVec 514 :=
  if (cport s p).peer.isNone then slot
  else
    let low := lowerEnd s p
    (slot >>> 512).setWidth 2 ++ Config.mixLine (linkKey s p low) (BitVec.ofNat 64 ((if low then 0 else 2 ^ 63) + i * 2 ^ 61 + count % 2 ^ 48)) (slot.setWidth 512)
/-- Payload of a link message as its codeword starts: TIME carries DTIME then, TIME_ECHO the time since the receipt of TIME (14 R601). -/
def msgPayload (s : State) (m : Nat × BitVec 120) : BitVec 120 :=
  if m.1 = 4 then BitVec.ofNat 120 s.fw.dtime
  else if m.1 = 5 then BitVec.ofNat 120 (m.2.toNat % 2 ^ 64 + (s.fw.dtime - m.2.toNat % 2 ^ 64) * 1000 * 2 ^ 64) else m.2
/-- The control slot of a codeword (14 R600). -/
def controlSlot (s : State) (p seq : Nat) (m : Nat × BitVec 120) (credits : List Nat) (slots : List (BitVec 514)) : BitVec 514 :=
  let x := cport s p
  let body : BitVec 482 := 0#226 ++ BitVec.ofNat 8 m.1 ++ msgPayload s m
    ++ BitVec.ofNat 80 (credits.foldr (fun c a => c + 256 * a) 0) ++ 0#14 ++ BitVec.ofBool x.bad ++ BitVec.ofBool x.heard ++ BitVec.ofNat 16 x.rxSeq
    ++ BitVec.ofNat 16 seq
  Config.linkCrc slots body ++ body
/-- A port sends its next codeword: one that is to be sent again, bit for bit; with 64 unacknowledged an idle one, which takes no new SEQ and is not kept (log
entry 102); else a new one with what waits; after one that carries REKEY the keys of the next session are in use and COUNT restarts (14 R599, R600, R602, R603, R606). -/
def linkSend (s : State) (p : Nat) : State :=
  let x := cport s p
  match x.resend with
  | c :: rest => setCport s p { x with resend := rest, line := some c }
  | [] =>
    let idle := 64 ≤ (x.txSeq + 65536 - x.txAck) % 65536
    let f := if idle then ([0#514, 0#514, 0#514, 0#514], x) else fillSlots 4 x
    let seq := if idle then x.txSeq else (x.txSeq + 1) % 65536
    let m := if idle then (0, 0#120) else x.msgs.headD (0, 0#120)
    let back := if idle then x.owed.map (fun _ => 0) else x.owed.map fun n => min n 255
    let slots := f.1.mapIdx fun i w => sealSlot s p x.txCount i w
    let c : Codeword := { seq := seq, count := x.txCount, slots := slots, control := controlSlot s p seq m back slots }
    setCport s p { f.2 with
      txSeq := seq
      kept := if idle then x.kept else (x.kept ++ [c]).drop (x.kept.length - 63)
      line := some c
      msgs := if idle then x.msgs else x.msgs.tail
      owed := List.zipWith (fun a b => a - b) x.owed back
      session := if m.1 = 3 then m.2.toNat % 2 ^ 32 else x.session
      txCount := if m.1 = 3 then 0 else x.txCount + 1
      rxCount := if m.1 = 3 then 0 else x.rxCount }

/-- A NAK arrives: kept codewords are sent again from ACK + 1 (14 R602, R637). -/
def linkReplay (s : State) (p : Nat) : State :=
  let x := cport s p
  let fresh := x.replays == 0 || x.replayAt + 1000000000 ≤ s.fw.dtime
  let n := if fresh then 1 else x.replays + 1
  let s1 := setCport s p { x with
    replays := n
    replayAt := if fresh then s.fw.dtime else x.replayAt
    resend := x.kept.filter fun c => decide (1 ≤ (c.seq + 65536 - x.txAck) % 65536 ∧ (c.seq + 65536 - x.txAck) % 65536 ≤ 64) }
  cascEv (oBump s1 (O_CASC_REPLAYS p) 1 (2 ^ 32 - 1)) 0x2C08 sevWarn (p * 65536 + min n 0xFFFF) p

/-- A codeword arrives (14 R602, R603): `fec` is 0 clean, 1 corrected, 2 beyond correction; `back` holds the credits it returns. -/
def codeword (s : State) (p fec : Nat) (crcOk : Bool) (seq : Nat) (ackv : Bool) (ack : Nat) (nak : Bool) (back : BitVec 80) : State :=
  let s0 := if fec = 1 then oBump s (O_CASC_FEC_CORRECTED p) 1 (2 ^ 32 - 1) else s
  let x := cport s0 p
  if fec = 2 || !crcOk then setCport s0 p { x with bad := true }
  else if seq ≠ (x.rxSeq + 1) % 65536 then s0
  else
    let credits := List.zipWith min linkRoom (x.credits.mapIdx fun i n => n + bitsAt back.toNat (8 * i) 8)
    let s1 := setCport s0 p { x with
      bad := false
      heard := true
      rxSeq := seq
      rxCount := x.rxCount + 1
      txAck := if ackv then ack else x.txAck
      credits := credits }
    if nak then linkReplay s1 p else s1

/-- `CODEWORD_RECEIVE` (14 R602). -/
def execCodewordReceive (p : Fin 4) (fec : Fin 3) (crcOk : Bool) (seq : BitVec 16) (ackv : Bool) (ack : BitVec 16) (nak : Bool) (credits : BitVec 80)
    (s : State) : Res :=
  .next (if portsMay s && trainState s p.val == 4 then codeword s p.val fec.val crcOk seq.toNat ackv ack.toNat nak credits else s)

/-- `LINK_LOST_TIMEOUT` (14 R602). -/
def execLinkLostTimeout (p : Fin 4) (s : State) : Res := .next (if portsMay s && trainState s p.val == 4 then portDown s p.val 3 else s)

/-! ## Membership (14 R610 to R615) -/

/-- MODE is CASCADE and the device works. -/
def cascRuns (s : State) : Bool := operating s && strapMode s == 1
/-- The next device on the route from `at_` to `dev`, and the port it leaves by. -/
def hopFrom (s : State) (at_ dev : Nat) : Option (Nat × Nat) :=
  let dx := cascDx s
  let dy := cascDy s
  let x := at_ % dx
  let y := at_ / dx
  let hx := (dev % dx + dx - x) % dx
  let hy := (dev / dx + dy - y % dy) % dy
  if hx ≠ 0 then (if 2 * hx ≤ dx then some ((x + 1) % dx + y * dx, 1) else some ((x + dx - 1) % dx + y * dx, 3))
  else if hy ≠ 0 then (if 2 * hy ≤ dy then some (x + (y + 1) % dy * dx, 2) else some (x + (y + dy - 1) % dy * dx, 0))
  else none
/-- Every device between `at_` and `dev` is a member; a route has at most four links. -/
def routeWhole (s : State) (n at_ dev : Nat) : Bool :=
  match n with
  | 0 => false
  | k + 1 =>
    match hopFrom s at_ dev with
    | none => true
    | some (d, _) => d == dev || ((oGet s O_CASC_MEMBERS).testBit d && routeWhole s k d dev)
/-- The port of `dev` by which a route from `at_` ends. -/
def lastPort (s : State) (n at_ dev : Nat) : Option Nat :=
  match n with
  | 0 => none
  | k + 1 =>
    match hopFrom s at_ dev with
    | none => none
    | some (d, out) => if d = dev then some ((out + 2) % 4) else lastPort s k d dev
/-- The source counts of the cascade ports (14 R611). -/
def setSourceCounts (s : State) : State :=
  let me := strapCascId s
  let mem := (List.range 16).filter fun d => d != me && (oGet s O_CASC_MEMBERS).testBit d
  setCasc s { s.casc with srcCount := (List.range 4).map fun p => (p, 512 * (mem.filter fun d => lastPort s 5 d me == some p).length) }
/-- The member set. -/
def setMembers (s : State) (m : Nat) : State := setSourceCounts (oSet s O_CASC_MEMBERS m)
/-- The port toward the parent (14 R616). -/
def parentPort (s : State) : Option Nat := cascNext s 0
/-- The children: the devices whose route to device 0 leads here first, over a link past its checks; a device not yet admitted among them, which aligns its DTIME
before (14 R612 step 4; log entry 111). -/
def childrenOf (s : State) : List Nat :=
  (List.range 16).filter fun d => d < cascDx s * cascDy s && (hopFrom s d 0).map (·.1) == some (strapCascId s)
    && (match cascNext s d with | some p => linkChecked s p | none => false)

/-- The device is no longer a member (14 R615). -/
def cascLeave (s : State) : State :=
  oSet (oSet (setCasc s { s.casc with allDown := none, polled := 0#16, assigned := 0#16, aligning := false, aligned := false
                                      steer := 0, off20 := 0 }) O_CASC_MEMBERS 0) O_CASC_STATE 1
/-- At the end of boot: JOINING, or STALE; a device outside the torus reports it (14 R597, R612, R621). -/
def cascBoot (s : State) : State :=
  match strapMode s with
  | 1 =>
    let s1 := oSet s O_CASC_STATE 1
    if cascPlaced s1 then s1 else logEv s1 0x2C07 sevWarn (strapCascId s * 256 + 1)
  | 2 => setTwinState s 1
  | _ => s
/-- What time alone brings: a break of every link of more than 1 ms (14 R615), DOWN of a refused port after its second (R598). -/
def cascTick (s : State) : State :=
  let s1 := match s.casc.allDown with
    | some t => if strapMode s = 1 ∧ t + 1000000 < s.fw.dtime then cascLeave s else s
    | none => s
  (List.range 4).foldl (fun a p => if trainState a p = 4 ∧ oGet a (O_CASC_LINK_STATE p) = 4 then refusedDown a p else a) s1

/-- HB_TX: a rising edge every 100 ns (14 R622; where the first falls, log entry 111). -/
def hbTick (s : State) : State :=
  if hbRuns s && s.twin.hbAt + 100 ≤ s.fw.dtime then setTwin s { s.twin with hbAt := s.fw.dtime } else s
/-- Every port whose link layer is live sends a codeword. -/
def linkTick (s : State) : State := (List.range 4).foldl (fun a p => if linkLive a p then linkSend a p else a) s

/-- The master logs what an enumeration found, once its polls are answered or a new round begins (14 R614). -/
def masterBack (s : State) : State :=
  match s.casc.back with
  | some b => logEv (setCasc s { s.casc with back := none }) 0x2C05 sevInfo b.toNat
  | none => s

/-- `ENUM_ROUND` (14 R612): the master, with a port past its checks, polls every position that is not a member and is reached through members
only; it is the first member itself. -/
def execEnumRound (s : State) : Res :=
  .next (if cascRuns s && strapCascId s == 0 && (List.range 4).any (linkChecked s) then
    let s1 := masterBack s
    let m := oGet s1 O_CASC_MEMBERS
    let s2 := setMembers (oSet s1 O_CASC_STATE 2) (if m.testBit 0 then m else m + 1)
    let m2 := oGet s2 O_CASC_MEMBERS
    setCasc s2 { s2.casc with
      polled := (List.range 16).foldl (fun b d => setBit b d (d < cascDx s2 * cascDy s2 && !m2.testBit d && routeWhole s2 5 0 d)) 0#16 }
  else s)

/-- The device's answer to ENUM. -/
def enumAnswerOf (s : State) : EnumAns :=
  { part := oGet s O_PART_ID, id := strapCascId s, dim := oGet s O_CASC_DIM, group := oGet s O_CASC_GROUP, lc := s.rst.lc.toNat
    state := oGet s O_CASC_STATE, dtime := s.fw.dtime }
/-- `ENUM` (14 R612): the device answers. -/
def execEnum (s : State) : Res :=
  .next (if cascRuns s && strapCascId s != 0 && oGet s O_CASC_STATE != 0 then
    setCasc s { s.casc with answered := s.casc.answered + 1, answer := some (enumAnswerOf s) } else s)

/-- Why the master refuses an answer (14 R613); 0 when it does not. -/
def enumReason (s : State) (part id dim group lc : Nat) : Nat :=
  if cascDx s * cascDy s ≤ id then 1 else if dim ≠ oGet s O_CASC_DIM then 2 else if group ≠ oGet s O_CASC_GROUP then 3
  else if part ≠ oGet s O_PART_ID then 4 else if lc ≠ s.rst.lc.toNat then 5 else 0
/-- The master sets its DTIME forward to that of a MASTERLESS member (14 R614). -/
def raiseDtime (s : State) (dev t : Nat) : State :=
  let d := match cascNext s dev with | some p => oGet s (O_CASC_LINK_DELAY p) | none => 0
  let b := (s.casc.back.getD 0#16) ||| BitVec.ofNat 16 (2 ^ dev)
  setCasc (stepDtime s (max s.fw.dtime (t + d))) { s.casc with back := some b }
/-- `ENUM_ANSWER` (14 R613, R614). -/
def execEnumAnswer (dev : Fin 16) (part : BitVec 16) (id : BitVec 4) (dim : BitVec 8) (group : BitVec 64) (lc : BitVec 3) (st : BitVec 8) (t : BitVec 64) (s : State) : Res :=
  .next (if cascRuns s && strapCascId s == 0 && s.casc.polled.getLsbD dev.val then
    let s0 := setCasc s { s.casc with polled := setBit s.casc.polled dev.val false }
    let s1 := if st = 3#8 then raiseDtime s0 dev.val t.toNat else s0
    let why := enumReason s1 part.toNat id.toNat dim.toNat group.toNat lc.toNat
    let s2 := if why = 0 then setCasc s1 { s1.casc with assigned := setBit s1.casc.assigned dev.val true }
      else logEv s1 0x2C07 sevWarn (dev.val * 256 + why)
    if s2.casc.polled = 0#16 then masterBack s2 else s2
  else s)

/-- `ASSIGN` (14 R612 step 4): a device that is not yet a member sets its source counts and begins to align; a member takes the new set. -/
def execAssign (members : BitVec 16) (s : State) : Res :=
  .next (if cascRuns s && strapCascId s != 0 && cascPlaced s then
    match oGet s O_CASC_STATE with
    | 2 => setMembers s members.toNat
    | 1 | 3 => setMembers (setCasc s { s.casc with aligning := true, aligned := false, off20 := 0 }) members.toNat
    | _ => s
  else s)

/-- `ADMIT` (14 R612 step 5): on the master, the aligned device joins the set; on the device, CASC_STATE reads MEMBER. -/
def execCascAdmit (dev : Fin 16) (s : State) : Res :=
  let m := oGet s O_CASC_MEMBERS
  let with_ := if m.testBit dev.val then m else m + 2 ^ dev.val
  .next (if !cascRuns s then s
    else if strapCascId s = 0 then
      (if s.casc.assigned.getLsbD dev.val then
        logEv (setMembers (setCasc s { s.casc with assigned := setBit s.casc.assigned dev.val false }) with_) 0x2C01 sevInfo dev.val
      else s)
    else if dev.val = strapCascId s && s.casc.aligning && s.casc.aligned then
      logEv (setMembers (oSet (setCasc s { s.casc with aligning := false, aligned := false }) O_CASC_STATE 2) with_) 0x2C01 sevInfo dev.val
    else s)

/-- `MASTER_LOST_TIMEOUT` (14 R614). -/
def execMasterLostTimeout (s : State) : Res :=
  .next (if cascRuns s && strapCascId s != 0 && oGet s O_CASC_STATE == 2 then
    logEv (oSet (setCasc s { s.casc with steer := 0, off20 := 0 }) O_CASC_STATE 3) 0x2C04 sevErr ((parentPort s).getD 0)
  else s)

/-! ## DTIME across the cascade (14 R616, R617) -/

/-- `TIME_PERIOD`: each parent sends TIME to each child. -/
def execTimePeriod (s : State) : Res :=
  .next (if cascRuns s && (oGet s O_CASC_STATE == 2 || oGet s O_CASC_STATE == 3) then
    (childrenOf s).foldl (fun a d => match cascNext a d with | some p => pushMsg a p 0x04 0 | none => a)
      (setCasc s { s.casc with timesSent := s.casc.timesSent + (childrenOf s).length })
  else s)

/-- `TIME`: the child notes its own DTIME at receipt and answers TIME_ECHO. -/
def execTime (p : Fin 4) (t : BitVec 64) (s : State) : Res :=
  .next (if cascRuns s && linkChecked s p.val && parentPort s == some p.val && (s.casc.aligning || oGet s O_CASC_STATE == 2) then
    pushMsg (setCport s p.val { cport s p.val with timeRx := some (t.toNat, s.fw.dtime) }) p.val 0x05 s.fw.dtime
  else s)

/-- The offset of this device to its parent, in ps: its DTIME at the receipt of TIME less the parent's there (14 R616). -/
def timeOffset (t own trip turn : Nat) : Int := ((own : Int) - t) * 1000 - ((trip : Int) - turn) / 2
/-- The steering after an offset: against it, within 250 ppm; how far, the spec leaves open (log entry 2). -/
def steerFor (free : Nat) (off : Int) : Int :=
  let m : Int := (Config.freeNat free % 251 : Nat)
  if off = 0 then 0 else if 0 < off then -m else m
/-- A member's offset is judged and steered (14 R616, R617). -/
def steerTime (s : State) (off : Int) : State :=
  let far := decide (20000 < off.natAbs)
  let n := if far then s.casc.off20 + 1 else 0
  let s1 := freeStep (setCasc s { s.casc with off20 := n, steer := steerFor s.freeCtr off })
  if n = 10 then logEv s1 0x2C09 sevWarn (min (off.natAbs / 1000) 0xFFFFFF) else s1
/-- Before admission DTIME steps once to the parent's value (14 R616). -/
def stepTime (s : State) (off : Int) : State :=
  let step := -(off / 1000)
  let s1 := stepDtime s ((s.fw.dtime : Int) + step).toNat
  logEv (setCasc s1 { s1.casc with aligned := true }) 0x2C06 sevWarn (sat24 step)

/-- `TIME_ECHO` (14 R616): `trip` is the round trip and `turn` the turnaround, in ps. -/
def execTimeEcho (p : Fin 4) (trip turn : BitVec 56) (s : State) : Res :=
  .next (if cascRuns s && linkChecked s p.val then
    match (cport s p.val).timeRx with
    | none => s
    | some (t, own) =>
      let off := timeOffset t own trip.toNat turn.toNat
      let s1 := setCport s p.val { cport s p.val with timeRx := none }
      let s2 := oSet (oSet s1 (O_CASC_LINK_DELAY p.val) (min ((trip.toNat - turn.toNat) / 2000) 0xFFFF)) O_DTIME_OFFSET ((off % 2 ^ 32).toNat)
      if s2.casc.aligning && !s2.casc.aligned then stepTime s2 off
      else if s2.casc.aligning || oGet s2 O_CASC_STATE = 2 then steerTime s2 off else s2
  else s)

/-! ## Twin rows (14 R620 to R635) -/

/-- `HB_EDGE_MISSED` (14 R622, R628 to R630): `first` tells that an edge has arrived since the last one missed. -/
def execHbEdgeMissed (first : Bool) (s : State) : Res :=
  .next (if twinRuns s then
    let s0 := if first && !s.twin.linkOk && s.twin.missed != 0 && !s.twin.hbLost then goStale s else s
    let n := if first then 1 else s0.twin.missed + 1
    let s1 := setTwin s0 { s0.twin with missed := n, hbLost := 3 ≤ n }
    if n = 3 then
      let s2 := logEv s1 0x2C11 sevErr (twinState s1)
      if !s2.twin.linkOk then splitResolve s2
      else if twinState s2 = 3 then pushMsg (setTwin s2 { s2.twin with sent := true }) 3 0x06 0 else s2
    else s1
  else s)

/-- `HB_GONE` (14 R628): a STANDBY device takes over without TAKEOVER. -/
def execHbGone (s : State) : Res := .next (if twinRuns s && twinState s == 3 then becomeActive s 3 else s)

/-- `TAKEOVER` (14 R628 step 3). -/
def execTakeover (s : State) : Res :=
  .next (if twinRuns s && s.twin.linkOk then
    let s1 := if twinState s = 5 then s else fenceDevice s 1
    pushMsg (setTwin s1 { s1.twin with fenceAcked := s1.twin.fenceAcked + 1, partner := 4 }) 3 0x07 0
  else s)

/-- `FENCE_ACK` (14 R628 step 5). -/
def execFenceAck (s : State) : Res :=
  .next (if twinRuns s && s.twin.linkOk && s.twin.sent && twinState s == 3 then becomeActive (setTwin s { s.twin with partner := 5 }) 2 else s)

/-- `TAKEOVER_ACK_TIMEOUT` (14 R628): the link counts as lost. -/
def execTakeoverAckTimeout (s : State) : Res :=
  .next (if twinRuns s && s.twin.linkOk && s.twin.sent && twinState s == 3 then
    portDown (setTwin s { s.twin with sent := false }) 3 3 else s)

/-- `WITNESS_GNT` (14 R621, R629). -/
def execWitnessGnt (level : Bool) (s : State) : Res :=
  .next (if twinRuns s then
    let s1 := setTwin s { s.twin with gnt := level }
    if level then
      (if !s.twin.request then s1
      else if twinState s = 3 then becomeActive s1 4
      else if twinState s = 1 && s.twin.soloOver && !s.twin.linkOk then becomeActive s1 (if strapSecondary s then 4 else 1)
      else s1)
    else if twinState s = 4 && oGet s O_WITNESS_EN = 1 && s.twin.hbLost && !s.twin.linkOk then fenceDevice s1 2
    else s1
  else setTwin s { s.twin with gnt := level })

/-- `WITNESS_TIMEOUT` (14 R629): a standby that is not granted stays in STANDBY. -/
def execWitnessTimeout (s : State) : Res :=
  .next (if twinRuns s && s.twin.request && twinState s == 3 && !s.twin.gnt then
    logEv (setTwin s { s.twin with request := false }) 0x2C12 sevErr 2 else s)

/-- `TWIN_SOLO_TIMEOUT` (14 R621): TWIN_SOLO_WAIT has passed with no partner. -/
def execTwinSoloTimeout (s : State) : Res :=
  .next (if twinRuns s && twinState s == 1 && !s.twin.linkOk then
    let s1 := setTwin s { s.twin with soloOver := true }
    if oGet s O_WITNESS_EN = 1 then
      (if s.twin.gnt then becomeActive s1 (if strapSecondary s then 4 else 1) else setTwin s1 { s1.twin with request := true })
    else if strapSecondary s then s1 else becomeActive s1 1
  else s)

/-- `MIRROR_RECORD` (14 R625, R632): the record next in sequence is applied by the mirror engine; `synced` tells that the ACTIVE device's dirty map is
empty with it. -/
def execMirrorRecord (seq : BitVec 32) (line : BitVec 46) (data : BitVec 512) (synced : Bool) (s : State) : Res :=
  .next (if twinRuns s && s.twin.linkOk && (twinState s == 2 || twinState s == 3) then
    let t := s.twin
    let next := seq.toNat == (t.applied + 1) % 2 ^ 32
    let s1 := if next then
        if mirrorAdmits s line.toNat then
          let s0 := pushMsg (setTwin s { t with applied := t.applied + 1 }) 3 0x08 ((t.applied + 1) % 2 ^ 32)
          match refOfLine s0 line.toNat with
          | some m => memWrite s0 m data false 0 0
          | none => s0
        else gwEvent s 0 4
      else s
    if synced && (next || seq.toNat == t.applied % 2 ^ 32) && twinState s1 = 2 then setTwinState (setTwin s1 { s1.twin with intact := false }) 3 else s1
  else s)

/-- The first dirty granule of a list of ranges that is not being copied already. -/
def nextGranule (dirty : List (Nat × Nat)) (busy : List (Nat × Nat)) : Option Nat :=
  dirty.findSome? fun r => ((List.range (min r.2 (busy.length + 1))).map (r.1 + ·)).find? fun g => !(busy.any fun b => b.1 == g)
/-- The mirror engine of the ACTIVE device copies the next line of a dirty granule to a partner in CATCHUP (14 R632), within the 64 KiB that may be sent
unacknowledged (log entry 102). -/
def copyTick (s : State) : State :=
  let t := s.twin
  if twinRuns s && t.linkOk && t.windowsOk && twinState s == 4 && t.partner == 2 && (asyncOut t).length < 1024 then
    match t.copyAt with
    | none => (match nextGranule t.dirty t.copies with | some g => setTwin s { t with copyAt := some (g, 0) } | none => s)
    | some (g, i) =>
      let line := g * 1024 + i
      let data := match refOfLine s line with | some m => lineNow s m | none => 0#512
      let s1 := if mirrorAdmits s line then sendRecord s line data false else gwEvent s 0 4
      if i < 1023 then setTwin s1 { s1.twin with copyAt := some (g, i + 1) }
      else setTwin s1 { s1.twin with copyAt := none, copies := s1.twin.copies ++ [(g, s1.twin.seq)] }
  else s

/-- `MACK` (14 R625, R632): records up to a sequence are acknowledged, the writes that waited complete, the dirty bits of granules whose copy it covers clear, and with
an empty map the partner is in STANDBY. -/
def execMack (seq : BitVec 32) (s : State) : Res :=
  .next (if twinRuns s && s.twin.linkOk && twinState s == 4 then
    let t := s.twin
    match t.unacked.find? fun r => r.seq % 2 ^ 32 == seq.toNat with
    | none => s
    | some r =>
      let s1 := releaseWaits (setTwin s { t with acked := r.seq, unacked := t.unacked.filter fun u => r.seq < u.seq }) r.seq
      let done := s1.twin.copies.filter fun c => c.2 ≤ r.seq
      let dirty := done.foldl (fun d c => clearGranule d c.1) s1.twin.dirty
      let s2 := setTwin s1 { s1.twin with
        dirty := dirty, copies := s1.twin.copies.filter (fun c => r.seq < c.2), copied := s1.twin.copied + done.length }
      if s2.twin.partner = 2 ∧ rangeCount dirty = 0 then logEv (setTwin s2 { s2.twin with partner := 3 }) 0x2C13 sevInfo (min s2.twin.copied 0xFFFFFF) else s2
  else s)

/-- TWIN_FORCE_ACTIVE (14 R634): `granted` tells whether WITNESS_GNT rises within 300 ns of WITNESS_REQ. -/
def wrTwinForce (r : Req) (len val : Nat) (granted : Bool) (s : State) : State :=
  objWriteG r O_TWIN_FORCE_ACTIVE len val
    { state := twinRuns s && twinState s == 1 && !(s.twin.linkOk && s.twin.partner == 4) && (oGet s O_WITNESS_EN != 1 || granted || s.twin.gnt) } noRej
    (fun s => becomeActive (if granted then setTwin s { s.twin with gnt := true } else s) 6) s
/-- `TWIN_FORCE_ACTIVE` (14 R634). -/
def execTwinForceActive (r : Req) (granted : Bool) (s : State) : Res := .next (wrTwinForce r 1 1 granted s)

/-- TWIN_RELEASE (14 R633). -/
def wrTwinRelease (r : Req) (len val : Nat) (s : State) : State :=
  objWriteG r O_TWIN_RELEASE len val { state := twinState s == 5 } noRej
    (fun s => setTwinState (setTwin s { s.twin with intact := false }) 1) s
/-- `TWIN_RELEASE` (14 R633). -/
def execTwinRelease (r : Req) (s : State) : Res := .next (wrTwinRelease r 1 1 s)

/-! ## Writable objects (14 R623, R624, R636) -/

/-- The value checks of a mirrored window (14 R623). -/
def twinWindowOk (x : Nat) : Bool := bitsAt x 52 10 == 0 && bitsAt x 0 16 == 0 && bitsAt x 89 39 == 0 && (!twValid x || (1 ≤ twGranules x && twGranules x ≤ 16777216))
/-- No valid window overlaps another, and together they hold at most 1 TiB (14 R624). -/
def twinWindowFits (s : State) (i x : Nat) : Bool :=
  let others := (List.range 8).filter fun j => j != i && twValid (twRaw s j)
  !twValid x || (others.all (fun j => twBase x + twGranules x ≤ twBase (twRaw s j) || twBase (twRaw s j) + twGranules (twRaw s j) ≤ twBase x)
    && (others.map fun j => twGranules (twRaw s j)).foldl (· + ·) (twGranules x) ≤ 2 ^ 24)
/-- TWIN_WINDOW. -/
def wrTwinWindow (r : Req) (i len val : Nat) (s : State) : State :=
  objWriteG r (O_TWIN_WINDOW i) len val { value := twinWindowOk val, state := twinWindowFits s i val && !(strapMode s == 2 && trainState s 3 == 4) } noRej
    (fun s => oSet s (O_TWIN_WINDOW i) val) s
/-- CASC_SECRET (14 R604). -/
def wrCascSecret (r : Req) (len val : Nat) (s : State) : State :=
  objWriteG r O_CASC_SECRET len val { state := (List.range 4).all fun p => !portUsed s p || trainState s p == 0 } noRej
    (fun s => setCasc s { s.casc with secret := BitVec.ofNat 256 (beNat (leBytes 32 val)) }) s

end Sys2Proof.Machine
end

