-- ==== Sys2Proof/Machine/Lanes.lean ====
section
/-! DEFINITION. Serial lanes: states, fabric lanes, test features, reference clocks, and the bring-up of cascade and twin ports (13). -/
namespace Sys2Proof.Machine

/-- A lane beyond its objects. -/
def sline (s : State) (l : Nat) : Lane := tabGet s.lanes.lane l {}
/-- Set it. -/
def setLane (s : State) (l : Nat) (x : Lane) : State := setLanes s { s.lanes with lane := tabPut s.lanes.lane l x }
/-- User of a lane (13 R564): a CXL port, a cascade port, a die's fabric. -/
inductive LaneUser where | cxl (p : Nat) | casc (p : Nat) | fabric (d : Nat) deriving DecidableEq, Repr
def laneUser (l : Nat) : LaneUser := if l < 64 then .cxl (l / 16) else if l < 96 then .casc ((l - 64) / 8) else .fabric ((l - 96) / 4)
/-- Lanes of a cascade port. -/
def portLanes (p : Nat) : List Nat := (List.range 8).map fun i => 64 + 8 * p + i
/-- The generator of a lane is enabled (13 R588). -/
def genOn (s : State) (l : Nat) : Bool := (oGet s (O_PRBS_CTRL l)).testBit 13
/-- State of a lane, coded as LANE_STATE (0 ON, 1 QUIET, 2 DORMANT): lanes of a live CXL port are ON within its width (R574); fabric lanes are held in
QUIET while their partition does not run, unless their generator is enabled, and are DORMANT while the die is (R580). -/
def laneNow (s : State) (l : Nat) : Nat :=
  let st := oGet s (O_LANE_STATE l)
  match laneUser l with
  | .cxl p => if oGet s (O_PORT_MODE p) = 0 then st else if s.hub.cxlUp.getLsbD p ∧ l % 16 < (cxl s p).width then 0 else 2
  | .casc _ => st
  | .fabric d =>
    if dieOf s d = .dormant ∨ dieOf s d = .waking then 2 else if st = 0 ∧ ¬ partRuns s (16 * d + 8) ∧ ¬ genOn s l then 1 else st
/-- Bits of LANE_STATUS. -/
def lStat (s : State) (l : Nat) : BitVec 16 := BitVec.ofNat 16 (oGet s (O_LANE_STATUS l))
def setStat (s : State) (l : Nat) (v : BitVec 16) : State := oSet s (O_LANE_STATUS l) v.toNat
/-- Width W of a fabric lane in bits (13 R577). -/
def slineBits (s : State) (l : Nat) : Nat := 32 * 2 ^ oGet s (O_LANE_WIDTH l)
/-- The lane's user leaves its state to LANE_STATE_REQ (13 R574). -/
def laneFree (s : State) (l : Nat) : Bool :=
  match laneUser l with
  | .cxl p => oGet s (O_PORT_MODE p) == 0
  | .casc p => trainState s p == 0
  | .fabric _ => true

/-- A lane goes to a state at once: leaving ON discards a pending injection (R590); in DORMANT its loops and PLL are off. -/
def laneSet (s : State) (l st : Nat) : State :=
  let s1 := oSet (setLane s l { sline s l with goal := st, inject := if st = 0 then (sline s l).inject else 0 }) (O_LANE_STATE l) st
  if st = 2 then setStat s1 l (lStat s1 l &&& 0xFFE1#16) else s1

/-- The receiver's settings; while RX_FREEZE holds them its adaptation takes no step (13 R569, R575). -/
def rxSettings (s : State) (l : Nat) : BitVec 64 := Config.rxSettings l (sline s l).adapt
def adaptStep (s : State) (l : Nat) (x : Lane) : Lane := if (oGet s (O_LANE_CTRL l)).testBit 7 then x else { x with adapt := x.adapt + 1 }

/-! ## Lane states (13 R573 to R575) -/

/-- LANE_STATE_REQ. -/
def wrLaneStateReq (r : Req) (l len val : Nat) (s : State) : State :=
  objWriteG r (O_LANE_STATE_REQ l) len val
    { state := laneFree s l && (match laneUser l with | .fabric d => val != 0 || dieOf s d == .on | _ => true) } noRej
    (fun s => if val = 0 then setLane s l { sline s l with goal := 0 } else laneSet s l val) s
/-- `LANE_REQ_ON` (13 R574). -/
def execLaneReqOn (r : Req) (l : Fin 128) (s : State) : Res := .next (wrLaneStateReq r l.val 1 0 s)
/-- `LANE_REQ_QUIET` (13 R574). -/
def execLaneReqQuiet (r : Req) (l : Fin 128) (s : State) : Res := .next (wrLaneStateReq r l.val 1 1 s)
/-- `LANE_REQ_DORMANT` (13 R574). -/
def execLaneReqDormant (r : Req) (l : Fin 128) (s : State) : Res := .next (wrLaneStateReq r l.val 1 2 s)

/-- The lane is asked to run: by LANE_STATE_REQ, by its started port, by its CXL controller. -/
def laneAsked (s : State) (l : Nat) : Bool :=
  (sline s l).goal == 0 || (match laneUser l with | .cxl p => oGet s (O_PORT_MODE p) != 0 && s.hub.cxlUp.getLsbD p | _ => false)
/-- The circuits of a lane work. -/
def laneWorks (s : State) (l : Nat) : Bool :=
  clocked s && s.rst.phase != .held && (match laneUser l with | .fabric d => dieOf s d == .on | _ => true)

/-- `LANE_ADAPTED` (13 R575): a lane asked to run is ON. -/
def execLaneAdapted (l : Fin 128) (s : State) : Res :=
  let l := l.val
  .next (if laneWorks s l && laneAsked s l && !(sline s l).pllLost then
    let s1 := setLane (setStat s l (lStat s l ||| 0x1E#16)) l (adaptStep s l (sline s l))
    if laneFree s l then oSet s1 (O_LANE_STATE l) 0 else s1
  else s)

/-- A lane's PLL loses lock or its reference (13 R572): its transmitter idles, and its user acts. -/
def pllUnlock (s : State) (l : Nat) : State :=
  let s1 := setLane (setStat s l ((lStat s l &&& 0xFFE5#16) ||| 0x20#16)) l { sline s l with pllLost := true }
  let s2 := logEv s1 0x2B05 sevErr l
  match laneUser l with
  | .casc p => portDown s2 p 4
  | .cxl p => if s2.hub.cxlUp.getLsbD p then cxlDown s2 p else s2
  | .fabric _ => s2
/-- `LANE_PLL_UNLOCK` (13 R572). -/
def execLanePllUnlock (l : Fin 128) (s : State) : Res :=
  .next (if laneWorks s l.val && laneNow s l.val != 2 && !(sline s l.val).pllLost then pllUnlock s l.val else s)
/-- `LANE_PLL_RELOCK` (13 R572). -/
def execLanePllRelock (l : Fin 128) (s : State) : Res :=
  .next (if laneWorks s l.val && (sline s l.val).pllLost then
    setLane (setStat s l.val (lStat s l.val ||| 2#16)) l.val { sline s l.val with pllLost := false } else s)
/-- The lanes of every quad that uses the pin of REFIN lose lock and go down (03 R125). -/
def lanesLoseRef (s : State) : State :=
  (List.range 128).foldl (fun a l =>
    if oGet a (O_QUAD_REFSEL (l / 4)) = strapRefSel a ∧ laneNow a l ≠ 2 ∧ !(sline a l).pllLost then pllUnlock a l else a) s

/-! ## Fabric lanes (13 R576 to R580) -/

/-- The lane of a fabric die that runs user logic. -/
def laneLogic (s : State) (l : Nat) : Bool :=
  match laneUser l with | .fabric d => operating s && laneWorks s l && partRuns s (16 * d + 8) | _ => false
/-- `n` ones. -/
def onesBelow (n : Nat) : BitVec 256 := BitVec.ofNat 256 (2 ^ n - 1)
/-- Level of a PAM4 symbol: the Gray map of its two bits, the more significant first (13 R568). -/
def grayLevel (hi lo : Bool) : Nat := if hi then (if lo then 2 else 3) else if lo then 1 else 0
/-- The symbols of `k` bit pairs of a word, bit 0 first. -/
def pam4Of (w : BitVec 256) (k : Nat) : List Nat := (List.range k).map fun j => grayLevel (w.getLsbD (2 * j + 1)) (w.getLsbD (2 * j))
/-- The 1 / (1 + D) mod 4 precoder from the symbol sent before (13 R568). -/
def precode : Nat → List Nat → List Nat
  | _, [] => []
  | pre, g :: rest => (g + 4 - pre % 4) % 4 :: precode ((g + 4 - pre % 4) % 4) rest
/-- The levels that `n` bits of a word put on the line at a rate under LANE_CTRL `c` after symbol `pre` (13 R568, R594), before the polarity. -/
def levelsOf (rate c pre n : Nat) (w : BitVec 256) : List Nat :=
  if rate < 5 then (List.range n).map fun j => if w.getLsbD j then 1 else 0
  else if c.testBit 3 then precode pre (pam4Of w (n / 2)) else pam4Of w (n / 2)
/-- TX_INVERT: the opposite levels (13 R594). -/
def invertLevels (rate : Nat) (ls : List Nat) : List Nat := ls.map fun g => (if rate < 5 then 1 else 3) - g
/-- The FIR for a value of LANE_TXEQ, in 1/63 of the swing: main tap, and the taps PRE2, PRE1, main, POST1 with their signs (13 R569). -/
def mainTap (x : Nat) : Nat := 63 - bitsAt x 12 3 - bitsAt x 8 4 - bitsAt x 4 4
def firTaps (x : Nat) : List Int := [bitsAt x 12 3, -(bitsAt x 8 4 : Int), mainTap x, -(bitsAt x 4 4 : Int)]
/-- Swing of a transmitter, in mV peak to peak differential (13 R571). -/
def swingMv (x : Nat) : Nat := 400 + 40 * bitsAt x 0 4
/-- What the FIR gives for levels in the order PRE2, PRE1, main, POST1. -/
def firOut (x : Nat) (ls : List Int) : Int := ((firTaps x).zipWith (· * ·) ls).foldl (· + ·) 0

/-! ### The receiver (13 R568, R569, R575, R576) -/

/-- The receiver's inversion of the precoder: each symbol with the one received before it, mod 4. -/
def unprecode : Nat → List Nat → List Nat
  | _, [] => []
  | pre, p :: rest => (p + pre) % 4 :: unprecode p rest
/-- The two bits of a level, the less significant first. -/
def grayBits (g : Nat) : List Bool := match g with | 0 => [false, false] | 1 => [true, false] | 2 => [true, true] | _ => [false, true]
/-- The word that levels received at a rate under LANE_CTRL `c` after symbol `pre` stand for: RX_INVERT, then RX_PRECODE at PAM4 rates (13 R594). -/
def wordOf (rate c pre : Nat) (ls : List Nat) : BitVec 256 :=
  let xs := if c.testBit 2 then invertLevels rate ls else ls
  let bs := if rate < 5 then xs.map (· == 1) else (if c.testBit 4 then unprecode pre xs else xs).flatMap grayBits
  BitVec.ofNat 256 (bs.foldr (fun b n => (if b then 1 else 0) + 2 * n) 0)
/-- The word at the boundary, `slip` bits later than that of the bits as they came. -/
def slipWord (bits slip : Nat) (old new : BitVec 256) : BitVec 256 := BitVec.ofNat 256 ((new.toNat * 2 ^ bits + old.toNat) / 2 ^ slip % 2 ^ bits)
/-- Near-end loopback: the levels on the line reach the lane's own receiver (13 R591). -/
def loopBack (s : State) (l : Nat) (x : Lane) : Lane :=
  let c := oGet s (O_LANE_CTRL l)
  let rate := oGet s (O_LANE_RATE l)
  if bitsAt c 5 2 = 1 then
    let w := wordOf rate c x.rxPre x.line
    { x with rxRaw := w, rx := slipWord (slineBits s l) x.slip x.rxRaw w
             rxPre := if 5 ≤ rate then ((if c.testBit 2 then invertLevels rate x.line else x.line).getLast?).getD x.rxPre else x.rxPre }
  else x
/-- Far-end loopback is selected. -/
def farEnd (s : State) (l : Nat) : Bool := bitsAt (oGet s (O_LANE_CTRL l)) 5 2 == 2

/-- Delays whose bits a sequence adds (13 R588). -/
def prbsTaps (code : Nat) : List Nat :=
  match code with
  | 0 => [7, 6] | 1 => [9, 5] | 2 => [13, 12, 2, 1] | 3 => [15, 14] | 4 => [23, 18] | _ => [31, 28]
/-- The generator's next bit. -/
def prbsBit (code : Nat) (x : BitVec 31) : Bool := (prbsTaps code).foldl (fun a k => a != x.getLsbD (k - 1)) false
/-- Its next `n` bits, the first in bit `k`, and the generator after them. -/
def prbsWord (code : Nat) : Nat → Nat → BitVec 31 → BitVec 256 × BitVec 31
  | 0, _, x => (0#256, x)
  | n + 1, k, x =>
    let b := prbsBit code x
    let r := prbsWord code n (k + 1) ((x <<< 1) ||| (if b then 1#31 else 0#31))
    (r.1 ||| (if b then 1#256 <<< k else 0#256), r.2)
/-- The generator after `n` bits. -/
def prbsRun (code : Nat) : Nat → BitVec 31 → BitVec 31
  | 0, x => x
  | n + 1, x => prbsRun code n ((x <<< 1) ||| (if prbsBit code x then 1#31 else 0#31))
/-- A generator never starts from zero bits, which it could not leave. -/
def prbsSeed (code : Nat) (v : BitVec 31) : BitVec 31 :=
  if v.toNat % 2 ^ ((prbsTaps code).headD 31) = 0 then v ||| 1#31 else v

/-- A word is transmitted: an enabled generator replaces it (R588), or far-end loopback with the data recovered, which no command brings (R591); an injection inverts
its first bits (R590), and its bits are mapped to levels (R568). -/
def laneSend (s : State) (l : Nat) (w : BitVec 256) : State :=
  let x := sline s l
  let bits := slineBits s l
  let ctl := oGet s (O_PRBS_CTRL l)
  let g := prbsWord (bitsAt ctl 10 3) bits 0 x.prbs
  let v := if genOn s l then (if ctl.testBit 9 then g.1 ^^^ onesBelow bits else g.1)
    else if farEnd s l then Config.free 256 s.freeCtr &&& onesBelow bits else w
  let n := min x.inject bits
  let sent := v ^^^ onesBelow n
  let rate := oGet s (O_LANE_RATE l)
  let c := oGet s (O_LANE_CTRL l)
  let ls := levelsOf rate c x.pre bits sent
  setLane (if farEnd s l then freeStep s else s) l (loopBack s l { x with
    last := sent
    inject := x.inject - n
    injected := x.injected + n
    line := if c.testBit 1 then invertLevels rate ls else ls
    pre := if 5 ≤ rate then (ls.getLast?).getD x.pre else x.pre
    prbs := if genOn s l then g.2 else x.prbs })
/-- The lane transmits: it is ON and its PLL holds lock (13 R572). -/
def laneSends (s : State) (l : Nat) : Bool := laneNow s l == 0 && !(sline s l).pllLost

/-- `LANE_TX_WRITE` (13 R576): a word enters the transmit queue unless TX_FULL is high. -/
def execLaneTxWrite (l : Fin 128) (w : BitVec 256) (s : State) : Res :=
  let x := sline s l.val
  .next (if laneLogic s l.val && x.txq.length < 64 then
    setLane s l.val { x with txq := x.txq ++ [w &&& onesBelow (slineBits s l.val)] } else s)

/-- The idle word: alternating bits, 1 in bit 0. -/
def idleWord : BitVec 256 := BitVec.ofNat 256 ((2 ^ 256 - 1) / 3)
/-- `LANE_TX_UNDERFLOW` (13 R578). An enabled generator replaces what is transmitted, not the taking of words (log entry 101). -/
def execLaneTxUnderflow (l : Fin 128) (s : State) : Res :=
  let l := l.val
  .next (if 96 ≤ l && laneWorks s l && laneSends s l && (sline s l).txq.isEmpty then
    let seen := (lStat s l).getLsbD 7
    let s1 := setStat (laneSend s l (idleWord &&& onesBelow (slineBits s l))) l (lStat s l ||| 0x80#16)
    if seen then s1 else logEv s1 0x2B06 sevWarn l
  else s)

/-- `LANE_RX_SLIP` (13 R576): the word boundary moves one bit later, or one symbol at PAM4 rates; `early` is a pulse closer than 8 cycles to the last one. -/
def execLaneRxSlip (l : Fin 128) (early : Bool) (s : State) : Res :=
  let l := l.val
  .next (if laneLogic s l && laneNow s l == 0 && (lStat s l).getLsbD 2 && !early then
    setLane s l { sline s l with slip := ((sline s l).slip + if 5 ≤ oGet s (O_LANE_RATE l) then 2 else 1) % slineBits s l }
  else s)

/-- `LANE_SIGNAL_LOSS` (13 R579). -/
def execLaneSignalLoss (l : Fin 128) (s : State) : Res :=
  let l := l.val
  .next (if laneWorks s l && laneNow s l != 2 then
    let seen := (lStat s l).getLsbD 6
    let s1 := setStat s l ((lStat s l &&& 0xFFF3#16) ||| 0x40#16)
    if 96 ≤ l && !seen then logEv s1 0x2B07 sevWarn l else s1
  else s)
/-- `LANE_SIGNAL_RETURN` (13 R579): the word boundary is then arbitrary. -/
def execLaneSignalReturn (l : Fin 128) (s : State) : Res :=
  let l := l.val
  .next (if laneWorks s l && laneNow s l != 2 then
    freeStep (setLane (setStat s l (lStat s l ||| 0xC#16)) l { sline s l with slip := Config.freeNat s.freeCtr % slineBits s l })
  else s)

/-! ## Test features (13 R588 to R591) -/

/-- `PRBS_LOCK` (13 R589): the checker locks or drops lock; `bits` and `errs` were counted while it was locked. -/
def execPrbsLock (l : Fin 128) (lock : Bool) (bits errs : BitVec 48) (s : State) : Res :=
  let l := l.val
  .next (if laneWorks s l && (oGet s (O_PRBS_CTRL l)).testBit 7 && (!lock || laneNow s l == 0) then
    let s1 := if (lStat s l).getLsbD 8 then
        oBump (oBump s (O_PRBS_BITS l) bits.toNat (2 ^ 48 - 1)) (O_PRBS_ERRORS l) errs.toNat (2 ^ 48 - 1) else s
    setStat s1 l (setBit (lStat s1 l) 8 lock)
  else s)
/-- Reading PRBS_BITS latches PRBS_ERRORS. -/
def rdPrbsBits (r : Req) (l : Nat) (s : State) : State :=
  objReadG r (O_PRBS_BITS l) 8 (oGet s (O_PRBS_BITS l)) (fun s => setLane s l { sline s l with latched := some (oGet s (O_PRBS_ERRORS l)) }) s
/-- `PRBS_BITS_READ` (13 R589). -/
def execPrbsBitsRead (r : Req) (l : Fin 128) (s : State) : Res := .next (rdPrbsBits r l.val s)
/-- The next read of PRBS_ERRORS returns the latched value. -/
def rdPrbsErrors (r : Req) (l : Nat) (s : State) : State :=
  objReadG r (O_PRBS_ERRORS l) 8 ((sline s l).latched.getD (oGet s (O_PRBS_ERRORS l))) (fun s => setLane s l { sline s l with latched := none }) s
/-- PRBS_CLEAR. -/
def wrPrbsClear (r : Req) (len val : Nat) (s : State) : State :=
  objWriteP r O_PRBS_CLEAR len val (fun s =>
    (if val = 0xFF then List.range 128 else [val - 1]).foldl (fun a l => oSet (oSet a (O_PRBS_BITS l) 0) (O_PRBS_ERRORS l) 0) s) s
/-- `PRBS_CLEAR` (13 R593). -/
def execPrbsClear (r : Req) (v : BitVec 8) (s : State) : Res := .next (wrPrbsClear r 1 v.toNat s)
/-- ERR_INJECT (13 R590). -/
def wrErrInject (r : Req) (l len val : Nat) (s : State) : State :=
  objWriteG r (O_ERR_INJECT l) len val { state := laneNow s l == 0 && (sline s l).inject == 0 } noRej
    (fun s => setLane s l { sline s l with inject := val }) s
/-- `ERR_INJECT` (13 R590). -/
def execErrInject (r : Req) (l : Fin 128) (n : BitVec 8) (s : State) : Res := .next (wrErrInject r l.val 1 n.toNat s)

/-! ## Writable objects of the lanes (13 R570, R577, R588, R594) -/

/-- Narrowest width code at a rate code (13 R567). -/
def minWidth (rate : Nat) : Nat := if rate ≤ 3 then 0 else rate - 3
/-- A word rate of at most 1.0 GHz. -/
def wordRateOk (l rate width : Nat) : Bool := l < 96 || minWidth rate ≤ width
/-- LANE_RATE. -/
def wrLaneRate (r : Req) (l len val : Nat) (s : State) : State :=
  objWriteG r (O_LANE_RATE l) len val
    { value := 1 ≤ val && val ≤ 6, state := laneFree s l && laneNow s l != 0 && wordRateOk l val (oGet s (O_LANE_WIDTH l)) } noRej
    (fun s => oSet s (O_LANE_RATE l) val) s
/-- LANE_WIDTH: fabric lanes only. -/
def wrLaneWidth (r : Req) (l len val : Nat) (s : State) : State :=
  objWriteG r (O_LANE_WIDTH l) len val { state := 96 ≤ l && laneNow s l != 0 && wordRateOk l (oGet s (O_LANE_RATE l)) val } noRej
    (fun s => oSet s (O_LANE_WIDTH l) val) s
/-- LANE_TXEQ. -/
def wrLaneTxeq (r : Req) (l len val : Nat) (s : State) : State :=
  objWriteG r (O_LANE_TXEQ l) len val { value := val < 2 ^ 15, state := laneFree s l } noRej (fun s => oSet s (O_LANE_TXEQ l) val) s
/-- LANE_CTRL. -/
def wrLaneCtrl (r : Req) (l len val : Nat) (s : State) : State :=
  objWriteG r (O_LANE_CTRL l) len val { value := val < 256 && !val.testBit 0 && bitsAt val 5 2 != 3, state := laneFree s l } noRej
    (fun s => oSet s (O_LANE_CTRL l) val) s
/-- LANE_STATUS: writing 1 clears a W1C bit. -/
def wrLaneStatus (r : Req) (l len val : Nat) (s : State) : State :=
  objWriteP r (O_LANE_STATUS l) len val (fun s => setStat s l (lStat s l &&& ~~~(BitVec.ofNat 16 val &&& 0xE0#16))) s
/-- PRBS_CTRL. The point at which a generator starts its sequence is a free value (13 R588; log entry 101). -/
def wrPrbsCtrl (r : Req) (l len val : Nat) (s : State) : State :=
  objWriteG r (O_PRBS_CTRL l) len val
    { value := val < 2 ^ 14 && !val.testBit 8 && val % 8 == 0 && bitsAt val 10 3 ≤ 5 && bitsAt val 4 3 ≤ 5, state := !val.testBit 13 || laneFree s l } noRej
    (fun s =>
      let old := oGet s (O_PRBS_CTRL l)
      let s0 := if val.testBit 13 && (!old.testBit 13 || bitsAt old 10 3 != bitsAt val 10 3) then
          freeStep (setLane s l { sline s l with prbs := prbsSeed (bitsAt val 10 3) (Config.free 31 s.freeCtr) }) else s
      let s1 := oSet s0 (O_PRBS_CTRL l) val
      if val.testBit 7 then s1 else setStat s1 l (lStat s1 l &&& 0xFEFF#16)) s
/-- A controller holds its link in reset while the pin of one of its quads is not set to 100 MHz (13 R570). -/
def cxlRefHold (s : State) : State := (List.range 4).foldl (fun a p => if a.hub.cxlUp.getLsbD p && !cxlRefOk a p then cxlDown a p else a) s
/-- QUAD_REFSEL. -/
def wrQuadRefsel (r : Req) (q len val : Nat) (s : State) : State :=
  objWriteG r (O_QUAD_REFSEL q) len val { state := (List.range 4).all fun i => laneNow s (4 * q + i) == 2 } noRej
    (fun s => cxlRefHold (oSet s (O_QUAD_REFSEL q) val)) s
/-- REFCLK_FREQ. -/
def wrRefclkFreq (r : Req) (pin len val : Nat) (s : State) : State :=
  objWriteG r (O_REFCLK_FREQ pin) len val
    { state := (List.range 128).all (fun l => oGet s (O_QUAD_REFSEL (l / 4)) != pin || laneNow s l == 2)
               && (strapRefSel s != pin || val == strapRefFreq s) } noRej
    (fun s => cxlRefHold (oSet s (O_REFCLK_FREQ pin) val)) s

/-! ## Bring-up of cascade and twin ports (13 R581 to R587) -/

/-- A port stops: its lanes go DORMANT. -/
def stopPort (s : State) (p : Nat) : State :=
  let s1 := linkGone (oSet (oSet (setBup s p { downAt := (bup s p).downAt }) (O_CASC_TRAIN_STATE p) 0) (O_CASC_LANE_FAIL p) 0) p 0
  (portLanes p).foldl (fun a l => laneSet a l 2) s1
/-- Every port whose conditions have ceased stops. -/
def portsSettle (s : State) : State := (List.range 4).foldl (fun a p => if trainState a p ≠ 0 ∧ !portWants a p then stopPort a p else a) s
/-- Step 1: the lanes run at 2.5 Gb/s with default equalisation and send CAPS. -/
def startPort (s : State) (p : Nat) : State :=
  let s1 := setBup s p { offer := oGet s (O_CASC_RATE_LIMIT p), downAt := (bup s p).downAt }
  let s2 := oSet (oSet (oSet s1 (O_CASC_TRAIN_STATE p) 1) (O_CASC_LINK_STATE p) 1) (O_CASC_LANE_FAIL p) 0xFF
  (portLanes p).foldl (fun a l =>
    let a1 := oSet (oSet (laneSet a l 0) (O_LANE_RATE l) 1) (O_LANE_TXEQ l) 0x24F
    freeStep (setLane a1 l { sline a1 l with fill := prbsSeed 5 (Config.free 31 a1.freeCtr) })) s2
/-- `CASC_PORT_START` (13 R581). -/
def execCascPortStart (p : Fin 4) (s : State) : Res := .next (if portWants s p.val && trainState s p.val == 0 then startPort s p.val else s)
/-- `CASC_PORT_RESTART` (13 R587). -/
def execCascPortRestart (p : Fin 4) (s : State) : Res := .next (if portWants s p.val && trainState s p.val == 5 then startPort s p.val else s)
/-- `CASC_PORT_DOWN` (13 R587): a reason of event 0x2B02, or 0 for a port that is to stop. -/
def execCascPortDown (p : Fin 4) (reason : Fin 5) (s : State) : Res :=
  .next (if reason.val = 0 then portsSettle s else if portsMay s then portDown s p.val reason.val else s)

/-- The port is UP at its present rate (R585 step 6); a fall-back logs event 0x2B03 (R586). -/
def portUp (s : State) (p : Nat) : State :=
  let b := bup s p
  let s1 := cascEv (oSet (setBup s p { b with measuring := false, next := 0, fallback := none }) (O_CASC_TRAIN_STATE p) 4) 0x2B01 sevInfo (p * 65536 + b.rate) p
  let s2 := match b.fallback with
    | some f => cascEv s1 0x2B03 sevWarn (p * 65536 + f * 256 + b.rate) p
    | none => s1
  linkUp s2 p
/-- The next step after a phase that both ends have passed: the switch to the next higher common rate, or UP. -/
def portStep (s : State) (p : Nat) : State :=
  let b := bup s p
  match b.common.find? (b.rate < ·) with
  | some n => setBup s p { b with next := n, count := 16 }
  | none => portUp s p
/-- Why a port is held in CAPS (R583): 1 MODE, 2 part or version, 0 neither. -/
def capsReason (s : State) (x : Nat) : Nat :=
  if bitsAt x 38 2 ≠ strapMode s then 1 else if bitsAt x 48 16 ≠ oGet s O_PART_ID % 65536 || bitsAt x 40 8 ≠ 1 then 2 else 0
/-- Event 0x2B04, once in a bring-up. -/
def portHeld (s : State) (p why : Nat) : State :=
  if (bup s p).held then s else cascEv (setBup s p { bup s p with held := true }) 0x2B04 sevErr (p * 65536 + why) p
/-- Common rate codes above 0x01. -/
def commonRates (offer caps : Nat) : List Nat := [2, 3, 4, 5, 6].filter fun k => k ≤ offer && caps.testBit (23 + k)

/-- A valid CAPS frame on a lane (R583, R585 steps 2 and 3). -/
def capsFrame (s : State) (p i x : Nat) : State :=
  let b := bup s p
  let fail := (BitVec.ofNat 8 (oGet s (O_CASC_LANE_FAIL p)))
  let s1 := oSet (oSet s (O_CASC_LANE_FAIL p) (setBit fail i false).toNat) (O_CASC_PARTNER_CAPS p) x
  let why := capsReason s x
  let b1 := { b with seen := if why = 0 then tabPut b.seen i (tabGet b.seen i 0 + 1) else [], ack := b.ack || (why == 0 && x.testBit 30) }
  let s2 := oSet (setBup s1 p b1) (O_CASC_TRAIN_STATE p) (if setBit fail i false = 0#8 then 2 else 1)
  if why ≠ 0 then portHeld s2 p why
  else if b1.ack && (List.range 8).all (fun k => 8 ≤ tabGet b1.seen k 0) && b1.next = 0 then
    portStep (setBup s2 p { b1 with common := commonRates b1.offer x }) p
  else s2
/-- A receiver that finds SYNC inverted inverts that lane's polarity itself (13 R582, R594). -/
def setRxInvert (s : State) (l : Nat) : State := oSet s (O_LANE_CTRL l) (oGet s (O_LANE_CTRL l) ^^^ 4)
/-- `CAPS_FRAME` (13 R582, R583): `field` is the LANE field of the frame that arrives on lane `lane`, `inv` that its SYNC is inverted. -/
def execCapsFrame (p : Fin 4) (lane : Fin 8) (field : BitVec 4) (payload : BitVec 64) (crcOk inv : Bool) (s0 : State) : Res :=
  let p := p.val
  let i := lane.val
  .next (if portsMay s0 && (trainState s0 p == 1 || trainState s0 p == 2) then
    let s := if inv then setRxInvert s0 (64 + 8 * p + i) else s0
    if !crcOk || payload.toNat % 2 ^ 24 ≠ 0 then setBup s p { bup s p with seen := tabPut (bup s p).seen i 0 }
    else if field.toNat ≠ i then
      portHeld (oSet (oSet s (O_CASC_TRAIN_STATE p) 1) (O_CASC_LANE_FAIL p) (setBit (BitVec.ofNat 8 (oGet s (O_CASC_LANE_FAIL p))) i true).toNat) p 3
    else capsFrame s p i payload.toNat
  else s0)

/-- A tap field after a request: 1 increments, 2 decrements, within its range. -/
def tapStep (v q top : Nat) : Nat := if q = 1 ∧ v < top then v + 1 else if q = 2 ∧ 0 < v then v - 1 else v
/-- LANE_TXEQ after the requests of an EQ frame (R584). -/
def tapsAfter (x q : Nat) : Nat :=
  tapStep (bitsAt x 12 3) (bitsAt q 6 2) 7 * 4096 + tapStep (bitsAt x 8 4) (bitsAt q 4 2) 15 * 256
    + tapStep (bitsAt x 4 4) (bitsAt q 2 2) 15 * 16 + tapStep (bitsAt x 0 4) (bitsAt q 0 2) 15
/-- Fall back to the last rate that passed (R586 step 1). -/
def fallBack (s : State) (p : Nat) : State :=
  let b := bup s p
  let last := (((1 :: b.common).filter (· < b.rate)).getLast?).getD 1
  setBup s p { b with fallback := some b.rate, next := last, count := 16, measuring := false, passed := false }
/-- An EQ frame on a lane (R584, R585 step 4). -/
def eqFrame (s : State) (p i x : Nat) : State :=
  let l := 64 + 8 * p + i
  let s1 := oSet s (O_LANE_TXEQ l) (tapsAfter (oGet s (O_LANE_TXEQ l)) (x % 256))
  let b := bup s1 p
  let pass := bitsAt x 48 8 == 1
  let s2 := setBup s1 p { b with partner := if !pass then 0 else if i = 0 then b.partner + 1 else b.partner }
  let n := bitsAt x 40 8
  if n ≠ 0 ∧ n < b.rate ∧ b.fallback.isNone then fallBack s2 p
  else if b.passed && 4 ≤ (bup s2 p).partner && b.next = 0 then portStep s2 p
  else s2
/-- `EQ_FRAME` (13 R582, R584). -/
def execEqFrame (p : Fin 4) (lane : Fin 8) (field : BitVec 4) (payload : BitVec 64) (crcOk : Bool) (s : State) : Res :=
  .next (if portsMay s && trainState s p.val == 3 && crcOk && field.toNat == lane.val && bitsAt payload.toNat 8 24 == 0 then
    eqFrame s p.val lane.val payload.toNat else s)

/-! ### The frames a port sends (13 R582 to R584) -/

/-- CRC-16 with polynomial 0x1021 and initial value 0xFFFF over bits [111:0], the highest first (log entry 101). -/
def frameCrc (x : BitVec 112) : BitVec 16 :=
  (List.range 112).foldl (fun (c : BitVec 16) k => if c.getLsbD 15 != x.getLsbD (111 - k) then (c <<< 1) ^^^ 0x1021#16 else c <<< 1) 0xFFFF#16
/-- A training frame: CRC, reserved zeros, payload, lane, type, SYNC (13 R582). -/
def trainFrame (type lane : Nat) (payload : BitVec 64) : BitVec 128 :=
  let body := 0#8 ++ payload ++ BitVec.ofNat 4 lane ++ BitVec.ofNat 4 type ++ 0x4E474C54#32
  frameCrc body ++ body
/-- The CAPS payload that port `p` sends: its identity and its offer (13 R583). -/
def capsSent (s : State) (p : Nat) : BitVec 64 :=
  let b := bup s p
  let casc := strapMode s = 1
  BitVec.ofNat 16 (oGet s O_PART_ID) ++ 1#8 ++ BitVec.ofNat 2 (strapMode s) ++ BitVec.ofNat 2 p ++ BitVec.ofNat 4 (if casc then strapCascId s else 0)
    ++ BitVec.ofBool (!casc && strapSecondary s) ++ BitVec.ofBool ((List.range 8).all fun k => 8 ≤ tabGet b.seen k 0)
    ++ BitVec.ofNat 6 (2 ^ b.offer - 1) ++ 0#24
/-- The EQ payload that port `p` sends on a lane: its rate, its status, the rate it names and its countdown; its own tap requests are a free value, none of
them the reserved code (13 R584; log entry 101). -/
def eqSent (s : State) (p : Nat) : BitVec 64 :=
  let b := bup s p
  let req := Config.free 8 s.freeCtr
  BitVec.ofNat 8 b.rate ++ BitVec.ofNat 8 (if b.passed then 1 else if b.fallback = some b.rate then 2 else 0) ++ BitVec.ofNat 8 b.next
    ++ BitVec.ofNat 8 (if b.next = 0 then 0 else b.count) ++ 0#24 ++ (req &&& ~~~((req &&& 0x55#8) <<< 1))
/-- The frame that lane `i` of a port sends: EQ while it names a rate or runs an EQ phase, else CAPS (13 R582, R585). -/
def frameSent (s : State) (p i : Nat) : BitVec 128 :=
  if trainState s p = 3 ∨ (bup s p).next ≠ 0 then trainFrame 2 i (eqSent s p) else trainFrame 1 i (capsSent s p)
/-- A lane of a port in bring-up sends a frame and fills its 4,096 bits with the sequence; a pending injection inverts its first bits (13 R582, R590). -/
def bringLane (s : State) (p i : Nat) : State :=
  let l := 64 + 8 * p + i
  let x := sline s l
  if !laneSends s l then s
  else
    let mask := BitVec.ofNat 128 (2 ^ min x.inject 128 - 1)
    freeStep (setLane s l { x with frame := frameSent s p i ^^^ mask, fill := prbsRun 5 3968 x.fill, inject := 0, injected := x.injected + x.inject })
/-- A tick of a port in bring-up: a frame on every lane, then its countdown (13 R582, R585 step 4; log entry 101). -/
def bringStep (s : State) (p : Nat) : State :=
  if !portsMay s || !(trainState s p == 1 || trainState s p == 2 || trainState s p == 3) then s
  else
    let s1 := (List.range 8).foldl (fun a i => bringLane a p i) s
    setBup s1 p { bup s1 p with count := (bup s1 p).count - 1 }
/-- A tick of the ports in bring-up. -/
def bringTick (s : State) : State := (List.range 4).foldl bringStep s

/-- `BRINGUP_RATE_SWITCH` (13 R585 step 4, R586 step 2). -/
def execBringupRateSwitch (p : Fin 4) (s : State) : Res :=
  let p := p.val
  let b := bup s p
  .next (if portsMay s && (trainState s p == 2 || trainState s p == 3) && b.next != 0 then
    let s1 := oSet (setBup s p { b with rate := b.next, next := 0, measuring := b.fallback.isSome, failed := 0, passed := false, partner := 0 }) (O_CASC_TRAIN_STATE p) 3
    (portLanes p).foldl (fun a l =>
      let a1 := oSet a (O_LANE_RATE l) b.next
      if b.fallback.isSome then oSet a1 (O_LANE_TXEQ l) (tabGet b.taps l 0x24F) else a1) s1
  else s)

/-- `BRINGUP_ADAPT_END` (13 R585 step 5). -/
def execBringupAdaptEnd (p : Fin 4) (s : State) : Res :=
  let b := bup s p.val
  .next (if portsMay s && trainState s p.val == 3 && b.next == 0 && !b.measuring && !b.passed then setBup s p.val { b with measuring := true } else s)

/-- A measurement passes: no error at NRZ, an error ratio of at most 1 in 100,000 at PAM4 (R586). -/
def measureOk (rate errors bits : Nat) : Bool := if rate < 5 then errors == 0 else errors * 100000 ≤ bits
/-- `BRINGUP_MEASURE_END` (13 R586). -/
def execBringupMeasureEnd (p : Fin 4) (errors bits : Nat) (s : State) : Res :=
  let p := p.val
  let b := bup s p
  .next (if portsMay s && trainState s p == 3 && b.measuring then
    if measureOk b.rate errors bits then
      (if b.fallback.isSome then portUp s p
      else
        let s1 := setBup s p { b with measuring := false, passed := true, taps := (portLanes p).map fun l => (l, oGet s (O_LANE_TXEQ l)) }
        if 4 ≤ b.partner then portStep s1 p else s1)
    else if b.fallback.isSome then portDown s p 2
    else if b.failed = 0 then setBup s p { b with measuring := false, failed := 1 }
    else fallBack s p
  else s)

/-- CASC_LINK_EN. -/
def wrCascLinkEn (r : Req) (p len val : Nat) (s : State) : State :=
  objWriteP r (O_CASC_LINK_EN p) len val (fun s => portsSettle (oSet s (O_CASC_LINK_EN p) val)) s
/-- CASC_DIM (14 R636, R597). -/
def wrCascDim (r : Req) (len val : Nat) (s : State) : State :=
  objWriteG r O_CASC_DIM len val
    { value := 1 ≤ val / 16 && val / 16 ≤ 4 && 1 ≤ val % 16 && val % 16 ≤ 4, state := oGet s O_CASC_STATE != 2 } noRej
    (fun s =>
      let s1 := portsSettle (oSet s O_CASC_DIM val)
      if strapMode s1 = 1 && oGet s1 O_CASC_STATE != 0 && !cascPlaced s1 then logEv s1 0x2C07 sevWarn (strapCascId s1 * 256 + 1) else s1) s

/-- The payload of a codeword, slot 0 lowest and the control slot highest (14 R599). -/
def codeBits (c : Codeword) : BitVec 2570 := BitVec.ofNat 2570 ((c.slots ++ [c.control]).foldr (fun w n => w.toNat + 2 ^ 514 * n) 0)
/-- The symbols of a codeword on lane `i`: symbol k goes on lane k mod 8, the first in bits [9:0] (14 R599). -/
def laneSymbols (w : BitVec 2720) (i : Nat) : BitVec 340 :=
  BitVec.ofNat 340 ((List.range 34).foldr (fun j n => bitsAt w.toNat (10 * (8 * j + i)) 10 + 2 ^ 10 * n) 0)
/-- The lanes of a port carry the codeword it has sent; a pending injection inverts its first bits (13 R590; 14 R599). -/
def codeStep (s : State) (p : Nat) : State :=
  match (cport s p).line with
  | some c =>
    if linkLive s p then
      let w := Config.rsCode (codeBits c)
      (List.range 8).foldl (fun a i =>
        let l := 64 + 8 * p + i
        let x := sline a l
        setLane a l { x with code := laneSymbols w i ^^^ BitVec.ofNat 340 (2 ^ x.inject - 1), inject := 0, injected := x.injected + x.inject }) s
    else s
  | none => s
/-- A tick of the lanes of the cascade and twin ports. -/
def codeTick (s : State) : State := (List.range 4).foldl codeStep s

/-! ## Dormancy and time -/

/-- The lanes of a die that goes dormant (13 R580). -/
def lanesDieDormant (s : State) (d : Nat) : State := (List.range 4).foldl (fun a i => laneSet a (96 + 4 * d + i) 2) s
/-- Every lane goes DORMANT, every started port stops (13 R592). -/
def lanesAllDormant (s : State) : State :=
  (List.range 128).foldl (fun a l => laneSet a l 2) ((List.range 4).foldl (fun a p => if trainState a p ≠ 0 then stopPort a p else a) s)
/-- A tick of one lane: the receiver of a lane that is ON with its signal present adapts (R569); a fabric lane that is ON takes a word from its queue, a lane with its
generator or far-end loopback on transmits a word of it; a pending injection is sent, or discarded off ON (R578, R588, R590, R591). -/
def laneStep (s : State) (l : Nat) : State :=
  let x := sline s l
  if laneNow s l ≠ 0 then (if x.inject = 0 then s else setLane s l { x with inject := 0 })
  else
    let y := if (lStat s l).getLsbD 2 then adaptStep s l x else x
    if y.pllLost then setLane s l y
    else match y.txq with
      | w :: q => laneSend (setLane s l { y with txq := q }) l w
      | [] => if genOn s l || farEnd s l then laneSend (setLane s l y) l 0#256 else setLane s l { y with inject := 0, injected := y.injected + y.inject }
/-- A tick of the lanes. -/
def laneTick (s : State) : State := (s.lanes.lane.map (·.1)).foldl laneStep s

end Sys2Proof.Machine
end

