-- ==== Sys2Proof/Machine/ClockRows.lean ====
section
/-! DEFINITION. The clock monitor's windows and the clock enables, which reach the lanes and the cascade ports (03 R123 to R132). -/
namespace Sys2Proof.Machine

/-- A reference failure (03 R125). -/
def refFailure (s : State) (count : Nat) : State :=
  let s1 := setClk s { s.clk with mode := .rc, refFail := true, accepted := false, holdover := false, sinceFail := 0 }
  lanesLoseRef (logEv s1 0x2201 sevErr count)

/-- One window of the monitor has ended with `count` edges (03 R114, R123 to R126). A bad window withdraws acceptance before the root PLL is locked, and never in RC
mode. Event 0x2207 carries the count of the window out of band, and that of this one where missing edges alone brought the holdover (log entry 94). -/
def windowEnd (s : State) (count : Nat) : State :=
  let b := bandOf s
  let good := b.1 ≤ count && count ≤ b.2
  let c0 := { s.clk with
    inBand := good, refCount := BitVec.ofNat 16 count
    goodRun := if good then s.clk.goodRun + 1 else 0
    badRun := if good then 0 else s.clk.badRun + 1
    sinceFail := s.clk.sinceFail + 1 }
  let s0 := setClk s c0
  if good then
    if c0.mode == .ref && c0.locked then
      if c0.holdover then
        logEv (setClk s { c0 with holdover := false }) 0x2207 sevWarn
          (if s.clk.badRun = 0 then count else s.clk.refCount.toNat)
      else s0
    else if !c0.accepted && 2 ≤ c0.goodRun && xtalOk s && !strapError s then setClk s (acceptRef c0)
    else s0
  else if c0.mode == .ref && c0.locked then
    if 2 ≤ c0.badRun then refFailure s0 count else setClk s { c0 with holdover := true }
  else setClk s { c0 with accepted := if c0.locked then c0.accepted else false }

/-- `MONITOR_WINDOW_END` (03 R123). -/
def execMonitorWindowEnd (count : BitVec 16) (s : State) : Res :=
  .next (if rc100Runs s && !s.clk.monStopped then windowEnd s count.toNat else s)

/-- Writing CLK_EN of unit `u` (03 R128 to R132). -/
def wrClkEn (r : Req) (u len val : Nat) (s : State) : State :=
  objWriteG r (O_CLK_EN u) len val { state := if val = 1 then mayClock s u else mayGate s u } noRej
    (fun s => if val = 1 then setEnable s u else portsSettle (clearEnable s u)) s

/-- `CLK_EN_SET` (03 R131). -/
def execClkEnSet (r : Req) (unit : Fin 38) (s : State) : Res := .next (wrClkEn r unit.val 1 1 s)
/-- `CLK_EN_CLEAR` (03 R130). -/
def execClkEnClear (r : Req) (unit : Fin 38) (s : State) : Res := .next (wrClkEn r unit.val 1 0 s)

end Sys2Proof.Machine
end

