-- ==== Sys2Proof/Machine/PowerStates.lean ====
section
/-! DEFINITION. Resets as commands, the wipe and boot up to step 6, DIE-DORMANT, STANDBY and the life cycle (04). -/
namespace Sys2Proof.Machine

/-- Set the reset unit's record. -/
def setRst (s : State) (r : ResetUnit) : State := { s with rst := r }
/-- Keep the answer just given across a reset that the same access starts. -/
def keepAns (s t : State) : State := { t with ans := s.ans }

/-! ## Reset sources (04 R158 to R162) -/

/-- Boot starts once nothing holds the device in reset (04 R160, R169). -/
def startBoot (s : State) : State :=
  if s.pwr.vaux && s.pwr.sysRstN && !s.pwr.tripped && !s.pwr.effReset && s.rst.phase == .held && !s.rst.flushing && s.rst.standby == .none
  then setRst s { s.rst with phase := .wiping } else s

/-- `SYS_RST_N_LOW` (04 R160): a warm reset, ignored in STANDBY; the pin holds the device in reset. -/
def execSysRstNLow (s : State) : Res :=
  .next (if s.pwr.vaux then
    warmReset (setPwr s { s.pwr with sysRstN := false }) 0x0011 else s)
/-- `SYS_RST_N_RISE` (04 R160). -/
def execSysRstNRise (s : State) : Res :=
  .next (if s.pwr.vaux then startBoot (setPwr s { s.pwr with sysRstN := true }) else s)

/-- RESET_REQUEST (04 R191): 1 warm, 2 cold; aborted while a STANDBY entry or fuse programming runs (R185). -/
def wrResetRequest (r : Req) (len val : Nat) (s : State) : State :=
  objWriteG r O_RESET_REQUEST len val { state := s.rst.standby == .none } noRej
    (fun s => keepAns s (if val = 1 then warmReset s 0x0012 else coldReset s 0x0005)) s
/-- `WARM_RESET_REQUEST` (04 R158). -/
def execWarmResetRequest (r : Req) (s : State) : Res := .next (wrResetRequest r 1 1 s)
/-- `COLD_RESET_REQUEST` (04 R159): it acts as POR_N held low for 10 us; effective reset ends with `EFFECTIVE_RESET_END`. -/
def execColdResetRequest (r : Req) (s : State) : Res := .next (wrResetRequest r 1 2 s)

/-- `WATCHDOG_EXPIRY` (04 R161), also while a STANDBY entry runs, which R185 lets ignore SYS_RST_N alone. -/
def execWatchdogExpiry (service : BitVec 24) (s : State) : Res :=
  .next (if fwRuns s then warmGo (setRst s { s.rst with wdExpired := some service }) 0x0013 else s)

/-! ## Warm retention (04 R167, R168) -/

/-- The dirty device-memory lines of the slices go to DRAM (04 R167 step 2). -/
def flushSlices (s : State) : State := ((s.hub.slices.filter fun x => x.2.dirty).map (·.1)).foldl sliceEvict s
/-- The dirty host-memory lines go back to their hosts over the ports whose link is up; the others are discarded (04 R167 step 3). -/
def flushHosts (s : State) : State :=
  let s1 := (s.hub.hlines.filter fun h => h.dirty && s.hub.cxlUp.getLsbD h.port).foldl hostDisplace s
  setHub s1 { s1.hub with hlines := [] }
/-- The flush as it goes on by itself (04 R167 steps 2 and 3). -/
def flushTick (s : State) : State := if s.rst.flushing then flushHosts (flushSlices s) else s
/-- The flush has ended, with retention or without it: the wipe follows. -/
def flushEnd (s : State) (kept : Bool) (us : Option Nat) : State :=
  warmCore (setRst s { s.rst with flushing := false, retain := kept, abandoned := us })

/-- `WARM_FLUSH_DONE` (04 R167). -/
def execWarmFlushDone (s : State) : Res :=
  .next (if s.rst.flushing then flushEnd ((List.range 16).foldl storeRecs (flushHosts (flushSlices s))) true s.rst.abandoned else s)
/-- `WARM_FLUSH_TIMEOUT` (04 R168). -/
def execWarmFlushTimeout (us : Nat) (s : State) : Res := .next (if s.rst.flushing then flushEnd s false (some us) else s)

/-! ## Fuses and keys (04 R186 to R191; 05 R224) -/

/-- A key slot: 0 to 3 OKH0 to OKH3, 4 and 5 DK0 and DK1, 6 the factory test key, fused as shipped (log entry 4). -/
def fuseSlot (s : State) (k : Nat) : KeySlot := tabGet s.fuse.slots k { fused := k == 6, val := if k = 6 then Config.factoryTestKey else 0#384 }
/-- Set it. -/
def setSlot (s : State) (k : Nat) (x : KeySlot) : State := { s with fuse := { s.fuse with slots := tabPut s.fuse.slots k x } }
/-- All bits of a slot of its kind blown. -/
def slotOnes (k : Nat) : BitVec 384 := if k < 4 then ~~~0#384 else BitVec.ofNat 384 (2 ^ 256 - 1)
/-- A slot that a load or derivation may use. -/
def slotHeld (s : State) (k : Nat) : Bool :=
  let x := fuseSlot s k
  x.fused && !x.destroyed && (4 ≤ k || !x.revoked)
/-- LC_KEYS_HELD (04 R191). -/
def keysHeld (s : State) : Nat :=
  ((List.range 7).foldl (fun m k => if slotHeld s k then m + 2 ^ k else m) 0) + (if s.vbat.keyHeld then 128 else 0)

/-- A life-cycle group counts as blown (04 R186). -/
def groupBlown (v : BitVec 8) : Bool := 5 ≤ popUpTo 8 v.toNat
/-- The state that the highest blown group gives (04 R186). -/
def lcOf (s : State) : Nat :=
  let b (g : Nat) : Bool := groupBlown (tabGet s.fuse.lg g 0#8)
  if b 4 then 4 else if b 3 then 3 else if b 2 then 2 else if b 1 then 1 else 0

/-- Is an eFuse slot forbidden in a state (04 R189)? -/
def slotForbidden (lc k : Nat) : Bool := (k == 6 && 1 ≤ lc) || ((k == 4 || k == 5) && 3 ≤ lc) || (k < 4 && 4 ≤ lc)
/-- The slots that state `lc` forbids are destroyed; the bitmap tells which were not yet (04 R189, R190). -/
def destroyForbidden (s : State) (lc : Nat) : State × Nat :=
  let x := (List.range 7).foldl (fun (a : State × Nat) k =>
    if slotForbidden lc k && !(fuseSlot a.1 k).destroyed
    then (setSlot a.1 k { fuseSlot a.1 k with val := slotOnes k, destroyed := true }, a.2 + 2 ^ k) else a) (s, 0)
  if 3 ≤ lc && s.vbat.keyHeld then ({ x.1 with vbat := { x.1.vbat with key := 0#256, keyHeld := false } }, x.2 + 128) else x

/-! ## Steps 1 to 6 of boot (04 R169) -/

/-- Log an event if a condition holds. -/
def logIf (c : Bool) (s : State) (code sev data : Nat) : State := if c then logEv s code sev data else s

/-- The marks of the VBAT latches: the event of a set latch that was not yet logged (02 R103). -/
def bootLatches (s : State) : State :=
  let s1 := logIf (s.vbat.tamper && !s.vbat.tamperLogged) s 0x2104 sevErr s.vbat.tamperTime.toNat
  let s2 := logIf (s.vbat.low && !s.vbat.lowLogged) s1 0x2105 sevErr s.vbat.mvAtReturn.toNat
  { s2 with vbat := { s2.vbat with tamperLogged := s2.vbat.tamper, lowLogged := s2.vbat.low } }

/-- What the firmware logs as it starts (04 R169 step 5, R192). -/
def bootEvents (s : State) (destroyed : Nat) : State :=
  let lc := s.rst.lc.toNat
  let s1 := logEv s 0x2401 sevInfo s.rst.cause.toNat
  let s2 := match s.rst.wdExpired with | some v => logEv s1 0x2407 sevErr v.toNat | none => s1
  let s3 := match s.rst.abandoned with | some us => logEv s2 0x2406 sevWarn us | none => s2
  let s4 := logIf (destroyed != 0) s3 0x2405 sevWarn destroyed
  let s5 := match s.rst.lcFail with
    | some t => logEv s4 0x2404 sevErr (t.toNat + 256 * lc)
    | none => match s.rst.lcOld with | some o => logEv s4 0x2403 sevInfo (o.toNat * 256 + lc) | none => s4
  let s6 := logIf (s.rst.cause == 0x0021#16) s5 0x2142 sevInfo s.rst.wakeCause.toNat
  let s7 := bootLatches s6
  setRst s7 { s7.rst with wdExpired := none, abandoned := none, lcOld := none, lcFail := none }

/-- The value H of the identity key pair (15 R660): from DK0, else from DK1, in the layout of 05 R226. -/
def identityKey (s : State) : Option (BitVec 384) :=
  let h (k : Nat) : BitVec 384 := Config.hmac (BitVec.ofNat 256 (fuseSlot s k).val.toNat ++ 0#128)
    ([0, 0, 0, 1, 0x4E, 0x47, 0x5A, 0x2D, 0x49, 0x44, 0x4B, 0x59, 0] ++ List.replicate 16 0#8 ++ beBytes 4 (k - 4) ++ beBytes 2 0x9640 ++ [0, 0, 1, 0x80])
  if slotHeld s 4 then some (h 4) else if slotHeld s 5 then some (h 5) else none

/-- Steps 3 to 5: the life cycle is read, forbidden slots are destroyed, the DDR key is renewed unless retained, the identity
key pair is derived (15 R660), the firmware starts (04 R169).
A new DDR key is a free value. -/
def bootStep5 (s : State) (us : BitVec 32) (status : BitVec 7) : State :=
  let lc := lcOf s
  let x := destroyForbidden (setRst s { s.rst with lc := BitVec.ofNat 3 lc, wipeTime := us, wipeStatus := status }) lc
  let s1 := if s.rst.warm && s.rst.retain then x.1
    else { x.1 with ddr := { x.1.ddr with key := Config.free 256 s.freeCtr } }
  bootEvents (freeStep { s1 with fw := { s1.fw with idKey := identityKey s1 } }) x.2

/-- Boot stops (02 R79, 04 R165, R170). -/
def bootHalt (s : State) : State := setRst s { s.rst with phase := .halted }

/-- A channel kept through a warm reset leaves self-refresh and is trained (12 R560). -/
def wakeChan (s : State) (c : Nat) : State :=
  if (chan s c).kept && chanState s c == 4 then oSet s (O_CHAN_STATE c) 1 else s

/-- Step 6 begins (04 R169; 03 R128; 12 R526): every DDR5 controller is enabled; a boot that consults stored results reads TRAIN_FULL and returns
it to 0. -/
def enterStep6 (s : State) : State :=
  let m : BitVec 38 := 0x1FFFE#38
  let s1 := setClk s { s.clk with clkEn := s.clk.clkEn ||| m, clkRun := s.clk.clkRun ||| m }
  let s2 := (List.range 16).foldl wakeChan s1
  let s3 := if strapCfgSrc s || !s.ddr.consults then s2
    else { s2 with ddr := { s2.ddr with ignoreStored := s.rst.trainFull }, rst := { s2.rst with trainFull := false } }
  setRst s3 { s3.rst with phase := .directory }

/-- What follows step 5: the wait for temperature, a strap error, a stop that lasts until the next cold reset (04 R165, 05 R235), the wait in REDUCED mode,
or step 6. -/
def bootNext (s : State) : State :=
  if s.pwr.tripLatch.isSome then setRst s { s.rst with phase := .waitHot }
  else if strapError s then bootHalt (logEv s 0x2107 sevFatal (s.pwr.straps.toNat / 4))
  else if s.rst.wipeFailed || s.ld.tamperStop then bootHalt s
  else if s.clk.mode == .reduced then setRst s { s.rst with phase := .waitRoot }
  else enterStep6 s

/-- The wipe may end: boot stands at it and the boot-path clocks run. -/
def wipeRuns (s : State) : Bool := s.rst.phase == .wiping && s.clk.locked && s.pwr.vaux && !s.pwr.tripped
/-- `WIPE_DONE` (04 R164, R169 steps 4 and 5). -/
def execWipeDone (us : BitVec 32) (s : State) : Res := .next (if wipeRuns s then bootNext (bootStep5 s us 0x7F#7) else s)
/-- `WIPE_TIMEOUT` (04 R165): `done` names the classes that signalled; how long the failed wipe is said to have taken is a free value. -/
def execWipeTimeout (done : BitVec 7) (s : State) : Res :=
  .next (if wipeRuns s && done != 0x7F#7 then
    let s1 := logEv (bootStep5 s (Config.free 32 (s.freeCtr + 1)) done) 0x2402 sevFatal (~~~done).toNat
    bootNext (setRst s1 { s1.rst with wipeFailed := true }) else s)

/-- `BOOT_WAIT_END` (03 R115; 02 R96): the wait for temperature ends with event 0x2106, the wait in REDUCED mode once the root has left it. -/
def execBootWaitEnd (s : State) : Res :=
  .next (if !clocked s then s else match s.rst.phase with
    | .waitRoot => if s.clk.mode == .reduced then s else enterStep6 s
    | .waitHot => bootNext (logEv (setPwr s { s.pwr with tripLatch := none }) 0x2106 sevFatal (s.pwr.tripLatch.getD 0))
    | _ => s)

/-! ## DIE-DORMANT (04 R172 to R176) -/

/-- Set a die's state. -/
def setDie (s : State) (d : Nat) (x : DieState) : State := setRst s { s.rst with die := tabPut s.rst.die d x }
/-- Partitions and engines of a die. -/
def dieParts (d : Nat) : List Nat := (List.range 16).map fun i => 16 * d + i
def dieEngs (d : Nat) : List Nat := (List.range 96).map fun i => 96 * d + i

/-- A load after INIT_DONE names a partition of the die. -/
def dieLoading (s : State) (d : Nat) : Bool :=
  match s.ld.load with | some l => !l.boot && l.kind == 2 && (dieParts d).any (l.parts.getLsbD ·) | none => false
/-- A running tenant reset owns a partition or engine of the die. -/
def dieResetting (s : State) (d : Nat) : Bool :=
  (dieParts d).any (fun p => (tabFind s.ten.resets (partOwner s p)).isSome)
    || (dieEngs d).any (fun e => (tabFind s.ten.resets (engOwner s e)).isSome)
/-- R172 refuses the entry. -/
def dieRefused (s : State) (d : Nat) : Bool := dieLoaded s d || dieLoading s d || dieResetting s d || s.rst.standby != .none

/-- Write of DIE_REQUEST: 1 enters, 2 returns (04 R172, R175). A request for what the die already is or is becoming changes nothing; one against a
running change, or before boot has completed, is aborted (log entry 17). -/
def wrDieRequest (r : Req) (d len val : Nat) (s : State) : State :=
  let st := dieOf s d
  objWriteG r (O_DIE_REQUEST d) len val
    { state := if val = 1 then operating s && !dieRefused s d && st != .waking else operating s && st != .entering }
    (fun code s => logIf (code == abState && val == 1 && dieRefused s d) s 0x2144 sevWarn d)
    (fun s =>
      if val = 1 then (if st == .on then setDie { s with eng := abandonOff (dieEngs d) s.eng } d .entering else s)
      else if st == .dormant then
        let s1 := setDie s d .waking
        setRst s1 { s1.rst with dieEmul := setBit s1.rst.dieEmul d false }
      else s) s
/-- `DIE_ENTER_DORMANT` (04 R172, R173 step 1). -/
def execDieEnterDormant (r : Req) (d : Fin 8) (s : State) : Res := .next (wrDieRequest r d.val 1 1 s)
/-- `DIE_RETURN` (04 R175). -/
def execDieReturn (r : Req) (d : Fin 8) (s : State) : Res := .next (wrDieRequest r d.val 1 2 s)

/-- `DIE_DRAIN_DONE` (04 R173 steps 2 and 3): transactions addressed to the die complete with GATED, partitions leave RUNNING, lanes are DORMANT; the
synthesizers stop unless a debugger is attached (17 R724). -/
def execDieDrainDone (d : Fin 8) (s : State) : Res :=
  .next (if operating s && dieOf s d.val == .entering then
    let s1 := drainTxs s (dieParts d.val) (dieEngs d.val) rGated
    let s2 := (dieParts d.val).foldl (fun a p => setPart a p 3) s1
    let s2 := setVent s2 { s2.vent with txs := orphan [] (dieEngs d.val) s2.vent.txs }
    let s3 := if s.dbg.attached then s2 else synthsStop s2 d.val
    lanesDieDormant s3 d.val
  else s)
/-- `DIE_POWER_OFF_DONE` (04 R173 step 4), emulated while a debugger is attached (17 R724). -/
def execDiePowerOffDone (d : Fin 8) (s : State) : Res :=
  .next (if operating s && dieOf s d.val == .entering && partState s (16 * d.val) == 3 then
    let s1 := setDie s d.val .dormant
    logEv (setRst s1 { s1.rst with dieEmul := setBit s1.rst.dieEmul d.val s.dbg.attached }) 0x2140 sevInfo d.val
  else s)

/-- `DIE_RETURN_DONE` (04 R175): the die is wiped, its synthesizers restart and its epochs advance; the counts of its queue
blocks end with the wipe (07 R330). -/
def execDieReturnDone (d : Fin 8) (s : State) : Res :=
  .next (if operating s && dieOf s d.val == .waking then
    let s1 := (dieParts d.val).foldl wipePart s
    let s2 := { s1 with eng := s1.eng.filter fun x => x.1 / 96 != d.val || x.2.state == .off }
    let s3 := (List.range 128).foldl (fun a b => clearQbCounts a (128 * d.val + b)) (advanceEpochs (synthsRestart s2 d.val) (dieParts d.val) (dieEngs d.val))
    logEv (setDie s3 d.val .on) 0x2141 sevInfo d.val
  else s)

/-! ## STANDBY (04 R177 to R182) -/

/-- Why STANDBY is refused: the first reason of R177 that holds; 0 none. -/
def standbyReason (s : State) : Nat :=
  if s.hub.cxlUp != 0#4 then 1
  else if strapMode s == 2 && (oGet s O_TWIN_STATE == 4 || oGet s O_TWIN_STATE == 3) then 2
  else if strapMode s == 1 && strapCascId s == 0 then 3
  else if oGet s O_WAKE_SOURCES == 0 then 4
  else if (oGet s O_WAKE_SOURCES).testBit 2 && oGet s O_WAKE_TIMER < 10 then 5
  else 0

/-- STANDBY_ENTER (04 R177, R178 step 1). Before boot completes, during a running entry and during a life-cycle transition it is aborted, and no event names a reason
(log entry 64). -/
def wrStandbyEnter (r : Req) (len val : Nat) (s : State) : State :=
  objWriteG r O_STANDBY_ENTER len val { state := operating s && standbyReason s == 0 }
    (fun code s => logIf (code == abState && operating s) s 0x2143 sevWarn (standbyReason s))
    (fun s => setRst s { s.rst with standby := .entering, treesHeld := true, latchedWake := 0#8
                                    wakeSel := BitVec.ofNat 8 (oGet s O_WAKE_SOURCES) }) s
/-- `STANDBY_ENTER` (04 R177). -/
def execStandbyEnter (r : Req) (v : BitVec 8) (s : State) : Res := .next (wrStandbyEnter r 1 v.toNat s)

/-- `STANDBY_SAVE_DONE` (04 R178 steps 2 to 4): lanes are DORMANT, no DRAM content is kept, AON holds what wakes with the device; CORE_PWR_EN
falls unless a debugger is attached (17 R724). -/
def execStandbySaveDone (s : State) : Res :=
  .next (if s.rst.standby == .entering && !s.rst.standbyEmul then
    let s1 := lanesAllDormant s
    let s2 := { s1 with
      ddr := State.reset.ddr
      rst := { s1.rst with
        savedEvents := (s.fw.ring.take 32).map (·.2), savedDtime := s.fw.dtime, savedFreq := oGet s O_AON32K_FREQ } }
    if s.dbg.attached then setRst s2 { s2.rst with standbyEmul := true } else standbySleep s2
  else s)

/-- CORE_PWR_EN rises for a wake and the device waits for its rails (04 R181). -/
def wakeUp (s : State) (cause : BitVec 8) : State :=
  { s with
    rst := { s.rst with standby := .waking, wakeCause := cause, standbyEmul := false, latchedWake := 0#8 }
    pwr := { s.pwr with corePwrEn := true } }
/-- A wake event of bit `b`, cause `c`: latched while the entry runs, the first one alone (04 R180 to R182). -/
def wake (s : State) (b : Nat) (c : BitVec 8) : State :=
  if !s.pwr.vaux || s.pwr.tripped || !s.rst.wakeSel.getLsbD b then s
  else if s.rst.standby == .asleep || (s.rst.standby == .entering && s.rst.standbyEmul) then
    (if s.rst.latchedWake = 0#8 then wakeUp s c else s)
  else if s.rst.standby == .entering && s.rst.latchedWake == 0#8 then setRst s { s.rst with latchedWake := c }
  else s
/-- A CAN FD receive pin is assigned: MIO1 or MIO33 (16 R686, R687). -/
def canRxPin (s : State) : Bool := oGet s (O_MIO_FUNC 1) == 2 || oGet s (O_MIO_FUNC 33) == 2
/-- `WAKE_CAN` (04 R180). -/
def execWakeCan (s : State) : Res := .next (if canRxPin s then wake s 0 1#8 else s)
/-- `WAKE_PIN` (04 R180): a low level at WAKE_N, or at an MIO pin of function WAKE (16 R687). -/
def execWakePin (s : State) : Res := .next (wake s 1 2#8)
/-- `WAKE_TIMER_EXPIRY` (04 R180): the timer runs from the fall of CORE_PWR_EN. -/
def execWakeTimerExpiry (s : State) : Res :=
  .next (if s.rst.standby == .asleep || s.rst.standbyEmul then wake s 2 3#8 else s)
/-- `LATCHED_WAKE_RISE` (04 R182): CORE_PWR_EN has stayed low for at least 10 ms. -/
def execLatchedWakeRise (s : State) : Res :=
  .next (if (s.rst.standby == .asleep || s.rst.standbyEmul) && s.rst.latchedWake != 0#8 && s.pwr.vaux && !s.pwr.tripped
    then wakeUp s s.rst.latchedWake else s)

/-- Nanoseconds of `periods` AON32K periods at the measured frequency; 32.768 kHz where none was measured (log entry 18). -/
def aonTime (periods mHz : Nat) : Nat := periods * 10 ^ 12 / (if mHz = 0 then 32768000 else mHz)
/-- The saved records as the ring of a new boot, numbered from 0. -/
def restoreRing (l : List EventRec) : List (Nat × EventRec) :=
  match l with
  | [] => []
  | e :: r => (r.length, e) :: restoreRing r

/-- The cold reset of a wake (04 R163, R178, R179, R181): straps and trim are kept, the saved events and DTIME restored. -/
def wakeBoot (s : State) (rails : BitVec 28) (periods : Nat) : State :=
  let t := aonTime periods s.rst.savedFreq
  let s1 := coldReset { s with rst := { s.rst with phase := .run } } 0x0021
  { s1 with
    pwr := { s1.pwr with effReset := false, rails := railsSeen s.pwr (setBit rails 7 true) }
    clk := { s1.clk with trim := s.clk.trim, trimSource := s.clk.trimSource, trimmedRef := s.clk.trimmedRef }
    fw := { s1.fw with dtime := s.rst.savedDtime + t, ring := restoreRing s.rst.savedEvents, seq := s.rst.savedEvents.length }
    rst := { s1.rst with
      wakeCause := s.rst.wakeCause, standbyTime := BitVec.ofNat 64 t
      phase := if s.pwr.sysRstN then .wiping else .held } }
/-- `WAKE_RAILS_READY` (04 R181): 1 ms after the last rail of groups 2 and 3 is in range; `periods` is the time in STANDBY by AON32K. -/
def execWakeRailsReady (rails : BitVec 28) (periods : Nat) (s : State) : Res :=
  .next (if s.rst.standby == .waking && groupsIn s.pwr rails && s.pwr.rails.getLsbD 7 && s.pwr.porN then wakeBoot s rails periods else s)

/-! ## Life cycle (04 R188 to R190) -/

/-- The transition is permitted from the present state (04 R188). -/
def lcPermitted (s : State) (t : Nat) : Bool :=
  match s.rst.lc.toNat with
  | 0 => t == 1 && (List.range 4).any (fun k => (fuseSlot s k).fused) && ((fuseSlot s 4).fused || (fuseSlot s 5).fused)
  | 1 => t == 2 || t == 3 || t == 4
  | 2 => t == 3 || t == 4
  | 3 => t == 4
  | _ => false
/-- SHA-384 of LC_CHALLENGE, the part ID and the target code (04 R188). -/
def lcDigest (s : State) (t : Nat) : BitVec 384 :=
  Config.shaEnd (Config.shaStep 0#1024 (beBytes 48 s.rst.lcChallenge.toNat ++ beBytes 2 0x9640 ++ [BitVec.ofNat 8 t]))
/-- The signature verifies under an owner key that is fused, undestroyed and unrevoked. -/
def lcSigned (s : State) (t : Nat) (sig : BitVec 768) : Bool :=
  (List.range 4).any fun k => slotHeld s k && Config.ownerSigOk (fuseSlot s k).val (lcDigest s t) sig

/-- LC_REQUEST (04 R188, R189 step 1): byte 0 the target, bytes 1 to 3 zero, bytes 4 to 99 the signature, most significant byte first. -/
def wrLcRequest (r : Req) (len val : Nat) (s : State) : State :=
  let t := val % 256
  let sig := BitVec.ofNat 768 (beNat (leBytes 96 (val / 2 ^ 32)))
  objWriteG r O_LC_REQUEST len val
    { value := val / 256 % 2 ^ 24 == 0, state := s.rst.standby == .none && s.rst.lcRun.isNone && lcPermitted s t } noRej
    (fun s =>
      if s.rst.lc == 2#3 && !lcSigned s t sig then logEv (answer s abSig) 0x2404 sevErr (t + 256 * s.rst.lc.toNat)
      else setRst s { s.rst with lcRun := some { target := BitVec.ofNat 3 t, groups := true }, treesHeld := true }) s
/-- `LC_REQUEST` (04 R188). -/
def execLcRequest (r : Req) (target : BitVec 8) (zero : BitVec 24) (sig : BitVec 768) (s : State) : Res :=
  .next (wrLcRequest r 100 (target.toNat + 256 * zero.toNat + 2 ^ 32 * leNat (beBytes 96 sig.toNat)) s)

/-- LC_CHALLENGE: each read returns a new value, a free one (04 R188). -/
def rdLcChallenge (r : Req) (s : State) : State :=
  let v := Config.free 384 s.freeCtr
  objReadG r O_LC_CHALLENGE 48 (leNat (beBytes 48 v.toNat))
    (fun s => freeStep (setRst s { s.rst with lcChallenge := v })) s
/-- `LC_CHALLENGE_READ` (04 R191). -/
def execLcChallengeRead (r : Req) (s : State) : Res := .next (rdLcChallenge r s)

/-- The groups 1 to `t` are blown in ascending order, each read back, until one does not read as blown (04 R189 step 3): the groups, and whether all
read as blown. `reads` is what the blow left in each group. -/
def blowGroups (lg : Tab (BitVec 8)) (reads : BitVec 32) (g t : Nat) (fuel : Nat) : Tab (BitVec 8) × Bool :=
  match fuel with
  | 0 => (lg, true)
  | n + 1 =>
    if t < g then (lg, true)
    else
      let v := tabGet lg g 0#8 ||| BitVec.ofNat 8 (reads.toNat / 2 ^ (8 * (g - 1)))
      let lg' := tabPut lg g v
      if groupBlown v then blowGroups lg' reads (g + 1) t n else (lg', false)

/-- `LC_GROUPS_BLOWN` (04 R189 steps 2 and 3): on a group that did not blow after two attempts no key is changed and the cold reset of step 6 runs. -/
def execLcGroupsBlown (reads : BitVec 32) (s : State) : Res :=
  .next (match s.rst.lcRun with
    | some x =>
      if x.groups then
        let b := blowGroups s.fuse.lg reads 1 x.target.toNat 4
        let s1 := { s with fuse := { s.fuse with lg := b.1 } }
        if b.2 then setRst s1 { s1.rst with lcRun := some { x with groups := false } }
        else coldReset (setRst s1 { s1.rst with lcFail := some x.target }) 0x0031
      else s
    | none => s)
/-- `LC_KEYS_DESTROYED` (04 R189 steps 4 to 6). -/
def execLcKeysDestroyed (s : State) : Res :=
  .next (match s.rst.lcRun with
    | some x =>
      if x.groups then s
      else
        let s1 := (destroyForbidden s x.target.toNat).1
        coldReset (setRst s1 { s1.rst with lcOld := some s.rst.lc }) 0x0031
    | none => s)

end Sys2Proof.Machine
end

