-- ==== Sys2Proof/Machine/Loads.lean ====
section
/-! DEFINITION. Profiles, streams and loads up to the seal, keys, relay and flash update (05). -/
namespace Sys2Proof.Machine

/-! ## Journal and slots (05 R200, R201, R250 to R253) -/

/-- A journal entry at an image offset, if it is not free and its CRC holds: type, slot, sequence. -/
def journalEntry (f : FlashInfo) (o : Nat) : Option (Nat × Nat × Nat) :=
  let b := flashBytes f o 32
  if b.all (· == 0xFF#8) || crc32 (b.take 28) != leAt b 28 4 then none
  else some (leAt b 0 1, leAt b 1 1, leAt b 4 4)
/-- The entries of a sector. -/
def journalEntries (f : FlashInfo) (o : Nat) : List (Nat × Nat × Nat) := (List.range 128).filterMap fun i => journalEntry f (o + 32 * i)
/-- Sequence of a sector's sector entry, the highest if there are several. -/
def sectorSeq (f : FlashInfo) (o : Nat) : Option Nat :=
  (journalEntries f o).foldl (fun a e => if e.1 = 0x10 then some (max e.2.2 (a.getD 0)) else a) none
/-- The active sector, if there is one: the higher sector sequence. -/
def activeSector (f : FlashInfo) (d : Nat) : Option Nat :=
  match sectorSeq f (journalOff f d 0), sectorSeq f (journalOff f d 1) with
  | some a, some b => some (if a < b then 1 else 0)
  | some _, none => some 0
  | none, some _ => some 1
  | none, none => none
/-- Is an entry an INTENT that is open among the entries of its sector: with no COMPLETE of its slot, of its sequence or of a later update, which completes the
slot again (05 R253; log entry 98)? -/
def intentOpen (es : List (Nat × Nat × Nat)) (e : Nat × Nat × Nat) : Bool := e.1 == 1 && !es.any fun c => c.1 == 2 && c.2.1 == e.2.1 && e.2.2 ≤ c.2.2
/-- Intents of the active sector that are open: slot and sequence. -/
def openIntents (f : FlashInfo) (d : Nat) : List (Nat × Nat) :=
  match activeSector f d with
  | none => []
  | some j =>
    let es := journalEntries f (journalOff f d j)
    (es.filter (intentOpen es)).map (·.2)
/-- Condition of slot `k`: 0 valid, 1 erased, 2 half-erased, 3 unpopulated. -/
def slotCondition (f : FlashInfo) (d k : Nat) : Nat :=
  let o := slotOff f d k
  if slotSize f d k = 0 then 3
  else if (openIntents f d).any (fun x => x.1 == k) then 2
  else if (f.cells.filter fun c => o ≤ c.1 && c.1 < o + 4096).isEmpty then 1
  else if flashNat f o 4 = 0x4E475A53 ∧ flashNat f (o + 4) 4 = 0 then 0
  else 2
/-- SLOT_STATE (05 R254); with no directory in use no slot is populated (log entry 19). -/
def slotState (s : State) (k : Nat) : Nat :=
  match s.ld.flash, s.ld.dir with
  | some f, some d => slotCondition f d k
  | _, _ => 3

/-- Set the running load. -/
def setLoad (s : State) (l : Load) : State := setLd s { s.ld with load := some l }

/-- A slot is tried (05 R201 to R203, R254; 12 R528): its training area gives the rate limits; a slot that is not valid fails before any byte of
its stream is read. -/
def trySlot (s : State) (k : Nat) : State :=
  let a := match s.ld.flash, s.ld.dir with | some f, some d => slotOff f d k + 0x1000 | _, _ => 0
  let s1 := setLd s { s.ld with
    tried := s.ld.tried ||| BitVec.ofNat 8 (2 ^ k), slot := some k, state := 1#8
    load := some { src := BitVec.ofNat 8 k, boot := true, follow := none, tenant := none, addr := a } }
  let s2 := (List.range 16).foldl (fun t c => oSet t (O_DDR_RATE_LIMIT c) (areaLimit t c)) s1
  let s3 := setRst s2 { s2.rst with phase := .staging }
  if slotState s3 k = 0 then s3 else abortLoad s3 0x16

/-- The slot a boot starts with (05 R202), and the reset unit once NEXT_PROFILE has been read. -/
def firstSlot (s : State) : Nat × ResetUnit :=
  if s.rst.cause == 1#16 || s.rst.cause == 2#16 then (strapProfile s, s.rst)
  else (if s.rst.nextProfile.toNat ≤ 3 then s.rst.nextProfile.toNat else strapProfile s, { s.rst with nextProfile := 0xFF#8 })

/-- The directory in use among the first and the copy as they were read (05 R198). -/
def chooseDir (f : FlashInfo) (firstFails copyFails : Bool) : Option Nat :=
  if !firstFails && dirOk f 0 then some 0 else if !copyFails && dirOk f 0x1000 then some 0x1000 else none

/-- `FLASH_DIRECTORY_READ` (05 R195 to R202): the flashes that stand on XSPI0 and XSPI1, and which copy of the directory could not be read. -/
def execFlashDirectoryRead (x0 x1 : FlashChip) (firstFails copyFails : Bool) (s : State) : Res :=
  .next (if s.rst.phase == .directory && !strapCfgSrc s && clocked s then
    let f := discover x0 x1
    match (if f.count = 0 then none else chooseDir f firstFails copyFails) with
    | none => bootHalt (setLd s { s.ld with flash := if f.count = 0 then none else some f })
    | some d =>
      let s1 := logIf (d != 0) s 0x2305 sevWarn f.count
      if flashNat f (d + 6) 1 ≠ f.count then bootHalt (setLd s1 { s1.ld with flash := some f })
      else
        let s2 := setLd s1 { s1.ld with flash := some f, dir := some d }
        let s3 := (List.range 4).foldl (fun a k => logIf (slotCondition f d k == 2) a 0x2306 sevWarn k) s2
        let x := firstSlot s3
        trySlot (setRst s3 x.2) x.1
  else s)

/-- The load reads its stream from the flash. -/
def fromFlash (l : Load) : Bool := l.src.toNat ≤ 3 || l.src == 0x11#8
/-- The load still reads its stream. -/
def loadReads (l : Load) : Bool := l.phase == .header || l.phase == .reams || l.phase == .seal
/-- `FLASH_READ_TIMEOUT` (05 R195). -/
def execFlashReadTimeout (s : State) : Res :=
  .next (match s.ld.load with
    | some l => if fromFlash l && loadReads l then abortLoad s 0x12 else s
    | none => s)

/-! ## Header: check 1 (05 R211, R224, R225, R230) -/

/-- Limit of a stream's own length (05 R205, R238). -/
def ownLimit (s : State) (l : Load) : Nat := if l.boot then 1048576000 else (oGet s O_PR_STAGE_MIB - 1) * 2 ^ 20
/-- Kinds allowed for the source and the profile field (05 R211, R230). -/
def kindAllowed (l : Load) (kind profile : Nat) (parts : BitVec 128) : Bool :=
  (if l.boot then kind == 1 else if l.follow.isSome then kind == 3 else kind == 2 || kind == 3)
    && (if l.src.toNat ≤ 3 || l.src == 0xFE#8 then profile == l.src.toNat else true)
    && (match kind with | 1 => parts == ~~~0#128 | 2 => parts != 0#128 | _ => parts == 0#128)
/-- Key source and owner key index accepted (05 R224, R225). -/
def keysAllowed (s : State) (ks idx : Nat) : Bool :=
  let lc := s.rst.lc.toNat
  let slot := if ks = 4 then slotHeld s 6 else if ks = 3 then s.vbat.keyHeld else ks = 0 || slotHeld s (ks + 3)
  let plain := idx == 0xFF
  let owned := idx < 4 && slotHeld s idx
  slot && match ks with
    | 0 => (lc == 0 || lc == 3) && plain
    | 4 => lc == 0 && plain
    | 1 | 2 | 3 => lc ≤ 2 && (owned || (plain && lc == 0))
    | _ => false
/-- Root key of a key source; 256-bit values stand in the low bits of a slot. -/
def rootKey (s : State) (ks : Nat) : BitVec 256 :=
  if ks = 1 ∨ ks = 2 then BitVec.ofNat 256 (fuseSlot s (ks + 3)).val.toNat
  else if ks = 3 then s.vbat.key else if ks = 4 then BitVec.ofNat 256 (fuseSlot s 6).val.toNat else 0#256

/-- Check 1: the first reason that holds, 0 when the header passes. -/
def headerReason (s : State) (l : Load) (b : List Byte) : Nat :=
  let kind := leAt b 10 1
  let own := leAt b 36 8
  let n := leAt b 32 4
  if leAt b 0 4 ≠ 0x4E475A43 ∨ leAt b 4 2 ≠ 1 ∨ leAt b 6 2 ≠ 128 then 0x01
  else if leAt b 8 2 ≠ 0x9640 then 0x02
  else if !kindAllowed l kind (leAt b 12 1) (BitVec.ofNat 128 (leAt b 56 16)) then 0x03
  else if !keysAllowed s (leAt b 11 1) (leAt b 13 1) then 0x04
  else if ownLimit s l < own ∨ n < 1 ∨ 62 < n ∨ own < 336 + 40 * n ∨ (kind ≠ 1 ∧ leAt b 44 8 ≠ 0) then 0x05
  else if leAt b 14 2 ≠ 0 ∨ leAt b 80 48 ≠ 0 then 0x09
  else 0

/-- End of the place a flash stream may be read from (05 R198): a stream of a slot, a follow-on among them, ends in its slot; one at a flash image address in
the slot that holds the address, or in the image. -/
def flashEnd (s : State) (l : Load) : Nat :=
  match s.ld.flash, s.ld.dir with
  | some f, some d =>
    if l.src.toNat ≤ 3 then slotOff f d l.src.toNat + slotSize f d l.src.toNat else
    let hit (k : Nat) : Bool := slotSize f d k != 0 && slotOff f d k ≤ l.addr && l.addr < slotOff f d k + slotSize f d k
    (match (List.range 4).find? hit with
      | some k => slotOff f d k + slotSize f d k
      | none => imageSize f)
  | some f, none => imageSize f
  | _, _ => 0
/-- A memory source gives `n` bytes from `a` under the requester's rights (05 R239; 10 R453): windows are whole MiB. -/
def memSource (s : State) (l : Load) (a n : Nat) : Bool :=
  let first := a / 2 ^ 20
  let last := (a + n - 1) / 2 ^ 20
  a + n ≤ 2 ^ 52 && (List.range (last - first + 1)).all fun i =>
    match liveEntry s (max a ((first + i) * 2 ^ 20)) ((l.tenant.map Fin.val).getD 0) l.tenant.isNone 1 with
    | some e => (samKind (samRaw s e) == kDevmem || samKind (samRaw s e) == kHostmem)
    | none => false
/-- May `n` bytes from byte `o` of the stream be read now (05 R198, R239)? -/
def sourceGives (s : State) (l : Load) (o n : Nat) : Bool :=
  if l.src == 0x10#8 then memSource s l (l.addr + o) n else if fromFlash l then l.addr + o + n ≤ flashEnd s l else true
/-- The byte of device memory at `a` as it stands now, if a device-memory window holds it; reading it changes nothing that is modelled. -/
def devByte (s : State) (a : Nat) : Option Byte := (samLookup s a).bind fun e =>
  let x := samRaw s e
  if samKind x == kDevmem then
    let d := samForm x a
    some (BitVec.ofNat 8 ((lineNow s (refUnder s x (d / 64))).toNat / 2 ^ (8 * (d % 64))))
  else none
/-- The bytes a load reads from byte `o` of its stream: those of device memory are what it holds; a flash, a host and CFGI give the bytes that arrive. -/
def sourceBytes (s : State) (l : Load) (o : Nat) (given : List Byte) : List Byte :=
  if l.src == 0x10#8 then given.mapIdx fun i b => (devByte s (l.addr + o + i)).getD b else given

/-- The header is accepted: the load takes its fields, its root key and the running hash. -/
def acceptHeader (s : State) (l : Load) (b : List Byte) : State :=
  let l1 := { l with
    phase := .reams, kind := leAt b 10 1, keySource := leAt b 11 1, ownerKey := leAt b 13 1, nonce := BitVec.ofNat 128 (beNat ((b.drop 16).take 16))
    reams := leAt b 32 4, ownLen := leAt b 36 8, relayLen := leAt b 44 8, count := leAt b 52 4, parts := BitVec.ofNat 128 (leAt b 56 16)
    buildId := BitVec.ofNat 64 (leAt b 72 8), staged := 128, key := rootKey s (leAt b 11 1), sha := Config.shaStep 0#1024 b }
  let s1 := setLoad s l1
  if sourceGives s l1 0 (l1.ownLen + l1.relayLen) then s1 else abortLoad s1 0x12

/-- The relay section of `n` bytes is to be sent from image offset `at_` (05 R244); of one on CFGI (R246), whose bytes come from outside, the place is a block of free
values. -/
def relayReady (s : State) (n : Nat) (at_ : Option Nat) : State :=
  let s1 := if at_.isSome then s else freeStep s
  setLd s1 { s1.ld with relayLen := n, relaySent := 0, relayAt := at_.getD s.freeCtr, relay := if 0 < n then .waiting else .off }
/-- `n` bytes of what a failed stream on CFGI still has to bring are consumed; its relay section follows (05 R246). -/
def consumeRest (s : State) (n : Nat) : State :=
  if s.ld.rest = 0 then s
  else
    let s1 := setLd s { s.ld with rest := s.ld.rest - n }
    if s.ld.rest ≤ n then relayReady s1 s.ld.relayLen none else s1
/-- The stream on CFGI has failed a check after check 1 on `n` bytes: the rest of its own length is consumed, and its relay section is relayed (05 R246). -/
def relayAfterFail (s : State) (n : Nat) : State :=
  match s.ld.load with
  | some l =>
    if l.src == 0xFE#8 && l.reason != 0 && l.phase == .wiping && 0 < l.staged then
      consumeRest (setLd s { s.ld with rest := l.ownLen - l.staged, relayLen := l.relayLen }) n
    else s
  | none => s

/-- The load that awaits a header: a running one, or the stream of CFGI at step 6 (05 R246). -/
def headerLoad (s : State) : Option Load :=
  match s.ld.load with
  | some l => if l.phase == .header then some l else none
  | none => if s.rst.phase == .directory && strapCfgSrc s && clocked s
      then some { src := 0xFE#8, boot := true, follow := none, tenant := none } else none

/-- `STREAM_HEADER` (05 R211, R230 check 1). -/
def execStreamHeader (head : Vector (BitVec 8) 128) (s : State) : Res :=
  .next (match headerLoad s with
    | none => s
    | some l =>
      let s1 := if l.src == 0xFE#8
        then setRst (setLd s { s.ld with load := some l, state := 1#8, tried := s.ld.tried ||| 0x10#8 }) { s.rst with phase := .staging } else s
      if !sourceGives s1 l 0 128 then abortLoad s1 0x12
      else
        let bytes := sourceBytes s1 l 0 head.toList
        let why := headerReason s1 l bytes
        if why = 0 then acceptHeader s1 l bytes else abortLoad s1 why)

/-! ## Reams: checks 2 and 3 (05 R212 to R227, R230) -/

/-- Key of ream `k` from the key before it (05 R226). -/
def nextKey (l : Load) (k : Nat) : BitVec 256 :=
  (Config.hmac (l.key ++ 0#128)
    ([0, 0, 0, 1, 0x4E, 0x47, 0x5A, 0x2D, 0x52, 0x45, 0x41, 0x4D, 0] ++ beBytes 16 l.nonce.toNat ++ beBytes 4 k ++ beBytes 2 0x9640
      ++ [0, 0, 1, 0])).extractLsb' 128 256
/-- IV of ream `k` (05 R227): nonce bytes 0 to 7, then the index. -/
def reamIv (l : Load) (k : Nat) : BitVec 96 := l.nonce.extractLsb' 64 64 ++ BitVec.ofNat 32 k

/-- Does a range of frames meet one already covered (05 R215)? -/
def coveredAny (l : Load) (a n : Nat) : Bool := l.covered.any fun c => !apart c (a, n)
/-- A frame address that is valid and within the stream's scope (05 R215, R221). -/
def inScope (l : Load) (a : Nat) : Bool := frameValid a && l.parts.getLsbD (frameX a)
/-- Cover a range with content (zero is not listed). -/
def coverWith (l : Load) (a n content : Nat) (byFrame : Bool) : Load :=
  { l with
    covered := (a, n) :: l.covered
    given := if byFrame then (a, n) :: l.given else l.given
    frames := if content = 0 then l.frames else tabPut l.frames a content }

/-- A FRAME record. -/
def recFrame (b : List Byte) (l : Load) : Except Nat Load :=
  let a := leAt b 0 4
  if b.length ≠ 4104 then .error 0x08
  else if leAt b 4 4 ≠ 0 then .error 0x09
  else if !inScope l a then .error 0x0A
  else if coveredAny l a 1 then .error 0x0B
  else .ok (coverWith l a 1 (leNat (b.drop 8)) true)

/-- Are the addresses of a list all distinct and uncovered? -/
def freshAll (l : Load) (ds : List Nat) : Bool :=
  match ds with
  | [] => true
  | d :: r => !coveredAny l d 1 && !r.contains d && freshAll l r

/-- A REPEAT record (05 R216). -/
def recRepeat (b : List Byte) (l : Load) : Except Nat Load :=
  let src := leAt b 0 4
  let n := leAt b 4 4
  let ds := (List.range (min n 1368)).map fun i => leAt b (8 + 4 * i) 4
  if b.length < 8 ∨ b.length ≠ (8 + 4 * n + 7) / 8 * 8 then .error 0x08
  else if !(b.drop (8 + 4 * n)).all (· == 0#8) then .error 0x09
  else if n = 0 ∨ 1368 < n ∨ !inScope l src ∨ !ds.all (inScope l) then .error 0x0A
  else if !freshAll l ds then .error 0x0B
  else if !l.given.any (fun g => g.1 == src) ∨ !ds.all (fun d => d.testBit 11 == src.testBit 11) then .error 0x0C
  else .ok (ds.foldl (fun x d => coverWith x d 1 (tabGet l.frames src 0) false) l)

/-- A ZERO record (05 R215). -/
def recZero (b : List Byte) (l : Load) : Except Nat Load :=
  let a := leAt b 0 4
  let n := leAt b 4 4
  if b.length ≠ 8 then .error 0x08
  else if !inScope l a ∨ n = 0 ∨ (if a.testBit 11 then 552 else 1368) < a % 2048 + n then .error 0x0A
  else if coveredAny l a n then .error 0x0B
  else .ok (coverWith l a n 0 false)

/-- An ENGINE record (05 R214, R217): within its region, below the monitor range (08 R336); in a partial or follow-on stream the engine belongs to the
requesting tenant, except that T0 may name any (R239). -/
def recEngine (s : State) (b : List Byte) (halt : Bool) (l : Load) : Except Nat Load :=
  let e := leAt b 0 2
  let g := leAt b 2 1
  let o := leAt b 4 4
  let n := b.length - 8
  if b.length < 8 then .error 0x08
  else if leAt b 3 1 ≠ 0 then .error 0x09
  else if 768 ≤ e ∨ 2 < g ∨ o % 8 ≠ 0 ∨ (if g = 0 then 0xF800 else 0x10000) < o + n
      ∨ (l.tenant.map fun t => engOwner s e != t.val) = some true then .error 0x15
  else .ok { l with engs := l.engs ++ [{ eng := e, region := g, off := o, bytes := b.drop 8, halt := halt }] }

/-- The entries of a PLAN record: the entries, whether a reserved byte is not zero, whether the payload is not exactly the entries. -/
def planEntries (kind : Nat) (b : List Byte) (n : Nat) : List PlanEntry × Bool × Bool :=
  match n with
  | 0 => ([], false, !b.isEmpty)
  | k + 1 =>
    let len := leAt b 4 4
    let pad := (len + 7) / 8 * 8
    if b.length < 8 ∨ b.length < 8 + pad then ([], b.length ≥ 8 && leAt b 3 1 != 0, true)
    else
      let r := planEntries kind (b.drop (8 + pad)) k
      ({ kind := kind, index := leAt b 0 2, sub := leAt b 2 1, len := len, val := leAt b 8 len } :: r.1
        , leAt b 3 1 != 0 || !(((b.drop (8 + len)).take (pad - len)).all (· == 0#8)) || r.2.1, r.2.2)

/-- Every entry of a record is one that the dictionary takes after the plan before it. -/
def planAll (planOk : List PlanEntry → PlanEntry → Bool) (before es : List PlanEntry) : Bool :=
  match es with
  | [] => true
  | e :: r => planOk before e && planAll planOk (before ++ [e]) r
/-- A PLAN record (05 R218, R219): a count that the payload cannot hold is cut to one entry more than fits. -/
def recPlan (planOk : List PlanEntry → PlanEntry → Bool) (b : List Byte) (l : Load) : Except Nat Load :=
  let kind := leAt b 0 2
  let x := planEntries kind (b.drop 8) (min (leAt b 4 4) (b.length / 8 + 1))
  if b.length < 8 then .error 0x08
  else if leAt b 2 2 ≠ 0 ∨ x.2.1 then .error 0x09
  else if kind < 1 ∨ 5 < kind ∨ x.2.2 ∨ !planAll planOk l.plan x.1 then .error 0x0D
  else .ok { l with plan := l.plan ++ x.1 }

/-- Record types permitted for a kind (05 R219). -/
def recPermitted (kind ty : Nat) : Bool :=
  if kind = 1 then 1 ≤ ty && ty ≤ 6 else if kind = 2 then ty == 1 || ty == 2 || ty == 3 || ty == 4 || ty == 6 else ty == 4 || ty == 6

/-- The records of a ream, in order, until one fails (05 R213, R230 check 3). -/
def parseRecords (s : State) (planOk : List PlanEntry → PlanEntry → Bool) (b : List Byte) (l : Load) (fuel : Nat) : Except Nat Load :=
  match fuel, b with
  | _, [] => .ok l
  | 0, _ => .error 0x08
  | n + 1, b =>
    let ty := leAt b 0 1
    let fl := leAt b 1 1
    let len := leAt b 4 4
    let body := (b.drop 8).take len
    if b.length < 8 ∨ !recPermitted l.kind ty ∨ len % 8 ≠ 0 ∨ b.length < 8 + len then .error 0x08
    else if leAt b 2 2 ≠ 0 ∨ (if ty = 4 then 1 else 0) < fl then .error 0x09
    else
      let r := match ty with
        | 1 => recFrame body l
        | 2 => recRepeat body l
        | 3 => recZero body l
        | 4 => recEngine s body (fl == 1) l
        | 5 => recPlan planOk body l
        | _ => .ok l
      match r with
      | .error e => .error e
      | .ok l1 => parseRecords s planOk (b.drop (8 + len)) l1 n

/-- A ream is received (05 R212, R226, R227; checks 2 and 3). The tags of a stream with key source 0x00 must be zero (R224). -/
def reamIn (s : State) (planOk : List PlanEntry → PlanEntry → Bool) (l : Load) (given : List Byte) : State :=
  let b := sourceBytes s l l.staged given
  let len := leAt b 4 4
  let room := l.staged + b.length + (l.reams - l.next - 1) * 40 + 208
  if !sourceGives s l l.staged b.length then abortLoad s 0x12
  else if leAt b 0 4 ≠ l.next ∨ len % 8 ≠ 0 ∨ len < 8 ∨ 16777216 < len ∨ leAt b 8 8 ≠ 0 ∨ b.length ≠ 32 + len
      ∨ l.ownLen < room ∨ (l.next + 1 = l.reams ∧ room ≠ l.ownLen) then abortLoad s 0x06
  else
    let key := nextKey l l.next
    let ct := (b.drop 16).take len
    let tag := BitVec.ofNat 128 (beNat (b.drop (16 + len)))
    let pt := if l.keySource = 0 then (if tag = 0#128 then some ct else none)
      else Config.gcmOpen key (reamIv l l.next) (b.take 16) ct tag
    match pt with
    | none => abortLoad s 0x07
    | some p =>
      match parseRecords s planOk p l p.length with
      | .error e => abortLoad s e
      | .ok l1 => setLoad s { l1 with
          key := key, sha := Config.shaStep l.sha b, staged := l.staged + b.length, next := l.next + 1
          phase := if l.next + 1 = l.reams then .seal else .reams }

/-! ## Seal: checks 4 to 7 (05 R220, R229, R230) -/

/-- The hash the seal's key must have. -/
def sealHash (s : State) (l : Load) : BitVec 384 := if l.ownerKey < 4 then (fuseSlot s l.ownerKey).val else Config.factoryKeyHash
/-- Frames in the stream's scope. -/
def scopeFrames (l : Load) : Nat := 1920 * popUpTo 128 l.parts.toNat
/-- Frames covered. -/
def coveredCount (l : Load) : Nat := l.covered.foldl (fun a c => a + c.2) 0

/-- The seal's checks: the first reason, 0 when it passes. -/
def sealReason (s : State) (l : Load) (b : List Byte) (digest : BitVec 384) : Nat :=
  let key := (b.drop 8).take 97
  if leAt b 0 4 ≠ 0x4E475A45 ∨ leAt b 4 2 ≠ 1 ∨ leAt b 6 2 ≠ 0 ∨ leAt b 105 7 ≠ 0 then 0x0E
  else if Config.shaEnd (Config.shaStep 0#1024 key) ≠ sealHash s l then 0x0F
  else if !Config.ecdsaOk key digest (BitVec.ofNat 768 (beNat (b.drop 112))) then 0x10
  else if coveredCount l ≠ scopeFrames l ∨ l.count ≠ coveredCount l then 0x11
  else 0

/-- Enable the engine hubs of the dies that a boot stream's ENGINE records name (03 R128, step 9). -/
def bootHubs (s : State) (l : Load) : State := l.engs.foldl (fun a r => setEnable a (unHub (r.eng / 96))) s

/-- The seal has passed: a boot stream is written and its relay may start; another awaits check 8. -/
def sealPassed (s : State) (l : Load) : State :=
  if l.boot then
    let s1 := bootHubs (setLoad s { l with phase := .writing }) l
    let s2 := relayReady (setLd s1 { s1.ld with state := 3#8 }) l.relayLen (if l.src == 0xFE#8 then none else some (l.addr + l.ownLen))
    setRst s2 { s2.rst with phase := .writing }
  else setLd (setLoad s { l with phase := .checked }) { s.ld with load := some { l with phase := .checked }, state := 2#8 }

/-- `SEAL_RECORD` (05 R220, R229, R230; R246). -/
def execSealRecord (rec_ : Vector (BitVec 8) 208) (s : State) : Res :=
  .next (match s.ld.load with
    | none => consumeRest s 208
    | some l =>
      if l.phase == .seal then
        let bytes := sourceBytes s l l.staged rec_.toList
        let digest := Config.shaEnd (Config.shaStep l.sha (bytes.take 112))
        let l1 := { l with digest := digest, staged := l.staged + 208 }
        let why := if sourceGives s l l.staged 208 then sealReason s l bytes digest else 0x12
        if why = 0 then sealPassed s l1 else relayAfterFail (abortLoad s why) 208
      else consumeRest s 208)

/-! ## Writing (05 R208, R242; 06 R279; 07 R303) -/

/-- Is an item within the scope of the load (05 R221)? -/
def itemIn (l : Load) (i : DesignItem) : Bool := l.parts.getLsbD (itemPart i)

/-- Write the bytes of an ENGINE record, eight bits at a time, into 256-bit words. -/
def engBytes (g : Engine) (region o : Nat) (l : List Byte) : Engine :=
  match l with
  | [] => g
  | b :: r =>
    let i := o / 32
    let w := if region = 0 then progWord g i else dataWord g (region == 2) i
    let w' := putFld w (8 * (o % 32)) 8 b.toNat
    engBytes (if region = 0 then setProg g i w' else setData g (region == 2) i w') region (o + 1) r
/-- The engine records are written; engines whose records ask for it become HALTED (05 R214, R242 step 4). -/
def writeEngs (s : State) (l : Load) : State :=
  l.engs.foldl (fun a r =>
    let g := engBytes (engOf a r.eng) r.region r.off r.bytes
    setEng a r.eng (if r.halt && g.state == .notready then { g with state := .halted } else g)) s

/-- Frames, design and engine records of a load are written. -/
def writeLoad (s : State) (l : Load) (design : List DesignItem) : State :=
  let s1 := setFab s { s.fab with
    frames := l.frames.foldl (fun t f => tabPut t f.1 f.2) s.fab.frames
    written := s.fab.written ||| l.parts }
  writeEngs ((design.filter (itemIn l)).foldl applyItem s1) l

/-- The staging region is to be wiped. -/
def toWipe (s : State) (l : Load) : State := setLd s { s.ld with load := some { l with phase := .wiping }, state := 4#8 }

/-- `FRAMES_WRITTEN` (04 R169 step 9). -/
def execFramesWritten (design : List DesignItem) (s : State) : Res :=
  .next (match s.ld.load with
    | some l =>
      if l.boot && l.phase == .writing then
        let s1 := toWipe (writeLoad s l design) l
        setRst s1 { s1.rst with phase := .stageWipe }
      else s
    | none => s)

/-- Check 8 (05 R230, R239, R242): the requester still owns what the stream names, its engines are NOTREADY behind enabled hubs; a partition of a die that is
not ON cannot be written (log entry 20). -/
def check8 (s : State) (l : Load) : Bool :=
  let owns (o : Nat) : Bool := match l.tenant with | some t => o == t.val | none => true
  (List.range 128).all (fun p => !l.parts.getLsbD p || (owns (partOwner s p) && dieOf s (p / 16) == .on))
    && l.engs.all fun r => owns (engOwner s r.eng) && (engOf s r.eng).state == .notready && enabled s (unHub (r.eng / 96))
        && dieOf s (r.eng / 96) == .on
/-- Partitions of a load's bitmap. -/
def loadParts (l : Load) : List Nat := (List.range 128).filter (l.parts.getLsbD ·)

/-- `PARTIAL_WRITE_START` (05 R242 steps 1 and 2): check 8, then the partitions are isolated, in-flight requests to them complete with NOTREADY, and their epochs
advance; reset assertions cease to reach them (06 R282). -/
def execPartialWriteStart (s : State) : Res :=
  .next (match s.ld.load with
    | some l =>
      if !l.boot && l.phase == .checked then
        if check8 s l then
          let ps := loadParts l
          let s1 := setLd s { s.ld with load := some { l with phase := .writing }, state := 3#8 }
          let s2 := advanceEpochs (ps.foldl (fun a p => setPart a p 2) (drainTxs s1 ps [] rNotready)) ps []
          setFab s2 { s2.fab with written := s2.fab.written &&& ~~~l.parts }
        else abortLoad s 0x15
      else s
    | none => s)

/-- `PARTIAL_WRITE_DONE` (05 R242 steps 3 and 4). -/
def execPartialWriteDone (design : List DesignItem) (s : State) : Res :=
  .next (match s.ld.load with
    | some l =>
      if !l.boot && l.phase == .writing then
        let ps := loadParts l
        let s1 := writeLoad (ps.foldl wipePart s) l design
        let s2 := toWipe (holdCheck (ps.foldl (fun a p => setPart a p 1) s1)) l
        if l.kind = 2 then
          let t := (l.tenant.map Fin.val).getD 0
          logEvT s2 0x230E sevInfo (t * 65536 + ps.length) t 0xFFFF
        else s2
      else s
    | none => s)

/-! ## Requests (05 R238 to R241) -/

/-- A load or a flash update runs (05 R240). -/
def loadBusy (s : State) : Bool := s.ld.load.isSome || s.ld.fu.isSome

/-- The 64 slices give up lines until each holds what it has room for (05 R238). -/
def trimSlices (s : State) (fuel : Nat) : State :=
  match fuel with
  | 0 => s
  | k + 1 => trimSlices ((List.range 64).foldl sliceTrim s) k
/-- The lines that a larger staging region displaces, of the device and of hosts, are written back and evicted (05 R238): it takes an even share of every slice,
which keeps at most what it then has room for; which lines go is left open, a free value of each line (log entry 16). -/
def stageDisplace (s : State) (val : Nat) : State :=
  let grows := oGet s O_PR_STAGE_MIB < val
  let out := (s.hub.slices.map (·.1)).filter fun x => grows && Config.freeNat (s.freeCtr + x) % 2 == 1
  let hosts := s.hub.hlines.filter fun h => grows && Config.freeNat (s.freeCtr + 2 ^ 47 * (h.port + 1) + h.line) % 2 == 1
  let s1 := oSet (freeStep (hosts.foldl hostDisplace (out.foldl sliceEvict s))) O_PR_STAGE_MIB val
  trimSlices s1 s1.hub.slices.length
/-- PR_STAGE_MIB (05 R238). -/
def wrPrStage (r : Req) (len val : Nat) (s : State) : State :=
  objWriteG r O_PR_STAGE_MIB len val
    { value := val == 0 || val == 64 || val == 128 || val == 256 || val == 512, state := s.ld.load.isNone } noRej
    (fun s => stageDisplace s val) s
/-- `PR_STAGE_MIB` (05 R238). -/
def execPrStageMib (r : Req) (v : BitVec 16) (s : State) : Res := .next (wrPrStage r 2 v.toNat s)

/-- A flash image address lies in a slot with an open intent (05 R239). -/
def inOpenSlot (s : State) (a : Nat) : Bool :=
  match s.ld.flash, s.ld.dir with
  | some f, some d => (openIntents f d).any fun x => slotOff f d x.1 ≤ a && a < slotOff f d x.1 + slotSize f d x.1
  | _, _ => false

/-- LOAD_REQUEST (05 R239, R240, R254): byte 0 the source, bytes 1 to 7 zero, bytes 8 to 15 the address. -/
def wrLoadRequest (r : Req) (len val : Nat) (s : State) : State :=
  let src := val % 256
  let a := val / 2 ^ 64 % 2 ^ 64
  objWriteG r 0x231001 len val
    { value := (src == 1 || src == 2) && val / 256 % 2 ^ 56 == 0
      state := operating s && !loadBusy s && oGet s O_PR_STAGE_MIB != 0 && !(src == 2 && inOpenSlot s a) } noRej
    (fun s => setLd s { s.ld with
      state := 1#8
      load := some { src := if src = 1 then 0x10#8 else 0x11#8, boot := false, follow := none, tenant := r.view, addr := a } }) s
/-- `LOAD_REQUEST` (05 R239). -/
def execLoadRequest (r : Req) (source : BitVec 8) (zero : BitVec 56) (addr : BitVec 64) (s : State) : Res :=
  .next (wrLoadRequest r 16 (source.toNat + 256 * zero.toNat + 2 ^ 64 * addr.toNat) s)

/-- `FOLLOW_ON_LOAD_START` (05 R241): the next follow-on stream of the slot that loaded, once INIT_DONE is released and no relay, load or update
runs. -/
def execFollowOnLoadStart (s : State) : Res :=
  .next (match s.ld.flash, s.ld.dir with
    | some f, some d =>
      if operating s && s.rst.initDone && !loadBusy s && s.ld.relay == .off && s.ld.active.toNat ≤ 3 && s.ld.followPos < s.ld.followN then
        let o := slotOff f d s.ld.active.toNat
        setLd s { s.ld with
          state := 1#8, followPos := s.ld.followPos + 1
          load := some { src := s.ld.active, boot := false, follow := some s.ld.followPos, tenant := none
                         addr := o + flashNat f (o + 20 + 4 * s.ld.followPos) 4 } }
      else s
    | _, _ => s)

/-! ## Relay (05 R244 to R247) -/

/-- The relay section, byte by byte: of a stream from a slot as the slot holds it (05 R244), of one through CFGI as it follows the stream there (R246), which no row
brings: its bytes are free values. -/
def relaySection (s : State) : List Byte :=
  match s.ld.flash with
  | some f => flashBytes f s.ld.relayAt s.ld.relayLen
  | none => (List.range s.ld.relayLen).map fun i => Config.free 8 (s.ld.relayAt + i)
/-- What CFGR_D has carried since the relay started, in order: the section verbatim, as far as it has been sent. -/
def relayOut (s : State) : List Byte := (relaySection s).take s.ld.relaySent
/-- CFGR_CLK runs from the start of the relay to its end (05 R245). -/
def cfgrClk (s : State) : Bool := s.ld.relay == .running
/-- CFGR_VALID: bytes are sent while the downstream device is ready (05 R245). -/
def cfgrValid (s : State) : Bool := s.ld.relay == .running && s.ld.cfgrReady && s.ld.relaySent < s.ld.relayLen
/-- How far a running relay has come when CFGR_READY falls is a free value, up to the section's end (05 R245; log entry 99). -/
def relayGo (s : State) : State :=
  if cfgrValid s then freeStep (setLd s { s.ld with relaySent := s.ld.relaySent + Config.freeNat s.freeCtr % (s.ld.relayLen - s.ld.relaySent + 1) }) else s
/-- `CFGR_READY_CHANGE` (05 R245): what had been sent by the fall of READY stands. -/
def execCfgrReadyChange (level : Bool) (s : State) : Res :=
  let s1 := if level then s else relayGo s
  .next (setLd s1 { s1.ld with cfgrReady := level })
/-- `RELAY_START` (05 R244). -/
def execRelayStart (s : State) : Res :=
  .next (if clocked s && s.ld.relay == .waiting && s.ld.cfgrReady then setLd s { s.ld with relay := .running } else s)
/-- `RELAY_DONE` (05 R244): no byte is sent while CFGR_READY stays low. -/
def execRelayDone (s : State) : Res :=
  .next (if s.ld.relay == .running && (s.ld.cfgrReady || s.ld.relaySent == s.ld.relayLen) then setLd s { s.ld with relay := .off, relaySent := s.ld.relayLen } else s)
/-- `RELAY_TIMEOUT` (05 R247): CFGR_READY has stayed low for 10 s; the event gives the MiB sent by then (05 R255). -/
def execRelayTimeout (s : State) : Res :=
  .next (if (s.ld.relay == .running || s.ld.relay == .waiting) && !s.ld.cfgrReady then
    logEv (setLd s { s.ld with relay := .off }) 0x230A sevErr (s.ld.relaySent / 2 ^ 20)
  else s)

/-! ## Keys (05 R233 to R237) -/

/-- Does the running load use fuse slot `k` (05 R233)? -/
def loadUsesSlot (s : State) (k : Nat) : Bool :=
  match s.ld.load with
  | some l => l.phase != .header && 0 < l.staged && (if k < 4 then l.ownerKey == k else k == l.keySource + 3)
  | none => false
/-- Does it use the battery-backed key? -/
def loadUsesBbk (s : State) : Bool :=
  match s.ld.load with | some l => 0 < l.staged && l.keySource == 3 | none => false
/-- Write the key RAM. -/
def putBbk (s : State) (k : BitVec 256) : State := { s with vbat := { s.vbat with key := k, keyHeld := true } }

/-- BBK_WRITE (05 R234): the key's bytes, most significant first. -/
def wrBbk (r : Req) (len val : Nat) (s : State) : State :=
  let k := BitVec.ofNat 256 (beNat (leBytes 32 val))
  objWriteG r O_BBK_WRITE len val { life := s.rst.lc.toNat ≤ 2 } noRej
    (fun s => if loadUsesBbk s then setLd s { s.ld with pendingBbk := some k } else putBbk s k) s
/-- `BBK_WRITE` (05 R234). -/
def execBbkWrite (r : Req) (key : BitVec 256) (s : State) : Res := .next (wrBbk r 32 (leNat (beBytes 32 key.toNat)) s)

/-- Fuse slot of a KEY_PROGRAM slot code. -/
def progSlot (code : Nat) : Option Nat := if code < 4 then some code else if code = 0x10 then some 4 else if code = 0x11 then some 5 else none
/-- Bytes of a KEY_PROGRAM for a slot code. -/
def progLen (code : Nat) : Nat := if code = 0x10 ∨ code = 0x11 then 36 else 52
/-- A key write refused because a load uses the slot logs event 0x2309 (05 R236). -/
def slotInUse (used : Bool) (slot : Nat) (code : BitVec 32) (s : State) : State := logIf (used && code == abState) s 0x2309 sevWarn slot

/-- KEY_PROGRAM (05 R236): a slot is programmed once; programming all ones leaves what reads as a destroyed slot (R189). -/
def wrKeyProgram (r : Req) (len val : Nat) (s : State) : State :=
  let code := val % 256
  let k := (progSlot code).getD 0
  let x := fuseSlot s k
  let n := progLen code - 4
  let key := BitVec.ofNat 384 (beNat (leBytes n (val / 2 ^ 32)))
  objWriteG r O_KEY_PROGRAM (if (len = 36 ∨ len = 52) ∧ ((progSlot code).isNone ∨ len = progLen code) then len else 0) val
    { value := (progSlot code).isSome && val / 256 % 2 ^ 24 == 0, life := s.rst.lc.toNat ≤ 1
      state := !loadUsesSlot s k && !x.fused && !x.destroyed } (slotInUse (loadUsesSlot s k) code)
    (fun s => setSlot s k { x with fused := true, val := key, destroyed := key == slotOnes k }) s
/-- `KEY_PROGRAM` (05 R236): of a device key the low 256 bits of `key` are sent. -/
def execKeyProgram (r : Req) (slot : BitVec 8) (zero : BitVec 24) (key : BitVec 384) (s : State) : Res :=
  let n := progLen slot.toNat - 4
  .next (wrKeyProgram r (n + 4) (slot.toNat + 256 * zero.toNat + 2 ^ 32 * leNat (beBytes n key.toNat)) s)

/-- Another usable owner key hash remains besides `k` (05 R237). -/
def otherOwner (s : State) (k : Nat) : Bool := (List.range 4).any fun j => j != k && slotHeld s j
/-- KEY_REVOKE (05 R236, R237): a debug token of the slot ends (17 R729); a slot already revoked changes nothing. -/
def wrKeyRevoke (r : Req) (len val : Nat) (s : State) : State :=
  let k := val % 4
  let x := fuseSlot s k
  objWriteG r O_KEY_REVOKE len val
    { life := s.rst.lc == 1#3 || s.rst.lc == 2#3
      state := !loadUsesSlot s k && x.fused && !x.destroyed && (x.revoked || otherOwner s k) } (slotInUse (loadUsesSlot s k) k)
    (fun s =>
      let s1 := setSlot s k { x with revoked := true }
      match s1.dbg.token with
      | some t => if t.key = k && !x.revoked then endToken s1 4 else s1
      | none => s1) s
/-- `KEY_REVOKE` (05 R236). -/
def execKeyRevoke (r : Req) (slot : BitVec 8) (s : State) : Res := .next (wrKeyRevoke r 1 slot.toNat s)

/-! ## Flash update (05 R249 to R252) -/

/-- The bytes of a range of device memory as they stand now, if every line of it is device memory. -/
def devBytes (s : State) (a n : Nat) : Option (List Byte) := (List.range n).mapM fun i => devByte s (a + i)

/-- A journal entry's bytes. -/
def journalBytes (ty slot seq dtime : Nat) : List Byte :=
  let b := leBytes 1 ty ++ leBytes 1 slot ++ [0xFF#8, 0xFF#8] ++ leBytes 4 seq ++ leBytes 8 dtime ++ List.replicate 12 0xFF#8
  b ++ leBytes 4 (crc32 b)
/-- First free entry of a sector. -/
def freeEntry (f : FlashInfo) (o : Nat) : Option Nat :=
  ((List.range 128).find? fun i => (flashBytes f (o + 32 * i) 32).all (· == 0xFF#8)).map fun i => o + 32 * i
/-- The open INTENT entries of the active sector, byte by byte. -/
def openEntries (f : FlashInfo) (d : Nat) : List (List Byte) :=
  match activeSector f d with
  | none => []
  | some j =>
    let o := journalOff f d j
    let es := journalEntries f o
    ((List.range 128).filter fun i => match journalEntry f (o + 32 * i) with | some e => intentOpen es e | none => false).map fun i =>
      flashBytes f (o + 32 * i) 32
/-- The other sector takes over (05 R252): erased, a sector entry of the next sequence, the open intents copied as they stand. With no active sector the first is made
active with sequence 1 (log entry 21). -/
def swapSector (f : FlashInfo) (d dtime : Nat) : FlashInfo :=
  let j := (activeSector f d).getD 1
  let o := journalOff f d (1 - j)
  let seq := ((sectorSeq f (journalOff f d j)).getD 0) + 1
  flashWrite (flashErase f o 4096) o (journalBytes 0x10 0xFF seq dtime ++ (openEntries f d).flatten)
/-- An entry is appended to the active sector, after R252 where it has no free entry. -/
def journalPut (f : FlashInfo) (d dtime ty slot seq : Nat) : FlashInfo :=
  let room := (activeSector f d).bind fun j => freeEntry f (journalOff f d j)
  match room with
  | some o => flashWrite f o (journalBytes ty slot seq dtime)
  | none =>
    let g := swapSector f d dtime
    match (activeSector g d).bind fun j => freeEntry g (journalOff g d j) with
    | some o => flashWrite g o (journalBytes ty slot seq dtime)
    | none => g
/-- The highest update sequence found in the journal (05 R251). -/
def journalTop (f : FlashInfo) (d : Nat) : Nat :=
  (journalEntries f (journalOff f d 0) ++ journalEntries f (journalOff f d 1)).foldl
    (fun a e => if e.1 = 1 ∨ e.1 = 2 then max a e.2.2 else a) 0

/-- The image that FU_START would write: flash, directory, slot, bytes; none when the request is refused (05 R249, R240). -/
def fuImage (s : State) : Option (FlashInfo × Nat × Nat × List Byte) :=
  match s.ld.flash, s.ld.dir with
  | some f, some d =>
    let k := oGet s O_FU_SLOT
    let n := oGet s O_FU_LENGTH
    if loadBusy s || slotSize f d k < n || (s.ld.relay != .off && s.ld.active.toNat == k) then none
    else match devBytes s (oGet s O_FU_SOURCE) n with
      | some b => if 4096 ≤ n ∧ leAt b 0 4 = 0x4E475A53 then some (f, d, k, b) else none
      | none => none
  | _, _ => none

/-- A flash update, a parameter store or erasure, or a training-area store runs (15 R640). -/
def serviceBusy (s : State) : Bool := s.ld.fu.isSome || s.fw.store.isSome || oGet s O_STORE_STATE == 2 || s.ddr.storing
/-- FU_START (05 R249, R251 step 1): INTENT is written to the journal. A slot whose relay section is still being read counts as read by a load. -/
def wrFuStart (r : Req) (len val : Nat) (s : State) : State :=
  objWriteG r O_FU_START len val { state := operating s && (fuImage s).isSome && !serviceBusy s } noRej
    (fun s => match fuImage s with
      | some (f, d, k, b) =>
        let seq := journalTop f d + 1
        setLd (oSet s O_FU_STATE 1) { s.ld with
          flash := some (journalPut f d s.fw.dtime 1 k seq), fu := some { slot := k, seq := seq, image := b } }
      | none => s) s
/-- Between the INTENT and the end of an update FU_STATE passes through erasing, programming and verifying (05 R251, R254); how far it has come is a free value of each idle
step (log entry 99). -/
def fuTick (s : State) : State :=
  let x := oGet s O_FU_STATE
  if s.ld.fu.isSome && 1 ≤ x && x < 4 && Config.freeNat s.freeCtr % 2 == 1 then freeStep (oSet s O_FU_STATE (x + 1)) else s
/-- `FU_START` (05 R249). -/
def execFuStart (r : Req) (v : BitVec 8) (s : State) : Res := .next (wrFuStart r 1 v.toNat s)

/-- Bytes of the slot that the flash holds otherwise than programmed. -/
def flawed (f : FlashInfo) (o : Nat) (bad : List (Nat × BitVec 8)) : FlashInfo :=
  bad.foldl (fun g b => { g with cells := tabSet g.cells (o + b.1) b.2 0xFF#8 }) f
/-- Offsets of the State field in a slot header. -/
def inStateField (i : Nat) : Bool := 4 ≤ i && i < 8

/-- `FU_DONE` (05 R251 steps 2 to 6): `bad` are the bytes of the slot that read back otherwise than programmed. The image is programmed with State erased and
compared; State is programmed and read back; COMPLETE is written. -/
def execFuDone (bad : List (Nat × BitVec 8)) (s : State) : Res :=
  .next (match s.ld.fu, s.ld.flash, s.ld.dir with
    | some j, some f, some d =>
      let o := slotOff f d j.slot
      let f1 := flashErase f o (slotSize f d j.slot)
      let erased := (j.image.take 4) ++ List.replicate 4 0xFF#8 ++ j.image.drop 8
      let f2 := flawed (flashWrite f1 o erased) o (bad.filter fun b => !inStateField b.1 && b.1 < slotSize f d j.slot)
      let fail (g : FlashInfo) (step : Nat) : State :=
        logEv (setLd (oSet s O_FU_STATE 6) { s.ld with flash := some g, fu := none }) 0x230C sevErr (j.slot * 65536 + step)
      if flashBytes f2 o j.image.length ≠ j.image then fail f2 4
      else
        let f3 := flawed (flashWrite f2 (o + 4) [0, 0, 0, 0]) o (bad.filter fun b => inStateField b.1)
        if flashNat f3 (o + 4) 4 ≠ 0 then fail f3 5
        else
          logEv (setLd (oSet s O_FU_STATE 5) { s.ld with flash := some (journalPut f3 d s.fw.dtime 2 j.slot j.seq), fu := none })
            0x230B sevInfo (j.slot * 65536 + j.seq % 65536)
    | _, _, _ => s)

end Sys2Proof.Machine
end

