-- ==== Sys2Proof/Machine/Mio.lean ====
section
/-! DEFINITION. MIO banks and pins, contention, the system monitor (16), and the open-drain outputs that report the device (02 R77). -/
namespace Sys2Proof.Machine

/-- Set the record. -/
def setMio (s : State) (m : Mio) : State := { s with mio := m }

/-! ## The device's own pins (02 R77) -/

/-- Is an SM alarm of channel `c` active (16 R698)? -/
def smAlarm (s : State) (c : Nat) : Bool := (oGet s (O_SM_FLAGS c)).testBit 3
/-- Class of a channel: 0 temperature, 1 rail, 2 analogue input (16 R693). -/
def smClass (c : Nat) : Nat := if c < 40 then 0 else if c < 64 then 1 else 2
/-- A temperature alarm is active (16 R699). -/
def thermWarn (s : State) : Bool := (List.range 40).any (smAlarm s)
/-- ALERT_N is driven low: a latched reference failure (03 R125) or an alarm of an enabled class (16 R699). -/
def alertLow (s : State) : Bool :=
  s.pwr.vaux && !s.pwr.effReset &&
    (s.clk.refFail || (List.range 68).any fun c => smAlarm s c && (oGet s O_SM_ALERT_EN).testBit (smClass c))
/-- ERROR_N is driven low: after a strap error or a wipe failure until the next cold reset ends (02 R77, R79; 04 R165), during effective reset with a latched thermal
trip, after a trip (02 R96), and while boot has stopped (04 R170). -/
def errorLow (s : State) : Bool :=
  s.pwr.vaux && (s.pwr.tripped || s.rst.phase == .halted || (s.pwr.sampled && strapError s) || s.rst.wipeFailed
    || (s.pwr.effReset && s.pwr.tripLatch.isSome))
/-- THERMTRIP_N is driven low while a trip is latched. -/
def thermtripLow (s : State) : Bool := s.pwr.vaux && s.pwr.tripLatch.isSome
/-- INIT_DONE is driven low until step 12 releases it. -/
def initLow (s : State) : Bool := !s.rst.initDone

/-! ## Banks (16 R681, R683) -/

/-- The bank's state changes, and with it VCCMIO's bit of RAIL_STATUS (02 R102). -/
def setBankState (s : State) (b v : Nat) : State :=
  setPwr s { s.pwr with mioBank := tabPut s.pwr.mioBank b v, rails := setBit s.pwr.rails (9 + b) (v != 3) }
/-- `MIO_BANK_DETECT` (16 R681, R683): a bank that floated returns. -/
def execMioBankDetect (bank : Fin 2) (v33 : Bool) (s : State) : Res :=
  let v := if v33 then 2 else 1
  .next (if s.pwr.vaux && (bankState s bank.val == 0 || bankState s bank.val == 3) then
    logIf (bankState s bank.val == 3 && fwRuns s) (setBankState s bank.val v) 0x2D04 sevInfo (bank.val * 65536 + v)
  else s)
/-- `MIO_BANK_FLOAT` (16 R683). -/
def execMioBankFloat (bank : Fin 2) (mv : BitVec 16) (s : State) : Res :=
  .next (if s.pwr.vaux && (bankState s bank.val == 1 || bankState s bank.val == 2) then
    logIf (fwRuns s) (setBankState s bank.val 3) 0x2D03 sevErr (bank.val * 65536 + mv.toNat)
  else s)

/-! ## Pins (16 R682 to R692) -/

/-- DISABLED and CONTENTION of a pin (16 R692). -/
def pinOff (s : State) (p : Nat) : Bool := (oGet s (O_MIO_STATUS p)).testBit 1
def pinHeld (s : State) (p : Nat) : Bool := (oGet s (O_MIO_STATUS p)).testBit 0
/-- First pin of the pair that a CAN FD or I3C pin belongs to. -/
def pairBase (p : Nat) : Nat := p / 2 * 2
/-- A pin floats (16 R682, R685, R692). -/
def pinFloats (s : State) (p : Nat) : Bool :=
  let f := mioFunc s p
  !mioApplied s || !bankUp s p || pinOff s p || f == 0 || (f == 1 && oGet s (O_MIO_OE p) == 0)
    || ((f == 2 || f == 3) && !pairOn s (pairBase p) f)
/-- May function `f` stand on pin `p` (16 R684)? -/
def funcAllowed (f p : Nat) : Bool :=
  match f with
  | 2 => p % 32 < 2
  | 3 => p % 32 == 2 || p % 32 == 3
  | 4 => p == 4 || p == 36
  | 5 => p % 32 == 6 || p % 32 == 7
  | 6 => 8 ≤ p % 32
  | _ => f ≤ 0xC
/-- The other pair of a CAN FD or I3C function carries it on some pin (16 R685). -/
def otherPair (s : State) (f p : Nat) : Bool :=
  let q := (pairBase p + 32) % 64
  (f == 2 || f == 3) && (mioFunc s q == f || mioFunc s (q + 1) == f)
/-- The function's output, where the state gives it (16 R687, R691): the bus functions, the bits of the UART's line and CLKOUT are
not given by the state. -/
def pinOut (s : State) (p : Nat) : Option Bool :=
  let ch := oGet s (O_MIO_CFG p) / 16 % 64
  match mioFunc s p with
  | 1 => some (oGet s (O_MIO_LATCH p) == 1)
  | 6 => if oGet s (O_PROBE_ROUTE ch) / 2 ^ 14 = 2 ∧ enabled s unProbe ∧ probeLive s ch then some (tapBit s ch) else some false
  | 7 => some (!alertLow s)
  | 8 => some (!errorLow s)
  | 9 => some (!thermWarn s)
  | 0xB => some (match s.fw.pps with | some t => s.fw.dtime < t + 100000 | none => false)
  | 0xC => some (!initLow s)
  | _ => none
/-- Is a pin's output watched (16 R684, R692): a monitored function with its driver on; an open-drain pin only while it drives low? -/
def pinWatched (s : State) (p : Nat) : Bool :=
  let f := mioFunc s p
  let od := f == 7 || f == 8 || f == 9 || f == 0xC || (f == 1 && (oGet s (O_MIO_CFG p)).testBit 2)
  !pinFloats s p && (f == 1 || (f == 2 && p % 32 == 0) || f == 4 || od || f == 0xB) && !(od && pinOut s p == some true)

/-- MIO_LATCH as read (16 R691): an output that the state does not give is a free value. -/
def latchRead (s : State) (p : Nat) : Nat :=
  match pinOut s p with | some b => b.toNat | none => Config.freeNat s.freeCtr % 2
/-- MIO_LEVEL as read (16 R683, R691): 0 while the bank floats, otherwise what the board's level is, a free value. -/
def levelRead (s : State) (p : Nat) : Nat := if bankState s (p / 32) = 3 then 0 else Config.freeNat s.freeCtr % 2
/-- MIO_STATUS as read (16 R701). -/
def mioStatus (s : State) (p : Nat) : Nat := oGet s (O_MIO_STATUS p) + (if pinFloats s p then 4 else 0)

/-- `MIO_CONTENTION` (16 R692): a mismatch of latch and level has held for 1 us. -/
def execMioContention (pin : Fin 64) (s : State) : Res :=
  let p := pin.val
  .next (if pinWatched s p then
    let off := (oGet s (O_MIO_CFG p)).testBit 3
    let s1 := oSet s (O_MIO_STATUS p) (1 + (if off then 2 else 0))
    logIf (!pinHeld s p) s1 0x2D01 sevWarn (p + (if off then 256 else 0))
  else s)

/-- MIO_STATUS written: 1 in bit 0 clears CONTENTION and DISABLED (16 R692, R701). -/
def wrMioStatus (r : Req) (p len val : Nat) (s : State) : State :=
  objWriteG r (O_MIO_STATUS p) len val { value := val < 8 } noRej
    (fun s => if val.testBit 0 then oSet s (O_MIO_STATUS p) 0 else s) s
/-- `MIO_STATUS_CLEAR` (16 R692). -/
def execMioStatusClear (r : Req) (pin : Fin 64) (s : State) : Res := .next (wrMioStatus r pin.val 1 1 s)

/-- MIO_FUNC (16 R684, R685). -/
def wrMioFunc (r : Req) (p len val : Nat) (s : State) : State :=
  objWriteG r (O_MIO_FUNC p) len val { value := funcAllowed val p, state := !otherPair s val p } noRej
    (fun s => oSet s (O_MIO_FUNC p) val) s
/-- MIO_CFG (16 R702). -/
def wrMioCfg (r : Req) (p len val : Nat) (s : State) : State :=
  objWriteG r (O_MIO_CFG p) len val { value := val < 1024 && val % 4 != 3 } noRej (fun s => oSet s (O_MIO_CFG p) val) s
/-- CLKOUT_DIV (16 R701). -/
def wrClkoutDiv (r : Req) (len val : Nat) (s : State) : State :=
  objWriteG r O_CLKOUT_DIV len val { value := val % 2 == 0 && 4 ≤ val && val ≤ 256 } noRej (fun s => oSet s O_CLKOUT_DIV val) s

/-! ## System monitor (16 R693 to R699) -/

/-- A 32-bit value as a signed number, and back. -/
def signed32 (v : Nat) : Int := if v < 2 ^ 31 then v else (v : Int) - 2 ^ 32
def unsigned32 (v : Int) : Nat := (v % 2 ^ 32).toNat
/-- Die of a channel, if it has one. -/
def smDie (c : Nat) : Option Nat := if c < 32 then some (c / 4) else if 52 ≤ c ∧ c < 60 then some (c - 52) else none
/-- The monitor is not stopped for channel `c` (16 R695): SENSORS runs, or it is a temperature site between steps 5 and 11 of boot. -/
def smLive (s : State) (c : Nat) : Bool :=
  fwRuns s && clocked s &&
    ((s.clk.clkRun.getLsbD unSensors && enabled s unSensors) || (c < 40 && match s.rst.phase with | .run | .waitPin | .applied => false | _ => true))
/-- The monitor converts channel `c` (16 R694). -/
def smRuns (s : State) (c : Nat) : Bool := oGet s (O_SM_ENABLE c) == 1 && smLive s c
/-- The channel that the sequencer visits next: in ascending order among those that it converts, and then from the first again (16 R694). -/
def smTurn (s : State) : Option Nat :=
  let run := (List.range 68).filter (smRuns s)
  (run.find? fun c => decide (s.mio.smNext ≤ c)).orElse fun _ => run.head?
/-- The channel's die is ON. -/
def smDieOn (s : State) (c : Nat) : Bool := match smDie c with | some d => dieOf s d == .on | none => true

/-- Range in use of an analogue input: 1 0.25 V, 2 1.0 V, 3 2.5 V. -/
def aninRange (s : State) (i : Nat) : Nat := tabGet s.mio.range i 3
/-- Full scale of a range, uV. -/
def rangeUv (k : Nat) : Nat := if k = 1 then 250000 else if k = 2 then 1000000 else 2500000
/-- A 12-bit code as a signed number. -/
def signed12 (v : Nat) : Int := if v % 4096 < 2048 then (v % 4096 : Nat) else ((v % 4096 : Nat) : Int) - 4096
/-- code * range / 2,048 to the nearest uV (16 R696); which way a tie goes is left open: `up` decides. -/
def aninUv (code : Int) (k : Nat) (up : Bool) : Int :=
  let x := 2 * code * rangeUv k
  let q := x / 4096
  let r := x % 4096
  if r < 2048 then q else if 2048 < r then q + 1 else if up then q + 1 else q

/-- Put bits of SM_FLAGS: valid, RANGED, OVER, and the range of an analogue input; the alarm bit stays. -/
def smFlags (s : State) (c : Nat) (valid ranged beyond : Bool) : State :=
  let alarm := oGet s (O_SM_FLAGS c) / 8 % 2
  oSet s (O_SM_FLAGS c) (valid.toNat + 2 * ranged.toNat + 4 * beyond.toNat + 8 * alarm + (if 64 ≤ c then 16 * aninRange s (c - 64) else 0))

/-- Which side of its thresholds a sample lies on: 1 above, 2 below, 0 between (16 R698); a threshold at the extreme of its type is off. -/
def smSide (s : State) (c : Nat) (v : Int) : Nat :=
  let hi := oGet s (O_SM_ALARM_HI c)
  let lo := oGet s (O_SM_ALARM_LO c)
  if hi ≠ 0x7FFFFFFF ∧ signed32 hi < v then 1 else if lo ≠ 0x80000000 ∧ v < signed32 lo then 2 else 0
/-- A sample lies in the clearing band. -/
def smInBand (s : State) (c : Nat) (v : Int) : Bool :=
  let hi := oGet s (O_SM_ALARM_HI c)
  let lo := oGet s (O_SM_ALARM_LO c)
  let h : Int := oGet s (O_SM_HYST c)
  (hi == 0x7FFFFFFF || v ≤ signed32 hi - h) && (lo == 0x80000000 || signed32 lo + h ≤ v)

/-- Reading of an alarm event: degrees for a temperature, mV otherwise, cut toward zero (log entry 22). -/
def smReading (c : Nat) (v : Int) : Nat := ((if smClass c = 1 then v else v.tdiv 1000) % 65536).toNat
/-- Set or clear the alarm with its event. -/
def smChange (s : State) (c : Nat) (on : Bool) (v : Int) : State :=
  let f := oGet s (O_SM_FLAGS c)
  let s1 := oSet s (O_SM_FLAGS c) (f / 16 * 16 + f % 8 + (if on then 8 else 0))
  let s2 := setMio s1 { s1.mio with setRun := tabDel s1.mio.setRun c, clrRun := tabDel s1.mio.clrRun c }
  let code := 0x2D10 + 2 * smClass c + (if on then 0 else 1)
  logEv s2 code (if on then (if smClass c = 1 then sevErr else sevWarn) else sevInfo)
    (c * 65536 + if on then smReading c v else 0)
/-- A counting sample: `side` beyond a threshold or 0, `band` in the clearing band (16 R698). -/
def smCount (s : State) (c side : Nat) (band : Bool) (v : Int) : State :=
  let n := oGet s O_SM_ALARM_COUNT
  if smAlarm s c then
    let k := if band then tabGet s.mio.clrRun c 0 + 1 else 0
    if n ≤ k then smChange s c false v else setMio s { s.mio with clrRun := tabPut s.mio.clrRun c k }
  else
    let k := if side ≠ 0 then tabGet s.mio.setRun c 0 + 1 else 0
    if n ≤ k then smChange s c true v else setMio s { s.mio with setRun := tabPut s.mio.setRun c k }

/-- The input switches its range; the next conversion is flagged RANGED (16 R697). -/
def aninSwitch (s : State) (i k : Nat) : State :=
  if aninRange s i = k then s else
  setMio s { s.mio with range := tabPut s.mio.range i k, narrow := tabDel s.mio.narrow i, ranged := setBit s.mio.ranged i true }
/-- Automatic ranging after a sample (16 R696). -/
def aninAuto (s : State) (i : Nat) (code v : Int) (sat : Bool) : State :=
  let k := aninRange s i
  if oGet s (O_ANIN_RANGE i) ≠ 0 then s
  else if sat || 1984 ≤ code.natAbs then (if k < 3 then aninSwitch s i (k + 1) else setMio s { s.mio with narrow := tabDel s.mio.narrow i })
  else if 1 < k ∧ v.natAbs * 4 < rangeUv (k - 1) * 3 then
    if 4 ≤ tabGet s.mio.narrow i 0 + 1 then aninSwitch s i (k - 1)
    else setMio s { s.mio with narrow := tabPut s.mio.narrow i (tabGet s.mio.narrow i 0 + 1) }
  else setMio s { s.mio with narrow := tabDel s.mio.narrow i }

/-- The sequencer moves on; the round ends with the last channel that it converts (16 R694): TEMP_MAX takes the highest valid temperature. -/
def roundEnd (s : State) (c : Nat) : State :=
  let last := !(List.range 68).any fun x => c < x && smRuns s x
  let s1 := setMio s { s.mio with smNext := if last then 0 else c + 1 }
  if !last then s1
  else match s.mio.roundMax with
    | some m => oSet (setMio s1 { s1.mio with roundMax := none }) O_TEMP_MAX (unsigned32 m)
    | none => s1

/-- A temperature or rail sample: not valid while the channel's die is not ON, and the alarm then holds (16 R695). -/
def smPlain (s : State) (c : Nat) (v : Int) : State :=
  if smDieOn s c then
    let s1 := smFlags (oSet s (O_SM_VALUE c) (unsigned32 v)) c true false false
    let s2 := if c < 40 then setMio s1 { s1.mio with roundMax := some (match s1.mio.roundMax with | some m => max m v | none => v) } else s1
    smCount s2 c (smSide s2 c v) (smInBand s2 c v) v
  else smFlags s c false false false

/-- A sample of an analogue input (16 R696 to R698). -/
def smAnin (s : State) (i : Nat) (raw : Nat) : State :=
  let c := 64 + i
  let code := signed12 raw
  let sat := code = -2048 ∨ code = 2047
  let v := aninUv code (aninRange s i) (Config.freeNat s.freeCtr % 2 == 1)
  let ranged := s.mio.ranged.getLsbD i
  let s0 := setMio (freeStep s) { s.mio with ranged := setBit s.mio.ranged i false }
  if sat then
    let s1 := smFlags s0 c false ranged true
    let side := if 0 < code then (if oGet s (O_SM_ALARM_HI c) = 0x7FFFFFFF then 0 else 1) else (if oGet s (O_SM_ALARM_LO c) = 0x80000000 then 0 else 2)
    let s2 := if oGet s (O_ANIN_RANGE i) ≠ 0 then smCount s1 c side false v else s1
    aninAuto s2 i code v true
  else
    let s1 := smFlags (oSet s0 (O_SM_VALUE c) (unsigned32 v)) c true ranged false
    aninAuto (smCount s1 c (smSide s1 c v) (smInBand s1 c v) v) i code v false

/-- Bit of RAIL_STATUS of a rail that the monitor measures and no row of its own reports: VCCLANEH, VCCLPLL, VCCADC, VBAT (02 R102; 16 R693). -/
def smRail (c : Nat) : Option Nat := match c with | 44 => some 4 | 45 => some 5 | 48 => some 8 | 51 => some 11 | _ => none
/-- A valid conversion of such a rail tells whether it is in the range of 02 R67, which its default thresholds hold. -/
def smRailSeen (s : State) (c : Nat) (v : Int) : State :=
  match smRail c with
  | some b => setPwr s { s.pwr with rails := setBit s.pwr.rails b (decide ((smLoDefault c : Int) ≤ v ∧ v ≤ smHiDefault c)) }
  | none => s
/-- `SM_CONVERSION` (16 R694): the result of a conversion, in m degrees or mV; of an analogue input the low 12 bits are its code. A conversion that follows a
range switch is inserted into the sequence; any other comes in its turn. RAIL_STATUS follows the conversions of the rails that nothing else watches (02 R102). -/
def execSmConversion (ch : Fin 68) (v : BitVec 32) (s : State) : Res :=
  let c := ch.val
  .next (if smRuns s c && (smTurn s == some c || (64 ≤ c && s.mio.ranged.getLsbD (c - 64))) then
    if c < 64 then roundEnd (smPlain (smRailSeen s c (signed32 v.toNat)) c (signed32 v.toNat)) c
    else
      let s1 := smAnin s (c - 64) v.toNat
      if s.mio.ranged.getLsbD (c - 64) then s1 else roundEnd s1 c
  else s)

/-- SM_FLAGS as read: no sample is valid while the monitor is stopped or the channel's die is not ON (16 R695). -/
def smFlagsRead (s : State) (c : Nat) : Nat :=
  let f := oGet s (O_SM_FLAGS c)
  if smLive s c && smDieOn s c then f else f - f % 2

/-- ANIN_RANGE (16 R696, R697): 1 to 3 fix the range, 0 lets it range from where it is. -/
def wrAninRange (r : Req) (i len val : Nat) (s : State) : State :=
  objWriteP r (O_ANIN_RANGE i) len val (fun s =>
    let s1 := oSet s (O_ANIN_RANGE i) val
    if val = 0 then s1 else aninSwitch s1 i val) s
/-- `ANIN_RANGE_WRITE` (16 R697). -/
def execAninRangeWrite (r : Req) (i : Fin 4) (v : BitVec 8) (s : State) : Res := .next (wrAninRange r i.val 1 v.toNat s)

/-- A threshold: the counts of the channel restart (16 R698). `k` is the object's key. -/
def wrSmThreshold (r : Req) (k c len val : Nat) (s : State) : State :=
  objWriteP r k len val (fun s =>
    let s1 := oSet s k val
    setMio s1 { s1.mio with setRun := tabDel s1.mio.setRun c, clrRun := tabDel s1.mio.clrRun c }) s

end Sys2Proof.Machine
end

