-- ==== Sys2Proof/Machine/ObjValues.lean ====
section
/-! DEFINITION. What an object reads as: the values that other state gives, and the plain ones (the object tables of every chapter). -/
namespace Sys2Proof.Machine

/-- A bit as a number. -/
def bit01 (b : Bool) : Nat := if b then 1 else 0

/-- A rail or a used I/O bank is out of range (15 R679; 02 R102). -/
def railOut (s : State) : Bool := (s.pwr.rails ||| (s.pwr.vccioUnused.setWidth 28 <<< 12)) != ~~~0#28
/-- CAN_STATUS (15 R679): 3 while no pair of pins carries the controller or it only listens. -/
def canStatus (s : State) : Nat := if canOn s then oGet s O_CAN_STATUS else if canPins s ∧ oGet s O_CAN_STATUS = 2 then 2 else 3
/-- ERROR_REGISTER (15 R679). -/
def errorRegister (s : State) : Nat :=
  bit01 (errorLow s) + 4 * bit01 (railOut s) + 8 * bit01 (thermWarn s) + 16 * bit01 (canStatus s == 1 || canStatus s == 2)

/-- The identity public key (15 R660): zero when neither device key was usable at boot. -/
def idPublic (s : State) : List Byte :=
  match s.fw.idKey with
  | some h => Config.p384Public (h.toNat % (Config.p384Order - 1) + 1)
  | none => List.replicate 97 0#8
/-- The certificate chain of slot 0: a stored one carries a mark above its last byte; before one is written it is zero, of a length the spec leaves
open. -/
def certChain (s : State) : Nat × Nat :=
  let v := oGet s O_ID_CERT_CHAIN
  if v = 0 then (1 + Config.certLen % 16384, 0) else (Nat.log2 v / 8, v - 2 ^ (Nat.log2 v / 8 * 8))

/-- SYNTH_STATUS (03 R155). -/
def synthStatus (y : Synth) : Nat := bit01 y.locked + 2 * bit01 y.low + 4 * bit01 (y.run == .glide)
/-- LANE_RATE (13 R593): the present rate of a running port or controller; a CXL rate above 2.5 GT/s
has no code (log entry 101). -/
def laneRate (s : State) (l : Nat) : Nat :=
  match laneUser l with
  | .cxl p => if s.hub.cxlUp.getLsbD p then (if (cxl s p).rate = 1 then 1 else (Config.cxlLaneRate (cxl s p).rate).toNat) else oGet s (O_LANE_RATE l)
  | .casc p => if trainState s p = 0 then oGet s (O_LANE_RATE l) else (bup s p).rate
  | .fabric _ => oGet s (O_LANE_RATE l)
/-- PORT_STATUS (11 R517). -/
def portStatus (s : State) (p : Nat) : Nat :=
  let x := cxl s p
  bit01 (s.hub.cxlUp.getLsbD p) * 2 ^ 31 + x.rate * 2 ^ 28 + x.width * 2 ^ 23 + bit01 x.flit256 * 2 ^ 22 + bit01 x.lopt * 2 ^ 21
    + bit01 x.ideMem * 2 ^ 20 + bit01 x.ideLink * 2 ^ 19 + bit01 x.retrain * 2 ^ 18
/-- TENANT_BUSY (11 R517). -/
def tenantBusy (s : State) : Nat := s.ten.resets.foldl (fun m t => m + 2 ^ t.1) 0
/-- Die state code (04 R191). -/
def dieCode (d : DieState) : Nat := match d with | .on => 0 | .entering => 1 | .dormant => 2 | .waking => 3
/-- POWER_STATE (04 R191). -/
def powerState (s : State) : Nat :=
  if s.rst.standby == .entering then 2 else if (List.range 8).any (fun d => dieOf s d != .on) then 1 else 0
/-- MIRROR_LAG (14 R636): 64 bytes a record. -/
def mirrorLag (s : State) : Nat := 64 * s.twin.unacked.length
/-- Scheduler entries with VALID clear. -/
def schedFree (s : State) : Nat := ((List.range 32).filter fun i => !schedValid (schedEntry s i)).length
/-- DBG_AUTH_STATE (17 R733). -/
def authState (s : State) : Nat :=
  if s.rst.lc == 4#3 then 0xFF else if openByLife s then 1 else if s.dbg.verifying.isSome then 3
  else match s.dbg.token with
    | some t => (match t.tenant with | some n => 0x10 + n | none => 2)
    | none => 0
/-- CAP_DATA (06 R294): oldest first; positions that were not written read 0; under a tenant token only the channels of its taps (17 R727). -/
def capData (s : State) (r : Req) : Nat :=
  let m : BitVec 64 := (List.range 64).foldl (fun m c => setBit m c (tapAllowed s r c (oGet s (O_PROBE_SEL c) % 4096))) 0#64
  s.fab.cap.foldl (fun a x => (x &&& m).toNat + 2 ^ 64 * a) 0

/-- SPEED_GRADE (06 R295). -/
def speedGrade : Nat := if Config.fastGrade then 2 else 1
/-- A character of an assembly code (00 R6). -/
def siteChar (k : Nat) : Nat := if k < 10 then 0x30 + k else if k < 18 then 0x37 + k else if k < 23 then 0x38 + k else 0x39 + k
/-- The ordering code, in ASCII: NGZ9640-sM-F8836, or NGZ9640G-sM-F8836-cccc for a part with a chiplet on a guest site (00 R2, R6). -/
def orderText (sites : BitVec 2) : List Byte :=
  let tail : List Nat := [0x2D, 0x30 + speedGrade, 0x4D, 0x2D, 0x46, 0x38, 0x38, 0x33, 0x36]
  ([0x4E, 0x47, 0x5A, 0x39, 0x36, 0x34, 0x30] ++ (if sites = 0#2 then tail
    else 0x47 :: tail ++ 0x2D :: (List.range 4).map fun i => siteChar (Config.assembly i).val)).map (BitVec.ofNat 8)

/-- Objects that other state gives, up to 0x27FF. -/
def derivedLow (s : State) (ix sub : Nat) : Option Nat :=
  let i := sub - 1
  if ix = 0x1001 then some (errorRegister s)
  else if ix = 0x1018 then some (if sub = 1 then 0x0B7E else if sub = 2 then 0x9640 else if sub = 3 then 0xA1 else Config.serial % 2 ^ 32)
  else if ix = 0x1100 ∧ sub = 4 then some (canStatus s)
  else if ix = 0x2000 ∧ sub = 3 then some (Config.serial % 2 ^ 64)
  else if ix = 0x2000 ∧ sub = 4 then some (Config.fwVersion % 2 ^ 32)
  else if ix = 0x2000 ∧ sub = 5 then some (leNat (orderText s.fuse.sites))
  else if ix = 0x2001 then some (leNat (beBytes 48 s.ld.digest.toNat))
  else if ix = 0x2002 ∧ sub = 1 then some (leNat ((idPublic s).take 97))
  else if ix = 0x2002 then some (certChain s).2
  else if ix = 0x2104 then some s.pwr.rails.toNat
  else if ix = 0x2106 ∧ sub = 1 then some (bit01 s.vbat.tamper + 2 * bit01 s.vbat.low + 4 * bit01 s.vbat.keyHeld)
  else if ix = 0x2106 ∧ sub = 2 then some (Config.freeNat s.freeCtr % 65536)
  else if ix = 0x2107 then some s.pwr.straps.toNat
  else if ix = 0x2180 then some (powerState s)
  else if ix = 0x2181 then some (dieCode (dieOf s i))
  else if ix = 0x2183 ∧ sub = 4 then some s.rst.wakeCause.toNat
  else if ix = 0x2183 ∧ sub = 5 then some s.rst.standbyTime.toNat
  else if ix = 0x2200 ∧ sub = 1 then some (match s.clk.mode with | .ref => 0 | .rc => 1 | .reduced => 2)
  else if ix = 0x2200 ∧ sub = 2 then some (bit01 s.clk.inBand + 2 * bit01 s.clk.accepted + 4 * bit01 s.clk.refFail + 8 * bit01 s.clk.monStopped)
  else if ix = 0x2200 ∧ sub = 3 then some s.clk.refCount.toNat
  else if ix = 0x2201 ∧ sub = 1 then some s.clk.trim.toNat
  else if ix = 0x2201 ∧ sub = 2 then some s.clk.trimSource.toNat
  else if ix = 0x2210 then some (bit01 (s.clk.clkEn.getLsbD i))
  else if ix = 0x2211 then some (bit01 (s.clk.clkRun.getLsbD i))
  else if 0x2220 ≤ ix ∧ ix ≤ 0x223F ∧ sub = 4 then some (synthStatus (synthOf s (ix - 0x2220)))
  else if 0x2220 ≤ ix ∧ ix ≤ 0x223F ∧ sub = 5 then some (synthOf s (ix - 0x2220)).freq
  else if ix = 0x2300 then some (if sub = 1 then s.ld.active.toNat else if sub = 2 then s.rst.nextProfile.toNat
    else if sub = 3 then s.ld.tried.toNat else s.ld.lastAbort.toNat)
  else if ix = 0x2301 then some (if sub = 1 then s.ld.buildId.toNat else if sub = 2 then s.ld.keySource.toNat else s.ld.ownerKey.toNat)
  else if ix = 0x2302 then some (slotState s i)
  else if ix = 0x2310 ∧ sub = 2 then some s.ld.state.toNat
  else if ix = 0x2310 ∧ sub = 3 then some s.ld.result.toNat
  else if ix = 0x2320 ∧ sub = 1 then some ((List.range 4).foldl (fun m k => m + 2 ^ k * bit01 (fuseSlot s k).revoked) 0)
  else if ix = 0x2320 ∧ sub = 5 then some (bit01 s.ld.pendingBbk.isSome)
  else if ix = 0x2400 ∧ sub = 1 then some s.rst.cause.toNat
  else if ix = 0x2400 ∧ sub = 2 then some s.rst.count.toNat
  else if ix = 0x2401 ∧ sub = 1 then some s.rst.lc.toNat
  else if ix = 0x2401 ∧ sub = 4 then some (keysHeld s)
  else if ix = 0x2402 then some (if sub = 1 then s.rst.wipeTime.toNat else s.rst.wipeStatus.toNat)
  else if ix = 0x2500 then some speedGrade
  else if ix = 0x2503 ∧ sub = 2 then some (grstState s).toNat
  else if ix = 0x2603 then some (Config.repairUsed i % 65536)
  else if 0x2700 ≤ ix ∧ ix ≤ 0x2705 then some (engStateCode (engOf s ((ix - 0x2700) * 128 + i)).state)
  else if 0x2718 ≤ ix ∧ ix ≤ 0x271D then
    let g := engOf s ((ix - 0x2718) * 128 + i)
    some (g.ecause.toNat * 65536 + g.epc.toNat)
  else if ix = 0x2720 then some (Config.monitorVersion % 2 ^ 32)
  else none

/-- Objects that other state gives, from 0x2800. -/
def derivedHigh (s : State) (r : Req) (ix sub : Nat) : Option Nat :=
  let i := sub - 1
  if ix = 0x2800 ∧ sub = 2 then some (65536 - trackersInUse s)
  else if ix = 0x2820 ∧ sub = 2 then some (15104 - s.vent.soft.length)
  else if ix = 0x2900 ∧ sub = 2 then some (s.hub.sf.foldl (fun a x => a + x.2.length) 0)
  else if ix = 0x2900 ∧ sub = 5 then some s.hub.hlines.length
  else if ix = 0x2906 then some (portStatus s i)
  else if ix = 0x2920 ∧ sub = 2 then some (tenantBusy s)
  else if ix = 0x2A01 ∧ chanState s i ≠ 2 ∧ chanState s i ≠ 4 then some 0
  else if ix = 0x2A05 ∧ sub = 3 then some (bit01 s.rst.trainFull)
  else if ix = 0x2A20 then some (regionTable s i).1
  else if ix = 0x2A21 then some (walkStatus s i)
  else if ix = 0x2B10 then some (laneNow s i)
  else if ix = 0x2B12 then some (laneRate s i)
  else if ix = 0x2C10 ∧ sub = 6 then some (rangeCount s.twin.dirty)
  else if ix = 0x2C10 ∧ sub = 7 then some (mirrorLag s)
  else if ix = 0x2D00 then some (bankState s i)
  else if 0x2D40 ≤ ix ∧ ix ≤ 0x2D7F ∧ sub = 3 then some (latchRead s (ix - 0x2D40))
  else if 0x2D40 ≤ ix ∧ ix ≤ 0x2D7F ∧ sub = 5 then some (levelRead s (ix - 0x2D40))
  else if 0x2D40 ≤ ix ∧ ix ≤ 0x2D7F ∧ sub = 6 then some (mioStatus s (ix - 0x2D40))
  else if ix = 0x2D81 then some (smFlagsRead s i)
  else if ix = 0x2513 then some (capData s r)
  else if ix = 0x2E00 ∧ sub = 1 then some (authState s)
  else if ix = 0x2E00 ∧ sub = 5 then some ((s.dbg.token.map (·.expiry)).getD 0)
  else if ix = 0x2E00 ∧ sub = 6 then some (bit01 s.dbg.attached)
  else if ix = 0x2F00 ∧ sub = 1 then some (s.fw.dtime % 2 ^ 64)
  else if ix = 0x2F01 ∧ sub = 3 then some (s.fw.seq % 2 ^ 32)
  else if ix = 0x2F11 ∧ sub = 3 then some (schedFree s)
  else none

/-- Value of an object that can be read with no effect. -/
def objValue (s : State) (r : Req) (k : Nat) : Nat :=
  let d := if k / 256 < 0x2800 ∧ k / 256 ≠ 0x2513 then derivedLow s (k / 256) (k % 256) else derivedHigh s r (k / 256) (k % 256)
  d.getD (oGet s k)
/-- Its present length in bytes. -/
def objLen (s : State) (k : Nat) : Nat :=
  if k = O_ORDER_CODE then (orderText s.fuse.sites).length
  else if k = O_ID_CERT_CHAIN then (certChain s).1
  else if k / 256 = 0x2A20 then (regionTable s (k % 256 - 1)).2
  else match objRow (k / 256) (k % 256) with | some row => row.lenHi | none => 0
/-- Does reading an object take a free value? -/
def readsFree (k : Nat) : Bool :=
  k == O_VBAT_VOLTAGE || (0x2D40 ≤ k / 256 && k / 256 ≤ 0x2D7F && (k % 256 == 3 || k % 256 == 5))

end Sys2Proof.Machine
end

