-- ==== Sys2Proof/Machine/FwObjs.lean ====
section
/-! DEFINITION. Objects of debug authority and of the firmware: tokens (17 R728, R729), CAN FD and access map (15 R650, R679), stored parameters (15 R661
to R664), event readers (15 R669), DTIME (15 R671) and the scheduler's entries (15 R672, R673). -/
namespace Sys2Proof.Machine

/-- Set the firmware's record. -/
def setFw (s : State) (f : Firmware) : State := { s with fw := f }

/-! ## Debug objects (17 R728, R729, R733) -/

/-- DBG_CHALLENGE: each read returns a new value, a free one. -/
def rdDbgChallenge (r : Req) (s : State) : State :=
  let v := Config.free 384 s.freeCtr
  objReadG r O_DBG_CHALLENGE 48 (leNat (beBytes 48 v.toNat)) (fun s => freeStep (setDbg s { s.dbg with challenge := v })) s
/-- `DBG_CHALLENGE_READ` (17 R728). -/
def execDbgChallengeRead (r : Req) (s : State) : Res := .next (rdDbgChallenge r s)

/-- DBG_TOKEN: in DEPLOYED alone; its reserved bytes are zero; a second token replaces one that is being verified (17 R728, R730). -/
def wrDbgToken (r : Req) (len val : Nat) (s : State) : State :=
  objWriteG r O_DBG_TOKEN len val
    { value := bitsAt val 16 16 == 0 && bitsAt val 840 56 == 0, life := s.rst.lc == 2#3 } noRej
    (fun s => setDbg s { s.dbg with verifying := some (BitVec.ofNat 1664 val) }) s
/-- `DBG_TOKEN` (17 R728). -/
def execDbgToken (r : Req) (t : BitVec 1664) (s : State) : Res := .next (wrDbgToken r 208 t.toNat s)

/-- Why a token is refused, as a short abort code; 0 when it passes (17 R728; log entry 24). -/
def tokenReason (s : State) (b : List Byte) : Nat :=
  let scope := leAt b 0 1
  let k := leAt b 1 1
  let key := (b.drop 8).take 97
  let digest := Config.shaEnd (Config.shaStep 0#1024
    (beBytes 48 s.dbg.challenge.toNat ++ beBytes 2 0x9640 ++ beBytes 8 (Config.serial % 2 ^ 64) ++ b.take 8))
  if !(scope = 0 ∨ (0x10 ≤ scope ∧ scope < 0x20)) ∨ 4 ≤ k then 0x0A
  else if !slotHeld s k then 0x0C
  else if Config.shaEnd (Config.shaStep 0#1024 key) ≠ (fuseSlot s k).val
      ∨ !Config.ecdsaOk key digest (BitVec.ofNat 768 (beNat (b.drop 112))) then 0x10
  else 0

/-- The token that the bytes give from now on: scope, key, expiry. -/
def tokenOf (s : State) (b : List Byte) : Token :=
  { tenant := if leAt b 0 1 = 0 then none else some (leAt b 0 1 - 0x10), key := leAt b 1 1
    expiry := if leAt b 4 4 = 0 then 0 else s.fw.dtime + leAt b 4 4 * 10 ^ 9 }
/-- `DBG_TOKEN_VERIFIED` (17 R728): a pass replaces the token in force; the end of device-wide authority ends the attachment (R723). -/
def execDbgTokenVerified (s : State) : Res :=
  .next (match s.dbg.verifying with
    | some v =>
      if !fwRuns s then s else
      let b := leBytes 208 v.toNat
      let s0 := setDbg s { s.dbg with verifying := none }
      let why := tokenReason s b
      if why ≠ 0 then logEv s0 0x2E02 sevWarn why
      else
        let s1 := tokenEvent (setDbg s0 { s0.dbg with token := some (tokenOf s b) }) (tokenOf s b) 0x2E01 (leAt b 0 1 + leAt b 1 1 * 256)
        if wideAuth s1 then s1 else endAttach s1
    | none => s)

/-- DBG_END. -/
def wrDbgEnd (r : Req) (len val : Nat) (s : State) : State := objWriteP r O_DBG_END len val (fun s => endToken s 2) s
/-- `DBG_END` (17 R729). -/
def execDbgEnd (r : Req) (v : BitVec 8) (s : State) : Res := .next (wrDbgEnd r 1 v.toNat s)
/-- `DBG_TOKEN_EXPIRY` (17 R729). -/
def execDbgTokenExpiry (s : State) : Res :=
  .next (match s.dbg.token with
    | some t => if t.expiry ≠ 0 ∧ t.expiry ≤ s.fw.dtime then endToken s 3 else s
    | none => s)

/-! ## CAN FD (15 R649, R650) -/

/-- The controller leaves the bus, takes its settings and rejoins error-active; an open USDO session is aborted. -/
def canRestart (s : State) : State :=
  let f := { s.fw with
    xfers := s.fw.xfers.filter (fun x => x.2.r.path != .can), canRestarts := s.fw.canRestarts + 1
    canNode := oGet s O_CAN_NODE_ID, canNominal := oGet s O_CAN_NOMINAL_RATE, canData := oGet s O_CAN_DATA_RATE }
  oSet (setFw s f) O_CAN_STATUS 0
/-- CAN_APPLY. -/
def wrCanApply (r : Req) (len val : Nat) (s : State) : State := objWriteP r O_CAN_APPLY len val canRestart s
/-- `CAN_APPLY` (15 R650). -/
def execCanApply (r : Req) (v : BitVec 8) (s : State) : Res := .next (wrCanApply r 1 v.toNat s)

/-- A role code of the access map. -/
def roleCodeOk (c : Nat) : Bool := c ≤ 1 || (0x10 ≤ c && c < 0x20)
/-- ACCESS_MAP. -/
def wrAccessMap (r : Req) (i len val : Nat) (s : State) : State :=
  objWriteG r (O_ACCESS_MAP i) len val { value := val % 256 ≤ 3 && roleCodeOk (bitsAt val 16 8) && bitsAt val 24 40 == 0 } noRej
    (fun s => oSet s (O_ACCESS_MAP i) val) s
/-- DEFAULT_ROLE. -/
def wrDefaultRole (r : Req) (len val : Nat) (s : State) : State :=
  objWriteG r O_DEFAULT_ROLE len val { value := roleCodeOk val } noRej (fun s => oSet s O_DEFAULT_ROLE val) s
/-- ID_CERT_CHAIN: the value keeps its length by a mark above its last byte. -/
def wrCertChain (r : Req) (len val : Nat) (s : State) : State :=
  objWriteP r O_ID_CERT_CHAIN len val (fun s => oSet s O_ID_CERT_CHAIN (val + 2 ^ (8 * len))) s

/-! ## Event readers (15 R667, R669) -/

/-- The reader an access to 0x2F01 reads with: a tenant's own, or OWNER's. -/
def readerOf (r : Req) : Nat := match r.view with | some n => n.val | none => 16
/-- The oldest record at or after a position that reader `n` sees; the ring is newest first. -/
def nextRec (l : List (Nat × EventRec)) (n pos : Nat) : Option (Nat × EventRec) :=
  l.foldl (fun a x => if pos ≤ x.1 ∧ readerSees n x.2 then some x else a) none
/-- A record as a number (15 R666). -/
def recNat (e : EventRec) : Nat :=
  e.dtime.toNat + e.code.toNat * 2 ^ 64 + e.unit.toNat * 2 ^ 80 + e.tenant.toNat * 2 ^ 96 + e.sev.toNat * 2 ^ 100 + e.data.toNat * 2 ^ 104
/-- EVENT_READ. -/
def rdEvent (r : Req) (s : State) : State :=
  let n := readerOf r
  match nextRec s.fw.ring n (tabGet s.fw.pos n 0) with
  | some x => objReadG r O_EVENT_READ 20 (x.1 % 2 ^ 32 + 2 ^ 32 * recNat x.2) (fun s => setFw s { s.fw with pos := tabPut s.fw.pos n (x.1 + 1) }) s
  | none => objReadG r O_EVENT_READ 20 0 id s
/-- `EVENT_READ` (15 R669). -/
def execEventRead (r : Req) (s : State) : Res := .next (rdEvent r s)
/-- EVENT_LOST clears on read. -/
def rdEventLost (r : Req) (s : State) : State :=
  let n := readerOf r
  objReadG r O_EVENT_LOST 4 (tabGet s.fw.lost n 0) (fun s => setFw s { s.fw with lost := tabPut s.fw.lost n 0 }) s
/-- `EVENT_LOST_READ` (15 R669). -/
def execEventLostRead (r : Req) (s : State) : Res := .next (rdEventLost r s)

/-! ## DTIME and the scheduler's entries (15 R671 to R673, R675) -/

/-- DTIME_SET. -/
def wrDtimeSet (r : Req) (len val : Nat) (s : State) : State :=
  objWriteG r O_DTIME_SET len val { value := s.fw.dtime < val, state := oGet s O_CASC_STATE == 0 } noRej
    (fun s => logEv (stepDtime s val) 0x2F05 sevInfo (min ((val - s.fw.dtime) / 1000000) 0xFFFFFF)) s
/-- `DTIME_SET` (15 R671). -/
def execDtimeSet (r : Req) (v : BitVec 64) (s : State) : Res := .next (wrDtimeSet r 8 v.toNat s)

/-- Reserved fields zero and LEN 1 to 8. -/
def schedOk (x : Nat) : Bool := 1 ≤ bitsAt x 120 8 && bitsAt x 120 8 ≤ 8 && bitsAt x 194 6 == 0 && bitsAt x 200 56 == 0
/-- Store an entry: valid with a TIME that has passed, it is late. -/
def schedPut (s : State) (i x : Nat) : State :=
  let s1 := oSet s (O_SCHED_ENTRY i) x
  setFw s1 { s1.fw with late := setBit s1.fw.late i (schedValid x && schedTime x < s.fw.dtime) }
/-- SCHED_ENTRY. -/
def wrSchedEntry (r : Req) (i len val : Nat) (s : State) : State :=
  objWriteG r (O_SCHED_ENTRY i) len val { value := schedOk val } noRej (fun s => schedPut s i val) s
/-- The lowest-numbered entry whose VALID bit is clear. -/
def schedRoom (s : State) : Option Nat := (List.range 32).find? fun i => !schedValid (schedEntry s i)
/-- SCHED_ADD. -/
def wrSchedAdd (r : Req) (len val : Nat) (s : State) : State :=
  objWriteG r O_SCHED_ADD len val { value := schedOk val, cap := (schedRoom s).isSome } noRej
    (fun s => match schedRoom s with
      | some i => oSet (schedPut s i val) O_SCHED_LAST (i + 1)
      | none => s) s
/-- `SCHED_ADD` (15 R673). -/
def execSchedAdd (r : Req) (v : BitVec 256) (s : State) : Res := .next (wrSchedAdd r 32 v.toNat s)

/-! ## Stored parameters (15 R661 to R664) -/

/-- Objects that are no parameters (15 R661). -/
def notParam (ix sub : Nat) : Bool :=
  ix == 0x1010 || ix == 0x1011 || (ix == 0x2100 && sub == 2) || (ix == 0x2200 && sub == 2) || (ix == 0x2300 && sub == 2)
    || (ix == 0x2340 && sub ≤ 3) || ix == 0x2B16
/-- The parameters of a row of the dictionary. -/
def rowParams (row : ObjRow) : List Nat :=
  if row.acc == .rw then
    (List.range (row.i1 + 1 - row.i0)).flatMap fun a => (List.range (row.s1 + 1 - row.s0)).filterMap fun b =>
      if notParam (row.i0 + a) (row.s0 + b) || 0x2F00 ≤ row.i0 + a then none else some ((row.i0 + a) * 256 + row.s0 + b)
  else []
/-- A key in its place of a rising list. -/
def keyInsert (k : Nat) (l : List Nat) : List Nat :=
  match l with
  | [] => [k]
  | a :: r => if k < a then k :: a :: r else a :: keyInsert k r
/-- Every parameter, by rising index and subindex. -/
def paramKeys : List Nat := (objDict.flatMap rowParams).foldr keyInsert []
/-- An entry in the format of PLAN entries (05 R218). -/
def planEntry (k len val : Nat) : List Byte :=
  leBytes 2 (k / 256) ++ [BitVec.ofNat 8 k, 0#8] ++ leBytes 4 len ++ leBytes len val ++ List.replicate ((len + 7) / 8 * 8 - len) 0#8
/-- The entries of a store: every parameter's present value. -/
def paramBytes (s : State) : List Byte :=
  paramKeys.flatMap fun k => planEntry k (objLen s k) (objValue s { path := .internal, addr := 0#8, view := none } k)
/-- Parameter block in use: the image, its offset, its size. -/
def paramBlock (s : State) : Option (FlashInfo × Nat × Nat) :=
  match s.ld.flash, s.ld.dir with
  | some f, some d =>
    let k := s.ld.active.toNat
    if k ≤ 3 ∧ paramSize f d k ≠ 0 then some (f, paramOff f d k, paramSize f d k) else none
  | _, _ => none
/-- A half is valid: magic, version, CRC (15 R663, R664); its sequence. -/
def halfSeq (f : FlashInfo) (o size : Nat) : Option Nat :=
  let n := flashNat f (o + 12) 4
  if flashNat f o 4 = 0x4E475A50 ∧ flashNat f (o + 4) 2 = 1 ∧ 32 + n ≤ size
      ∧ crc32 (flashBytes f o 28 ++ flashBytes f (o + 32) n) = flashNat f (o + 28) 4 then some (flashNat f (o + 8) 4) else none
/-- The active half: 0 or 1, and its sequence. -/
def activeHalf (f : FlashInfo) (o size : Nat) : Option (Nat × Nat) :=
  match halfSeq f o (size / 2), halfSeq f (o + size / 2) (size / 2) with
  | some a, some b => if a < b then some (1, b) else some (0, a)
  | some a, none => some (0, a)
  | none, some b => some (1, b)
  | none, none => none
/-- A half's bytes: header, then entries (15 R663). -/
def halfBytes (slot seq count : Nat) (entries : List Byte) : List Byte :=
  let h := leBytes 4 0x4E475A50 ++ leBytes 2 1 ++ leBytes 2 0 ++ leBytes 4 seq ++ leBytes 4 entries.length ++ leBytes 4 count
    ++ [BitVec.ofNat 8 slot] ++ List.replicate 7 0#8
  h ++ leBytes 4 (crc32 (h ++ entries)) ++ entries

/-- A store or restore is refused with 0x0800_0020 (15 R662). -/
def storeRefused (s : State) (want val : Nat) : Bool :=
  val != want || (match paramBlock s with
    | none => true
    | some (_, _, size) => size / 2 < 32 + (paramBytes s).length)
/-- A write of 0x1010:01 or 0x1011:01. The refusals of 0x0800_0020 judge the value, those of 0x0800_0022 the state (15 R648). -/
def wrStoreOp (r : Req) (k want len val : Nat) (eff : State → State) (s : State) : State :=
  if !pathOpen s r then unanswered s
  else
    let code := checkWrite s r (k / 256) (k % 256) len val {}
    if code ≠ 0#32 then answer s code
    else if storeRefused s want val then answer s abStore
    else if serviceBusy s then answer s abState
    else eff (answer s 0#32)
/-- Where the half that is not active begins: half A where neither is (15 R664; log entry 25). -/
def idleHalf (f : FlashInfo) (o size : Nat) : Nat := match activeHalf f o size with | some (0, _) => o + size / 2 | _ => o
/-- The store erases the half that is not active (15 R664 step 1). -/
def eraseIdle (s : State) : State :=
  match paramBlock s with
  | some (f, o, size) => setLd s { s.ld with flash := some (flashErase f (idleHalf f o size) (size / 2)) }
  | none => s
/-- STORE_ALL: the store begins. -/
def wrStoreAll (r : Req) (len val : Nat) (s : State) : State :=
  wrStoreOp r O_STORE_ALL 0x65766173 len val
    (fun s => oSet (freeStep (eraseIdle (setFw s { s.fw with store := some (paramKeys.length, paramBytes s) }))) O_STORE_STATE 1) s
/-- RESTORE_DEFAULTS: the erasure begins. -/
def wrRestore (r : Req) (len val : Nat) (s : State) : State :=
  wrStoreOp r O_RESTORE_DEFAULTS 0x64616F6C len val (fun s => oSet s O_STORE_STATE 2) s
/-- `STORE_ALL` (15 R662). -/
def execStoreAll (r : Req) (v : BitVec 32) (s : State) : Res := .next (wrStoreAll r 4 v.toNat s)
/-- `RESTORE_DEFAULTS` (15 R662). -/
def execRestoreDefaults (r : Req) (v : BitVec 32) (s : State) : Res := .next (wrRestore r 4 v.toNat s)

/-- `PARAM_STORE_DONE` (15 R664): `bad` are the bytes of the half that read back otherwise than programmed. With no active half, half A is written (log
entry 25). -/
def execParamStoreDone (bad : List (Nat × BitVec 8)) (s : State) : Res :=
  .next (match s.fw.store, paramBlock s with
    | some (count, entries), some (f, o, size) =>
      let a := activeHalf f o size
      let at_ := idleHalf f o size
      let img := halfBytes s.ld.active.toNat ((a.map (·.2)).getD 0 + 1) count entries
      let f1 := flawed (flashWrite (flashErase f at_ (size / 2)) at_ img) at_ (bad.filter fun b => b.1 < size / 2)
      let s1 := setLd (setFw s { s.fw with store := none }) { s.ld with flash := some f1 }
      if flashBytes f1 at_ img.length = img then logEv (oSet s1 O_STORE_STATE 3) 0x1004 sevInfo count
      else logEv (oSet s1 O_STORE_STATE 4) 0x1005 sevErr 4
    | _, _ => s)
/-- `PARAM_ERASE_DONE` (15 R662). -/
def execParamEraseDone (s : State) : Res :=
  .next (match paramBlock s with
    | some (f, o, size) =>
      if oGet s O_STORE_STATE = 2 then oSet (setLd s { s.ld with flash := some (flashErase f o size) }) O_STORE_STATE 3 else s
    | none => s)

end Sys2Proof.Machine
end

