-- ==== Sys2Proof/Machine/Access.lean ====
section
/-! DEFINITION. The object dictionary as one service: a read and a write of any object by index and subindex, views included (15 R641 to R648, R677,
R678), and the segmented transfers of R654 and R656. Every writable object with a rule of its own is named here; the others take the
value. -/
namespace Sys2Proof.Machine

/-! ## Writable objects with a condition and no other effect -/

/-- A plain write: the object takes the value. -/
def wrPlain (r : Req) (k len val : Nat) (s : State) : State := objWriteP r k len val (fun s => oSet s k val) s
/-- Port settings, refused while the port's link is up (11 R492). -/
def wrPortSet (r : Req) (k p len val : Nat) (ok : Bool) (s : State) : State :=
  objWriteG r k len val { value := ok, state := !s.hub.cxlUp.getLsbD p } noRej (fun s => oSet s k val) s
/-- GG_LINK: written in RESET alone (11 R517). -/
def wrGgLink (r : Req) (g len val : Nat) (s : State) : State :=
  objWriteG r (O_GG_LINK g) len val { state := gateState s g == 0 } noRej (fun s => oSet s (O_GG_LINK g) val) s
/-- A valid DEVMEM entry names interleave set `i`. -/
def isetNamed (s : State) (i : Nat) : Bool :=
  (List.range 256).any fun e => let x := samRaw s e; samValid x && samKind x == kDevmem && samIset x == i
/-- ISET_MASK (10 R465). -/
def wrIsetMask (r : Req) (i len val : Nat) (s : State) : State :=
  objWriteG r (O_ISET_MASK i) len val
    { value := [1, 2, 4, 8, 16].contains (popUpTo 16 val), state := !isetNamed s i } noRej (fun s => oSet s (O_ISET_MASK i) val) s
/-- DDR_RATE_LIMIT (12 R528, R562). -/
def wrRateLimit (r : Req) (c len val : Nat) (s : State) : State :=
  objWriteG r (O_DDR_RATE_LIMIT c) len val { value := (1 ≤ val && val ≤ 5) || val == 0xFF } noRej
    (fun s => setDdr (oSet s (O_DDR_RATE_LIMIT c) val) { s.ddr with limitsWritten := true }) s
/-- TRAIN_FULL and NEXT_PROFILE stand in AON (12 R526, 05 R202). -/
def wrTrainFull (r : Req) (len val : Nat) (s : State) : State :=
  objWriteP r O_TRAIN_FULL len val (fun s => setRst s { s.rst with trainFull := val == 1 }) s
def wrNextProfile (r : Req) (len val : Nat) (s : State) : State :=
  objWriteP r O_NEXT_PROFILE len val (fun s => setRst s { s.rst with nextProfile := BitVec.ofNat 8 val }) s

/-- The depths of the token buckets (10 R448; 11 R511). -/
def wrTbBurst (r : Req) (t len val : Nat) (s : State) : State := objWriteP r (O_TB_BURST t) len val (fun s => tbBurst s t val) s
def wrGgBurst (r : Req) (g len val : Nat) (s : State) : State := objWriteP r (O_GG_BURST g) len val (fun s => ggBurst s g val) s

/-- A choice the state does not give, taken from a free value. -/
def freeBool (s : State) : Bool := Config.freeNat s.freeCtr % 2 == 1

/-! ## Writes by index (r carries the view) -/

/-- Objects 0x1000 to 0x22FF. -/
def writeA (r : Req) (ix sub len val : Nat) (s : State) : State :=
  let k := ix * 256 + sub
  let i := sub - 1
  if k = O_STORE_ALL then wrStoreAll r len val s
  else if k = O_RESTORE_DEFAULTS then wrRestore r len val s
  else if k = O_CAN_APPLY then wrCanApply r len val s
  else if ix = 0x1102 ∧ 1 ≤ sub ∧ sub ≤ 0x20 then wrAccessMap r i len val s
  else if k = O_DEFAULT_ROLE then wrDefaultRole r len val s
  else if k = O_ID_CERT_CHAIN then wrCertChain r len val s
  else if k = O_VBAT_LATCH_CLEAR then wrVbatLatchClear r len val (freeBool s) (freeStep s)
  else if ix = 0x2182 then wrDieRequest r i len val s
  else if k = O_STANDBY_ENTER then wrStandbyEnter r len val s
  else if k = O_REF_STATUS then wrRefStatus r len val s
  else if k = O_REF_RESELECT then wrRefReselect r len val s
  else if ix = 0x2210 then wrClkEn r i len val s
  else if 0x2220 ≤ ix ∧ ix ≤ 0x223F ∧ sub = 3 then wrSynthApply r (ix - 0x2220) len val s
  else wrPlain r k len val s

/-- Objects 0x2300 to 0x27FF. -/
def writeB (r : Req) (ix sub len val : Nat) (s : State) : State :=
  let k := ix * 256 + sub
  let i := sub - 1
  if k = O_NEXT_PROFILE then wrNextProfile r len val s
  else if k = O_PR_STAGE_MIB then wrPrStage r len val s
  else if k = 0x231001 then wrLoadRequest r len val s
  else if k = O_KEY_PROGRAM then wrKeyProgram r len val s
  else if k = O_KEY_REVOKE then wrKeyRevoke r len val s
  else if k = O_BBK_WRITE then wrBbk r len val s
  else if k = O_FU_START then wrFuStart r len val s
  else if k = O_RESET_REQUEST then wrResetRequest r len val s
  else if k = O_LC_REQUEST then wrLcRequest r len val s
  else if k = O_GRST_PULSE then wrGrstPulse r len val s
  else if ix = 0x2510 then wrProbeSel r i len val s
  else if ix = 0x2511 then wrProbeRoute r i len val s
  else if k = O_CAP_CONTROL then wrCapControl r len val s
  else if k = O_RAM_CNT_CLEAR then wrRamCntClear r len val s
  else if k = O_QB_CNT_CLEAR then wrQbCntClear r len val s
  else if 0x2708 ≤ ix ∧ ix ≤ 0x270D then wrEngCommand r ((ix - 0x2708) * 128 + i) len val s
  else wrPlain r k len val s

/-- Objects 0x2800 to 0x2AFF. -/
def writeC (r : Req) (ix sub len val : Nat) (s : State) : State :=
  let k := ix * 256 + sub
  let i := sub - 1
  if ix = 0x2802 then wrTbBurst r i len val s
  else if ix = 0x2803 then wrIsetMask r i len val s
  else if ix = 0x2810 then wrSamEntry r i len val s
  else if ix = 0x2811 then wrSamEntry r (128 + i) len val s
  else if k = O_SAM_INVALIDATE then wrSamInvalidate r len val s
  else if k = O_EP_BIND then wrEpBind r len val s
  else if k = O_HOST_QUOTA_MIB then wrHostQuotaMib r len val s
  else if (0x2901 ≤ ix ∧ ix ≤ 0x2904) ∨ ix = 0x2908 then wrPortSet r k i len val true s
  else if ix = 0x2905 then wrPortSet r k i len val (val % 2 ^ 28 == 0 && val < controlBase) s
  else if ix = 0x2910 then wrOwner r i len val s
  else if 0x2911 ≤ ix ∧ ix ≤ 0x2916 then wrOwner r (128 + (ix - 0x2911) * 128 + i) len val s
  else if k = 0x292001 then wrTenantReset r len val s
  else if ix = 0x2923 then wrFaultClear r i len val s
  else if ix = 0x2930 then wrGgWindow r 0 i len val s
  else if ix = 0x2931 then wrGgWindow r 1 i len val s
  else if ix = 0x2932 then wrGgControl r i len val s
  else if ix = 0x2935 then wrGgBurst r i len val s
  else if ix = 0x2938 then wrGgLink r i len val s
  else if ix = 0x2A04 then wrRateLimit r i len val s
  else if k = O_TRAIN_FULL then wrTrainFull r len val s
  else if k = O_ECC_CNT_CLEAR then wrEccCntClear r len val s
  else wrPlain r k len val s

/-- Objects from 0x2B00. -/
def writeD (r : Req) (ix sub len val : Nat) (s : State) : State :=
  let k := ix * 256 + sub
  let i := sub - 1
  if ix = 0x2B00 then wrQuadRefsel r i len val s
  else if ix = 0x2B01 then wrRefclkFreq r i len val s
  else if ix = 0x2B11 then wrLaneStateReq r i len val s
  else if ix = 0x2B12 then wrLaneRate r i len val s
  else if ix = 0x2B13 then wrLaneWidth r i len val s
  else if ix = 0x2B14 then wrLaneTxeq r i len val s
  else if ix = 0x2B15 then wrLaneCtrl r i len val s
  else if ix = 0x2B16 then wrLaneStatus r i len val s
  else if ix = 0x2B20 then wrPrbsCtrl r i len val s
  else if ix = 0x2B23 then wrErrInject r i len val s
  else if k = O_PRBS_CLEAR then wrPrbsClear r len val s
  else if ix = 0x2B30 then wrCascLinkEn r i len val s
  else if k = O_CASC_DIM then wrCascDim r len val s
  else if k = O_CASC_SECRET then wrCascSecret r len val s
  else if k = O_TWIN_FORCE_ACTIVE then wrTwinForce r len val (freeBool s) (freeStep s)
  else if k = O_TWIN_RELEASE then wrTwinRelease r len val s
  else if ix = 0x2C11 then wrTwinWindow r i len val s
  else if k = O_CLKOUT_DIV then wrClkoutDiv r len val s
  else if 0x2D40 ≤ ix ∧ ix ≤ 0x2D7F ∧ sub = 1 then wrMioFunc r (ix - 0x2D40) len val s
  else if 0x2D40 ≤ ix ∧ ix ≤ 0x2D7F ∧ sub = 2 then wrMioCfg r (ix - 0x2D40) len val s
  else if 0x2D40 ≤ ix ∧ ix ≤ 0x2D7F ∧ sub = 6 then wrMioStatus r (ix - 0x2D40) len val s
  else if 0x2D83 ≤ ix ∧ ix ≤ 0x2D85 then wrSmThreshold r k i len val s
  else if ix = 0x2D87 then wrAninRange r i len val s
  else if k = O_DBG_TOKEN then wrDbgToken r len val s
  else if k = O_DBG_END then wrDbgEnd r len val s
  else if k = O_DTIME_SET then wrDtimeSet r len val s
  else if ix = 0x2F10 then wrSchedEntry r i len val s
  else if k = O_SCHED_ADD then wrSchedAdd r len val s
  else wrPlain r k len val s

/-- A write of a device object. -/
def writeDev (r : Req) (ix sub len val : Nat) (s : State) : State :=
  if ix < 0x2300 then writeA r ix sub len val s
  else if ix < 0x2800 then writeB r ix sub len val s
  else if ix < 0x2B00 then writeC r ix sub len val s
  else writeD r ix sub len val s

/-! ## Views and subindex 0x00 (15 R641, R677, R678) -/

/-- An index of a per-tenant view. -/
def isView (ix : Nat) : Bool := 0x4000 ≤ ix && ix < 0x5000
/-- Its tenant. -/
def viewOf (ix : Nat) : Fin 16 := Fin.ofNat 16 (ix / 256)
/-- Does the index number its subindexes from 0x01, with 0x00 holding the highest? -/
def countsSubs (ix : Nat) : Bool := objIndexDefined ix && (objRow ix 0).isNone
/-- May the requester read some subindex of the index? The code when it may not. -/
def subsReach (s : State) (r : Req) (ix : Nat) : BitVec 32 :=
  let rows := objDict.filter fun x => x.i0 ≤ ix && ix ≤ x.i1 && x.acc != .wo && roleReaches s r ix x.priv
  if rows.isEmpty then abRole else if rows.all fun x => debugClosed s r ix x.priv then abLife else 0#32

/-- Answer a read with a value that nothing else gives. -/
def giveValue (s : State) (len val : Nat) : State := { s with ans := { answered := true, abort := 0#32, value := val, total := len } }
/-- An access to VIEW_ID: read, or write with the abort it gets. -/
def viewId (s : State) (r : Req) (n : Fin 16) (sub : Nat) (write : Bool) : State :=
  if !pathOpen s r then unanswered s
  else if 1 < sub then answer s abSub
  else if !(roleOf s r == .owner || roleOf s r == .tenant n.val) then answer s abRole
  else if write then answer s abWriteRo
  else giveValue s 1 (if sub = 0 then 1 else n.val)
/-- An access to the count of an index. -/
def subCount (s : State) (r : Req) (ix : Nat) (write : Bool) : State :=
  if !pathOpen s r then unanswered s
  else if viewClosed r ix then answer s abIndex
  else
    let c := subsReach s r ix
    if c = abRole then answer s c
    else if write then answer s abWriteRo
    else if c ≠ 0#32 then answer s c
    else giveValue s 1 (objTopSub ix)
/-- No such index. -/
def noIndex (s : State) (r : Req) : State := if pathOpen s r then answer s abIndex else unanswered s

/-- A write of any object of the dictionary: `len` bytes that hold `val`. -/
def writeObj (r : Req) (ix sub len val : Nat) (s : State) : State :=
  if isView ix then
    let n := viewOf ix
    if ix % 256 = 0 then viewId s r n sub true
    else match viewIndex (ix % 256) with
      | none => noIndex s r
      | some d => if sub = 0 then subCount s { r with view := some n } d true else writeDev { r with view := some n } d sub len val s
  else if sub = 0 ∧ countsSubs ix then subCount s r ix true
  else writeDev r ix sub len val s

/-- The device key of an object, and the requester as it reaches it: none for what no view reaches. -/
def devKey (r : Req) (ix sub : Nat) : Option (Req × Nat) :=
  if isView ix then (viewIndex (ix % 256)).map fun d => ({ r with view := some (viewOf ix) }, d * 256 + sub)
  else some (r, ix * 256 + sub)

/-! ## Reads -/

/-- CAP_DATA is not read while a capture runs (06 R294). -/
def rdCapData (r : Req) (s : State) : State :=
  if pathOpen s r ∧ checkRead s r 0x2513 1 = 0#32 ∧ (oGet s O_CAP_STATE = 1 ∨ oGet s O_CAP_STATE = 2) then answer s abState
  else objReadG r 0x251301 32768 (capData s r) id s

/-- A read of a device object. -/
def readDev (r : Req) (ix sub : Nat) (s : State) : State :=
  let k := ix * 256 + sub
  if k = O_LC_CHALLENGE then rdLcChallenge r s
  else if ix = 0x2B21 then rdPrbsBits r (sub - 1) s
  else if ix = 0x2B22 then rdPrbsErrors r (sub - 1) s
  else if k = O_EVENT_READ then rdEvent r s
  else if k = O_EVENT_LOST then rdEventLost r s
  else if k = O_DBG_CHALLENGE then rdDbgChallenge r s
  else if k = 0x251301 then rdCapData r s
  else objReadG r k (objLen s k) (objValue s r k) (fun s => if readsFree k then freeStep s else s) s

/-- A read of any object of the dictionary. -/
def readObj (r : Req) (ix sub : Nat) (s : State) : State :=
  if isView ix then
    let n := viewOf ix
    if ix % 256 = 0 then viewId s r n sub false
    else match viewIndex (ix % 256) with
      | none => noIndex s r
      | some d => if sub = 0 then subCount s { r with view := some n } d false else readDev { r with view := some n } d sub s
  else if sub = 0 ∧ countsSubs ix then subCount s r ix false
  else readDev r ix sub s

/-! ## Messages: segments (15 R654, R656) -/

/-- The dictionary row a request reaches. -/
def rowAt (r : Req) (ix sub : Nat) : Option ObjRow := (devKey r ix sub).bind fun x => objRow (x.2 / 256) (x.2 % 256)
/-- A DOMAIN or VSTRING object: its length is its own, or it is longer than any plain type; the 8-byte and 4-byte DOMAINs are named. -/
def isDomain (r : Req) (ix sub : Nat) : Bool :=
  match devKey r ix sub, rowAt r ix sub with
  | some x, some row => 8 < row.lenHi || row.lenLo != row.lenHi || x.2 == O_EP_BIND || (x.2 / 256 == 0x1102 && x.2 % 256 ≤ 0x20)
  | _, _ => false
/-- Same requester of a transfer. -/
def sameReq (a b : Req) : Bool := a.path == b.path && a.addr == b.addr

/-- A segment of a write to a DOMAIN object. -/
def segDomain (r : Req) (ix sub off : Nat) (last : Bool) (data : List Byte) (s : State) : State :=
  match devKey r ix sub with
  | none => noIndex s r
  | some (q, k) =>
    let pre := checkReach s q (k / 256) (k % 256) true
    match tabFind s.fw.xfers k with
    | some x =>
      if off = 0 then (if last then writeObj r ix sub data.length (leNat data) s
        else answer s (if pre ≠ 0#32 then pre else abState))
      else if pre ≠ 0#32 then answer s pre
      else if !sameReq x.r r then answer s abSeg
      else
        let s1 := setFw s { s.fw with xfers := tabDel s.fw.xfers k }
        let all := x.data ++ data
        if off ≠ x.data.length then answer s1 abSeg
        else if last then writeObj r ix sub all.length (leNat all) s1
        else answer (setFw s { s.fw with xfers := tabPut s.fw.xfers k { r := r, data := all } }) 0#32
    | none =>
      if off = 0 ∧ last then writeObj r ix sub data.length (leNat data) s
      else if pre ≠ 0#32 then answer s pre
      else if off ≠ 0 then answer s abSeg
      else answer (setFw s { s.fw with xfers := tabPut s.fw.xfers k { r := r, data := data } }) 0#32

/-- A write message (15 R654): of an object of another type it carries offset 0 and LAST; any other is answered at step 5 of R648. -/
def segWrite (r : Req) (ix sub off : Nat) (last : Bool) (data : List Byte) (s : State) : State :=
  if !pathOpen s r then unanswered s
  else if isDomain r ix sub then segDomain r ix sub off last data s
  else writeObj r ix sub (if off = 0 ∧ last then data.length else 0) (leNat data) s

/-- A read message: `len` bytes from an offset, which is 0 for an object of another type (15 R654). A range past the end of the value gives what the value has of it (log
entry 26). -/
def segRead (r : Req) (ix sub off len : Nat) (s : State) : State :=
  if off ≠ 0 ∧ !isDomain r ix sub then
    match devKey r ix sub, rowAt r ix sub with
    | some (q, k), some _ =>
      let pre := checkReach s q (k / 256) (k % 256) false
      if pathOpen s r then answer s (if pre ≠ 0#32 then pre else abLen) else unanswered s
    | _, _ =>
      let t := readObj r ix sub s
      if t.ans.answered ∧ t.ans.abort = 0#32 then answer s abLen else t
  else
    let t := readObj r ix sub s
    if t.ans.abort = 0#32 then { t with ans := { t.ans with value := t.ans.value / 2 ^ (8 * off) % 2 ^ (8 * len) } } else t

end Sys2Proof.Machine
end

