-- ==== Sys2Proof/Machine/BootRows.lean ====
section
/-! DEFINITION. Boot from the reams to INIT_DONE (04 R169 steps 7 to 12, R170, R171; 05 R207, R218, R231; 15 R665) and the stored training area (12 R527,
R528). -/
namespace Sys2Proof.Machine

/-- The requester of plan, stored parameters and scheduler: the device itself, as OWNER (15 R644). -/
def internalReq : Req := { path := .internal, addr := 0#8, view := none }

/-! ## Reams (05 R212 to R219) -/

/-- An internal write leaves the answer to the last requester as it was. -/
def writeIn (s : State) (ix sub len val : Nat) : State := keepAns s (writeObj internalReq ix sub len val s)
/-- The code an internal write gets. -/
def writeInCode (s : State) (ix sub len val : Nat) : BitVec 32 := (writeObj internalReq ix sub len val s).ans.abort
/-- The plan in ascending kind, then in record order (05 R218). -/
def planOrder (plan : List PlanEntry) : List PlanEntry := [1, 2, 3, 4, 5].flatMap fun k => plan.filter fun e => e.kind == k
/-- The device as step 11 will find it, but that the plan's entries before `e` have been applied (05 R218). -/
def planState (s : State) (before : List PlanEntry) (e : PlanEntry) : State :=
  let s0 := setLd (setRst s { s.rst with phase := .planning }) { s.ld with load := none, state := 0#8 }
  ((planOrder before).filter fun x => x.kind ≤ e.kind).foldl (fun a x => writeIn a x.index x.sub x.len x.val) s0
/-- The dictionary would not abort a plan entry (05 R218, R230): judged on the device as it stands, after the entries before it in the order of application
(log entry 68). -/
def planOk (s : State) (before : List PlanEntry) (e : PlanEntry) : Bool := writeInCode (planState s before e) e.index e.sub e.len e.val == 0#32
/-- `REAM` (05 R212, R230 checks 2 and 3; R246). -/
def execReam (bytes : List (BitVec 8)) (s : State) : Res :=
  .next (match s.ld.load with
    | some l => if l.phase == .reams then relayAfterFail (reamIn s (planOk s) l bytes) bytes.length else consumeRest s bytes.length
    | none => consumeRest s bytes.length)

/-! ## The end of a load (05 R207, R231, R234) -/

/-- The load is over: a pending battery-backed key is written. -/
def endLoad (s : State) : State :=
  let s1 := setLd s { s.ld with load := none, state := 0#8, pendingBbk := none }
  match s.ld.pendingBbk with
  | some k => logEv (putBbk s1 k) 0x2308 sevInfo 0
  | none => s1

/-- A boot load that failed (04 R170; 05 R203, R231, R235, R246): the fallback slot, unless there is none, it was tried, the tamper latch set, or the stream came
through CFGI. The fallback field of an unpopulated entry counts as well (log entry 98). -/
def bootFallback (s : State) (l : Load) : State :=
  match s.ld.flash, s.ld.dir with
  | some f, some d =>
    let k := l.src.toNat
    let fb := slotFallback f d k
    if l.reason = 0x13 ∨ s.ld.tamperStop ∨ l.src = 0xFE#8 ∨ 3 < fb ∨ s.ld.tried.getLsbD fb then bootHalt s
    else trySlot (logEv s 0x2303 sevWarn (k * 256 + fb)) fb
  | _, _ => bootHalt s

/-! ## Step 11 (03 R128; 05 R218; 15 R665) -/

/-- Enables that the clock plan does not name are cleared. -/
def clearUnnamed (s : State) (plan : List PlanEntry) : State :=
  (List.range 38).foldl (fun a u =>
    if s.clk.clkEn.getLsbD u && !plan.any (fun e => e.kind == 1 && e.index == 0x2210 && e.sub == u + 1) then portsSettle (clearEnable a u) else a) s
/-- Apply the plan. -/
def applyPlan (s : State) (plan : List PlanEntry) : State :=
  (planOrder plan).foldl (fun a e => writeIn a e.index e.sub e.len e.val) (clearUnnamed s plan)
/-- Apply the active half of the parameter block; an entry that would be aborted is skipped with event 0x1006. -/
def applyParams (s : State) : State :=
  match paramBlock s with
  | none => s
  | some (f, o, size) =>
    match activeHalf f o size with
    | none => oSet s O_STORE_STATE 5
    | some (h, _) =>
      let a := o + h * (size / 2)
      let n := flashNat f (a + 12) 4
      let es := (planEntries 5 (flashBytes f (a + 32) n) (min (flashNat f (a + 16) 4) (n / 8 + 1))).1
      es.foldl (fun t e =>
        if writeInCode t e.index e.sub e.len e.val = 0#32 then writeIn t e.index e.sub e.len e.val
        else logEv t 0x1006 sevWarn e.index) s

/-- What the boot stream leaves in the identity of the configuration; a follow-on count above 7 in its slot's header counts as 7 (log entry 98). -/
def noteBoot (s : State) (l : Load) : State :=
  let n := match s.ld.flash, s.ld.dir with
    | some f, some d => if l.src.toNat ≤ 3 then min 7 (flashNat f (slotOff f d l.src.toNat + 16) 1) else 0
    | _, _ => 0
  setLd s { s.ld with
    active := l.src, buildId := l.buildId, keySource := BitVec.ofNat 8 l.keySource, ownerKey := BitVec.ofNat 8 l.ownerKey, digest := l.digest
    followN := n, followPos := 0, result := 0#24 }
/-- Step 11: the load ends, plan and stored parameters are applied. -/
def bootApply (s : State) (l : Load) : State :=
  let s1 := logEv (noteBoot s l) 0x2301 sevInfo (l.src.toNat * 256 + l.kind)
  let s0 := endLoad s1
  let s2 := applyParams (applyPlan (setRst s0 { s0.rst with phase := .planning }) l.plan)
  setRst s2 { s2.rst with phase := .applied }

/-- `STAGING_WIPE_DONE` (05 R207; 04 R169 steps 10 and 11). -/
def execStagingWipeDone (s : State) : Res :=
  .next (match s.ld.load with
    | some l =>
      if l.phase == .wiping && clocked s then
        if l.boot then (if l.reason = 0 then bootApply s l else bootFallback (endLoad s) l)
        else if l.reason = 0 then let s1 := endLoad s; setLd s1 { s1.ld with result := 0#24 }
        else endLoad s
      else s
    | none => s)

/-! ## Step 12 (04 R169, R171; 12 R529; 06 R279) -/

/-- Sizing has ended on every channel whose controller is clocked, and training on every populated one (12 R525). -/
def trainingOver (s : State) : Bool := (List.range 16).all fun c => !enabled s (unDdr c) || ((chan s c).sized && chanState s c != 1)
/-- DDR_REQUIRED names a channel that is failed or unpopulated (12 R529). -/
def requiredMissing (s : State) : Bool :=
  (List.range 16).any fun c => (oGet s O_DDR_REQUIRED).testBit c && (chanState s c == 3 || chanState s c == 0)
/-- The configured trees whose release clock stands. -/
def treesStopped (s : State) : BitVec 8 :=
  s.fab.trees.foldl (fun m x => if treeClkOn s x.2.release.val then m else setBit m x.1 true) 0#8
/-- The global reset trees release, each on its release clock: one whose clock stands waits for it (03 R143). Configured partitions run, and the device takes its
place in the cascade or pair. -/
def releaseTrees (s : State) : State :=
  let s1 := setFab (setRst s { s.rst with treesHeld := false, phase := .run }) { s.fab with relHold := treesStopped s }
  cascBoot (holdCheck ((List.range 128).foldl (fun a p => setPart a p 1) s1))

/-- `INIT_DONE_RELEASE` (04 R169 step 12, R171). -/
def execInitDoneRelease (pinHigh : Bool) (s : State) : Res :=
  .next (if s.rst.phase == .applied && clocked s && trainingOver s then
    if requiredMissing s then bootHalt s
    else
      let s1 := setRst s { s.rst with initDone := true }
      if oGet s O_INIT_WAIT_PIN = 1 && !pinHigh then setRst s1 { s1.rst with phase := .waitPin } else releaseTrees s1
  else s)
/-- `INIT_DONE_PIN_HIGH` (04 R171). -/
def execInitDonePinHigh (s : State) : Res := .next (if s.rst.phase == .waitPin && clocked s then releaseTrees s else s)

/-! ## Stored training results (12 R527, R528) -/

/-- The training area may be written: it lies in no slot with an open intent and meets no slot's image. -/
def areaFree (f : FlashInfo) (d a : Nat) : Bool :=
  let openSlot (k : Nat) : Bool := (openIntents f d).any fun x => x.1 == k
  (List.range 4).all fun k => slotSize f d k == 0 || apart (a, 0x8000)
    (slotOff f d k, if openSlot k then slotSize f d k else if flashNat f (slotOff f d k) 4 = 0x4E475A53 then flashNat f (slotOff f d k + 8) 4 else 0)
/-- A store is due. -/
def trainStoreDue (s : State) : Bool :=
  operating s && s.rst.initDone && s.ld.active.toNat ≤ 3 && oGet s O_TRAIN_STORE == 1
    && (s.ddr.limitsWritten || s.ddr.chans.any fun x => x.2.full) && !loadBusy s && !serviceBusy s
    && (match s.ld.flash, s.ld.dir with | some f, some d => areaFree f d (trainOff f d s.ld.active.toNat) | _, _ => false)
/-- `TRAINING_AREA_STORE` (12 R528). -/
def execTrainingAreaStore (s : State) : Res := .next (if trainStoreDue s then setDdr s { s.ddr with storing := true } else s)

/-- The area's header with the rate limits as they stand. -/
def areaHeader (s : State) : List Byte :=
  let h := leBytes 4 0x4E475A54 ++ leBytes 2 1 ++ leBytes 2 0 ++ (List.range 16).map (fun c => BitVec.ofNat 8 (oGet s (O_DDR_RATE_LIMIT c))) ++ List.replicate 36 0#8
  h ++ leBytes 4 (crc32 h)
/-- The record of a trained channel; its results are opaque. -/
def areaRecord (s : State) (c : Nat) : List Byte :=
  let x := Config.trainResults (s.freeCtr + c)
  let b := leBytes 4 (oGet s (O_DDR_SIZING c)) ++ leBytes 4 (oGet s (O_DDR_RATE c)) ++ (List.range 1012).map fun i => x.getD i 0#8
  b ++ leBytes 4 (crc32 b)
/-- `TRAINING_AREA_STORE_DONE` (12 R528): the area has been erased, programmed and read back. A channel that used stored results keeps its record. -/
def execTrainingAreaStoreDone (s : State) : Res :=
  .next (match s.ld.flash, s.ld.dir with
    | some f, some d =>
      if s.ddr.storing then
        let a := trainOff f d s.ld.active.toNat
        let keep (c : Nat) : List Byte := if (chan s c).usesStored then flashBytes f (recOff a c) 1024 else areaRecord s c
        let f1 := flashWrite (flashErase f a 0x8000) a (areaHeader s)
        let f2 := ((List.range 16).filter fun c => chanState s c == 2 || chanState s c == 4).foldl (fun g c => flashWrite g (recOff a c) (keep c)) f1
        freeStep (setLd (setDdr s { s.ddr with storing := false, limitsWritten := false, chans := s.ddr.chans.map fun x => (x.1, { x.2 with full := false }) })
          { s.ld with flash := some f2 })
      else s
    | _, _ => s)

end Sys2Proof.Machine
end

