-- ==== Sys2Proof/Machine/EngineOps.lean ====
section
/-! DEFINITION. The rows of the Geyser instruction set (09): each names one operation of a bundle with its operand fields; `rest` gives the
bundle's other fields. -/
namespace Sys2Proof.Machine

/-- An M field of format V (09 R395). -/
def fmtV (op d a b f : Nat) : Nat := op * 2 ^ 16 + d * 2 ^ 11 + a * 2 ^ 6 + b * 2 + f
/-- An M field of format S (09 R395). -/
def fmtS (op d a sb : Nat) : Nat := op * 2 ^ 16 + d * 2 ^ 12 + a * 2 ^ 8 + sb
/-- The parallel bundle of class `cls` with M field `m` and the P, X and Y fields of `rest` (09 R393). -/
def withM (rest : BitVec 64) (cls m : Nat) : BitVec 64 :=
  BitVec.ofNat 64 (cls * 2 ^ 60 + fld rest 55 5 * 2 ^ 55 + m * 2 ^ 32 + fld rest 0 32)
/-- The class of a parallel bundle's other fields; a control class gives none. -/
def parRest (rest : BitVec 64) : Nat := if fld rest 60 4 < 6 then rest.toNat else 0
/-- `rest` with an X or Y field. -/
def withSlot (rest : BitVec 64) (y : Bool) (t : Nat) : BitVec 64 :=
  let r := BitVec.ofNat 64 (parRest rest)
  if y then putFld r 0 16 t else putFld r 16 16 t
/-- `rest` with a P field. -/
def withP (rest : BitVec 64) (p : Nat) : BitVec 64 := putFld (BitVec.ofNat 64 (parRest rest)) 55 5 p

/-- `CLD` (09 R394). -/
def execCld (e : Fin 768) (c : Bool) (v : BitVec 3) (rest : BitVec 64) (s : State) : Res := .next (issueRow e.val (withP rest (16 + c.toNat * 8 + v.toNat)) s)
/-- `VMAC_H` (09 R397). -/
def execVmacH (e : Fin 768) (d : BitVec 5) (a : BitVec 5) (b : BitVec 5) (z : Bool) (rest : BitVec 64) (s : State) : Res := .next (issueRow e.val (withM rest 0 (fmtV 1 d.toNat a.toNat b.toNat z.toNat)) s)
/-- `VMSU_H` (09 R397). -/
def execVmsuH (e : Fin 768) (d : BitVec 5) (a : BitVec 5) (b : BitVec 5) (z : Bool) (rest : BitVec 64) (s : State) : Res := .next (issueRow e.val (withM rest 0 (fmtV 2 d.toNat a.toNat b.toNat z.toNat)) s)
/-- `VMAC_B` (09 R397). -/
def execVmacB (e : Fin 768) (d : BitVec 5) (a : BitVec 5) (b : BitVec 5) (z : Bool) (rest : BitVec 64) (s : State) : Res := .next (issueRow e.val (withM rest 0 (fmtV 3 d.toNat a.toNat b.toNat z.toNat)) s)
/-- `VMSU_B` (09 R397). -/
def execVmsuB (e : Fin 768) (d : BitVec 5) (a : BitVec 5) (b : BitVec 5) (z : Bool) (rest : BitVec 64) (s : State) : Res := .next (issueRow e.val (withM rest 0 (fmtV 4 d.toNat a.toNat b.toNat z.toNat)) s)
/-- `CMAC_L` (09 R398). -/
def execCmacL (e : Fin 768) (d : BitVec 5) (a : BitVec 5) (b : BitVec 5) (z : Bool) (rest : BitVec 64) (s : State) : Res := .next (issueRow e.val (withM rest 0 (fmtV 5 d.toNat a.toNat b.toNat z.toNat)) s)
/-- `CMAC_H` (09 R398). -/
def execCmacH (e : Fin 768) (d : BitVec 5) (a : BitVec 5) (b : BitVec 5) (z : Bool) (rest : BitVec 64) (s : State) : Res := .next (issueRow e.val (withM rest 0 (fmtV 6 d.toNat a.toNat b.toNat z.toNat)) s)
/-- `CMACJ_L` (09 R398). -/
def execCmacjL (e : Fin 768) (d : BitVec 5) (a : BitVec 5) (b : BitVec 5) (z : Bool) (rest : BitVec 64) (s : State) : Res := .next (issueRow e.val (withM rest 0 (fmtV 7 d.toNat a.toNat b.toNat z.toNat)) s)
/-- `CMACJ_H` (09 R398). -/
def execCmacjH (e : Fin 768) (d : BitVec 5) (a : BitVec 5) (b : BitVec 5) (z : Bool) (rest : BitVec 64) (s : State) : Res := .next (issueRow e.val (withM rest 0 (fmtV 8 d.toNat a.toNat b.toNat z.toNat)) s)
/-- `VMACS_H` (09 R397). -/
def execVmacsH (e : Fin 768) (d : BitVec 5) (a : BitVec 5) (b : BitVec 5) (z : Bool) (rest : BitVec 64) (s : State) : Res := .next (issueRow e.val (withM rest 0 (fmtV 9 d.toNat a.toNat b.toNat z.toNat)) s)
/-- `AADD` (09 R397). -/
def execAadd (e : Fin 768) (d : BitVec 5) (a : BitVec 5) (z : Bool) (rest : BitVec 64) (s : State) : Res := .next (issueRow e.val (withM rest 0 (fmtV 10 d.toNat a.toNat 0 z.toNat)) s)
/-- `ALD` (09 R397). -/
def execAld (e : Fin 768) (d : BitVec 5) (a : BitVec 5) (sh : BitVec 5) (rest : BitVec 64) (s : State) : Res := .next (issueRow e.val (withM rest 0 (fmtV 11 d.toNat a.toNat sh.toNat 0)) s)
/-- `VADD` (09 R399). -/
def execVadd (e : Fin 768) (d : BitVec 5) (a : BitVec 5) (b : BitVec 5) (w : BitVec 2) (f : Bool) (rest : BitVec 64) (s : State) : Res := .next (issueRow e.val (withM rest 1 (fmtV (4 + w.toNat) d.toNat a.toNat b.toNat f.toNat)) s)
/-- `VSUB` (09 R399). -/
def execVsub (e : Fin 768) (d : BitVec 5) (a : BitVec 5) (b : BitVec 5) (w : BitVec 2) (f : Bool) (rest : BitVec 64) (s : State) : Res := .next (issueRow e.val (withM rest 1 (fmtV (8 + w.toNat) d.toNat a.toNat b.toNat f.toNat)) s)
/-- `VHADD` (09 R399). -/
def execVhadd (e : Fin 768) (d : BitVec 5) (a : BitVec 5) (b : BitVec 5) (w : BitVec 2) (f : Bool) (rest : BitVec 64) (s : State) : Res := .next (issueRow e.val (withM rest 1 (fmtV (12 + w.toNat) d.toNat a.toNat b.toNat f.toNat)) s)
/-- `VHSUB` (09 R399). -/
def execVhsub (e : Fin 768) (d : BitVec 5) (a : BitVec 5) (b : BitVec 5) (w : BitVec 2) (f : Bool) (rest : BitVec 64) (s : State) : Res := .next (issueRow e.val (withM rest 1 (fmtV (16 + w.toNat) d.toNat a.toNat b.toNat f.toNat)) s)
/-- `VMIN` (09 R399). -/
def execVmin (e : Fin 768) (d : BitVec 5) (a : BitVec 5) (b : BitVec 5) (w : BitVec 2) (f : Bool) (rest : BitVec 64) (s : State) : Res := .next (issueRow e.val (withM rest 1 (fmtV (20 + w.toNat) d.toNat a.toNat b.toNat f.toNat)) s)
/-- `VMAX` (09 R399). -/
def execVmax (e : Fin 768) (d : BitVec 5) (a : BitVec 5) (b : BitVec 5) (w : BitVec 2) (f : Bool) (rest : BitVec 64) (s : State) : Res := .next (issueRow e.val (withM rest 1 (fmtV (24 + w.toNat) d.toNat a.toNat b.toNat f.toNat)) s)
/-- `VABS` (09 R399). -/
def execVabs (e : Fin 768) (d : BitVec 5) (a : BitVec 5) (w : BitVec 2) (rest : BitVec 64) (s : State) : Res := .next (issueRow e.val (withM rest 1 (fmtV (28 + w.toNat) d.toNat a.toNat 0 0)) s)
/-- `VNEG` (09 R399). -/
def execVneg (e : Fin 768) (d : BitVec 5) (a : BitVec 5) (w : BitVec 2) (rest : BitVec 64) (s : State) : Res := .next (issueRow e.val (withM rest 1 (fmtV (32 + w.toNat) d.toNat a.toNat 0 0)) s)
/-- `VAND` (09 R399). -/
def execVand (e : Fin 768) (d : BitVec 5) (a : BitVec 5) (b : BitVec 5) (f : Bool) (rest : BitVec 64) (s : State) : Res := .next (issueRow e.val (withM rest 1 (fmtV 36 d.toNat a.toNat b.toNat f.toNat)) s)
/-- `VOR` (09 R399). -/
def execVor (e : Fin 768) (d : BitVec 5) (a : BitVec 5) (b : BitVec 5) (f : Bool) (rest : BitVec 64) (s : State) : Res := .next (issueRow e.val (withM rest 1 (fmtV 40 d.toNat a.toNat b.toNat f.toNat)) s)
/-- `VXOR` (09 R399). -/
def execVxor (e : Fin 768) (d : BitVec 5) (a : BitVec 5) (b : BitVec 5) (f : Bool) (rest : BitVec 64) (s : State) : Res := .next (issueRow e.val (withM rest 1 (fmtV 44 d.toNat a.toNat b.toNat f.toNat)) s)
/-- `VSRA` (09 R399). -/
def execVsra (e : Fin 768) (d : BitVec 5) (a : BitVec 5) (sh : BitVec 5) (w : BitVec 2) (rest : BitVec 64) (s : State) : Res := .next (issueRow e.val (withM rest 1 (fmtV (48 + w.toNat) d.toNat a.toNat sh.toNat 0)) s)
/-- `VSRL` (09 R399). -/
def execVsrl (e : Fin 768) (d : BitVec 5) (a : BitVec 5) (sh : BitVec 5) (w : BitVec 2) (rest : BitVec 64) (s : State) : Res := .next (issueRow e.val (withM rest 1 (fmtV (52 + w.toNat) d.toNat a.toNat sh.toNat 0)) s)
/-- `VSHL` (09 R399). -/
def execVshl (e : Fin 768) (d : BitVec 5) (a : BitVec 5) (sh : BitVec 5) (w : BitVec 2) (rest : BitVec 64) (s : State) : Res := .next (issueRow e.val (withM rest 1 (fmtV (56 + w.toNat) d.toNat a.toNat sh.toNat 0)) s)
/-- `VCMPGT` (09 R399). -/
def execVcmpgt (e : Fin 768) (d : BitVec 5) (a : BitVec 5) (b : BitVec 5) (w : BitVec 2) (f : Bool) (rest : BitVec 64) (s : State) : Res := .next (issueRow e.val (withM rest 1 (fmtV (60 + w.toNat) d.toNat a.toNat b.toNat f.toNat)) s)
/-- `VCMPEQ` (09 R399). -/
def execVcmpeq (e : Fin 768) (d : BitVec 5) (a : BitVec 5) (b : BitVec 5) (w : BitVec 2) (f : Bool) (rest : BitVec 64) (s : State) : Res := .next (issueRow e.val (withM rest 1 (fmtV (64 + w.toNat) d.toNat a.toNat b.toNat f.toNat)) s)
/-- `VSEL` (09 R399). -/
def execVsel (e : Fin 768) (d : BitVec 5) (a : BitVec 5) (b : BitVec 5) (rest : BitVec 64) (s : State) : Res := .next (issueRow e.val (withM rest 1 (fmtV 68 d.toNat a.toNat b.toNat 0)) s)
/-- `VMULJ` (09 R400). -/
def execVmulj (e : Fin 768) (d : BitVec 5) (a : BitVec 5) (rest : BitVec 64) (s : State) : Res := .next (issueRow e.val (withM rest 2 (fmtV 5 d.toNat a.toNat 0 0)) s)
/-- `VMULNJ` (09 R400). -/
def execVmulnj (e : Fin 768) (d : BitVec 5) (a : BitVec 5) (rest : BitVec 64) (s : State) : Res := .next (issueRow e.val (withM rest 2 (fmtV 9 d.toNat a.toNat 0 0)) s)
/-- `VCONJ` (09 R400). -/
def execVconj (e : Fin 768) (d : BitVec 5) (a : BitVec 5) (rest : BitVec 64) (s : State) : Res := .next (issueRow e.val (withM rest 2 (fmtV 13 d.toNat a.toNat 0 0)) s)
/-- `VSPLAT` (09 R400). -/
def execVsplat (e : Fin 768) (d : BitVec 5) (a : BitVec 5) (k : BitVec 5) (w : BitVec 2) (rest : BitVec 64) (s : State) : Res := .next (issueRow e.val (withM rest 2 (fmtV (16 + w.toNat) d.toNat a.toNat k.toNat 0)) s)
/-- `VROT` (09 R400). -/
def execVrot (e : Fin 768) (d : BitVec 5) (a : BitVec 5) (k : BitVec 5) (w : BitVec 2) (rest : BitVec 64) (s : State) : Res := .next (issueRow e.val (withM rest 2 (fmtV (20 + w.toNat) d.toNat a.toNat k.toNat 0)) s)
/-- `VILVL` (09 R400). -/
def execVilvl (e : Fin 768) (d : BitVec 5) (a : BitVec 5) (b : BitVec 5) (w : BitVec 2) (rest : BitVec 64) (s : State) : Res := .next (issueRow e.val (withM rest 2 (fmtV (24 + w.toNat) d.toNat a.toNat b.toNat 0)) s)
/-- `VILVH` (09 R400). -/
def execVilvh (e : Fin 768) (d : BitVec 5) (a : BitVec 5) (b : BitVec 5) (w : BitVec 2) (rest : BitVec 64) (s : State) : Res := .next (issueRow e.val (withM rest 2 (fmtV (28 + w.toNat) d.toNat a.toNat b.toNat 0)) s)
/-- `VEVN` (09 R400). -/
def execVevn (e : Fin 768) (d : BitVec 5) (a : BitVec 5) (b : BitVec 5) (w : BitVec 2) (rest : BitVec 64) (s : State) : Res := .next (issueRow e.val (withM rest 2 (fmtV (32 + w.toNat) d.toNat a.toNat b.toNat 0)) s)
/-- `VODD` (09 R400). -/
def execVodd (e : Fin 768) (d : BitVec 5) (a : BitVec 5) (b : BitVec 5) (w : BitVec 2) (rest : BitVec 64) (s : State) : Res := .next (issueRow e.val (withM rest 2 (fmtV (36 + w.toNat) d.toNat a.toNat b.toNat 0)) s)
/-- `VUNPL` (09 R400). -/
def execVunpl (e : Fin 768) (d : BitVec 5) (a : BitVec 5) (w : BitVec 2) (rest : BitVec 64) (s : State) : Res := .next (issueRow e.val (withM rest 2 (fmtV (40 + w.toNat) d.toNat a.toNat 0 0)) s)
/-- `VUNPH` (09 R400). -/
def execVunph (e : Fin 768) (d : BitVec 5) (a : BitVec 5) (w : BitVec 2) (rest : BitVec 64) (s : State) : Res := .next (issueRow e.val (withM rest 2 (fmtV (44 + w.toNat) d.toNat a.toNat 0 0)) s)
/-- `VPACK` (09 R400). -/
def execVpack (e : Fin 768) (d : BitVec 5) (a : BitVec 5) (b : BitVec 5) (w : BitVec 2) (rest : BitVec 64) (s : State) : Res := .next (issueRow e.val (withM rest 2 (fmtV (48 + w.toNat) d.toNat a.toNat b.toNat 0)) s)
/-- `VFMA` (09 R402). -/
def execVfma (e : Fin 768) (d : BitVec 5) (a : BitVec 5) (b : BitVec 5) (h : Bool) (rest : BitVec 64) (s : State) : Res := .next (issueRow e.val (withM rest 3 (fmtV 1 d.toNat a.toNat b.toNat h.toNat)) s)
/-- `VFMS` (09 R402). -/
def execVfms (e : Fin 768) (d : BitVec 5) (a : BitVec 5) (b : BitVec 5) (h : Bool) (rest : BitVec 64) (s : State) : Res := .next (issueRow e.val (withM rest 3 (fmtV 2 d.toNat a.toNat b.toNat h.toNat)) s)
/-- `VFMUL` (09 R402). -/
def execVfmul (e : Fin 768) (d : BitVec 5) (a : BitVec 5) (b : BitVec 5) (h : Bool) (rest : BitVec 64) (s : State) : Res := .next (issueRow e.val (withM rest 3 (fmtV 3 d.toNat a.toNat b.toNat h.toNat)) s)
/-- `VFADD` (09 R402). -/
def execVfadd (e : Fin 768) (d : BitVec 5) (a : BitVec 5) (b : BitVec 5) (rest : BitVec 64) (s : State) : Res := .next (issueRow e.val (withM rest 3 (fmtV 16 d.toNat a.toNat b.toNat 0)) s)
/-- `VFSUB` (09 R402). -/
def execVfsub (e : Fin 768) (d : BitVec 5) (a : BitVec 5) (b : BitVec 5) (rest : BitVec 64) (s : State) : Res := .next (issueRow e.val (withM rest 3 (fmtV 17 d.toNat a.toNat b.toNat 0)) s)
/-- `VFMIN` (09 R402). -/
def execVfmin (e : Fin 768) (d : BitVec 5) (a : BitVec 5) (b : BitVec 5) (rest : BitVec 64) (s : State) : Res := .next (issueRow e.val (withM rest 3 (fmtV 18 d.toNat a.toNat b.toNat 0)) s)
/-- `VFMAX` (09 R402). -/
def execVfmax (e : Fin 768) (d : BitVec 5) (a : BitVec 5) (b : BitVec 5) (rest : BitVec 64) (s : State) : Res := .next (issueRow e.val (withM rest 3 (fmtV 19 d.toNat a.toNat b.toNat 0)) s)
/-- `VFABS` (09 R402). -/
def execVfabs (e : Fin 768) (d : BitVec 5) (a : BitVec 5) (rest : BitVec 64) (s : State) : Res := .next (issueRow e.val (withM rest 3 (fmtV 20 d.toNat a.toNat 0 0)) s)
/-- `VFNEG` (09 R402). -/
def execVfneg (e : Fin 768) (d : BitVec 5) (a : BitVec 5) (rest : BitVec 64) (s : State) : Res := .next (issueRow e.val (withM rest 3 (fmtV 21 d.toNat a.toNat 0 0)) s)
/-- `VFCMPGT` (09 R402). -/
def execVfcmpgt (e : Fin 768) (d : BitVec 5) (a : BitVec 5) (b : BitVec 5) (rest : BitVec 64) (s : State) : Res := .next (issueRow e.val (withM rest 3 (fmtV 22 d.toNat a.toNat b.toNat 0)) s)
/-- `VCVTF` (09 R402). -/
def execVcvtf (e : Fin 768) (d : BitVec 5) (a : BitVec 5) (rest : BitVec 64) (s : State) : Res := .next (issueRow e.val (withM rest 3 (fmtV 24 d.toNat a.toNat 0 0)) s)
/-- `VCVTI` (09 R402). -/
def execVcvti (e : Fin 768) (d : BitVec 5) (a : BitVec 5) (rest : BitVec 64) (s : State) : Res := .next (issueRow e.val (withM rest 3 (fmtV 25 d.toNat a.toNat 0 0)) s)
/-- `ADD` (09 R403). -/
def execAdd (e : Fin 768) (d : BitVec 4) (a : BitVec 4) (b : BitVec 4) (rest : BitVec 64) (s : State) : Res := .next (issueRow e.val (withM rest 4 (fmtS 1 d.toNat a.toNat (b.toNat * 16))) s)
/-- `SUB` (09 R403). -/
def execSub (e : Fin 768) (d : BitVec 4) (a : BitVec 4) (b : BitVec 4) (rest : BitVec 64) (s : State) : Res := .next (issueRow e.val (withM rest 4 (fmtS 2 d.toNat a.toNat (b.toNat * 16))) s)
/-- `AND` (09 R403). -/
def execAnd (e : Fin 768) (d : BitVec 4) (a : BitVec 4) (b : BitVec 4) (rest : BitVec 64) (s : State) : Res := .next (issueRow e.val (withM rest 4 (fmtS 3 d.toNat a.toNat (b.toNat * 16))) s)
/-- `OR` (09 R403). -/
def execOr (e : Fin 768) (d : BitVec 4) (a : BitVec 4) (b : BitVec 4) (rest : BitVec 64) (s : State) : Res := .next (issueRow e.val (withM rest 4 (fmtS 4 d.toNat a.toNat (b.toNat * 16))) s)
/-- `XOR` (09 R403). -/
def execXor (e : Fin 768) (d : BitVec 4) (a : BitVec 4) (b : BitVec 4) (rest : BitVec 64) (s : State) : Res := .next (issueRow e.val (withM rest 4 (fmtS 5 d.toNat a.toNat (b.toNat * 16))) s)
/-- `SHL` (09 R403). -/
def execShl (e : Fin 768) (d : BitVec 4) (a : BitVec 4) (b : BitVec 4) (rest : BitVec 64) (s : State) : Res := .next (issueRow e.val (withM rest 4 (fmtS 6 d.toNat a.toNat (b.toNat * 16))) s)
/-- `SHR` (09 R403). -/
def execShr (e : Fin 768) (d : BitVec 4) (a : BitVec 4) (b : BitVec 4) (rest : BitVec 64) (s : State) : Res := .next (issueRow e.val (withM rest 4 (fmtS 7 d.toNat a.toNat (b.toNat * 16))) s)
/-- `SRA` (09 R403). -/
def execSra (e : Fin 768) (d : BitVec 4) (a : BitVec 4) (b : BitVec 4) (rest : BitVec 64) (s : State) : Res := .next (issueRow e.val (withM rest 4 (fmtS 8 d.toNat a.toNat (b.toNat * 16))) s)
/-- `MUL` (09 R403). -/
def execMul (e : Fin 768) (d : BitVec 4) (a : BitVec 4) (b : BitVec 4) (rest : BitVec 64) (s : State) : Res := .next (issueRow e.val (withM rest 4 (fmtS 9 d.toNat a.toNat (b.toNat * 16))) s)
/-- `MIN` (09 R403). -/
def execMin (e : Fin 768) (d : BitVec 4) (a : BitVec 4) (b : BitVec 4) (rest : BitVec 64) (s : State) : Res := .next (issueRow e.val (withM rest 4 (fmtS 10 d.toNat a.toNat (b.toNat * 16))) s)
/-- `MAX` (09 R403). -/
def execMax (e : Fin 768) (d : BitVec 4) (a : BitVec 4) (b : BitVec 4) (rest : BitVec 64) (s : State) : Res := .next (issueRow e.val (withM rest 4 (fmtS 11 d.toNat a.toNat (b.toNat * 16))) s)
/-- `SLT` (09 R403). -/
def execSlt (e : Fin 768) (d : BitVec 4) (a : BitVec 4) (b : BitVec 4) (rest : BitVec 64) (s : State) : Res := .next (issueRow e.val (withM rest 4 (fmtS 12 d.toNat a.toNat (b.toNat * 16))) s)
/-- `SLTU` (09 R403). -/
def execSltu (e : Fin 768) (d : BitVec 4) (a : BitVec 4) (b : BitVec 4) (rest : BitVec 64) (s : State) : Res := .next (issueRow e.val (withM rest 4 (fmtS 13 d.toNat a.toNat (b.toNat * 16))) s)
/-- `SEQ` (09 R403). -/
def execSeq (e : Fin 768) (d : BitVec 4) (a : BitVec 4) (b : BitVec 4) (rest : BitVec 64) (s : State) : Res := .next (issueRow e.val (withM rest 4 (fmtS 14 d.toNat a.toNat (b.toNat * 16))) s)
/-- `ADDI` (09 R403). -/
def execAddi (e : Fin 768) (d : BitVec 4) (a : BitVec 4) (imm : BitVec 8) (rest : BitVec 64) (s : State) : Res := .next (issueRow e.val (withM rest 4 (fmtS 17 d.toNat a.toNat imm.toNat)) s)
/-- `ANDI` (09 R403). -/
def execAndi (e : Fin 768) (d : BitVec 4) (a : BitVec 4) (imm : BitVec 8) (rest : BitVec 64) (s : State) : Res := .next (issueRow e.val (withM rest 4 (fmtS 19 d.toNat a.toNat imm.toNat)) s)
/-- `ORI` (09 R403). -/
def execOri (e : Fin 768) (d : BitVec 4) (a : BitVec 4) (imm : BitVec 8) (rest : BitVec 64) (s : State) : Res := .next (issueRow e.val (withM rest 4 (fmtS 20 d.toNat a.toNat imm.toNat)) s)
/-- `XORI` (09 R403). -/
def execXori (e : Fin 768) (d : BitVec 4) (a : BitVec 4) (imm : BitVec 8) (rest : BitVec 64) (s : State) : Res := .next (issueRow e.val (withM rest 4 (fmtS 21 d.toNat a.toNat imm.toNat)) s)
/-- `SHLI` (09 R403). -/
def execShli (e : Fin 768) (d : BitVec 4) (a : BitVec 4) (imm : BitVec 8) (rest : BitVec 64) (s : State) : Res := .next (issueRow e.val (withM rest 4 (fmtS 22 d.toNat a.toNat imm.toNat)) s)
/-- `SHRI` (09 R403). -/
def execShri (e : Fin 768) (d : BitVec 4) (a : BitVec 4) (imm : BitVec 8) (rest : BitVec 64) (s : State) : Res := .next (issueRow e.val (withM rest 4 (fmtS 23 d.toNat a.toNat imm.toNat)) s)
/-- `SRAI` (09 R403). -/
def execSrai (e : Fin 768) (d : BitVec 4) (a : BitVec 4) (imm : BitVec 8) (rest : BitVec 64) (s : State) : Res := .next (issueRow e.val (withM rest 4 (fmtS 24 d.toNat a.toNat imm.toNat)) s)
/-- `SLTI` (09 R403). -/
def execSlti (e : Fin 768) (d : BitVec 4) (a : BitVec 4) (imm : BitVec 8) (rest : BitVec 64) (s : State) : Res := .next (issueRow e.val (withM rest 4 (fmtS 28 d.toNat a.toNat imm.toNat)) s)
/-- `VMOV` (09 R404). -/
def execVmov (e : Fin 768) (d : BitVec 5) (a : BitVec 5) (rest : BitVec 64) (s : State) : Res := .next (issueRow e.val (withM rest 5 (fmtV 1 d.toNat a.toNat 0 0)) s)
/-- `VGET` (09 R404). -/
def execVget (e : Fin 768) (d : BitVec 5) (a : BitVec 5) (k : BitVec 5) (rest : BitVec 64) (s : State) : Res := .next (issueRow e.val (withM rest 5 (fmtV 2 d.toNat a.toNat k.toNat 0)) s)
/-- `VPUT` (09 R404). -/
def execVput (e : Fin 768) (d : BitVec 5) (a : BitVec 5) (k : BitVec 5) (rest : BitVec 64) (s : State) : Res := .next (issueRow e.val (withM rest 5 (fmtV 3 d.toNat a.toNat k.toNat 0)) s)
/-- `VBCST` (09 R404). -/
def execVbcst (e : Fin 768) (d : BitVec 5) (a : BitVec 5) (w : BitVec 2) (rest : BitVec 64) (s : State) : Res := .next (issueRow e.val (withM rest 5 (fmtV 4 d.toNat a.toNat w.toNat 0)) s)
/-- `ANARROW` (09 R404). -/
def execAnarrow (e : Fin 768) (d : BitVec 5) (a : BitVec 5) (sh : BitVec 5) (rest : BitVec 64) (s : State) : Res := .next (issueRow e.val (withM rest 5 (fmtV 5 d.toNat a.toNat sh.toNat 0)) s)
/-- `MOVSP` (09 R404). -/
def execMovsp (e : Fin 768) (d : BitVec 5) (a : BitVec 5) (rest : BitVec 64) (s : State) : Res := .next (issueRow e.val (withM rest 5 (fmtV 6 d.toNat a.toNat 0 0)) s)
/-- `MOVPS` (09 R404). -/
def execMovps (e : Fin 768) (d : BitVec 5) (a : BitVec 5) (rest : BitVec 64) (s : State) : Res := .next (issueRow e.val (withM rest 5 (fmtV 7 d.toNat a.toNat 0 0)) s)
/-- `MOVSM` (09 R404). -/
def execMovsm (e : Fin 768) (d : BitVec 5) (a : BitVec 5) (rest : BitVec 64) (s : State) : Res := .next (issueRow e.val (withM rest 5 (fmtV 8 d.toNat a.toNat 0 0)) s)
/-- `MOVMS` (09 R404). -/
def execMovms (e : Fin 768) (d : BitVec 5) (a : BitVec 5) (rest : BitVec 64) (s : State) : Res := .next (issueRow e.val (withM rest 5 (fmtV 9 d.toNat a.toNat 0 0)) s)
/-- `MOVSC` (09 R404). -/
def execMovsc (e : Fin 768) (d : BitVec 5) (a : BitVec 5) (rest : BitVec 64) (s : State) : Res := .next (issueRow e.val (withM rest 5 (fmtV 10 d.toNat a.toNat 0 0)) s)
/-- `MOVCS` (09 R404). -/
def execMovcs (e : Fin 768) (d : BitVec 5) (a : BitVec 5) (rest : BitVec 64) (s : State) : Res := .next (issueRow e.val (withM rest 5 (fmtV 11 d.toNat a.toNat 0 0)) s)
/-- `CSRR` (09 R405). -/
def execCsrr (e : Fin 768) (d : BitVec 5) (a : BitVec 5) (rest : BitVec 64) (s : State) : Res := .next (issueRow e.val (withM rest 5 (fmtV 12 d.toNat a.toNat 0 0)) s)
/-- `CSRW` (09 R405). -/
def execCsrw (e : Fin 768) (d : BitVec 5) (a : BitVec 5) (rest : BitVec 64) (s : State) : Res := .next (issueRow e.val (withM rest 5 (fmtV 13 d.toNat a.toNat 0 0)) s)
/-- `VLD` (09 R406). -/
def execVld (e : Fin 768) (y : Bool) (v : BitVec 5) (p : BitVec 3) (u : Bool) (rest : BitVec 64) (s : State) : Res := .next (issueRow e.val (withSlot rest y (0x1000 + v.toNat * 128 + p.toNat * 16 + u.toNat * 8)) s)
/-- `VLDB` (09 R406). -/
def execVldb (e : Fin 768) (y : Bool) (v : BitVec 5) (p : BitVec 3) (u : Bool) (rest : BitVec 64) (s : State) : Res := .next (issueRow e.val (withSlot rest y (0x2000 + v.toNat * 128 + p.toNat * 16 + u.toNat * 8)) s)
/-- `VST` (09 R406). -/
def execVst (e : Fin 768) (y : Bool) (v : BitVec 5) (p : BitVec 3) (u : Bool) (t : Bool) (w : BitVec 2) (rest : BitVec 64) (s : State) : Res := .next (issueRow e.val (withSlot rest y (0x3000 + v.toNat * 128 + p.toNat * 16 + u.toNat * 8 + t.toNat * 4 + w.toNat)) s)
/-- `STA_H` (09 R406). -/
def execStaH (e : Fin 768) (y : Bool) (a : BitVec 3) (p : BitVec 3) (u : Bool) (sh : BitVec 5) (rest : BitVec 64) (s : State) : Res := .next (issueRow e.val (withSlot rest y (0x4000 + a.toNat * 512 + p.toNat * 64 + u.toNat * 32 + sh.toNat)) s)
/-- `STA_HT` (09 R406). -/
def execStaHt (e : Fin 768) (y : Bool) (a : BitVec 3) (p : BitVec 3) (u : Bool) (sh : BitVec 5) (rest : BitVec 64) (s : State) : Res := .next (issueRow e.val (withSlot rest y (0x5000 + a.toNat * 512 + p.toNat * 64 + u.toNat * 32 + sh.toNat)) s)
/-- `STA_W` (09 R406). -/
def execStaW (e : Fin 768) (y : Bool) (a : BitVec 3) (p : BitVec 3) (u : Bool) (h : Bool) (sh : BitVec 4) (rest : BitVec 64) (s : State) : Res := .next (issueRow e.val (withSlot rest y (0x6000 + a.toNat * 512 + p.toNat * 64 + u.toNat * 32 + h.toNat * 16 + sh.toNat)) s)
/-- `STA_WT` (09 R406). -/
def execStaWt (e : Fin 768) (y : Bool) (a : BitVec 3) (p : BitVec 3) (u : Bool) (h : Bool) (sh : BitVec 4) (rest : BitVec 64) (s : State) : Res := .next (issueRow e.val (withSlot rest y (0x7000 + a.toNat * 512 + p.toNat * 64 + u.toNat * 32 + h.toNat * 16 + sh.toNat)) s)
/-- `SLD` (09 R406). -/
def execSld (e : Fin 768) (y : Bool) (r : BitVec 4) (p : BitVec 3) (u : Bool) (rest : BitVec 64) (s : State) : Res := .next (issueRow e.val (withSlot rest y (0x8000 + r.toNat * 256 + p.toNat * 32 + u.toNat * 16)) s)
/-- `SST` (09 R406). -/
def execSst (e : Fin 768) (y : Bool) (r : BitVec 4) (p : BitVec 3) (u : Bool) (rest : BitVec 64) (s : State) : Res := .next (issueRow e.val (withSlot rest y (0x9000 + r.toNat * 256 + p.toNat * 32 + u.toNat * 16)) s)
/-- `PMOD` (09 R407). -/
def execPmod (e : Fin 768) (y : Bool) (p : BitVec 3) (rest : BitVec 64) (s : State) : Res := .next (issueRow e.val (withSlot rest y (0xA000 + p.toNat * 512)) s)
/-- `PADD` (09 R407). -/
def execPadd (e : Fin 768) (y : Bool) (p : BitVec 3) (imm : BitVec 7) (rest : BitVec 64) (s : State) : Res := .next (issueRow e.val (withSlot rest y (0xA080 + p.toNat * 512 + imm.toNat)) s)
/-- `PMOVS` (09 R407). -/
def execPmovs (e : Fin 768) (y : Bool) (p : BitVec 3) (a : BitVec 4) (rest : BitVec 64) (s : State) : Res := .next (issueRow e.val (withSlot rest y (0xA100 + p.toNat * 512 + a.toNat * 8)) s)
/-- `SIN` (09 R408). -/
def execSin (e : Fin 768) (v : BitVec 5) (h : Bool) (rest : BitVec 64) (s : State) : Res := .next (issueRow e.val (withSlot rest false (0xB000 + v.toNat * 128 + h.toNat * 64)) s)
/-- `SOUT` (09 R408). -/
def execSout (e : Fin 768) (v : BitVec 5) (h : Bool) (l : Bool) (n : BitVec 4) (rest : BitVec 64) (s : State) : Res := .next (issueRow e.val (withSlot rest false (0xC000 + v.toNat * 128 + h.toNat * 64 + l.toNat * 32 + n.toNat * 2)) s)
/-- `LOOP` (09 R409). -/
def execLoop (e : Fin 768) (rw : BitVec 2) (cs : Bool) (a : BitVec 4) (count : BitVec 16) (last : BitVec 16) (s : State) : Res := .next (issueRow e.val (BitVec.ofNat 64 (6 * 2 ^ 60 + rw.toNat * 2 ^ 58 + cs.toNat * 2 ^ 57 + a.toNat * 2 ^ 53 + count.toNat * 2 ^ 32 + last.toNat * 2 ^ 16)) s)
/-- `B` (09 R411). -/
def execB (e : Fin 768) (t : BitVec 16) (s : State) : Res := .next (issueRow e.val (BitVec.ofNat 64 (7 * 2 ^ 60 + 0 * 2 ^ 56 + t.toNat * 2 ^ 16)) s)
/-- `BEQ` (09 R411). -/
def execBeq (e : Fin 768) (a : BitVec 4) (b : BitVec 4) (t : BitVec 16) (s : State) : Res := .next (issueRow e.val (BitVec.ofNat 64 (7 * 2 ^ 60 + 1 * 2 ^ 56 + a.toNat * 2 ^ 52 + b.toNat * 2 ^ 48 + t.toNat * 2 ^ 16)) s)
/-- `BNE` (09 R411). -/
def execBne (e : Fin 768) (a : BitVec 4) (b : BitVec 4) (t : BitVec 16) (s : State) : Res := .next (issueRow e.val (BitVec.ofNat 64 (7 * 2 ^ 60 + 2 * 2 ^ 56 + a.toNat * 2 ^ 52 + b.toNat * 2 ^ 48 + t.toNat * 2 ^ 16)) s)
/-- `BLT` (09 R411). -/
def execBlt (e : Fin 768) (a : BitVec 4) (b : BitVec 4) (t : BitVec 16) (s : State) : Res := .next (issueRow e.val (BitVec.ofNat 64 (7 * 2 ^ 60 + 3 * 2 ^ 56 + a.toNat * 2 ^ 52 + b.toNat * 2 ^ 48 + t.toNat * 2 ^ 16)) s)
/-- `BGE` (09 R411). -/
def execBge (e : Fin 768) (a : BitVec 4) (b : BitVec 4) (t : BitVec 16) (s : State) : Res := .next (issueRow e.val (BitVec.ofNat 64 (7 * 2 ^ 60 + 4 * 2 ^ 56 + a.toNat * 2 ^ 52 + b.toNat * 2 ^ 48 + t.toNat * 2 ^ 16)) s)
/-- `BLTU` (09 R411). -/
def execBltu (e : Fin 768) (a : BitVec 4) (b : BitVec 4) (t : BitVec 16) (s : State) : Res := .next (issueRow e.val (BitVec.ofNat 64 (7 * 2 ^ 60 + 5 * 2 ^ 56 + a.toNat * 2 ^ 52 + b.toNat * 2 ^ 48 + t.toNat * 2 ^ 16)) s)
/-- `BGEU` (09 R411). -/
def execBgeu (e : Fin 768) (a : BitVec 4) (b : BitVec 4) (t : BitVec 16) (s : State) : Res := .next (issueRow e.val (BitVec.ofNat 64 (7 * 2 ^ 60 + 6 * 2 ^ 56 + a.toNat * 2 ^ 52 + b.toNat * 2 ^ 48 + t.toNat * 2 ^ 16)) s)
/-- `BEQZ` (09 R411). -/
def execBeqz (e : Fin 768) (a : BitVec 4) (t : BitVec 16) (s : State) : Res := .next (issueRow e.val (BitVec.ofNat 64 (7 * 2 ^ 60 + 7 * 2 ^ 56 + a.toNat * 2 ^ 52 + t.toNat * 2 ^ 16)) s)
/-- `BNEZ` (09 R411). -/
def execBnez (e : Fin 768) (a : BitVec 4) (t : BitVec 16) (s : State) : Res := .next (issueRow e.val (BitVec.ofNat 64 (7 * 2 ^ 60 + 8 * 2 ^ 56 + a.toNat * 2 ^ 52 + t.toNat * 2 ^ 16)) s)
/-- `CALL` (09 R411). -/
def execCall (e : Fin 768) (l : BitVec 4) (t : BitVec 16) (s : State) : Res := .next (issueRow e.val (BitVec.ofNat 64 (7 * 2 ^ 60 + 9 * 2 ^ 56 + l.toNat * 2 ^ 44 + t.toNat * 2 ^ 16)) s)
/-- `JR` (09 R411). -/
def execJr (e : Fin 768) (a : BitVec 4) (s : State) : Res := .next (issueRow e.val (BitVec.ofNat 64 (7 * 2 ^ 60 + 10 * 2 ^ 56 + a.toNat * 2 ^ 52)) s)
/-- `SIMM_S` (09 R412). -/
def execSimmS (e : Fin 768) (i : BitVec 4) (imm : BitVec 32) (s : State) : Res := .next (issueRow e.val (BitVec.ofNat 64 (8 * 2 ^ 60 + 0 * 2 ^ 57 + i.toNat * 2 ^ 53 + imm.toNat)) s)
/-- `SIMM_M` (09 R412). -/
def execSimmM (e : Fin 768) (i : BitVec 4) (imm : BitVec 32) (s : State) : Res := .next (issueRow e.val (BitVec.ofNat 64 (8 * 2 ^ 60 + 1 * 2 ^ 57 + i.toNat * 2 ^ 53 + imm.toNat)) s)
/-- `SIMM_CP` (09 R412). -/
def execSimmCp (e : Fin 768) (i : BitVec 4) (imm : BitVec 32) (s : State) : Res := .next (issueRow e.val (BitVec.ofNat 64 (8 * 2 ^ 60 + 2 * 2 ^ 57 + i.toNat * 2 ^ 53 + imm.toNat)) s)
/-- `SIMM_P` (09 R412). -/
def execSimmP (e : Fin 768) (i : BitVec 4) (imm : BitVec 32) (s : State) : Res := .next (issueRow e.val (BitVec.ofNat 64 (8 * 2 ^ 60 + 3 * 2 ^ 57 + i.toNat * 2 ^ 53 + imm.toNat)) s)
/-- `VIMM` (09 R413). -/
def execVimm (e : Fin 768) (v : BitVec 5) (w : BitVec 2) (imm : BitVec 32) (s : State) : Res := .next (issueRow e.val (BitVec.ofNat 64 (9 * 2 ^ 60 + v.toNat * 2 ^ 55 + w.toNat * 2 ^ 53 + imm.toNat)) s)
/-- `WAIT` (08 R361). -/
def execWait (e : Fin 768) (s : State) : Res := .next (issueRow e.val (BitVec.ofNat 64 (10 * 2 ^ 60 + 1 * 2 ^ 52)) s)
/-- `RETI` (08 R368). -/
def execReti (e : Fin 768) (s : State) : Res := .next (issueRow e.val (BitVec.ofNat 64 (10 * 2 ^ 60 + 2 * 2 ^ 52)) s)
/-- `DRET` (08 R376). -/
def execDret (e : Fin 768) (s : State) : Res := .next (issueRow e.val (BitVec.ofNat 64 (10 * 2 ^ 60 + 3 * 2 ^ 52)) s)
/-- `BKPT` (09 R414). -/
def execBkpt (e : Fin 768) (s : State) : Res := .next (issueRow e.val (BitVec.ofNat 64 (10 * 2 ^ 60 + 4 * 2 ^ 52)) s)
/-- `BXCLR` (09 R414). -/
def execBxclr (e : Fin 768) (s : State) : Res := .next (issueRow e.val (BitVec.ofNat 64 (10 * 2 ^ 60 + 5 * 2 ^ 52)) s)
/-- `SIRQ` (09 R414). -/
def execSirq (e : Fin 768) (n : BitVec 4) (s : State) : Res := .next (issueRow e.val (BitVec.ofNat 64 (10 * 2 ^ 60 + 6 * 2 ^ 52 + n.toNat * 2 ^ 48)) s)
/-- `STOP` (09 R414). -/
def execStop (e : Fin 768) (s : State) : Res := .next (issueRow e.val (BitVec.ofNat 64 (10 * 2 ^ 60 + 7 * 2 ^ 52)) s)
/-- `ABS_SLD` (09 R415). -/
def execAbsSld (e : Fin 768) (y : Bool) (r : BitVec 4) (addr : BitVec 16) (s : State) : Res := .next (issueRow e.val (BitVec.ofNat 64 (11 * 2 ^ 60 + y.toNat * 2 ^ 59 + 0 * 2 ^ 56 + r.toNat * 2 ^ 51 + addr.toNat * 2 ^ 16)) s)
/-- `ABS_SST` (09 R415). -/
def execAbsSst (e : Fin 768) (y : Bool) (r : BitVec 4) (addr : BitVec 16) (s : State) : Res := .next (issueRow e.val (BitVec.ofNat 64 (11 * 2 ^ 60 + y.toNat * 2 ^ 59 + 1 * 2 ^ 56 + r.toNat * 2 ^ 51 + addr.toNat * 2 ^ 16)) s)
/-- `ABS_VLD` (09 R415). -/
def execAbsVld (e : Fin 768) (y : Bool) (v : BitVec 5) (addr : BitVec 16) (s : State) : Res := .next (issueRow e.val (BitVec.ofNat 64 (11 * 2 ^ 60 + y.toNat * 2 ^ 59 + 2 * 2 ^ 56 + v.toNat * 2 ^ 51 + addr.toNat * 2 ^ 16)) s)
/-- `ABS_VST` (09 R415). -/
def execAbsVst (e : Fin 768) (y : Bool) (v : BitVec 5) (addr : BitVec 16) (s : State) : Res := .next (issueRow e.val (BitVec.ofNat 64 (11 * 2 ^ 60 + y.toNat * 2 ^ 59 + 3 * 2 ^ 56 + v.toNat * 2 ^ 51 + addr.toNat * 2 ^ 16)) s)

end Sys2Proof.Machine
end

