-- ==== Sys2Proof/Machine/Firmware.lean ====
section
/-! DEFINITION. The firmware's protocols and services as commands: MCTP and SPDM (15 R651 to R660, R668), CAN FD (R649, R650, R667, R668), segment timeouts
(R656), the scheduler (R674 to R676), PPS (16 R687) and IDE-KM (11 R498). -/
namespace Sys2Proof.Machine

/-! ## MCTP object messages (15 R651 to R657) -/

/-- The requester of a message. -/
def mctpReq (m : Mctp) : Req := { path := if m.vdm then .vdm else .i3c, addr := m.eid, view := none }
/-- A message arrives: one that fails reassembly is discarded with event 0x1003 (the binding coded as the path of ACCESS_MAP), a fifth unanswered one is
answered at once, a malformed one is answered 0x0504_0001 (R653, R657). -/
def mctpIn (m : Mctp) (len : Nat) (go : State → State) (s : State) : State :=
  if !pathOpen s (mctpReq m) then unanswered s
  else if m.lost then logEv (unanswered s) 0x1003 sevWarn (pathCode (mctpReq m).path * 65536 + m.eid.toNat)
  else if m.waiting = 4 then answer s abCap
  else if m.vendor.toNat ≠ oGet s O_MCTP_VENDOR_IANA ∨ m.unused ≠ 0#64 ∨ 4076 < len then answer s abCmd
  else go s

/-- The response to a request of command `cmd` that the device has answered, with `n` bytes of data (15 R653). -/
def mctpResponse (m : Mctp) (cmd n : Nat) (a : Answer) : List Byte :=
  [0x7F#8] ++ beBytes 4 m.vendor.toNat ++ [BitVec.ofNat 8 (cmd + 0x80), m.tag, 0#8] ++ leBytes 4 a.abort.toNat ++ leBytes 4 a.total ++ leBytes n a.value
/-- An answer leaves as a response message; a read that succeeded carries the bytes that the value has from its offset. -/
def mctpSend (m : Mctp) (cmd off len : Nat) (s : State) : State :=
  if s.ans.answered then
    setFw s { s.fw with mctpOut := mctpResponse m cmd (if cmd = 1 ∧ s.ans.abort = 0#32 then min len (s.ans.total - off) else 0) s.ans }
  else s
/-- `MCTP_OBJECT_READ` (15 R652, R653). -/
def execMctpObjectRead (m : Mctp) (index : BitVec 16) (sub : BitVec 8) (offset : BitVec 32) (len : BitVec 16) (s : State) : Res :=
  .next (mctpSend m 1 offset.toNat len.toNat (mctpIn m len.toNat (segRead (mctpReq m) index.toNat sub.toNat offset.toNat len.toNat) s))
/-- The response to a write that succeeded gives the present length of the whole value (15 R653, 17 R719). -/
def writtenTotal (r : Req) (ix sub : Nat) (s : State) : State :=
  match devKey r ix sub with
  | some (_, k) => if s.ans.answered && s.ans.abort == 0#32 then { s with ans := { s.ans with total := objLen s k } } else s
  | none => s
/-- `MCTP_OBJECT_WRITE` (15 R652, R654). -/
def execMctpObjectWrite (m : Mctp) (index : BitVec 16) (sub : BitVec 8) (offset : BitVec 32) (last : Bool) (data : List (BitVec 8)) (s : State) : Res :=
  .next (mctpSend m 2 0 0 (mctpIn m data.length (fun s =>
    writtenTotal (mctpReq m) index.toNat sub.toNat (segWrite (mctpReq m) index.toNat sub.toNat offset.toNat last data s)) s))

/-! ## The MCTP event producer (15 R668): reader 18; a batch is outstanding while `mctpSent` lies after the reader's position -/

/-- Position of the producer. -/
def pushPos (s : State) : Nat := tabGet s.fw.pos 18 0
/-- A batch is outstanding. -/
def pushOpen (s : State) : Bool := pushPos s < s.fw.mctpSent
/-- Sequence numbers held at or after a position, oldest first. -/
def heldFrom18 (s : State) : List Nat := ((s.fw.ring.map (·.1)).filter fun q => pushPos s ≤ q).reverse
/-- The producer's message: the records from its position up to `upTo`; bytes 6, 7, 14 and 15, which the spec does not name, are free values. -/
def pushMessage (s : State) (upTo : Nat) : List Byte :=
  let rs := ((s.fw.ring.filter fun x => pushPos s ≤ x.1 && x.1 < upTo).reverse).take 16
  [0x7F#8] ++ beBytes 4 (oGet s O_MCTP_VENDOR_IANA) ++ [3#8, Config.free 8 s.freeCtr, Config.free 8 (s.freeCtr + 1)]
    ++ leBytes 4 ((rs.map (·.1)).headD 0) ++ leBytes 2 rs.length ++ [Config.free 8 (s.freeCtr + 2), Config.free 8 (s.freeCtr + 3)]
    ++ rs.flatMap fun x => leBytes 16 (recNat x.2)
/-- The records up to `upTo` are sent, again or for the first time. -/
def pushSend (s : State) (upTo tries : Nat) : State :=
  freeStep (setFw s { s.fw with mctpSent := upTo, mctpTries := tries, mctpEvent := pushMessage s upTo })
/-- The producer sends its first records, at most 16, once nothing is outstanding. -/
def pushFirst (s : State) : State :=
  if oGet s O_EVT_MCTP_EID = 0 || pushOpen s || !fwRuns s then s
  else match ((heldFrom18 s).take 16).getLast? with
    | some q => pushSend s (q + 1) 0
    | none => s
/-- `MCTP_EVENT_ACK` (15 R668): the recipient names the last sequence it accepted. -/
def execMctpEventAck (m : Mctp) (seq : BitVec 32) (s : State) : Res :=
  .next (mctpIn m 0 (fun s =>
    let q := pushPos s + (seq.toNat + 2 ^ 32 - pushPos s % 2 ^ 32) % 2 ^ 32
    if m.eid.toNat = oGet s O_EVT_MCTP_EID && pushOpen s && q < s.fw.mctpSent then
      setFw s { s.fw with pos := tabPut s.fw.pos 18 (q + 1), mctpTries := 0 } else s) s)
/-- `EVENT_PUSH_RETRY` (15 R668): 10 ms without an acknowledge; after three more attempts the producer moves past the batch and counts it as lost. -/
def execEventPushRetry (s : State) : Res :=
  .next (if fwRuns s && pushOpen s && oGet s O_EVT_MCTP_EID != 0 then
    if s.fw.mctpTries < 3 then pushSend s s.fw.mctpSent (s.fw.mctpTries + 1)
    else
      let n := ((heldFrom18 s).filter fun q => q < s.fw.mctpSent).length
      setFw s { s.fw with
        pos := tabPut s.fw.pos 18 s.fw.mctpSent, mctpTries := 0
        lost := tabPut s.fw.lost 18 (satAdd (tabGet s.fw.lost 18 0) n 0xFFFFFF) }
  else s)

/-! ## MCTP control commands (15 R651) -/

/-- The binding is open. -/
def bindingOpen (s : State) (vdm : Bool) : Bool := pathOpen s { path := if vdm then .vdm else .i3c, addr := 0#8, view := none }
/-- A message's answer: response code, value, length. -/
def reply (s : State) (resp val len : Nat) : State := { s with ans := { answered := true, abort := 0#32, value := val, total := len, resp := resp } }
/-- Answer on an open binding. -/
def onBinding (vdm : Bool) (go : State → State) (s : State) : State := if bindingOpen s vdm then go s else unanswered s
/-- `SET_ENDPOINT_ID`: the EIDs 0x00 and 0xFF are no endpoint's (log entry 27). -/
def execSetEndpointId (vdm : Bool) (eid : BitVec 8) (s : State) : Res :=
  .next (onBinding vdm (fun s =>
    if eid = 0#8 ∨ eid = 0xFF#8 then reply s 2 0 0 else reply (oSet s O_MCTP_EID eid.toNat) 0 eid.toNat 1) s)
/-- `GET_ENDPOINT_ID`. -/
def execGetEndpointId (vdm : Bool) (s : State) : Res := .next (onBinding vdm (fun s => reply s 0 (oGet s O_MCTP_EID) 1) s)
/-- `GET_MCTP_VERSION_SUPPORT`: the versions are DSP0236's, a free value. -/
def execGetMctpVersionSupport (vdm : Bool) (s : State) : Res :=
  .next (onBinding vdm (fun s => freeStep (reply s 0 (Config.freeNat s.freeCtr) 5)) s)
/-- `GET_MESSAGE_TYPE_SUPPORT`: 0x00, 0x05 and 0x7F. -/
def execGetMessageTypeSupport (vdm : Bool) (s : State) : Res :=
  .next (onBinding vdm (fun s => reply s 0 0x7F050003 4) s)

/-! ## SPDM responder (15 R660). What the spec leaves to SPDM 1.2 itself is presumed (log entry 28). -/

/-- The responder is reached: by an MCTP binding, or by DOE on a CXL port whose link is up. -/
def viaOpen (s : State) (v : Via) : Bool :=
  match v with
  | .i3c => bindingOpen s false
  | .vdm => bindingOpen s true
  | .doe p => fwRuns s && s.hub.cxlUp.getLsbD p.val
/-- SPDM error codes. -/
abbrev spInvalid : Nat := 1
abbrev spUnexpected : Nat := 4
abbrev spUnspecified : Nat := 5
abbrev spDecrypt : Nat := 6
/-- Set the responder. -/
def setSpdm (s : State) (x : Spdm) : State := setFw s { s.fw with spdm := x }
/-- A request at least at stage `n` of the connection. -/
def spdm (v : Via) (n : Nat) (go : State → State) (s : State) : State :=
  if !viaOpen s v then unanswered s
  else if s.fw.spdm.stage < n then reply s spUnexpected 0 0
  else go s
/-- A request about slot `k` that needs the identity key. -/
def spdmKey (v : Via) (k : BitVec 8) (go : State → State) (s : State) : State :=
  spdm v 3 (fun s => if k ≠ 0#8 then reply s spInvalid 0 0 else if s.fw.idKey.isNone then reply s spUnspecified 0 0 else go s) s

/-- `GET_VERSION`: 1.2; the connection starts anew. -/
def execGetVersion (v : Via) (s : State) : Res := .next (spdm v 0 (fun s => reply (setSpdm s { stage := 1 }) 0 0x12 1) s)
/-- `GET_CAPABILITIES`: their bits are a free value. -/
def execGetCapabilities (v : Via) (s : State) : Res :=
  .next (spdm v 1 (fun s => freeStep (reply (setSpdm s { s.fw.spdm with stage := max 2 s.fw.spdm.stage }) 0 (Config.freeNat s.freeCtr) 4)) s)
/-- `NEGOTIATE_ALGORITHMS`: `ok` tells that the request offers the algorithms of R660. -/
def execNegotiateAlgorithms (v : Via) (ok : Bool) (s : State) : Res :=
  .next (spdm v 2 (fun s => if ok then reply (setSpdm s { s.fw.spdm with stage := 3 }) 0 0 0 else reply s spInvalid 0 0) s)
/-- The bytes of the certificate chain. -/
def chainBytes (s : State) : List Byte := leBytes (certChain s).1 (certChain s).2
/-- `GET_DIGESTS`: SHA-384 of the chain of slot 0. -/
def execGetDigests (v : Via) (s : State) : Res :=
  .next (spdm v 3 (fun s => reply s 0 (leNat (beBytes 48 (Config.shaEnd (Config.shaStep 0#1024 (chainBytes s))).toNat)) 48) s)
/-- `GET_CERTIFICATE`: a portion of ID_CERT_CHAIN. -/
def execGetCertificate (v : Via) (slot : BitVec 8) (offset len : BitVec 16) (s : State) : Res :=
  .next (spdm v 3 (fun s =>
    let l := ((chainBytes s).drop offset.toNat).take len.toNat
    if slot ≠ 0#8 ∨ (certChain s).1 ≤ offset.toNat then reply s spInvalid 0 0 else reply s 0 (leNat l) l.length) s)
/-- `CHALLENGE`: the signature is a free value. -/
def execChallenge (v : Via) (slot : BitVec 8) (s : State) : Res :=
  .next (spdmKey v slot (fun s => freeStep (reply s 0 (Config.freeNat s.freeCtr) 96)) s)
/-- `GET_MEASUREMENTS`: block 1 FW_VERSION, 2 STREAM_DIGEST, 3 MONITOR_VERSION; 0 the number of blocks, 0xFF all. -/
def execGetMeasurements (v : Via) (block : BitVec 8) (s : State) : Res :=
  let fwv := Config.fwVersion % 2 ^ 32
  let mon := Config.monitorVersion % 2 ^ 32
  .next (spdm v 3 (fun s =>
    let dig := leNat (beBytes 48 s.ld.digest.toNat)
    match block.toNat with
    | 0 => reply s 0 3 1
    | 1 => reply s 0 fwv 4
    | 2 => reply s 0 dig 48
    | 3 => reply s 0 mon 4
    | 0xFF => reply s 0 (fwv + 2 ^ 32 * dig + 2 ^ 416 * mon) 56
    | _ => reply s spInvalid 0 0) s)
/-- `KEY_EXCHANGE`: a session begins its handshake. -/
def execKeyExchange (v : Via) (slot : BitVec 8) (s : State) : Res :=
  .next (spdmKey v slot (fun s => freeStep (reply (setSpdm s { s.fw.spdm with session := 1, updates := 0 }) 0 (Config.freeNat s.freeCtr) 96)) s)
/-- `FINISH`: `ok` tells that the requester's verification data are right. -/
def execFinish (v : Via) (ok : Bool) (s : State) : Res :=
  .next (spdm v 3 (fun s =>
    if s.fw.spdm.session ≠ 1 then reply s spUnexpected 0 0
    else if ok then reply (setSpdm s { s.fw.spdm with session := 2 }) 0 0 0
    else reply (setSpdm s { s.fw.spdm with session := 0 }) spDecrypt 0 0) s)
/-- A request inside the established session. -/
def inSession (v : Via) (go : State → State) (s : State) : State :=
  spdm v 3 (fun s => if s.fw.spdm.session = 2 then go s else reply s spUnexpected 0 0) s
/-- `END_SESSION`. -/
def execEndSession (v : Via) (s : State) : Res :=
  .next (inSession v (fun s => reply (setSpdm s { s.fw.spdm with session := 0, updates := 0 }) 0 0 0) s)
/-- `KEY_UPDATE`. -/
def execKeyUpdate (v : Via) (s : State) : Res :=
  .next (inSession v (fun s => reply (setSpdm s { s.fw.spdm with updates := s.fw.spdm.updates + 1 }) 0 0 0) s)
/-- `IDE_KM` (11 R498; 15 R660): inside a session over DOE of the port the host programs new keys of the link stream or of the cachemem stream, which leaves the
insecure state. -/
def execIdeKm (port : Fin 4) (link : Bool) (s : State) : Res :=
  .next (inSession (.doe port) (fun s =>
    let x := cxl s port.val
    reply (setCxl s port.val (if link then { x with ideLink := true } else { x with ideMem := true, insecure := false })) 0 0 0) s)

/-! ## CAN FD (15 R649, R650, R667, R668) -/

/-- The requester of a USDO session. -/
def canReq (node : BitVec 8) : Req := { path := .can, addr := node, view := none }
/-- The node has a session open on another object (15 R657). -/
def usdoOpen (s : State) (node : BitVec 8) (k : Option Nat) : Bool :=
  s.fw.xfers.any fun x => x.2.r.path == .can && x.2.r.addr == node && some x.1 != k
/-- A USDO request: one session per client. -/
def usdo (node : BitVec 8) (ix sub : Nat) (go : State → State) (s : State) : State :=
  let r := canReq node
  if !pathOpen s r then unanswered s
  else if usdoOpen s node ((devKey r ix sub).map (·.2)) then answer s abState else go s
/-- `USDO_DOWNLOAD` (15 R649, R654): expedited in one segment, or segmented. -/
def execUsdoDownload (node : BitVec 8) (index : BitVec 16) (sub : BitVec 8) (offset : BitVec 32) (last : Bool) (data : List (BitVec 8)) (s : State) : Res :=
  .next (usdo node index.toNat sub.toNat (segWrite (canReq node) index.toNat sub.toNat offset.toNat last data) s)
/-- `USDO_UPLOAD` (15 R649). -/
def execUsdoUpload (node : BitVec 8) (index : BitVec 16) (sub : BitVec 8) (s : State) : Res :=
  .next (usdo node index.toNat sub.toNat (readObj (canReq node) index.toNat sub.toNat) s)

/-- `NMT_RESET_COMMUNICATION` (15 R649): the controller restarts with the settings it had; open sessions end. -/
def execNmtResetCommunication (s : State) : Res :=
  .next (if canOn s then
    oSet (setFw s { s.fw with xfers := s.fw.xfers.filter (fun x => x.2.r.path != .can), canRestarts := s.fw.canRestarts + 1 }) O_CAN_STATUS 0 else s)
/-- `CAN_HEARTBEAT_TICK` (15 R649, R679). -/
def execCanHeartbeatTick (s : State) : Res :=
  .next (if canOn s && oGet s O_HEARTBEAT_TIME != 0 then setFw s { s.fw with heartbeats := s.fw.heartbeats + 1 } else s)

/-- The oldest record that the EMCY producer has to send. -/
def nextEmcy (s : State) : Option (Nat × EventRec) :=
  s.fw.ring.foldl (fun a x => if tabGet s.fw.pos 17 0 ≤ x.1 ∧ oGet s O_EVT_CAN_MIN_SEV ≤ x.2.sev.toNat then some x else a) none
/-- The inhibit time has passed since the last message. -/
def emcyFree (s : State) : Bool :=
  match s.fw.emcyAt with | some t => t + oGet s O_EMCY_INHIBIT * 100000 ≤ s.fw.dtime | none => true
/-- `EMCY_SEND` (15 R668). -/
def execEmcySend (s : State) : Res :=
  .next (if canOn s && emcyFree s then
    match nextEmcy s with
    | some (q, e) => setFw s { s.fw with
        pos := tabPut s.fw.pos 17 (q + 1), emcy := some e, emcyCode := 0xFF00 + e.sev.toNat, emcyReg := errorRegister s
        emcyAt := some s.fw.dtime, pushed := s.fw.pushed + 1 }
    | none => s
  else s)

/-- `CAN_BUS_OFF` (15 R650): the transmit error count at entry. -/
def execCanBusOff (tec : BitVec 16) (s : State) : Res :=
  .next (if canOn s then logEv (oSet s O_CAN_STATUS 2) 0x1001 sevErr tec.toNat else s)
/-- `CAN_ERROR_PASSIVE` (15 R650). -/
def execCanErrorPassive (rec tec : BitVec 8) (s : State) : Res :=
  .next (if canOn s then logEv (oSet s O_CAN_STATUS 1) 0x1002 sevWarn (rec.toNat * 256 + tec.toNat) else s)
/-- `CAN_BUS_OFF_RECOVERY` (15 R650): the controller rejoins error-active. -/
def execCanBusOffRecovery (s : State) : Res :=
  .next (if fwRuns s && canPins s && oGet s O_CAN_STATUS == 2 then oSet s O_CAN_STATUS 0 else s)

/-! ## UART (16 R687) -/

/-- A hexadecimal digit's character. -/
def hexChar (d : Nat) : Byte := BitVec.ofNat 8 (if d < 10 then 0x30 + d else (if Config.uartUpper then 0x37 else 0x57) + d)
/-- The line of a record: its 32 hexadecimal digits, CR, LF. -/
def uartLine (e : EventRec) : List Byte :=
  let ds := (List.range 32).map fun k => hexChar (recNat e / 16 ^ k % 16)
  (if Config.uartHigh then ds.reverse else ds) ++ [0x0D#8, 0x0A#8]
/-- A UART pin carries its function. -/
def uartOn (s : State) : Bool := fwRuns s && ((mioFunc s 4 == 4 && !pinFloats s 4) || (mioFunc s 36 == 4 && !pinFloats s 36))
/-- The firmware transmits the next record. -/
def uartTick (s : State) : State :=
  if uartOn s then
    match nextRec s.fw.ring 16 (tabGet s.fw.pos 19 0) with
    | some x => setFw s { s.fw with pos := tabPut s.fw.pos 19 (x.1 + 1), uart := uartLine x.2 }
    | none => s
  else s

/-! ## Segments, scheduler, PPS -/

/-- `SEGMENT_TIMEOUT` (15 R656): the object keeps its value. -/
def execSegmentTimeout (index : BitVec 16) (sub : BitVec 8) (s : State) : Res :=
  .next (match devKey internalReq index.toNat sub.toNat with
    | some (_, k) =>
      if fwRuns s && (tabFind s.fw.xfers k).isSome then answer (setFw s { s.fw with xfers := tabDel s.fw.xfers k }) abTimeout else s
    | none => s)

/-- The entry once its action has started (15 R674): a one-shot entry clears VALID, a periodic one moves past the present DTIME. -/
def schedAfter (s : State) (i : Nat) : State :=
  let x := schedEntry s i
  let p := schedPeriod x
  let t := schedTime x
  let next := if p = 0 then x - 2 ^ 192 else x - t + (t + p * (if t ≤ s.fw.dtime then (s.fw.dtime - t) / p + 1 else 1)) % 2 ^ 64
  let s1 := oSet s (O_SCHED_ENTRY i) next
  setFw s1 { s1.fw with late := setBit s1.fw.late i false }
/-- The action of entry `i`: an OWNER write; one that is aborted logs event 0x2F04 (15 R672, R676). -/
def schedRun (s : State) (i : Nat) : State :=
  let x := schedEntry s i
  let len := bitsAt x 120 8
  let ix := bitsAt x 96 16
  let sub := bitsAt x 112 8
  let val := bitsAt x 128 (8 * len)
  let s1 := schedAfter s i
  let c := writeInCode s1 ix sub len val
  if c = 0#32 then writeIn s1 ix sub len val
  else logEv (writeIn s1 ix sub len val) 0x2F04 sevErr (i * 65536 + abortShort c)
/-- Lateness of an entry in ns. -/
def lateness (s : State) (i : Nat) : Nat := s.fw.dtime - schedTime (schedEntry s i)
/-- An entry is due: no entry below it that is due and waits. -/
def schedDue (s : State) (i : Nat) : Bool :=
  let x := schedEntry s i
  schedValid x && !s.fw.late.getLsbD i && decide (schedTime x ≤ s.fw.dtime)
/-- `SCHED_DUE` (15 R674): actions that fall due together run in ascending entry order. -/
def execSchedDue (e : Fin 32) (s : State) : Res :=
  let x := schedEntry s e.val
  let before := (List.range e.val).any fun j => schedDue s j && schedTime (schedEntry s j) == schedTime x
  .next (if fwRuns s && schedDue s e.val && !before then schedRun s e.val else s)
/-- `SCHED_LATE_ENTRY` (15 R675). -/
def execSchedLateEntry (e : Fin 32) (s : State) : Res :=
  let i := e.val
  let data := i * 65536 + min (lateness s i / 1000000) 0xFFFF
  .next (if fwRuns s && s.fw.late.getLsbD i && schedValid (schedEntry s i) then
    if schedSkip (schedEntry s i) then schedAfter (logEv s 0x2F03 sevWarn data) i
    else schedRun (logEv (oSet s (O_SCHED_LATENESS i) (lateness s i)) 0x2F02 sevWarn data) i
  else s)

/-- `PPS_PULSE` (16 R687): DTIME has reached a multiple of 1 s. -/
def execPpsPulse (s : State) : Res :=
  .next (if mioApplied s && s.clk.locked then setFw s { s.fw with pps := some (s.fw.dtime / 10 ^ 9 * 10 ^ 9) } else s)

end Sys2Proof.Machine
end

