-- ==== Sys2Proof/Machine/Goith.lean ====
section
/-! DEFINITION. The Goith port: line, acknowledge, the four access classes, the monitor exchange (17 R704 to R727, R730), and the test access port
(17 R731, R732). Every row that reads or writes a register of the port is one access `goith` of that register. -/
namespace Sys2Proof.Machine

/-! ## Authority and acknowledge (17 R708, R711, R713, R726) -/

/-- The port gives no acknowledge: OFF, a thermal trip, effective reset, a STANDBY that is not emulated (17 R711). -/
def portSilent (s : State) : Bool :=
  !s.pwr.vaux || s.pwr.tripped || s.pwr.effReset || s.rst.standby == .asleep || s.rst.standby == .waking
/-- An error bit is set. -/
def portError (s : State) : Bool := s.dbg.wdParity || s.dbg.accessErr || s.dbg.denied
/-- The access ends with acknowledge `a`. -/
def ackWith (s : State) (a : GAck) : State := setDbg s { s.dbg with ack := a }
/-- An access that is refused or does not end OK: ACCESSERR, answered FAULT. -/
def accFault (s : State) : State := setDbg s { s.dbg with ack := .fault, accessErr := true }
/-- An access that needs authority which the port lacks. -/
def accDenied (s : State) : State := setDbg s { s.dbg with ack := .fault, denied := true }
/-- A read that ends OK with its data. -/
def accData (s : State) (v : BitVec 32) : State := setDbg s { s.dbg with ack := .ok, rdata := v }
/-- A response that is not OK: LAST_RESP takes it. -/
def accResp (s : State) (resp : Nat) : State := accFault (setDbg s { s.dbg with lastResp := BitVec.ofNat 4 resp })

/-- An operation of the class is in flight: every access of the class is answered WAIT (17 R718 to R720). -/
def classBusy (s : State) (cls : Nat) : Bool :=
  match cls with
  | 1 => s.dbg.memOp.isSome
  | 2 => s.dbg.tunOp.isSome
  | 3 => s.dbg.rbWait.isSome
  | _ => false
/-- A token or the life cycle opens the port, to the whole device or to a tenant's resources. -/
def anyAuth (s : State) : Bool := wideAuth s || (tokenTenant s).isSome
/-- The authority a register needs beyond what its own access checks (17 R726, R727). -/
def regAuth (s : State) (cls rs : Nat) : Bool :=
  match cls with
  | 0 => rs < 3 || rs == 7 || anyAuth s
  | 2 => true
  | _ => anyAuth s
/-- A partition or an engine is within the port's authority (17 R726), by the ownership of this moment. -/
def partAllowed (s : State) (p : Nat) : Bool := match tokenTenant s with | some n => partOwner s p == n | none => true
def engAllowed (s : State) (e : Nat) : Bool := match tokenTenant s with | some n => engOwner s e == n | none => true

/-! ## Class 1: debug registers (17 R712 to R716) -/

/-- PORT_STATE (17 R713). -/
def portStateValue (s : State) : BitVec 32 :=
  let auth := if openByLife s then 1 else if deviceToken s then 2 else if (tokenTenant s).isSome then 3 else 0
  BitVec.ofNat 32 ((bit01 s.dbg.attached) * 2 ^ 31 + s.rst.lc.toNat * 2 ^ 28 + (tokenTenant s).getD 0 * 2 ^ 20 + auth * 2 ^ 18
    + s.dbg.lastResp.toNat * 2 ^ 8 + bit01 (classBusy s 1 || classBusy s 2 || classBusy s 3) * 2 ^ 7
    + bit01 s.dbg.wdParity * 4 + bit01 s.dbg.accessErr * 2 + bit01 s.dbg.denied)

/-- ATTACH (17 R723): ignored without device-wide authority. -/
def portAttach (s : State) : State :=
  if !wideAuth s then accDenied s
  else if s.dbg.attached then s
  else logEv (setDbg s { s.dbg with attached := true }) 0x2E04 sevInfo 1

/-- ENG_SEL (17 R714, R715). -/
def engSelect (s : State) (v : BitVec 32) : State :=
  if 767 < fld v 16 10 ∨ fld v 0 2 ≠ 0 then accFault s else setDbg s { s.dbg with engSel := v &&& 0x83FF0FFF#32 }
/-- An access to ENG_DATA (17 R715): the engine hub answers GATED, an engine under reset TENANT_RESET, the window by 08 R359. -/
def engData (s : State) (rnw : Bool) (v : BitVec 32) : State :=
  let e := fld s.dbg.engSel 16 10
  let o := fld s.dbg.engSel 0 12
  let line := 0x300000 + o / 64 * 64
  let be := 15 * 2 ^ (o % 64)
  if !engAllowed s e then accDenied s
  else
    let r : State × Nat × BitVec 512 :=
      if entering s then (s, rGated, 0#512)
      else if engGated s e then (if enabled s (unHub (e / 96)) then s else answerGated s (unHub (e / 96)), rGated, 0#512)
      else if engRefuses s e then (s, rTenantReset, 0#512)
      else if rnw then winRead s e line be
      else let w := winWrite s e line be (BitVec.ofNat 512 (v.toNat * 2 ^ (8 * (o % 64)))); (w.1, w.2, 0#512)
    if r.2.1 ≠ rOk then accResp r.1 r.2.1
    else
      let d := r.1.dbg
      let s1 := if d.engSel.getLsbD 31 then setDbg r.1 { d with engSel := maskMerge d.engSel (d.engSel + 4#32) 0xFFF#32 } else r.1
      if rnw then accData s1 (BitVec.ofNat 32 (fld r.2.2 (8 * (o % 64)) 32)) else s1

/-- The requester of the port, and a run of `go` in its DEBUG role. -/
def goithReq : Req := { path := .goith, addr := 0#8, view := none }
def asDebug (go : State → State) (s : State) : State :=
  let t := go (setDbg s { s.dbg with tunOwner := false })
  setDbg t { t.dbg with tunOwner := s.dbg.tunOwner }
/-- An access to PRB_DATA (17 R716): PROBE_SEL or PROBE_ROUTE of the channel, whose tap lies within the port's authority. -/
def prbData (s : State) (rnw : Bool) (v : BitVec 32) : State :=
  let ch := fld s.dbg.prbSel 16 6
  let ix := if s.dbg.prbSel.getLsbD 8 then 0x2511 else 0x2510
  if !partAllowed s (tapPart ch (oGet s (O_PROBE_SEL ch) % 4096)) then accDenied s
  else
    let t := asDebug (fun s => if rnw then readObj goithReq ix (ch + 1) s else writeObj goithReq ix (ch + 1) 2 (v.toNat % 65536) s) s
    if t.ans.abort ≠ 0#32 then accFault t else if rnw then accData t (BitVec.ofNat 32 t.ans.value) else t

/-! ## Class 2: memory (17 R717, R718) -/

/-- MEM_ADDR_HI as it reads: under a tenant token AS_TENANT and TENANT are set to its tenant (17 R726). -/
def memHiNow (s : State) : BitVec 32 :=
  match tokenTenant s with
  | some n => maskMerge s.dbg.memHi (BitVec.ofNat 32 (2 ^ 24 + n * 2 ^ 20)) 0x1F00000#32
  | none => s.dbg.memHi
/-- The address. -/
def memAddr (s : State) : Nat := fld (memHiNow s) 0 20 * 2 ^ 32 + s.dbg.memLo.toNat
/-- The initiator of the port's requests: on its own account, or as a tenant. -/
def memInit (s : State) : Init := if (memHiNow s).getLsbD 24 then .dbg (some (Fin.ofNat 16 (fld (memHiNow s) 20 4))) else .dbg none
/-- The line buffer as a line. -/
def memLineBuf (d : Debug) : BitVec 512 := BitVec.ofNat 512 (packLanes 32 ((List.range 16).map fun k => (tabGet d.memBuf k 0#32).toNat))
/-- Byte enables of the enabled words. -/
def memWords (mask : BitVec 16) : Nat := packLanes 4 ((List.range 16).map fun k => if mask.getLsbD k then 15 else 0)
/-- Command and byte enables of an operation. -/
def memShape (s : State) (op : GMemOp) : Nat × Nat :=
  let w := memAddr s / 4 % 16
  match op with
  | .readLine _ => (1, 2 ^ 64 - 1)
  | .writeLine _ => if s.dbg.memMask = 0xFFFF#16 then (0x10, 2 ^ 64 - 1) else (0x11, memWords s.dbg.memMask)
  | .readWord _ => (2, 15 * 16 ^ w)
  | .writeBytes _ lanes => (0x11, lanes.toNat * 16 ^ w)
/-- Key of the port's transaction. -/
def memKey (s : State) : Nat := gatePort * 65536 + s.dbg.memTxn.toNat
/-- Issue the request of an operation in flight; while its transaction ID or every tracker of the gateway is in use it waits. -/
def memIssue (s : State) (op : GMemOp) : State :=
  let c := memShape s op
  let h : Hdr := { init := memInit s, txn := s.dbg.memTxn.toNat, cmd := c.1, addr := memAddr s / 64 * 64, be := BitVec.ofNat 64 c.2
                   len := if cmdReads c.1 then 0 else 1, aux := 0#64, tag := 0, hint := 0, wbase := 0 }
  if (tabFind s.vent.txs (memKey s)).isSome then s
  else
    let s1 := if entering s then noInject s h rGated else inject s h {} 0
    match tabFind s1.vent.txs (memKey s) with
    | some t => if t.phase == .pull then putTx s1 (memKey s) { t with data := [memLineBuf s.dbg] } else s1
    | none => s1
/-- Is the transaction one of the port's? -/
def isPort (i : Init) : Bool := match i with | .dbg _ => true | _ => false
/-- A word operation at an address that is no multiple of 4 issues nothing. -/
def memBad (s : State) (op : GMemOp) : Bool :=
  match op with
  | .readWord _ | .writeBytes _ _ => memAddr s % 4 != 0
  | _ => false
/-- A write of MEM_CMD with a valid OP. -/
def memStart (s : State) (op : GMemOp) : State :=
  if memBad s op then accFault s
  else memIssue (setDbg s { s.dbg with memOp := some op, memTxn := s.dbg.memTxn + 1#16 }) op
/-- MEM_CMD. -/
def memCmd (s : State) (v : BitVec 32) : State :=
  let adv := v.getLsbD 12
  match fld v 0 8 with
  | 1 => memStart s (.readLine adv)
  | 2 => memStart s (.writeLine adv)
  | 3 => memStart s (.readWord adv)
  | 4 => memStart s (.writeBytes adv (BitVec.ofNat 4 (fld v 8 4)))
  | _ => accFault s
/-- The data of the port's write reach their target. -/
def memPush (s : State) : State :=
  match tabFind s.vent.txs (memKey s) with
  | some t => if isPort t.init && t.phase == .pull && !t.lost && inOrder s (memKey s) t then writeAt s (memKey s) t t.data false 0 else s
  | none => s
/-- The address after an operation with ADV. -/
def memNext (d : Debug) (n : Nat) : Debug :=
  let a := fld d.memHi 0 20 * 2 ^ 32 + d.memLo.toNat + n
  { d with memLo := BitVec.ofNat 32 a, memHi := maskMerge d.memHi (BitVec.ofNat 32 (a / 2 ^ 32)) 0xFFFFF#32 }
/-- The buffer and the address after an operation that has ended OK with line `x`. -/
def memTake (s : State) (op : GMemOp) (x : BitVec 512) : Debug :=
  let d := s.dbg
  let w := memAddr s / 4 % 16
  let word (k : Nat) : BitVec 32 := BitVec.ofNat 32 (fld x (32 * k) 32)
  match op with
  | .readLine adv =>
    let d1 := { d with memBuf := (List.range 16).foldl (fun t k => tabPut t k (word k)) d.memBuf }
    if adv then memNext d1 64 else d1
  | .writeLine adv => if adv then memNext d 64 else d
  | .readWord adv =>
    let d1 := { d with memBuf := tabPut d.memBuf w (word w) }
    if adv then memNext d1 4 else d1
  | .writeBytes adv _ => if adv then memNext d 4 else d
/-- The operation's response has arrived. -/
def memEnd (s : State) (op : GMemOp) (t : Tx) : State :=
  let s1 := dropTx s (memKey s)
  let d := if t.resp = rOk then memTake s op (t.data.headD 0#512) else { s.dbg with accessErr := true, lastResp := BitVec.ofNat 4 t.resp }
  setDbg s1 { d with memOp := none, memResp := BitVec.ofNat 4 t.resp }
/-- Answered requests whose result has been discarded leave. -/
def memDrop (s : State) : State :=
  setVent s { s.vent with txs := s.vent.txs.filter fun x =>
    !(isPort x.2.init && x.2.phase == .rsp && !(s.dbg.memOp.isSome && x.1 == memKey s)) }
/-- The operation in flight goes on: it is issued if it waited, its data reach the target, and once it is answered it completes. -/
def memDone (s : State) : State :=
  match s.dbg.memOp with
  | none => memDrop s
  | some op =>
    let s1 := memPush (memIssue (memDrop s) op)
    match tabFind s1.vent.txs (memKey s1) with
    | some t => if isPort t.init && t.phase == .rsp && !t.lost && inOrder s1 (memKey s1) t then memEnd s1 op t else s1
    | none => s1

/-! ## Class 3: object tunnel (17 R719, R727) -/

/-- Bytes of the tunnel's buffer. -/
def tunBytes (d : Debug) (n : Nat) : List Byte := (List.range n).map fun k => tabGet d.tunBuf k 0#8
/-- The 4 bytes at the buffer's pointer. -/
def tunWord (d : Debug) : BitVec 32 :=
  BitVec.ofNat 32 (leNat ((List.range 4).map fun k => tabGet d.tunBuf ((d.tunPtr.toNat + k) % 4096) 0#8))
/-- Put them. -/
def tunPut (d : Debug) (v : BitVec 32) : Debug :=
  { d with tunBuf := (List.range 4).foldl (fun t k => tabPut t ((d.tunPtr.toNat + k) % 4096) (BitVec.ofNat 8 (fld v (8 * k) 8))) d.tunBuf
           tunPtr := d.tunPtr + 4#12 }
/-- The object access of a command (17 R719, R727): the OWNER role is granted by life cycle or with a device token. -/
def tunRun (s : State) (write : Bool) : State :=
  let d := s.dbg
  let ix := fld d.tunObj 16 16
  let sub := fld d.tunObj 8 8
  let len := fld d.tunLen 0 13
  if d.tunOwner && !wideAuth s then answer s abRole
  else if 4096 < len then answer s abCmd
  else if write then writtenTotal goithReq ix sub (segWrite goithReq ix sub d.tunOffset.toNat (d.tunLen.getLsbD 31) (tunBytes d len) s)
  else segRead goithReq ix sub d.tunOffset.toNat len s
/-- A command completes. -/
def tunDone (s : State) : State :=
  match s.dbg.tunOp with
  | none => s
  | some write =>
    if !fwRuns s then s
    else
      let t := tunRun s write
      let ok := t.ans.abort == 0#32
      let n := if write || !ok then 0 else min (fld s.dbg.tunLen 0 13) (t.ans.total - s.dbg.tunOffset.toNat)
      setDbg t { t.dbg with
        tunOp := none, tunAbort := t.ans.abort, tunTotal := if ok then BitVec.ofNat 32 t.ans.total else t.dbg.tunTotal
        tunBuf := (List.range n).foldl (fun b k => tabPut b k (BitVec.ofNat 8 (t.ans.value / 2 ^ (8 * k)))) t.dbg.tunBuf }

/-! ## Class 4: fabric readback (17 R720) -/

/-- A frame that the port may read back: its die is ON, or its dormancy is emulated (17 R724). -/
def frameOpen (s : State) (a : Nat) : Bool :=
  frameValid a && (dieOf s (a / 65536) == .on || s.rst.dieEmul.getLsbD (a / 65536)) && partAllowed s (frameX a)
/-- A load is writing frames of the die: the readback is held (06 R282). -/
def rbHeld (s : State) (a : Nat) : Bool :=
  match s.ld.load with
  | some l => l.phase == .writing && (List.range 16).any fun p => l.parts.getLsbD (16 * (a / 65536) + p)
  | none => false
/-- The content of a frame: a logic frame as written, with the bits that the checker found in error and left; of a RAM frame the words that its RAMs hold now (05
R223; 07 R305). -/
def frameContent (s : State) (a : Nat) : Nat :=
  if a.testBit 11 then ramFrame s a
  else
    let bad := s.fab.badWords.foldl (fun n b => if b.1 / 512 = a then n + b.2.toNat * 2 ^ (64 * (b.1 % 512)) else n) 0
    Nat.xor (tabGet s.fab.frames a 0) bad
/-- The frame is buffered. -/
def rbDone (s : State) : State :=
  match s.dbg.rbWait with
  | none => s
  | some a =>
    if rbHeld s a then s
    else setDbg s { s.dbg with rbWait := none, rbFrame := some a, rbBuf := frameContent s a }
/-- The frame that the buffer holds is within the port's authority. -/
def rbAllowed (s : State) : Bool := match s.dbg.rbFrame with | some a => partAllowed s (frameX a) | none => true

/-! ## PORT_CMD (17 R714) -/

/-- ABORT: results are discarded; what has been issued into the device completes there. -/
def portAbort (s : State) : State :=
  let s1 := memPush s
  let s2 := if s1.dbg.tunOp = some true && fwRuns s1 then { tunRun s1 true with dbg := s1.dbg } else s1
  memDrop (setDbg s2 { s2.dbg with memOp := none, tunOp := none, rbWait := none })
/-- A write of PORT_CMD. -/
def portCmd (s : State) (v : BitVec 32) : State :=
  match fld v 0 8 with
  | 1 => portAttach s
  | 2 => endAttach s
  | 3 => setDbg s { s.dbg with wdParity := false, accessErr := false, denied := false }
  | 4 => portAbort s
  | _ => accFault s

/-! ## One access of a register -/

/-- A read, by class (0 to 3) and register select. -/
def portRead (s : State) (cls rs : Nat) : State :=
  match cls, rs with
  | 0, 0 => accData s 0x9640A101#32
  | 0, 1 => accData s (portStateValue s)
  | 0, 3 => accData s s.dbg.engSel
  | 0, 4 => engData s true 0#32
  | 0, 5 => accData s s.dbg.prbSel
  | 0, 6 => prbData s true 0#32
  | 1, 0 => accData s s.dbg.memLo
  | 1, 1 => accData s (memHiNow s)
  | 1, 2 => accData (setDbg s { s.dbg with memPtr := s.dbg.memPtr + 1#4 }) (tabGet s.dbg.memBuf s.dbg.memPtr.toNat 0#32)
  | 1, 3 => accData s (s.dbg.memPtr.setWidth 32)
  | 1, 5 => accData s (s.dbg.memMask.setWidth 32)
  | 1, 6 => accData s (s.dbg.memResp.setWidth 32)
  | 2, 0 => accData s s.dbg.tunObj
  | 2, 1 => accData s s.dbg.tunOffset
  | 2, 2 => accData s s.dbg.tunLen
  | 2, 3 => accData (setDbg s { s.dbg with tunPtr := s.dbg.tunPtr + 4#12 }) (tunWord s.dbg)
  | 2, 5 => accData s s.dbg.tunAbort
  | 2, 6 => accData s s.dbg.tunTotal
  | 2, 7 => accData s (if s.dbg.tunOwner then 1#32 else 0#32)
  | 3, 0 => accData s s.dbg.rbAddr
  | 3, 1 => accData s (s.dbg.rbIndex.setWidth 32)
  | 3, 2 =>
    if !rbAllowed s then accFault s
    else accData (setDbg s { s.dbg with rbIndex := s.dbg.rbIndex + 1#10 })
      (BitVec.ofNat 32 (s.dbg.rbBuf / 2 ^ (32 * s.dbg.rbIndex.toNat)))
  | 3, 3 => accData s (BitVec.ofNat 32 (bit01 s.dbg.rbFrame.isSome * 2 ^ 31 + s.dbg.rbFrame.getD 0))
  | _, _ => accData s 0#32

/-- A write. -/
def portWrite (s : State) (cls rs : Nat) (v : BitVec 32) : State :=
  let d := s.dbg
  match cls, rs with
  | 0, 2 => portCmd s v
  | 0, 3 => engSelect s v
  | 0, 4 => engData s false v
  | 0, 5 => setDbg s { d with prbSel := v &&& 0x3F0100#32 }
  | 0, 6 => prbData s false v
  | 1, 0 => setDbg s { d with memLo := v }
  | 1, 1 => setDbg s { d with memHi := v &&& 0x1FFFFFF#32 }
  | 1, 2 => setDbg s { d with memBuf := tabPut d.memBuf d.memPtr.toNat v, memPtr := d.memPtr + 1#4 }
  | 1, 3 => setDbg s { d with memPtr := v.setWidth 4 }
  | 1, 4 => memCmd s v
  | 1, 5 => setDbg s { d with memMask := v.setWidth 16 }
  | 2, 0 => setDbg s { d with tunObj := v &&& 0xFFFFFF00#32, tunPtr := 0#12 }
  | 2, 1 => setDbg s { d with tunOffset := v }
  | 2, 2 => setDbg s { d with tunLen := v &&& 0x80001FFF#32 }
  | 2, 3 => setDbg s (tunPut d v)
  | 2, 4 =>
    let s1 := setDbg s { d with tunPtr := 0#12 }
    if v = 1#32 then setDbg s1 { s1.dbg with tunOp := some false }
    else if v = 2#32 then setDbg s1 { s1.dbg with tunOp := some true }
    else accFault s1
  | 2, 7 => if v = 0#32 ∨ v = 1#32 then setDbg s { d with tunOwner := v == 1#32 } else accFault s
  | 3, 0 => if frameOpen s v.toNat then setDbg s { d with rbAddr := v, rbWait := some v.toNat } else accFault s
  | 3, 1 => setDbg s { d with rbIndex := v.setWidth 10 }
  | _, _ => s

/-- A transaction on the line (17 R706 to R711, R713, R726): parity of the header, parity of written data, error bits, availability of the class,
an operation in flight, authority; then the access. -/
def goith (g : GAcc) (cls rs : Nat) (rnw : Bool) (v : BitVec 32) (s : State) : State :=
  if portSilent s || s.dbg.line != .ready then ackWith s .none
  else if !g.hdrOk then
    let s1 := if s.dbg.hdrLogged then s else logEv s 0x2E05 sevWarn 0
    setDbg s1 { s1.dbg with ack := .none, line := .dead, hdrLogged := true }
  else if !rnw && !g.dataOk then setDbg s { s.dbg with ack := .fault, wdParity := true }
  else if !(cls == 0 && rs < 3) && portError s then ackWith s .fault
  else if !(cls == 0 && (rs < 3 || rs == 7)) && !fwRuns s then ackWith s .wait
  else if classBusy s cls then ackWith s .wait
  else if !regAuth s cls rs then accDenied s
  else if rnw then portRead (ackWith s .ok) cls rs
  else portWrite (ackWith s .ok) cls rs v

/-! ## Rows of the port -/

/-- `GOITH_LINE_RESET` (17 R710). -/
def execGoithLineReset (s : State) : Res :=
  .next (if portSilent s then s else setDbg s { s.dbg with line := .sync, hdrLogged := false })
/-- `GOITH_SYNC_BYTE` (17 R710): any other byte than 0x5A makes the target wait for a new line reset. -/
def execGoithSyncByte (b : BitVec 8) (s : State) : Res :=
  .next (if portSilent s || s.dbg.line != .sync then s else setDbg s { s.dbg with line := if b = 0x5A#8 then .ready else .dead })
/-- `ATTACH` (17 R723). -/
def execAttach (g : GAcc) (s : State) : Res := .next (goith g 0 2 false 1#32 s)
/-- `DETACH` (17 R723). -/
def execDetach (g : GAcc) (s : State) : Res := .next (goith g 0 2 false 2#32 s)
/-- `PORT_CLEAR` (17 R714). -/
def execPortClear (g : GAcc) (s : State) : Res := .next (goith g 0 2 false 3#32 s)
/-- `GOITH_ABORT` (17 R714). -/
def execGoithAbort (g : GAcc) (s : State) : Res := .next (goith g 0 2 false 4#32 s)
/-- `PORT_CMD_INVALID` (17 R714): the row carries a code of no command; one of a command acts as that command. -/
def execPortCmdInvalid (g : GAcc) (cmd : BitVec 8) (s : State) : Res := .next (goith g 0 2 false (cmd.setWidth 32) s)
/-- `ENG_SEL_WRITE` (17 R714, R715). -/
def execEngSelWrite (g : GAcc) (v : BitVec 32) (s : State) : Res := .next (goith g 0 3 false v s)
/-- `ENG_DATA_ACCESS` (17 R715). -/
def execEngDataAccess (g : GAcc) (rnw : Bool) (v : BitVec 32) (s : State) : Res := .next (goith g 0 4 rnw v s)
/-- `PRB_DATA_ACCESS` (17 R716). -/
def execPrbDataAccess (g : GAcc) (rnw : Bool) (v : BitVec 32) (s : State) : Res := .next (goith g 0 6 rnw v s)
/-- `MEM_BUF_ACCESS` (17 R717). -/
def execMemBufAccess (g : GAcc) (rnw : Bool) (v : BitVec 32) (s : State) : Res := .next (goith g 1 2 rnw v s)
/-- The value of MEM_CMD. -/
def memCmdWord (op : Nat) (adv : Bool) (lanes : BitVec 4) : BitVec 32 := BitVec.ofNat 32 (op + lanes.toNat * 256 + bit01 adv * 4096)
/-- `READ_LINE` (17 R718). -/
def execReadLine (g : GAcc) (adv : Bool) (s : State) : Res := .next (goith g 1 4 false (memCmdWord 1 adv 0#4) s)
/-- `WRITE_LINE` (17 R718). -/
def execWriteLine (g : GAcc) (adv : Bool) (s : State) : Res := .next (goith g 1 4 false (memCmdWord 2 adv 0#4) s)
/-- `READ_WORD` (17 R718). -/
def execReadWord (g : GAcc) (adv : Bool) (s : State) : Res := .next (goith g 1 4 false (memCmdWord 3 adv 0#4) s)
/-- `WRITE_BYTES` (17 R718). -/
def execWriteBytes (g : GAcc) (adv : Bool) (lanes : BitVec 4) (s : State) : Res := .next (goith g 1 4 false (memCmdWord 4 adv lanes) s)
/-- `GOITH_MEM_DONE` (17 R718). -/
def execGoithMemDone (s : State) : Res := .next (if portSilent s then s else memDone s)
/-- `TUN_READ` (17 R719). -/
def execTunRead (g : GAcc) (s : State) : Res := .next (goith g 2 4 false 1#32 s)
/-- `TUN_WRITE` (17 R719). -/
def execTunWrite (g : GAcc) (s : State) : Res := .next (goith g 2 4 false 2#32 s)
/-- `TUN_DATA_ACCESS` (17 R719). -/
def execTunDataAccess (g : GAcc) (rnw : Bool) (v : BitVec 32) (s : State) : Res := .next (goith g 2 3 rnw v s)
/-- `GOITH_TUNNEL_DONE` (17 R719). -/
def execGoithTunnelDone (s : State) : Res := .next (tunDone s)
/-- `RB_FRAME_WRITE` (17 R720). -/
def execRbFrameWrite (g : GAcc) (v : BitVec 32) (s : State) : Res := .next (goith g 3 0 false v s)
/-- `GOITH_READBACK_DONE` (17 R720; 06 R282). -/
def execGoithReadbackDone (s : State) : Res := .next (if portSilent s then s else rbDone s)
/-- `RB_DATA_READ` (17 R720). -/
def execRbDataRead (g : GAcc) (s : State) : Res := .next (goith g 3 2 true 0#32 s)
/-- `GOITH_ATTACH_TIMEOUT` (17 R723). -/
def execGoithAttachTimeout (s : State) : Res := .next (endAttach s)

/-! ## The monitor exchange (17 R721, R722) -/

/-- The command byte of the save area: X 0xFFFE. -/
def monByte (g : Engine) : Nat := fld (dataWord g false 2047) 240 8
/-- Write it. -/
def setMonByte (g : Engine) (v : Nat) : Engine := setData g false 2047 (putFld (dataWord g false 2047) 240 8 v)
/-- STORE: BEXP, V and A to X 0xF760 to 0xFF7F. -/
def monStore (g : Engine) : Engine :=
  let g1 := setData g false 1979 (g.bexp.setWidth 256)
  let g2 := (List.range 32).foldl (fun a n => setData a false (1980 + n) (vecGet g.v n)) g1
  (List.range 32).foldl (fun a k =>
    setData a false (2012 + k)
      (BitVec.ofNat 256 (packLanes 64 ((List.range 4).map fun j => wrapTo 64 (slane (vecGet g.a (k / 4)) 48 (4 * (k % 4) + j)))))) g2
/-- LOAD: the same area back; bits [47:0] of each accumulator lane. -/
def monLoad (g : Engine) : Engine :=
  { g with
    bexp := (dataWord g false 1979).setWidth 5
    v := Vector.ofFn fun n => dataWord g false (1980 + n.val)
    a := Vector.ofFn fun n => BitVec.ofNat 768 (packLanes 48 ((List.range 16).map fun j => fld (dataWord g false (2012 + 4 * n.val + j / 4)) (64 * (j % 4)) 48)) }
/-- The monitor of engine `e` reads its command byte: the command `code` is carried out if the byte holds it; another byte of 0x80 to 0xFF becomes 0xFF; a
lower one is ignored. -/
def monRow (s : State) (e code : Nat) (act : Engine → Engine) : State :=
  let g := engOf s e
  let b := monByte g
  if !engClocked s e || g.state != .monitor then s
  else if b = code then setEng s e (act g)
  else if 0x84 ≤ b ∨ b = 0x80 then setEng s e (setMonByte g 0xFF)
  else s
/-- `MONITOR_STORE` (17 R721). -/
def execMonitorStore (e : Fin 768) (s : State) : Res := .next (monRow s e.val 0x81 fun g => setMonByte (monStore g) 0)
/-- `MONITOR_LOAD` (17 R721). -/
def execMonitorLoad (e : Fin 768) (s : State) : Res := .next (monRow s e.val 0x82 fun g => setMonByte (monLoad g) 0)
/-- `MONITOR_RESUME` (17 R721; 08 R376). -/
def execMonitorResume (e : Fin 768) (s : State) : Res := .next (monRow s e.val 0x83 doDret)

/-! ## The test access port (17 R731, R732) -/

/-- The identification register: version 0x1, part 0x9640, manufacturer 0x2B7 (17 R731). -/
def tapIdcode : BitVec 32 := 0x1#4 ++ 0x9640#16 ++ 0x2B7#11 ++ 1#1
/-- What a scan of the data register gives first: the identification register, or the one zero of BYPASS; the boundary register is that of the BSDL file. -/
def tapScan (s : State) : Option (Nat × BitVec 32) :=
  match s.dbg.tap with
  | .idcode => some (32, tapIdcode)
  | .bypass | .clamp | .highz => some (1, 0#32)
  | _ => none
/-- An instruction is selected; the port lies on VCCAUX. -/
def tapSelect (s : State) (i : TapInstr) : State := if s.pwr.vaux then setDbg s { s.dbg with tap := i } else s
/-- One that acts only while POR_N is low, and as BYPASS otherwise (log entry 31). -/
def tapHeld (s : State) (i : TapInstr) : State := tapSelect s (if s.pwr.porN then .bypass else i)
/-- `TAP_RESET` (17 R731). -/
def execTapReset (s : State) : Res := .next (tapSelect s .idcode)
/-- `IDCODE` (17 R732). -/
def execIdcode (s : State) : Res := .next (tapSelect s .idcode)
/-- `BYPASS` (17 R732). -/
def execBypass (s : State) : Res := .next (tapSelect s .bypass)
/-- `SAMPLE_PRELOAD` (17 R732). -/
def execSamplePreload (s : State) : Res := .next (tapSelect s .sample)
/-- `EXTEST` (17 R732). -/
def execExtest (s : State) : Res := .next (tapHeld s .extest)
/-- `EXTEST_PULSE` (17 R732). -/
def execExtestPulse (s : State) : Res := .next (tapHeld s .extestPulse)
/-- `EXTEST_TRAIN` (17 R732). -/
def execExtestTrain (s : State) : Res := .next (tapHeld s .extestTrain)
/-- `CLAMP` (17 R732). -/
def execClamp (s : State) : Res := .next (tapHeld s .clamp)
/-- `HIGHZ` (17 R732). -/
def execHighz (s : State) : Res := .next (tapHeld s .highz)

/-! ## Registers with no row of their own (15 R643) -/

/-- `REGISTER_WRITE`: an object through any path, a register of the port (read or written), an engine register. -/
def execRegisterWrite (t : RegTarget) (s : State) : Res :=
  .next (match t with
    | .obj r index sub value => writeObj r index.toNat sub.toNat value.length (leNat value) s
    | .goith g cls rs rnw v => goith g cls.val rs.val rnw v s
    | .engine e off v => winReg s e.val (off.toNat / 4 * 4) false true v.toNat)

end Sys2Proof.Machine
end

