-- ==== Sys2Proof/Machine/Dispatch.lean ====
section
/-! DEFINITION. The dispatch: one arm for each constructor of Instr, one direct call of its meaning. -/
namespace Sys2Proof.Machine

/-- The effect of command `instr` on everything but the queue. -/
def exec (instr : Instr) (s : State) : Host.Outcome State Fault Refusal :=
  match instr with
  | .vccauxRise vbatMv straps => Sys2Proof.Machine.execVccauxRise vbatMv straps s
  | .vccauxLoss => Sys2Proof.Machine.execVccauxLoss s
  | .porNLow => Sys2Proof.Machine.execPorNLow s
  | .effectiveResetEnd straps rails => Sys2Proof.Machine.execEffectiveResetEnd straps rails s
  | .brownout rail => Sys2Proof.Machine.execBrownout rail s
  | .vccioOutOfRange bank => Sys2Proof.Machine.execVccioOutOfRange bank s
  | .vccioReturn bank => Sys2Proof.Machine.execVccioReturn bank s
  | .powerMonitorSample pkg dies rails => Sys2Proof.Machine.execPowerMonitorSample pkg dies rails s
  | .powerWindowEnd => Sys2Proof.Machine.execPowerWindowEnd s
  | .thermalTrip site => Sys2Proof.Machine.execThermalTrip site s
  | .tamper => Sys2Proof.Machine.execTamper s
  | .vbatLow mv => Sys2Proof.Machine.execVbatLow mv s
  | .vbatDomainReset => Sys2Proof.Machine.execVbatDomainReset s
  | .vbatLatchClear r v tamperHeld => Sys2Proof.Machine.execVbatLatchClear r v tamperHeld s
  | .crystalStable => Sys2Proof.Machine.execCrystalStable s
  | .crystalEdgeTimeout => Sys2Proof.Machine.execCrystalEdgeTimeout s
  | .rootPllLock => Sys2Proof.Machine.execRootPllLock s
  | .monitorWindowEnd count => Sys2Proof.Machine.execMonitorWindowEnd count s
  | .refinEdgeTimeout => Sys2Proof.Machine.execRefinEdgeTimeout s
  | .refinAcceptTimeout => Sys2Proof.Machine.execRefinAcceptTimeout s
  | .bootWaitEnd => Sys2Proof.Machine.execBootWaitEnd s
  | .rc100Check count => Sys2Proof.Machine.execRc100Check count s
  | .trimAcquired code => Sys2Proof.Machine.execTrimAcquired code s
  | .syncTrimPhase1Done code => Sys2Proof.Machine.execSyncTrimPhase1Done code s
  | .syncTimeout => Sys2Proof.Machine.execSyncTimeout s
  | .aon32kMeasure mHz => Sys2Proof.Machine.execAon32kMeasure mHz s
  | .refStatusWrite r v => Sys2Proof.Machine.execRefStatusWrite r v s
  | .refReselect r v => Sys2Proof.Machine.execRefReselect r v s
  | .clkEnSet r unit => Sys2Proof.Machine.execClkEnSet r unit s
  | .clkEnClear r unit => Sys2Proof.Machine.execClkEnClear r unit s
  | .unitClockStopped unit => Sys2Proof.Machine.execUnitClockStopped unit s
  | .synthApply r n v => Sys2Proof.Machine.execSynthApply r n v s
  | .synthLocked i => Sys2Proof.Machine.execSynthLocked i s
  | .synthRelease i => Sys2Proof.Machine.execSynthRelease i s
  | .synthGlideStep i => Sys2Proof.Machine.execSynthGlideStep i s
  | .synthLockLost i => Sys2Proof.Machine.execSynthLockLost i s
  | .xtogglePulse cell => Sys2Proof.Machine.execXtogglePulse cell s
  | .xtoggleClr cell => Sys2Proof.Machine.execXtoggleClr cell s
  | .xholdReq cell word => Sys2Proof.Machine.execXholdReq cell word s
  | .xholdDestResetEnd cell => Sys2Proof.Machine.execXholdDestResetEnd cell s
  | .sysRstNLow => Sys2Proof.Machine.execSysRstNLow s
  | .sysRstNRise => Sys2Proof.Machine.execSysRstNRise s
  | .warmResetRequest r => Sys2Proof.Machine.execWarmResetRequest r s
  | .coldResetRequest r => Sys2Proof.Machine.execColdResetRequest r s
  | .watchdogExpiry service => Sys2Proof.Machine.execWatchdogExpiry service s
  | .warmFlushDone => Sys2Proof.Machine.execWarmFlushDone s
  | .warmFlushTimeout us => Sys2Proof.Machine.execWarmFlushTimeout us s
  | .wipeDone us => Sys2Proof.Machine.execWipeDone us s
  | .wipeTimeout done => Sys2Proof.Machine.execWipeTimeout done s
  | .flashDirectoryRead x0 x1 firstFails copyFails => Sys2Proof.Machine.execFlashDirectoryRead x0 x1 firstFails copyFails s
  | .flashReadTimeout => Sys2Proof.Machine.execFlashReadTimeout s
  | .streamHeader head => Sys2Proof.Machine.execStreamHeader head s
  | .ream bytes => Sys2Proof.Machine.execReam bytes s
  | .sealRecord rec_ => Sys2Proof.Machine.execSealRecord rec_ s
  | .framesWritten design => Sys2Proof.Machine.execFramesWritten design s
  | .stagingWipeDone => Sys2Proof.Machine.execStagingWipeDone s
  | .initDoneRelease pinHigh => Sys2Proof.Machine.execInitDoneRelease pinHigh s
  | .initDonePinHigh => Sys2Proof.Machine.execInitDonePinHigh s
  | .dieEnterDormant r d => Sys2Proof.Machine.execDieEnterDormant r d s
  | .dieDrainDone d => Sys2Proof.Machine.execDieDrainDone d s
  | .diePowerOffDone d => Sys2Proof.Machine.execDiePowerOffDone d s
  | .dieReturn r d => Sys2Proof.Machine.execDieReturn r d s
  | .dieReturnDone d => Sys2Proof.Machine.execDieReturnDone d s
  | .standbyEnter r v => Sys2Proof.Machine.execStandbyEnter r v s
  | .standbySaveDone => Sys2Proof.Machine.execStandbySaveDone s
  | .wakeCan => Sys2Proof.Machine.execWakeCan s
  | .wakePin => Sys2Proof.Machine.execWakePin s
  | .wakeTimerExpiry => Sys2Proof.Machine.execWakeTimerExpiry s
  | .wakeRailsReady rails periods => Sys2Proof.Machine.execWakeRailsReady rails periods s
  | .lcRequest r target zero sig => Sys2Proof.Machine.execLcRequest r target zero sig s
  | .lcChallengeRead r => Sys2Proof.Machine.execLcChallengeRead r s
  | .lcGroupsBlown reads => Sys2Proof.Machine.execLcGroupsBlown reads s
  | .lcKeysDestroyed => Sys2Proof.Machine.execLcKeysDestroyed s
  | .bbkWrite r key => Sys2Proof.Machine.execBbkWrite r key s
  | .keyProgram r slot zero key => Sys2Proof.Machine.execKeyProgram r slot zero key s
  | .keyRevoke r slot => Sys2Proof.Machine.execKeyRevoke r slot s
  | .prStageMib r v => Sys2Proof.Machine.execPrStageMib r v s
  | .loadRequest r source zero addr => Sys2Proof.Machine.execLoadRequest r source zero addr s
  | .followOnLoadStart => Sys2Proof.Machine.execFollowOnLoadStart s
  | .partialWriteStart => Sys2Proof.Machine.execPartialWriteStart s
  | .partialWriteDone design => Sys2Proof.Machine.execPartialWriteDone design s
  | .relayStart => Sys2Proof.Machine.execRelayStart s
  | .relayTimeout => Sys2Proof.Machine.execRelayTimeout s
  | .relayDone => Sys2Proof.Machine.execRelayDone s
  | .fuStart r v => Sys2Proof.Machine.execFuStart r v s
  | .fuDone bad => Sys2Proof.Machine.execFuDone bad s
  | .grstPulse r trees => Sys2Proof.Machine.execGrstPulse r trees s
  | .grstRelease g => Sys2Proof.Machine.execGrstRelease g s
  | .grstUserAssert g level => Sys2Proof.Machine.execGrstUserAssert g level s
  | .scrubFrameCheck frame word bad passMs => Sys2Proof.Machine.execScrubFrameCheck frame word bad passMs s
  | .probeSelWrite r ch v => Sys2Proof.Machine.execProbeSelWrite r ch v s
  | .probeRouteWrite r ch v => Sys2Proof.Machine.execProbeRouteWrite r ch v s
  | .capArm r => Sys2Proof.Machine.execCapArm r s
  | .capStop r => Sys2Proof.Machine.execCapStop r s
  | .captureTrigger samples => Sys2Proof.Machine.execCaptureTrigger samples s
  | .captureComplete samples => Sys2Proof.Machine.execCaptureComplete samples s
  | .ramRead ram port addr reach upset => Sys2Proof.Machine.execRamRead ram port addr reach upset s
  | .ramWrite ram port addr reach w en inj1 inj2 lost reads => Sys2Proof.Machine.execRamWrite ram port addr reach w en inj1 inj2 lost reads s
  | .ramNarrowWrite ram port addr reach w en inj1 inj2 upset reads => Sys2Proof.Machine.execRamNarrowWrite ram port addr reach w en inj1 inj2 upset reads s
  | .ramScrubVisit ram upset => Sys2Proof.Machine.execRamScrubVisit ram upset s
  | .ramScrubWriteback ram => Sys2Proof.Machine.execRamScrubWriteback ram s
  | .qbWrite b data last bytes inj1 inj2 adr => Sys2Proof.Machine.execQbWrite b data last bytes inj1 inj2 adr s
  | .qbRead b upset ends adr => Sys2Proof.Machine.execQbRead b upset ends adr s
  | .qbFlush b => Sys2Proof.Machine.execQbFlush b s
  | .qbFlushObserved b => Sys2Proof.Machine.execQbFlushObserved b s
  | .qbFlushDone b => Sys2Proof.Machine.execQbFlushDone b s
  | .qbDrop b => Sys2Proof.Machine.execQbDrop b s
  | .ramCntClear r v => Sys2Proof.Machine.execRamCntClear r v s
  | .qbCntClear r v => Sys2Proof.Machine.execQbCntClear r v s
  | .ready r e => Sys2Proof.Machine.execReady r e s
  | .start r e => Sys2Proof.Machine.execStart r e s
  | .halt r e => Sys2Proof.Machine.execHalt r e s
  | .clearFault r e => Sys2Proof.Machine.execClearFault r e s
  | .powerOff r e => Sys2Proof.Machine.execPowerOff r e s
  | .powerOn r e => Sys2Proof.Machine.execPowerOn r e s
  | .engPowerOffDone e => Sys2Proof.Machine.execEngPowerOffDone e s
  | .engPowerOnDone e => Sys2Proof.Machine.execEngPowerOnDone e s
  | .engInterruptEntry e => Sys2Proof.Machine.execEngInterruptEntry e s
  | .engWake e => Sys2Proof.Machine.execEngWake e s
  | .engTimerMatch e => Sys2Proof.Machine.execEngTimerMatch e s
  | .engDebugEntry e => Sys2Proof.Machine.execEngDebugEntry e s
  | .dbgHaltReq e v => Sys2Proof.Machine.execDbgHaltReq e v s
  | .engStreamUnfreeze e => Sys2Proof.Machine.execEngStreamUnfreeze e s
  | .irqPendClear e v => Sys2Proof.Machine.execIrqPendClear e v s
  | .irqSet e v => Sys2Proof.Machine.execIrqSet e v s
  | .sstatPoisonClear e v => Sys2Proof.Machine.execSstatPoisonClear e v s
  | .dmaStart e c v => Sys2Proof.Machine.execDmaStart e c v s
  | .dmaAbort e c v => Sys2Proof.Machine.execDmaAbort e c v s
  | .dmaLineResponse e c txn => Sys2Proof.Machine.execDmaLineResponse e c txn s
  | .dmaStatusClear e c v => Sys2Proof.Machine.execDmaStatusClear e c v s
  | .cld e c v rest => Sys2Proof.Machine.execCld e c v rest s
  | .vmacH e d a b z rest => Sys2Proof.Machine.execVmacH e d a b z rest s
  | .vmsuH e d a b z rest => Sys2Proof.Machine.execVmsuH e d a b z rest s
  | .vmacB e d a b z rest => Sys2Proof.Machine.execVmacB e d a b z rest s
  | .vmsuB e d a b z rest => Sys2Proof.Machine.execVmsuB e d a b z rest s
  | .cmacL e d a b z rest => Sys2Proof.Machine.execCmacL e d a b z rest s
  | .cmacH e d a b z rest => Sys2Proof.Machine.execCmacH e d a b z rest s
  | .cmacjL e d a b z rest => Sys2Proof.Machine.execCmacjL e d a b z rest s
  | .cmacjH e d a b z rest => Sys2Proof.Machine.execCmacjH e d a b z rest s
  | .vmacsH e d a b z rest => Sys2Proof.Machine.execVmacsH e d a b z rest s
  | .aadd e d a z rest => Sys2Proof.Machine.execAadd e d a z rest s
  | .ald e d a sh rest => Sys2Proof.Machine.execAld e d a sh rest s
  | .vadd e d a b w f rest => Sys2Proof.Machine.execVadd e d a b w f rest s
  | .vsub e d a b w f rest => Sys2Proof.Machine.execVsub e d a b w f rest s
  | .vhadd e d a b w f rest => Sys2Proof.Machine.execVhadd e d a b w f rest s
  | .vhsub e d a b w f rest => Sys2Proof.Machine.execVhsub e d a b w f rest s
  | .vmin e d a b w f rest => Sys2Proof.Machine.execVmin e d a b w f rest s
  | .vmax e d a b w f rest => Sys2Proof.Machine.execVmax e d a b w f rest s
  | .vabs e d a w rest => Sys2Proof.Machine.execVabs e d a w rest s
  | .vneg e d a w rest => Sys2Proof.Machine.execVneg e d a w rest s
  | .vand e d a b f rest => Sys2Proof.Machine.execVand e d a b f rest s
  | .vor e d a b f rest => Sys2Proof.Machine.execVor e d a b f rest s
  | .vxor e d a b f rest => Sys2Proof.Machine.execVxor e d a b f rest s
  | .vsra e d a sh w rest => Sys2Proof.Machine.execVsra e d a sh w rest s
  | .vsrl e d a sh w rest => Sys2Proof.Machine.execVsrl e d a sh w rest s
  | .vshl e d a sh w rest => Sys2Proof.Machine.execVshl e d a sh w rest s
  | .vcmpgt e d a b w f rest => Sys2Proof.Machine.execVcmpgt e d a b w f rest s
  | .vcmpeq e d a b w f rest => Sys2Proof.Machine.execVcmpeq e d a b w f rest s
  | .vsel e d a b rest => Sys2Proof.Machine.execVsel e d a b rest s
  | .vmulj e d a rest => Sys2Proof.Machine.execVmulj e d a rest s
  | .vmulnj e d a rest => Sys2Proof.Machine.execVmulnj e d a rest s
  | .vconj e d a rest => Sys2Proof.Machine.execVconj e d a rest s
  | .vsplat e d a k w rest => Sys2Proof.Machine.execVsplat e d a k w rest s
  | .vrot e d a k w rest => Sys2Proof.Machine.execVrot e d a k w rest s
  | .vilvl e d a b w rest => Sys2Proof.Machine.execVilvl e d a b w rest s
  | .vilvh e d a b w rest => Sys2Proof.Machine.execVilvh e d a b w rest s
  | .vevn e d a b w rest => Sys2Proof.Machine.execVevn e d a b w rest s
  | .vodd e d a b w rest => Sys2Proof.Machine.execVodd e d a b w rest s
  | .vunpl e d a w rest => Sys2Proof.Machine.execVunpl e d a w rest s
  | .vunph e d a w rest => Sys2Proof.Machine.execVunph e d a w rest s
  | .vpack e d a b w rest => Sys2Proof.Machine.execVpack e d a b w rest s
  | .vfma e d a b h rest => Sys2Proof.Machine.execVfma e d a b h rest s
  | .vfms e d a b h rest => Sys2Proof.Machine.execVfms e d a b h rest s
  | .vfmul e d a b h rest => Sys2Proof.Machine.execVfmul e d a b h rest s
  | .vfadd e d a b rest => Sys2Proof.Machine.execVfadd e d a b rest s
  | .vfsub e d a b rest => Sys2Proof.Machine.execVfsub e d a b rest s
  | .vfmin e d a b rest => Sys2Proof.Machine.execVfmin e d a b rest s
  | .vfmax e d a b rest => Sys2Proof.Machine.execVfmax e d a b rest s
  | .vfabs e d a rest => Sys2Proof.Machine.execVfabs e d a rest s
  | .vfneg e d a rest => Sys2Proof.Machine.execVfneg e d a rest s
  | .vfcmpgt e d a b rest => Sys2Proof.Machine.execVfcmpgt e d a b rest s
  | .vcvtf e d a rest => Sys2Proof.Machine.execVcvtf e d a rest s
  | .vcvti e d a rest => Sys2Proof.Machine.execVcvti e d a rest s
  | .add e d a b rest => Sys2Proof.Machine.execAdd e d a b rest s
  | .sub e d a b rest => Sys2Proof.Machine.execSub e d a b rest s
  | .and e d a b rest => Sys2Proof.Machine.execAnd e d a b rest s
  | .or e d a b rest => Sys2Proof.Machine.execOr e d a b rest s
  | .xor e d a b rest => Sys2Proof.Machine.execXor e d a b rest s
  | .shl e d a b rest => Sys2Proof.Machine.execShl e d a b rest s
  | .shr e d a b rest => Sys2Proof.Machine.execShr e d a b rest s
  | .sra e d a b rest => Sys2Proof.Machine.execSra e d a b rest s
  | .mul e d a b rest => Sys2Proof.Machine.execMul e d a b rest s
  | .min e d a b rest => Sys2Proof.Machine.execMin e d a b rest s
  | .max e d a b rest => Sys2Proof.Machine.execMax e d a b rest s
  | .slt e d a b rest => Sys2Proof.Machine.execSlt e d a b rest s
  | .sltu e d a b rest => Sys2Proof.Machine.execSltu e d a b rest s
  | .seq e d a b rest => Sys2Proof.Machine.execSeq e d a b rest s
  | .addi e d a imm rest => Sys2Proof.Machine.execAddi e d a imm rest s
  | .andi e d a imm rest => Sys2Proof.Machine.execAndi e d a imm rest s
  | .ori e d a imm rest => Sys2Proof.Machine.execOri e d a imm rest s
  | .xori e d a imm rest => Sys2Proof.Machine.execXori e d a imm rest s
  | .shli e d a imm rest => Sys2Proof.Machine.execShli e d a imm rest s
  | .shri e d a imm rest => Sys2Proof.Machine.execShri e d a imm rest s
  | .srai e d a imm rest => Sys2Proof.Machine.execSrai e d a imm rest s
  | .slti e d a imm rest => Sys2Proof.Machine.execSlti e d a imm rest s
  | .vmov e d a rest => Sys2Proof.Machine.execVmov e d a rest s
  | .vget e d a k rest => Sys2Proof.Machine.execVget e d a k rest s
  | .vput e d a k rest => Sys2Proof.Machine.execVput e d a k rest s
  | .vbcst e d a w rest => Sys2Proof.Machine.execVbcst e d a w rest s
  | .anarrow e d a sh rest => Sys2Proof.Machine.execAnarrow e d a sh rest s
  | .movsp e d a rest => Sys2Proof.Machine.execMovsp e d a rest s
  | .movps e d a rest => Sys2Proof.Machine.execMovps e d a rest s
  | .movsm e d a rest => Sys2Proof.Machine.execMovsm e d a rest s
  | .movms e d a rest => Sys2Proof.Machine.execMovms e d a rest s
  | .movsc e d a rest => Sys2Proof.Machine.execMovsc e d a rest s
  | .movcs e d a rest => Sys2Proof.Machine.execMovcs e d a rest s
  | .csrr e d a rest => Sys2Proof.Machine.execCsrr e d a rest s
  | .csrw e d a rest => Sys2Proof.Machine.execCsrw e d a rest s
  | .vld e y v p u rest => Sys2Proof.Machine.execVld e y v p u rest s
  | .vldb e y v p u rest => Sys2Proof.Machine.execVldb e y v p u rest s
  | .vst e y v p u t w rest => Sys2Proof.Machine.execVst e y v p u t w rest s
  | .staH e y a p u sh rest => Sys2Proof.Machine.execStaH e y a p u sh rest s
  | .staHt e y a p u sh rest => Sys2Proof.Machine.execStaHt e y a p u sh rest s
  | .staW e y a p u h sh rest => Sys2Proof.Machine.execStaW e y a p u h sh rest s
  | .staWt e y a p u h sh rest => Sys2Proof.Machine.execStaWt e y a p u h sh rest s
  | .sld e y r p u rest => Sys2Proof.Machine.execSld e y r p u rest s
  | .sst e y r p u rest => Sys2Proof.Machine.execSst e y r p u rest s
  | .pmod e y p rest => Sys2Proof.Machine.execPmod e y p rest s
  | .padd e y p imm rest => Sys2Proof.Machine.execPadd e y p imm rest s
  | .pmovs e y p a rest => Sys2Proof.Machine.execPmovs e y p a rest s
  | .sin e v h rest => Sys2Proof.Machine.execSin e v h rest s
  | .sout e v h l n rest => Sys2Proof.Machine.execSout e v h l n rest s
  | .loop e rw cs a count last => Sys2Proof.Machine.execLoop e rw cs a count last s
  | .b e t => Sys2Proof.Machine.execB e t s
  | .beq e a b t => Sys2Proof.Machine.execBeq e a b t s
  | .bne e a b t => Sys2Proof.Machine.execBne e a b t s
  | .blt e a b t => Sys2Proof.Machine.execBlt e a b t s
  | .bge e a b t => Sys2Proof.Machine.execBge e a b t s
  | .bltu e a b t => Sys2Proof.Machine.execBltu e a b t s
  | .bgeu e a b t => Sys2Proof.Machine.execBgeu e a b t s
  | .beqz e a t => Sys2Proof.Machine.execBeqz e a t s
  | .bnez e a t => Sys2Proof.Machine.execBnez e a t s
  | .call e l t => Sys2Proof.Machine.execCall e l t s
  | .jr e a => Sys2Proof.Machine.execJr e a s
  | .simmS e i imm => Sys2Proof.Machine.execSimmS e i imm s
  | .simmM e i imm => Sys2Proof.Machine.execSimmM e i imm s
  | .simmCp e i imm => Sys2Proof.Machine.execSimmCp e i imm s
  | .simmP e i imm => Sys2Proof.Machine.execSimmP e i imm s
  | .vimm e v w imm => Sys2Proof.Machine.execVimm e v w imm s
  | .wait e => Sys2Proof.Machine.execWait e s
  | .reti e => Sys2Proof.Machine.execReti e s
  | .dret e => Sys2Proof.Machine.execDret e s
  | .bkpt e => Sys2Proof.Machine.execBkpt e s
  | .bxclr e => Sys2Proof.Machine.execBxclr e s
  | .sirq e n => Sys2Proof.Machine.execSirq e n s
  | .stop e => Sys2Proof.Machine.execStop e s
  | .absSld e y r addr => Sys2Proof.Machine.execAbsSld e y r addr s
  | .absSst e y r addr => Sys2Proof.Machine.execAbsSst e y r addr s
  | .absVld e y v addr => Sys2Proof.Machine.execAbsVld e y v addr s
  | .absVst e y v addr => Sys2Proof.Machine.execAbsVst e y v addr s
  | .rd h up => Sys2Proof.Machine.execRd h up s
  | .rdp h up => Sys2Proof.Machine.execRdp h up s
  | .wr h => Sys2Proof.Machine.execWr h s
  | .wrp h => Sys2Proof.Machine.execWrp h s
  | .msg h => Sys2Proof.Machine.execMsg h s
  | .rsp i txn code line pk => Sys2Proof.Machine.execRsp i txn code line pk s
  | .pull i txn pk => Sys2Proof.Machine.execPull i txn pk s
  | .data i txn data poison up pk => Sys2Proof.Machine.execData i txn data poison up pk s
  | .mgmt point tenant addr body pk => Sys2Proof.Machine.execMgmt point tenant addr body pk s
  | .epochResponse i txn => Sys2Proof.Machine.execEpochResponse i txn s
  | .reqTimeout i txn => Sys2Proof.Machine.execReqTimeout i txn s
  | .samEntryWrite r e v => Sys2Proof.Machine.execSamEntryWrite r e v s
  | .samInvalidate r v => Sys2Proof.Machine.execSamInvalidate r v s
  | .samInvalidateDone => Sys2Proof.Machine.execSamInvalidateDone s
  | .epBind r id part => Sys2Proof.Machine.execEpBind r id part s
  | .epRelease r id part => Sys2Proof.Machine.execEpRelease r id part s
  | .tokenBucketRefill => Sys2Proof.Machine.execTokenBucketRefill s
  | .apRequest p cmd addr be len aux tag qos hint => Sys2Proof.Machine.execApRequest p cmd addr be len aux tag qos hint s
  | .apWriteData p data last => Sys2Proof.Machine.execApWriteData p data last s
  | .apInboundAnswer p id resp data => Sys2Proof.Machine.execApInboundAnswer p id resp data s
  | .tenantReset r v => Sys2Proof.Machine.execTenantReset r v s
  | .tenantResetDrainDone t => Sys2Proof.Machine.execTenantResetDrainDone t s
  | .tenantResetWipeDone t => Sys2Proof.Machine.execTenantResetWipeDone t s
  | .partOwner r p v => Sys2Proof.Machine.execPartOwner r p v s
  | .engOwner r e v => Sys2Proof.Machine.execEngOwner r e v s
  | .reassignStart k => Sys2Proof.Machine.execReassignStart k s
  | .ownerChange k => Sys2Proof.Machine.execOwnerChange k s
  | .faultClear r t v => Sys2Proof.Machine.execFaultClear r t v s
  | .snpInv agent line pk => Sys2Proof.Machine.execSnpInv agent line pk s
  | .snpData agent line pk => Sys2Proof.Machine.execSnpData agent line pk s
  | .hsnpInv port line pk => Sys2Proof.Machine.execHsnpInv port line pk s
  | .hsnpData port line pk => Sys2Proof.Machine.execHsnpData port line pk s
  | .hsnpCur port line pk => Sys2Proof.Machine.execHsnpCur port line pk s
  | .srspI agent line txn pk => Sys2Proof.Machine.execSrspI agent line txn pk s
  | .srspS agent line txn pk => Sys2Proof.Machine.execSrspS agent line txn pk s
  | .srspIData agent line txn data pk => Sys2Proof.Machine.execSrspIData agent line txn data pk s
  | .srspSData agent line txn data pk => Sys2Proof.Machine.execSrspSData agent line txn data pk s
  | .snoopTimeout agent line => Sys2Proof.Machine.execSnoopTimeout agent line s
  | .lineFlowResume line => Sys2Proof.Machine.execLineFlowResume line s
  | .hostQuotaMib r v => Sys2Proof.Machine.execHostQuotaMib r v s
  | .cxlMemrd port tag dpa snp bad up => Sys2Proof.Machine.execCxlMemrd port tag dpa snp bad up s
  | .cxlMemwr port tag dpa mv be data bad up => Sys2Proof.Machine.execCxlMemwr port tag dpa mv be data bad up s
  | .hostBirsp port line txn shared data => Sys2Proof.Machine.execHostBirsp port line txn shared data s
  | .cxlIoRequest port tag write x be data up => Sys2Proof.Machine.execCxlIoRequest port tag write x be data up s
  | .identifyMemoryDevice port => Sys2Proof.Machine.execIdentifyMemoryDevice port s
  | .getHealthInfo port => Sys2Proof.Machine.execGetHealthInfo port s
  | .getEventRecords port => Sys2Proof.Machine.execGetEventRecords port s
  | .clearEventRecords port => Sys2Proof.Machine.execClearEventRecords port s
  | .getPoisonList port => Sys2Proof.Machine.execGetPoisonList port s
  | .hdmDecoderCommit port dec db base size ways gran => Sys2Proof.Machine.execHdmDecoderCommit port dec db base size ways gran s
  | .cxlLinkUp port rate width flit256 lopt ideLink => Sys2Proof.Machine.execCxlLinkUp port rate width flit256 lopt ideLink s
  | .cxlLinkDown port => Sys2Proof.Machine.execCxlLinkDown port s
  | .cxlLinkRetrain port => Sys2Proof.Machine.execCxlLinkRetrain port s
  | .ideMacFail port lines => Sys2Proof.Machine.execIdeMacFail port lines s
  | .ggEnable r g => Sys2Proof.Machine.execGgEnable r g s
  | .ggRelease r g => Sys2Proof.Machine.execGgRelease r g s
  | .ggHoldReset r g => Sys2Proof.Machine.execGgHoldReset r g s
  | .ggLinkUp g => Sys2Proof.Machine.execGgLinkUp g s
  | .ioRd g tag addr len up => Sys2Proof.Machine.execIoRd g tag addr len up s
  | .ioWr g tag addr len data up => Sys2Proof.Machine.execIoWr g tag addr len data up s
  | .ccRdCur g tag line up => Sys2Proof.Machine.execCcRdCur g tag line up s
  | .ccRdShared g tag line up => Sys2Proof.Machine.execCcRdShared g tag line up s
  | .ccRdOwn g tag line up => Sys2Proof.Machine.execCcRdOwn g tag line up s
  | .ccWr g tag line data up => Sys2Proof.Machine.execCcWr g tag line data up s
  | .ccEvict g tag line dirty data up => Sys2Proof.Machine.execCcEvict g tag line dirty data up s
  | .ggQuarantineWalkDone g => Sys2Proof.Machine.execGgQuarantineWalkDone g s
  | .ddrSizingDone c found => Sys2Proof.Machine.execDdrSizingDone c found s
  | .ddrAttemptDone c result => Sys2Proof.Machine.execDdrAttemptDone c result s
  | .ddrChannelReady c badRecords => Sys2Proof.Machine.execDdrChannelReady c badRecords s
  | .trainingAreaStore => Sys2Proof.Machine.execTrainingAreaStore s
  | .ddrAlert c => Sys2Proof.Machine.execDdrAlert c s
  | .ddrAlertRelease c => Sys2Proof.Machine.execDdrAlertRelease c s
  | .ddrPageIdleClose c bank => Sys2Proof.Machine.execDdrPageIdleClose c bank s
  | .ddrRefreshDue c rank pays => Sys2Proof.Machine.execDdrRefreshDue c rank pays s
  | .ddrMr4Poll c doubled => Sys2Proof.Machine.execDdrMr4Poll c doubled s
  | .ddrCorrectionWriteback c line => Sys2Proof.Machine.execDdrCorrectionWriteback c line s
  | .ddrPatrolRead c found => Sys2Proof.Machine.execDdrPatrolRead c found s
  | .ddrKeyDerived c => Sys2Proof.Machine.execDdrKeyDerived c s
  | .ddrWalkUnit c line up => Sys2Proof.Machine.execDdrWalkUnit c line up s
  | .eccCntClear r v => Sys2Proof.Machine.execEccCntClear r v s
  | .laneReqOn r l => Sys2Proof.Machine.execLaneReqOn r l s
  | .laneReqQuiet r l => Sys2Proof.Machine.execLaneReqQuiet r l s
  | .laneReqDormant r l => Sys2Proof.Machine.execLaneReqDormant r l s
  | .laneAdapted l => Sys2Proof.Machine.execLaneAdapted l s
  | .lanePllUnlock l => Sys2Proof.Machine.execLanePllUnlock l s
  | .lanePllRelock l => Sys2Proof.Machine.execLanePllRelock l s
  | .laneTxWrite l w => Sys2Proof.Machine.execLaneTxWrite l w s
  | .laneTxUnderflow l => Sys2Proof.Machine.execLaneTxUnderflow l s
  | .laneRxSlip l early => Sys2Proof.Machine.execLaneRxSlip l early s
  | .laneSignalLoss l => Sys2Proof.Machine.execLaneSignalLoss l s
  | .laneSignalReturn l => Sys2Proof.Machine.execLaneSignalReturn l s
  | .cascPortStart p => Sys2Proof.Machine.execCascPortStart p s
  | .capsFrame p lane field payload crcOk inv => Sys2Proof.Machine.execCapsFrame p lane field payload crcOk inv s
  | .eqFrame p lane field payload crcOk => Sys2Proof.Machine.execEqFrame p lane field payload crcOk s
  | .bringupAdaptEnd p => Sys2Proof.Machine.execBringupAdaptEnd p s
  | .bringupMeasureEnd p errors bits => Sys2Proof.Machine.execBringupMeasureEnd p errors bits s
  | .cascPortDown p reason => Sys2Proof.Machine.execCascPortDown p reason s
  | .cascPortRestart p => Sys2Proof.Machine.execCascPortRestart p s
  | .prbsLock l lock bits errs => Sys2Proof.Machine.execPrbsLock l lock bits errs s
  | .prbsBitsRead r l => Sys2Proof.Machine.execPrbsBitsRead r l s
  | .prbsClear r v => Sys2Proof.Machine.execPrbsClear r v s
  | .errInject r l n => Sys2Proof.Machine.execErrInject r l n s
  | .codewordReceive p fec crcOk seq ackv ack nak credits => Sys2Proof.Machine.execCodewordReceive p fec crcOk seq ackv ack nak credits s
  | .linkLostTimeout p => Sys2Proof.Machine.execLinkLostTimeout p s
  | .hello p nonce intact partner differ => Sys2Proof.Machine.execHello p nonce intact partner differ s
  | .kconf p v => Sys2Proof.Machine.execKconf p v s
  | .rekey p idx => Sys2Proof.Machine.execRekey p idx s
  | .tweakCountLimit p => Sys2Proof.Machine.execTweakCountLimit p s
  | .time p t => Sys2Proof.Machine.execTime p t s
  | .timeEcho p trip turn => Sys2Proof.Machine.execTimeEcho p trip turn s
  | .timePeriod => Sys2Proof.Machine.execTimePeriod s
  | .enumRound => Sys2Proof.Machine.execEnumRound s
  | .enum => Sys2Proof.Machine.execEnum s
  | .enumAnswer dev part id dim group lc st t => Sys2Proof.Machine.execEnumAnswer dev part id dim group lc st t s
  | .assign members => Sys2Proof.Machine.execAssign members s
  | .cascAdmit dev => Sys2Proof.Machine.execCascAdmit dev s
  | .masterLostTimeout => Sys2Proof.Machine.execMasterLostTimeout s
  | .hbEdgeMissed first => Sys2Proof.Machine.execHbEdgeMissed first s
  | .hbGone => Sys2Proof.Machine.execHbGone s
  | .takeover => Sys2Proof.Machine.execTakeover s
  | .fenceAck => Sys2Proof.Machine.execFenceAck s
  | .takeoverAckTimeout => Sys2Proof.Machine.execTakeoverAckTimeout s
  | .witnessGnt level => Sys2Proof.Machine.execWitnessGnt level s
  | .witnessTimeout => Sys2Proof.Machine.execWitnessTimeout s
  | .twinSoloTimeout => Sys2Proof.Machine.execTwinSoloTimeout s
  | .mirrorRecord seq line data synced => Sys2Proof.Machine.execMirrorRecord seq line data synced s
  | .mack seq => Sys2Proof.Machine.execMack seq s
  | .twinForceActive r granted => Sys2Proof.Machine.execTwinForceActive r granted s
  | .twinRelease r => Sys2Proof.Machine.execTwinRelease r s
  | .mctpObjectRead m index sub offset len => Sys2Proof.Machine.execMctpObjectRead m index sub offset len s
  | .mctpObjectWrite m index sub offset last data => Sys2Proof.Machine.execMctpObjectWrite m index sub offset last data s
  | .mctpEventAck m seq => Sys2Proof.Machine.execMctpEventAck m seq s
  | .setEndpointId vdm eid => Sys2Proof.Machine.execSetEndpointId vdm eid s
  | .getEndpointId vdm => Sys2Proof.Machine.execGetEndpointId vdm s
  | .getMctpVersionSupport vdm => Sys2Proof.Machine.execGetMctpVersionSupport vdm s
  | .getMessageTypeSupport vdm => Sys2Proof.Machine.execGetMessageTypeSupport vdm s
  | .eventPushRetry => Sys2Proof.Machine.execEventPushRetry s
  | .getVersion v => Sys2Proof.Machine.execGetVersion v s
  | .getCapabilities v => Sys2Proof.Machine.execGetCapabilities v s
  | .negotiateAlgorithms v ok => Sys2Proof.Machine.execNegotiateAlgorithms v ok s
  | .getDigests v => Sys2Proof.Machine.execGetDigests v s
  | .getCertificate v slot offset len => Sys2Proof.Machine.execGetCertificate v slot offset len s
  | .challenge v slot => Sys2Proof.Machine.execChallenge v slot s
  | .getMeasurements v block => Sys2Proof.Machine.execGetMeasurements v block s
  | .keyExchange v slot => Sys2Proof.Machine.execKeyExchange v slot s
  | .finish v ok => Sys2Proof.Machine.execFinish v ok s
  | .endSession v => Sys2Proof.Machine.execEndSession v s
  | .keyUpdate v => Sys2Proof.Machine.execKeyUpdate v s
  | .usdoDownload node index sub offset last data => Sys2Proof.Machine.execUsdoDownload node index sub offset last data s
  | .usdoUpload node index sub => Sys2Proof.Machine.execUsdoUpload node index sub s
  | .syncFrame code => Sys2Proof.Machine.execSyncFrame code s
  | .nmtResetCommunication => Sys2Proof.Machine.execNmtResetCommunication s
  | .canHeartbeatTick => Sys2Proof.Machine.execCanHeartbeatTick s
  | .emcySend => Sys2Proof.Machine.execEmcySend s
  | .canApply r v => Sys2Proof.Machine.execCanApply r v s
  | .canBusOff tec => Sys2Proof.Machine.execCanBusOff tec s
  | .canErrorPassive rec tec => Sys2Proof.Machine.execCanErrorPassive rec tec s
  | .segmentTimeout index sub => Sys2Proof.Machine.execSegmentTimeout index sub s
  | .storeAll r v => Sys2Proof.Machine.execStoreAll r v s
  | .restoreDefaults r v => Sys2Proof.Machine.execRestoreDefaults r v s
  | .paramStoreDone bad => Sys2Proof.Machine.execParamStoreDone bad s
  | .eventRead r => Sys2Proof.Machine.execEventRead r s
  | .eventLostRead r => Sys2Proof.Machine.execEventLostRead r s
  | .dtimeSet r v => Sys2Proof.Machine.execDtimeSet r v s
  | .schedAdd r v => Sys2Proof.Machine.execSchedAdd r v s
  | .schedDue e => Sys2Proof.Machine.execSchedDue e s
  | .schedLateEntry e => Sys2Proof.Machine.execSchedLateEntry e s
  | .ppsPulse => Sys2Proof.Machine.execPpsPulse s
  | .mioBankDetect bank v33 => Sys2Proof.Machine.execMioBankDetect bank v33 s
  | .mioBankFloat bank mv => Sys2Proof.Machine.execMioBankFloat bank mv s
  | .mioContention pin => Sys2Proof.Machine.execMioContention pin s
  | .mioStatusClear r pin => Sys2Proof.Machine.execMioStatusClear r pin s
  | .smConversion ch v => Sys2Proof.Machine.execSmConversion ch v s
  | .aninRangeWrite r i v => Sys2Proof.Machine.execAninRangeWrite r i v s
  | .goithLineReset => Sys2Proof.Machine.execGoithLineReset s
  | .goithSyncByte b => Sys2Proof.Machine.execGoithSyncByte b s
  | .attach g => Sys2Proof.Machine.execAttach g s
  | .detach g => Sys2Proof.Machine.execDetach g s
  | .portClear g => Sys2Proof.Machine.execPortClear g s
  | .goithAbort g => Sys2Proof.Machine.execGoithAbort g s
  | .portCmdInvalid g cmd => Sys2Proof.Machine.execPortCmdInvalid g cmd s
  | .engSelWrite g v => Sys2Proof.Machine.execEngSelWrite g v s
  | .engDataAccess g rnw v => Sys2Proof.Machine.execEngDataAccess g rnw v s
  | .prbDataAccess g rnw v => Sys2Proof.Machine.execPrbDataAccess g rnw v s
  | .memBufAccess g rnw v => Sys2Proof.Machine.execMemBufAccess g rnw v s
  | .readLine g adv => Sys2Proof.Machine.execReadLine g adv s
  | .writeLine g adv => Sys2Proof.Machine.execWriteLine g adv s
  | .readWord g adv => Sys2Proof.Machine.execReadWord g adv s
  | .writeBytes g adv lanes => Sys2Proof.Machine.execWriteBytes g adv lanes s
  | .goithMemDone => Sys2Proof.Machine.execGoithMemDone s
  | .tunRead g => Sys2Proof.Machine.execTunRead g s
  | .tunWrite g => Sys2Proof.Machine.execTunWrite g s
  | .tunDataAccess g rnw v => Sys2Proof.Machine.execTunDataAccess g rnw v s
  | .goithTunnelDone => Sys2Proof.Machine.execGoithTunnelDone s
  | .rbFrameWrite g v => Sys2Proof.Machine.execRbFrameWrite g v s
  | .goithReadbackDone => Sys2Proof.Machine.execGoithReadbackDone s
  | .rbDataRead g => Sys2Proof.Machine.execRbDataRead g s
  | .goithAttachTimeout => Sys2Proof.Machine.execGoithAttachTimeout s
  | .monitorStore e => Sys2Proof.Machine.execMonitorStore e s
  | .monitorLoad e => Sys2Proof.Machine.execMonitorLoad e s
  | .monitorResume e => Sys2Proof.Machine.execMonitorResume e s
  | .dbgToken r t => Sys2Proof.Machine.execDbgToken r t s
  | .dbgTokenVerified => Sys2Proof.Machine.execDbgTokenVerified s
  | .dbgChallengeRead r => Sys2Proof.Machine.execDbgChallengeRead r s
  | .dbgEnd r v => Sys2Proof.Machine.execDbgEnd r v s
  | .dbgTokenExpiry => Sys2Proof.Machine.execDbgTokenExpiry s
  | .tapReset => Sys2Proof.Machine.execTapReset s
  | .idcode => Sys2Proof.Machine.execIdcode s
  | .bypass => Sys2Proof.Machine.execBypass s
  | .samplePreload => Sys2Proof.Machine.execSamplePreload s
  | .extest => Sys2Proof.Machine.execExtest s
  | .extestPulse => Sys2Proof.Machine.execExtestPulse s
  | .extestTrain => Sys2Proof.Machine.execExtestTrain s
  | .clamp => Sys2Proof.Machine.execClamp s
  | .highz => Sys2Proof.Machine.execHighz s
  | .registerWrite t => Sys2Proof.Machine.execRegisterWrite t s
  | .porNRise => Sys2Proof.Machine.execPorNRise s
  | .vccioRise bank => Sys2Proof.Machine.execVccioRise bank s
  | .latchedWakeRise => Sys2Proof.Machine.execLatchedWakeRise s
  | .cfgrReadyChange level => Sys2Proof.Machine.execCfgrReadyChange level s
  | .hostQuotaEvictionDone => Sys2Proof.Machine.execHostQuotaEvictionDone s
  | .cxlLinkRetrainDone port => Sys2Proof.Machine.execCxlLinkRetrainDone port s
  | .ideKm port link => Sys2Proof.Machine.execIdeKm port link s
  | .canBusOffRecovery => Sys2Proof.Machine.execCanBusOffRecovery s
  | .trainingAreaStoreDone => Sys2Proof.Machine.execTrainingAreaStoreDone s
  | .paramEraseDone => Sys2Proof.Machine.execParamEraseDone s
  | .bringupRateSwitch p => Sys2Proof.Machine.execBringupRateSwitch p s

end Sys2Proof.Machine
end

