-- ==== Sys2Proof/Machine/Pins.lean ====
section
/-! DEFINITION. The special outputs of the package: what each drives, before, during and after effective reset (02 R77). -/
namespace Sys2Proof.Machine

/-- A special output (02 R77; HB_TX: 14 R622). -/
inductive SpecialPin where
  | initDone | errorN | alertN | thermtripN | corePwrEn | xspiCsN (k : Fin 2) | xspiResetN (k : Fin 2) | cfgrValid | cfgiReady | takeover | witnessReq
  | hbTx | tdo | gdbgIo | ddrResetN (c : Fin 16)
  deriving DecidableEq, Repr
/-- What an output does: high impedance, or driven to a level. -/
inductive Drive where | hiZ | low | high deriving DecidableEq, Repr

/-- An open-drain output. -/
def openDrain (low : Bool) : Drive := if low then .low else .hiZ
/-- A driven level. -/
def level (b : Bool) : Drive := if b then .high else .low
/-- A level within a protocol that the state does not follow edge by edge: a free value (log entry 99). -/
def protocolLevel (s : State) (k : Nat) : Drive := level (Config.freeNat (s.freeCtr + k) % 2 == 1)

/-- An output that its protocol drives or releases: a free choice (log entry 99). -/
def protocolOr (s : State) (k : Nat) : Drive := if Config.freeNat (s.freeCtr + k + 1) % 2 = 1 then protocolLevel s k else .hiZ

/-- CFGI_READY (05 R246): raised at step 6, high while the device takes the stream, its rest or the relay section; held low after a failure of check 1. While the
section passes through, it follows the device downstream (log entry 99). -/
def cfgiReady (s : State) : Bool :=
  strapCfgSrc s && clocked s &&
    ((s.rst.phase == .directory && s.ld.load.isNone)
      || (match s.ld.load with | some l => l.src == 0xFE#8 && loadReads l | none => false)
      || 0 < s.ld.rest || s.ld.relay == .waiting || cfgrValid s)
/-- WITNESS_REQ (14 R629): held by an ACTIVE device, raised by a standby that takes over. -/
def witnessReq (s : State) : Bool := oGet s O_WITNESS_EN == 1 && (twinState s == 4 || s.twin.request)

/-- What a special output does (02 R77). No row says when VCCDDR comes into range as the rails rise, so that DDRcc_RESET_n may be low from then on is a free choice
until the end of effective reset names the rail (log entry 99). -/
def pinDrive (s : State) (p : SpecialPin) : Drive :=
  let up := !s.pwr.effReset
  if !auxIn s then .hiZ
  else match p with
    | .initDone => openDrain (s.pwr.effReset || initLow s)
    | .errorN => openDrain (errorLow s)
    | .alertN => openDrain (alertLow s)
    | .thermtripN => openDrain (thermtripLow s)
    | .corePwrEn => level s.pwr.corePwrEn
    | .xspiCsN k =>
      if up && (match s.ld.load with | some l => fromFlash l && loadReads l | none => s.rst.phase == .directory) then protocolLevel s k.val else .high
    | .xspiResetN k => if s.pwr.effReset then .low else if s.rst.phase == .wiping || s.rst.phase == .directory then protocolLevel s (2 + k.val) else .high
    | .cfgrValid => level (up && cfgrValid s)
    | .cfgiReady => level (up && cfgiReady s)
    | .takeover => level (up && twinState s == 4)
    | .hbTx => level (hbRuns s && s.fw.dtime < s.twin.hbAt + 50)
    | .witnessReq => level (up && witnessReq s)
    | .tdo => if up then protocolOr s 4 else .hiZ
    | .gdbgIo => if up then protocolOr s 6 else .hiZ
    | .ddrResetN c => if up then level (chan s c.val).resetN
      else if s.pwr.rails.getLsbD 6 || Config.freeNat (s.freeCtr + 9) % 2 = 1 then .low else .hiZ

/-- An MIO pin as the package shows it (16 R682, R684, R691): its driver, and the pull of MIO_CFG while it does not float. An open-drain output drives low alone; a
level that the state does not give is a free value. -/
def mioDrive (s : State) (p : Nat) : Drive :=
  let f := mioFunc s p
  if pinFloats s p || f == 0xA || (f == 2 && p % 2 == 1) then .hiZ
  else
    let od := f == 7 || f == 8 || f == 9 || f == 0xC || (f == 1 && (oGet s (O_MIO_CFG p)).testBit 2)
    match pinOut s p with
    | some b => if od then openDrain (!b) else level b
    | none => if f == 3 then protocolOr s 10 else protocolLevel s 10
/-- The pull of an MIO pin: 0 none, 1 up, 2 down (16 R702). -/
def mioPull (s : State) (p : Nat) : Nat := if pinFloats s p then 0 else oGet s (O_MIO_CFG p) % 4

end Sys2Proof.Machine
end

