-- ==== Sys2Proof/Machine/Tick.lean ====
section
/-! DEFINITION. What time brings when no command waits: one cycle of ENG, 1 / 1.2 ns (03 R107, R108; log entry 1). -/
namespace Sys2Proof.Machine

/-- DTIME advances by one ENG cycle, in units of 1 / 6,000,000 ns, steered in parts per million (15 R670; 14 R616). -/
def tickTime (s : State) : State :=
  let n := (Int.ofNat (s.fw.sixths + 5000000) + 5 * s.casc.steer).toNat
  if s.clk.locked then { s with fw := { s.fw with dtime := (s.fw.dtime + n / 6000000) % 2 ^ 64, sixths := n % 6000000 } } else s
/-- Every engine takes a cycle; at throttle level n the clock is withheld for n of every 16 (02 R91). -/
def tickEngines (s : State) : State :=
  let held := s.fw.engTick % 16 < throttleLevel s
  let s1 := (s.eng.map (·.1)).foldl (fun a e => engCycle a e held) s
  { s1 with fw := { s1.fw with engTick := (s1.fw.engTick + 1) % 16 } }
/-- Every register of the fabric takes a step, then the reset trees follow their sources, and a running capture takes a sample at an edge of its clock (06 R293; log entry 81). -/
def tickFabric (s : State) : State :=
  let s1 := if capRuns s && keyEdge s (oGet s O_CAP_CLOCK) then capSample s (probeSample s) else s
  freeStep (treeTick s (tickQbs (setLogic s1 (logicStep s))))
/-- A new probe selection takes effect (06 R291). -/
def tickProbes (s : State) : State := setFab s { s.fab with probeNew := 0#64 }
/-- The idle tick. -/
def idleTick (s : State) : State := uartTick <| flushTick <| fuTick <| pushFirst <| reassignTick <| laneTick <| bringTick <| codeTick <| linkTick <| copyTick <| cascTick <| hbTick <|
  tickProbes (tickFabric (tickEngines (tickTime s)))

end Sys2Proof.Machine
end

