-- ==== Sys2Proof/Safety.lean ====
section
/-! DEFINITION. What a safe run is, in the terms that the statements use: the canonical form of a memory, accepted and refused accesses, fuses that only
go one way. -/
namespace Sys2Proof.Machine

/-- The canonical form of a sparse table: strictly rising keys. -/
def Tab.rising {α : Type} (t : Tab α) : Bool :=
  match t with
  | [] => true
  | (a, _) :: r => (match r with | [] => true | (b, _) :: _ => decide (a < b)) && Tab.rising r
/-- The canonical form of a memory whose unlisted cells read as `d`: strictly rising addresses, and no entry equal to `d`. -/
abbrev Memory.wf {α : Type} [DecidableEq α] (t : Tab α) (d : α) : Bool := Tab.rising t && t.all fun x => decide (x.2 ≠ d)

/-- The write of object `k` is accepted: the requester's path is open and no check of 15 R648 fails. -/
abbrev Accepted (s : State) (r : Req) (k len val : Nat) (c : Conds) : Prop :=
  pathOpen s r = true ∧ checkWrite s r (k / 256) (k % 256) len val c = 0#32
/-- The write of object `k` is aborted with `code`. -/
abbrev Aborted (s : State) (r : Req) (k len val : Nat) (c : Conds) (code : BitVec 32) : Prop :=
  pathOpen s r = true ∧ checkWrite s r (k / 256) (k % 256) len val c = code ∧ code ≠ 0#32
/-- The read of object `k` is answered. -/
abbrev Readable (s : State) (r : Req) (k : Nat) : Prop := pathOpen s r = true ∧ checkRead s r (k / 256) (k % 256) = 0#32

/-- One key slot after another (04 R189 to R191; 05 R236): what is fused, destroyed or revoked stays so, and a fused slot keeps its
value until it is destroyed. -/
abbrev SlotLe (x y : KeySlot) : Prop :=
  (x.fused = true → y.fused = true) ∧ (x.destroyed = true → y.destroyed = true) ∧ (x.revoked = true → y.revoked = true) ∧
    (x.fused = true → y.destroyed = false → y.val = x.val)
/-- Fuses only go one way (04 R186, R189): no blown bit of the life-cycle groups clears, and every key slot goes as SlotLe says. -/
def FuseLe (s t : State) : Prop := (∀ i, tabGet s.fuse.lg i 0#8 &&& tabGet t.fuse.lg i 0#8 = tabGet s.fuse.lg i 0#8) ∧
  ∀ k < 7, SlotLe (fuseSlot s k) (fuseSlot t k)
/-- Every destroyed key slot has all bits blown (04 R189). -/
def SlotsOk (s : State) : Prop := ∀ k < 7, (fuseSlot s k).destroyed = true → (fuseSlot s k).val = slotOnes k

/-- Bundle `w` issues in this cycle of engine `e`: the engine is clocked and issues, no cycle of a branch, an entry or a port's rate is left to pass,
no debug event and no interrupt is due, no exception applies, a coefficient load has paid its freeze cycle, and a stream operation can move its
word (08 R338 to R341, R363, R379; 09 R421). -/
abbrev Issues (s : State) (e : Nat) (w : BitVec 64) : Prop :=
  engClocked s e = true ∧ engIssues (engOf s e) = true ∧ (engOf s e).frozen = none ∧
    ((engOf s e).wait = 0 ∧ (engOf s e).spIn = 0 ∧ (engOf s e).spOut = 0) ∧ debugDue (engOf s e) = none ∧ irqDue s e = false ∧
    bundleFault s e w = none ∧ (hasCld w = false ∨ fromCache (engOf s e) = true ∨ (engOf s e).cldPaid = true) ∧
    (decBundle w).all (fun b => !streamBlocked s e b) = true

/-- Does a bundle store to word `i` of data memory `y` (09 R406, R415)? -/
def storesTo (g : Engine) (b : Bundle) (y : Bool) (i : Nat) : Bool :=
  match b with
  | .par _ _ x z =>
    let o := if y then z else x
    (storeWord g y o).isSome && (slotAddr g o).1 / 32 == i
  | .ctl (.abs m sub _ a) => m == y && (sub == 1 || sub == 3) && a / 32 == i
  | _ => false

end Sys2Proof.Machine
end

