-- ==== Sys2Proof/Certificates/Slice0/Obligations.lean ====
section
/-! DEFINITION. The obligations: what the commands of the NGZ-9640 do and what they leave alone, rule by rule. -/

open Sys2Proof Sys2Proof.Machine

/-- Rows VCCAUX_RISE, VCCAUX_LOSS, POR_N_LOW, POR_N_RISE, EFFECTIVE_RESET_END, VCCIO_OUT_OF_RANGE, VCCIO_RETURN, VCCIO_RISE, THERMAL_TRIP, TAMPER, VBAT_LOW and VBAT_DOMAIN_RESET: each answers the state written out, in which everything not named is as it was; where its condition does not hold it leaves the state as it is. As VCCAUX returns VBAT is measured, the strap levels are seen and everything but fuses and the VBAT domain is as at power-up; that the bit of VBAT in RAIL_STATUS follows the measurement is DEDUCED from 02 R67, and the strap levels before the sampling, the free counter, the trip that holds every unit reset, and a rise of VCCAUX back into range in a brownout, which ends no OFF state, are the model's choices (log entries 94, 2, 92, 105). A tamper or VBAT-low latch that is set already sets again (log entry 97, the model's choice). Rows POWER_MONITOR_SAMPLE and POWER_WINDOW_END: a sample joins the sums of the running window. A window's end sets the level nextThrottle gives from the mean cut down to whole mW (log entry 96, the model's choice), and clears the sums. The level goes up by one, to at most 15, above POWER_CAP with CAP_ACTION 1, down by one below 95 % of it, and otherwise stays. -/
def Obligations.Supplies : Prop :=
  (∀ (mv straps : BitVec 16) (s : State),
      exec (.vccauxRise mv straps) s = .next (if s.pwr.vaux = true ∧ s.pwr.rails.getLsbD 7 = true then s else if s.pwr.vaux = true then { s with vbat := { s.vbat with mvAtReturn := mv }, pwr := { s.pwr with rails := setBit (setBit s.pwr.rails 7 true) 11 (2200 ≤ mv.toNat && mv.toNat ≤ 3600) } } else { State.reset with pending := s.pending, freeCtr := s.freeCtr + freeBlock, fuse := s.fuse, vbat := { s.vbat with mvAtReturn := mv }, pwr := { State.reset.pwr with porN := s.pwr.porN, straps := straps &&& 0xFFFC#16, rails := setBit State.reset.pwr.rails 11 (2200 ≤ mv.toNat && mv.toNat ≤ 3600) } })) ∧
  (∀ (s : State),
      exec .vccauxLoss s = .next (if s.pwr.vaux = true then { State.reset with pending := s.pending, freeCtr := s.freeCtr + freeBlock, fuse := s.fuse, vbat := s.vbat, pwr := { State.reset.pwr with vaux := false, corePwrEn := false, rails := 0#28, porN := false, straps := 0#16 }, rst := { State.reset.rst with count := 0#32 } } else s)) ∧
  (∀ (s : State),
      exec .porNLow s = .next (if s.pwr.vaux = true then { coldReset s 0x0001 with pwr := { keepPower s.pwr with effReset := true, gone := goneAfter s, porN := false, tripped := false } } else s)) ∧
  (∀ (s : State),
      exec .porNRise s = .next (if s.pwr.vaux = true then { s with pwr := { s.pwr with porN := true }, dbg := { s.dbg with tap := .idcode } } else s)) ∧
  (∀ (straps : BitVec 16) (rails : BitVec 28) (s : State),
      s.pwr.vaux = true →
      s.pwr.rails.getLsbD 7 = true →
      s.pwr.tripped = false →
      s.pwr.porN = true →
      s.pwr.effReset = true →
      monitoredIn rails = true →
      s.rst.phase = .held →
      s.rst.standby = .none →
      exec (.effectiveResetEnd straps rails) s = .next { s with pwr := { s.pwr with effReset := false, rails := railsSeen s.pwr rails, monSuspended := false, sampled := true, straps := if s.rst.warm = true then s.pwr.straps else straps &&& 0xFFFC#16 }, rst := { s.rst with phase := if s.pwr.sysRstN = true then .wiping else .held } }) ∧
  (∀ (straps : BitVec 16) (rails : BitVec 28) (s : State),
      (s.pwr.vaux = false ∨ s.pwr.rails.getLsbD 7 = false ∨ s.pwr.tripped = true ∨ s.pwr.porN = false ∨ s.pwr.effReset = false ∨ monitoredIn rails = false) →
      exec (.effectiveResetEnd straps rails) s = .next s) ∧
  (∀ (bank : Fin 16) (s : State),
      exec (.vccioOutOfRange bank) s = .next (if s.pwr.vaux = true ∧ s.pwr.vccioUnused.getLsbD bank.val = false ∧ s.pwr.vccioHiZ.getLsbD bank.val = false then logEv { s with pwr := { s.pwr with vccioHiZ := setBit s.pwr.vccioHiZ bank.val true, rails := setBit s.pwr.rails (12 + bank.val) false } } 0x2103 sevErr bank.val else s)) ∧
  (∀ (bank : Fin 16) (s : State),
      exec (.vccioReturn bank) s = .next (if s.pwr.vaux = true ∧ s.pwr.vccioUnused.getLsbD bank.val = false then { s with pwr := { s.pwr with vccioHiZ := setBit s.pwr.vccioHiZ bank.val false, rails := setBit s.pwr.rails (12 + bank.val) true } } else s)) ∧
  (∀ (bank : Fin 16) (s : State),
      exec (.vccioRise bank) s = .next (if s.pwr.vaux = true then { s with pwr := { s.pwr with vccioUnused := setBit s.pwr.vccioUnused bank.val false } } else s)) ∧
  (∀ (site : Fin 40) (s : State),
      s.pwr.vaux = true →
      s.pwr.tripped = false →
      ∃ t, exec (.thermalTrip site) s = .next t ∧ t.pwr.tripped = true ∧ t.pwr.tripLatch = some (s.pwr.tripLatch.getD site.val) ∧
        thermtripLow t = true ∧ errorLow t = true ∧ t.clk.locked = false ∧ t.clk.clkRun = 0#38 ∧ clocked t = false ∧ t.eng = [] ∧ t.fab = {} ∧
        t.rst.initDone = s.rst.initDone ∧ t.fuse = s.fuse ∧ t.vbat = s.vbat ∧ t.pending = s.pending ∧ t.pwr.rails = s.pwr.rails ∧
        t.pwr.effReset = s.pwr.effReset ∧ t.pwr.porN = s.pwr.porN) ∧
  (∀ (site : Fin 40) (s : State),
      (s.pwr.vaux = false ∨ s.pwr.tripped = true) →
      exec (.thermalTrip site) s = .next s) ∧
  (∀ (s : State),
      let v := { s.vbat with key := 0#256, keyHeld := false, tamper := true, tamperLogged := fwRuns s, tamperTime := BitVec.ofNat 24 (s.fw.dtime / 1000) };
      let s1 := if fwRuns s = true then logEv { s with vbat := v } 0x2104 sevErr (s.fw.dtime / 1000 % 2 ^ 24) else { s with vbat := v };
      exec .tamper s = .next (endToken (tamperLoad s1) 5) ∧ (s.ld.load = none → s.dbg.token = none → endToken (tamperLoad s1) 5 = s1)) ∧
  (∀ (mv : BitVec 16) (s : State),
      exec (.vbatLow mv) s = .next (if (s.pwr.vaux = false ∨ s.pwr.rails.getLsbD 7 = false) ∧ mv.toNat < 2000 then { s with vbat := { s.vbat with key := 0#256, keyHeld := false, low := true, lowLogged := false }, pwr := { s.pwr with rails := setBit s.pwr.rails 11 false } } else s)) ∧
  (∀ (s : State),
      exec .vbatDomainReset s = .next (if s.pwr.vaux = false ∨ s.pwr.rails.getLsbD 7 = false then { s with vbat := {} } else s)) ∧
  (∀ (pkg : BitVec 32) (dies : Vector (BitVec 32) 8) (rails : Vector (BitVec 32) 7) (s : State),
      exec (.powerMonitorSample pkg dies rails) s = .next (if clocked s = true then { s with pwr := { s.pwr with sumPkg := s.pwr.sumPkg + pkg.toNat, sumDie := addSums s.pwr.sumDie dies.toList 0, sumRail := addSums s.pwr.sumRail rails.toList 0, samples := s.pwr.samples + 1 } } else s)) ∧
  (∀ (s : State),
      let p := s.pwr.sumPkg / max 1 s.pwr.samples;
      clocked s = true →
      ∃ t, exec .powerWindowEnd s = .next t ∧ oGet t O_THROTTLE_LEVEL = nextThrottle s p ∧ oGet t O_PKG_POWER = p ∧
        oGet t O_PKG_POWER_PEAK = max p (oGet s O_PKG_POWER_PEAK) ∧
        t.pwr.sumPkg = 0 ∧ t.pwr.samples = 0 ∧ t.pwr.sumDie = [] ∧ t.pwr.sumRail = [] ∧ t.pwr.rails = s.pwr.rails ∧ t.clk = s.clk ∧ t.rst = s.rst ∧
        t.eng = s.eng ∧ t.fuse = s.fuse) ∧
  (∀ (s : State),
      clocked s = false →
      exec .powerWindowEnd s = .next s) ∧
  (∀ (s : State) (p : Nat),
      oGet s O_POWER_CAP < p →
      oGet s O_CAP_ACTION = 1 →
      nextThrottle s p = min 15 (oGet s O_THROTTLE_LEVEL + 1)) ∧
  (∀ (s : State) (p : Nat),
      p * 100 < oGet s O_POWER_CAP * 95 →
      nextThrottle s p = oGet s O_THROTTLE_LEVEL - 1)

/-- Row BROWNOUT: a monitored rail below its range puts the device into the cold reset with cause 0x0002 and clears the rail's bit. The second clause says what any cold reset keeps: the queue, fuses, VBAT domain, what the supplies hold and what AON holds; engines, memories, objects, windows and firmware state are those of State.reset. It does not end the condition after a thermal trip, which POR_N alone ends: there a brownout asserts effective reset and clears the rail's bit, and nothing else changes (04 R185). Which value the free counter has is the model's own (log entry 2). -/
def Obligations.ColdReset : Prop :=
  (∀ (rail : MonRail) (s : State),
      let s1 := if s.pwr.tripped = true then { s with pwr := { s.pwr with effReset := true } } else coldReset s 0x0002;
      exec (.brownout rail) s = .next (if s.pwr.vaux = true ∧ (rail = .vccaux ∨ s.pwr.monSuspended = false) then { s1 with pwr := { s1.pwr with rails := setBit s1.pwr.rails (monBit rail) false } } else s)) ∧
  (∀ (s : State) (cause : Nat),
      s.rst.phase ≠ .held →
      s.rst.flushing = false →
      ∃ t, t = coldReset s cause ∧ t.pending = s.pending ∧ t.fuse = s.fuse ∧ t.vbat = s.vbat ∧ t.eng = State.reset.eng ∧ t.obj = State.reset.obj ∧
        t.hub = State.reset.hub ∧ t.ddr = State.reset.ddr ∧ t.fw = State.reset.fw ∧ t.ld = State.reset.ld ∧ t.dbg = State.reset.dbg ∧
        t.rst.cause = BitVec.ofNat 16 cause ∧ t.rst.count = s.rst.count + 1#32 ∧ t.rst.lc = s.rst.lc ∧ t.rst.phase = .held ∧
        t.rst.nextProfile = s.rst.nextProfile ∧ t.pwr.rails = s.pwr.rails ∧ t.pwr.straps = s.pwr.straps ∧ t.pwr.tripLatch = s.pwr.tripLatch ∧ t.pwr.tripped = s.pwr.tripped ∧
        t.clk.accepted = s.clk.accepted ∧ t.clk.trim = State.reset.clk.trim ∧ t.clk.clkEn = 0#38)

/-- Rows CRYSTAL_STABLE, CRYSTAL_EDGE_TIMEOUT, ROOT_PLL_LOCK, REFIN_EDGE_TIMEOUT, REFIN_ACCEPT_TIMEOUT, RC100_CHECK, TRIM_ACQUIRED, SYNC_TRIM_PHASE1_DONE, SYNC_FRAME, SYNC_TIMEOUT, AON32K_MEASURE and MONITOR_WINDOW_END: each answers the state written out, in which everything not named is as it was. The model's own choices among them: a crystal edge that fails to come takes the judgement of stability back (log entry 93); an RC100 failure before the root PLL has locked is only noted, a suspended monitor starts no holdover (log entry 94); phase 1 of the trimming leaves TRIM_SOURCE as it is (log entry 95). -/
def Obligations.ClockMonitor : Prop :=
  (∀ (s : State),
      rc100Runs s = true →
      s.clk.xtalStable = false →
      strapRefSel s = 2 →
      exec .crystalStable s = .next { s with clk := { s.clk with xtalStable := true, goodRun := 0 } }) ∧
  (∀ (s : State),
      rc100Runs s = true →
      strapRefSel s = 2 →
      exec .crystalEdgeTimeout s = .next { s with clk := { s.clk with xtalStable := false } }) ∧
  (∀ (s : State),
      rc100Runs s = true →
      s.pwr.effReset = false →
      s.rst.standby = .none →
      s.clk.locked = false →
      exec .rootPllLock s = .next { s with clk := { s.clk with locked := true, mode := if s.clk.accepted = true ∧ strapError s = false then .ref else .reduced } }) ∧
  (∀ (s : State),
      clocked s = true →
      s.clk.mode = .ref →
      s.clk.monStopped = false →
      exec .refinEdgeTimeout s = .next { s with clk := { s.clk with holdover := true } }) ∧
  (∀ (s : State),
      rc100Runs s = true →
      s.clk.accepted = false →
      s.clk.late50 = false →
      exec .refinAcceptTimeout s = .next (logEv { s with clk := { s.clk with late50 := true } } 0x2203 sevErr s.clk.refCount.toNat)) ∧
  (∀ (count : BitVec 16) (s : State),
      rc100Runs s = true →
      2747 ≤ count.toNat →
      count.toNat ≤ 3357 →
      exec (.rc100Check count) s = .next { s with clk := { s.clk with rcBad := 0 } }) ∧
  (∀ (code : BitVec 16) (s : State),
      rc100Runs s = true →
      s.clk.accepted = true →
      s.clk.trimFrozen = false →
      exec (.trimAcquired code) s = .next { s with clk := { s.clk with trim := code, trimSource := 1#8, trimmedRef := true, trimHeld := false } }) ∧
  (∀ (code : BitVec 16) (s : State),
      syncTrims s = true →
      s.clk.syncPhase1 = false →
      exec (.syncTrimPhase1Done code) s = .next { s with clk := { s.clk with trim := code, syncPhase1 := true, syncSeen := false } }) ∧
  (∀ (code : BitVec 16) (s : State),
      syncTrims s = true →
      s.clk.syncPhase1 = true →
      s.clk.syncSeen = true →
      oGet s O_COMM_CYCLE ≠ 0 →
      s.clk.mode = .rc →
      exec (.syncFrame code) s = .next { s with clk := { s.clk with trim := code, trimSource := 2#8, trimHeld := false } }) ∧
  (∀ (s : State),
      syncTrims s = true →
      s.clk.syncPhase1 = true →
      oGet s O_COMM_CYCLE ≠ 0 →
      s.clk.trimHeld = false →
      exec .syncTimeout s = .next (logEv { s with clk := { s.clk with trimHeld := true, syncSeen := false } } 0x2209 sevWarn s.clk.trim.toNat)) ∧
  (∀ (mHz : BitVec 32) (s : State),
      operating s = true →
      exec (.aon32kMeasure mHz) s = .next (oSet s O_AON32K_FREQ mHz.toNat)) ∧
  (∀ (count : BitVec 16) (s : State),
      rc100Runs s = true →
      s.clk.monStopped = false →
      s.clk.mode = .ref →
      s.clk.locked = true →
      s.clk.holdover = false →
      (bandOf s).1 ≤ count.toNat →
      count.toNat ≤ (bandOf s).2 →
      exec (.monitorWindowEnd count) s = .next { s with clk := { s.clk with inBand := true, refCount := count, goodRun := s.clk.goodRun + 1, badRun := 0, sinceFail := s.clk.sinceFail + 1 } })

/-- Rows UNIT_CLOCK_STOPPED, SYNTH_LOCKED, SYNTH_RELEASE, SYNTH_GLIDE_STEP, SYNTH_LOCK_LOST, XTOGGLE_PULSE, XTOGGLE_CLR, XHOLD_REQ and XHOLD_DEST_RESET_END of a cell whose partition runs: each answers the state written out, in which everything not named is as it was. The last clause says what an edge of each clock does to a cell of each kind: an XTOGGLE's pulse is delivered once and BUSY falls when its return has been seen, an XCOUNT's Gray code changes in one bit and DELTA is the difference modulo 65,536, an XHOLD goes through the four steps of its handshake and delivers its word once. On which idle steps a clock that runs has its edges is left free (log entry 81). -/
def Obligations.ClockUnits : Prop :=
  (∀ (unit : Fin 38) (s : State),
      s.clk.clkRun.getLsbD unit.val = true →
      s.clk.clkEn.getLsbD unit.val = false →
      ¬ (1 ≤ unit.val ∧ unit.val < 0x11) →
      exec (.unitClockStopped unit) s = .next { s with clk := { s.clk with clkRun := setBit s.clk.clkRun unit.val false } }) ∧
  (∀ (i : Fin 32) (s : State),
      clocked s = true →
      (synthOf s i.val).run = .gatedLock →
      (synthOf s i.val).stopped = false →
      exec (.synthLocked i) s = .next { s with clk := { s.clk with synths := tabPut s.clk.synths i.val { synthOf s i.val with locked := true, run := .gatedRelease, vco := (synthOf s i.val).d * (synthOf s i.val).goal } } }) ∧
  (∀ (i : Fin 32) (s : State),
      clocked s = true →
      (synthOf s i.val).run = .gatedRelease →
      (synthOf s i.val).stopped = false →
      exec (.synthRelease i) s = .next { s with clk := { s.clk with synths := tabPut s.clk.synths i.val { synthOf s i.val with low := false, run := .none, freq := (synthOf s i.val).goal } } }) ∧
  (∀ (i : Fin 32) (s : State),
      clocked s = true →
      (synthOf s i.val).run = .glide →
      (synthOf s i.val).stopped = false →
      (synthOf s i.val).vco ≤ (synthOf s i.val).d * (synthOf s i.val).goal →
      (synthOf s i.val).vco + (synthOf s i.val).vco / 100 < (synthOf s i.val).d * (synthOf s i.val).goal →
      exec (.synthGlideStep i) s = .next { s with clk := { s.clk with synths := tabPut s.clk.synths i.val { synthOf s i.val with vco := (synthOf s i.val).vco + (synthOf s i.val).vco / 100, freq := ((synthOf s i.val).vco + (synthOf s i.val).vco / 100) / (synthOf s i.val).d } } }) ∧
  (∀ (i : Fin 32) (s : State),
      clocked s = true →
      (synthOf s i.val).locked = true →
      (synthOf s i.val).stopped = false →
      exec (.synthLockLost i) s = .next (logEv { s with clk := { s.clk with synths := tabPut s.clk.synths i.val { synthOf s i.val with locked := false, low := true, run := .gatedLock } } } 0x2206 sevErr i.val)) ∧
  (∀ (cell : XId) (y : XCell) (a b c o p : Bool) (n : Nat) (s : State),
      tabFind s.fab.logic.cross (crossKey cell) = some y →
      partRuns s cell.part.val = true →
      y.st = .toggle a b c o p n →
      clkOn s y.src = true →
      exec (.xtogglePulse cell) s = .next (setLogic s { s.fab.logic with cross := tabPut s.fab.logic.cross (crossKey cell) { y with st := if a ≠ c then .toggle a b c true p n else .toggle (!a) b c o p n } })) ∧
  (∀ (cell : XId) (y : XCell) (a b c o p : Bool) (n : Nat) (s : State),
      tabFind s.fab.logic.cross (crossKey cell) = some y →
      partRuns s cell.part.val = true →
      y.st = .toggle a b c o p n →
      clkOn s y.src = true →
      exec (.xtoggleClr cell) s = .next (setLogic s { s.fab.logic with cross := tabPut s.fab.logic.cross (crossKey cell) { y with st := .toggle a b c false p n } })) ∧
  (∀ (cell : XId) (word w l : BitVec 128) (y : XCell) (dn sk d v : Bool) (n : Nat) (s : State),
      tabFind s.fab.logic.cross (crossKey cell) = some y →
      partRuns s cell.part.val = true →
      y.st = .hold w false false dn sk d v l n →
      clkOn s y.src = true →
      exec (.xholdReq cell word) s = .next (setLogic s { s.fab.logic with cross := tabPut s.fab.logic.cross (crossKey cell) { y with st := .hold word true false false false d v l n } })) ∧
  (∀ (cell : XId) (w l : BitVec 128) (y : XCell) (a sk d v : Bool) (n : Nat) (s : State),
      tabFind s.fab.logic.cross (crossKey cell) = some y →
      partRuns s cell.part.val = true →
      y.st = .hold w true a false sk d v l n →
      exec (.xholdDestResetEnd cell) s = .next (setLogic s { s.fab.logic with cross := tabPut s.fab.logic.cross (crossKey cell) { y with st := .hold w true true true true d v l n } })) ∧
  (∀ (p : Nat) (s : State) (a b c o u : Bool) (n : Nat) (w l : BitVec 128) (r k dn sk d v : Bool) (ce : Sig) (g seen dl : BitVec 16),
      crossSrc s p (.toggle a b c o u n) = .toggle a b b o u n ∧ crossDst (.toggle a b c o u n) = .toggle a a c o (a != b) (if a != b then n + 1 else n) ∧
        crossSrc s p (.hold w r k dn sk d v l n) = .hold w (r && !k) k dn sk (r && k && sk) v l n ∧
        crossDst (.hold w true false dn sk d v l n) = .hold w true true true false d true w (n + 1) ∧
        crossDst (.hold w false true dn sk d v l n) = .hold w false false false false d false l n ∧
        ofGray (grayOf g) = g ∧ popUpTo 16 (grayOf g ^^^ grayOf (g + 1)).toNat = 1 ∧
        crossSrc s p (.count ce (grayOf g) seen dl) = .count ce (grayOf (if sig s p ce = true then g + 1 else g)) seen dl ∧
        crossDst (.count ce (grayOf g) seen dl) = .count ce (grayOf g) g (g - seen))

/-- Rows VBAT_LATCH_CLEAR, REF_STATUS_WRITE, REF_RESELECT, CLK_EN_SET, CLK_EN_CLEAR, SYNTH_APPLY, WARM_RESET_REQUEST, COLD_RESET_REQUEST, DIE_ENTER_DORMANT, DIE_RETURN, STANDBY_ENTER and LC_REQUEST: a write that passes the checks of R648 is answered with success and has the effect written out: DIE_ENTER_DORMANT has one on a die that is ON, and abandons the POWER_OFF of an engine of the die, and DIE_RETURN on a dormant die; elsewhere they leave the die as it is. Everything not named is as it was. That REF_RESELECT is accepted in RC mode alone, and leaves the latch of a reference failure set, is the model's choice (log entry 94). -/
def Obligations.SystemWrites : Prop :=
  (∀ (r : Req) (v : BitVec 8) (s : State),
      Accepted s r O_VBAT_LATCH_CLEAR 1 v.toNat {} →
      exec (.vbatLatchClear r v false) s = .next { answer s 0#32 with vbat := { s.vbat with tamper := false, low := false } }) ∧
  (∀ (r : Req) (v : BitVec 8) (s : State),
      Accepted s r O_VBAT_LATCH_CLEAR 1 v.toNat {} →
      exec (.vbatLatchClear r v true) s = .next (tamperSets { answer s 0#32 with vbat := { s.vbat with tamper := false, low := false } })) ∧
  (∀ (r : Req) (v : BitVec 8) (s : State),
      Accepted s r O_REF_STATUS 1 v.toNat {} →
      v.toNat.testBit 2 = false →
      exec (.refStatusWrite r v) s = .next { answer s 0#32 with clk := { s.clk with refFail := false } }) ∧
  (∀ (r : Req) (v : BitVec 8) (s : State),
      Accepted s r O_REF_STATUS 1 v.toNat {} →
      v.toNat.testBit 2 = true →
      exec (.refStatusWrite r v) s = .next (answer s 0#32)) ∧
  (∀ (r : Req) (v : BitVec 8) (s : State),
      Accepted s r O_REF_RESELECT 1 v.toNat { state := s.clk.mode == .rc && 16 ≤ s.clk.goodRun && !s.clk.monStopped && !strapError s } →
      exec (.refReselect r v) s = .next (logEv { answer s 0#32 with clk := { s.clk with mode := .ref, accepted := true, holdover := false, badRun := 0 } } 0x2202 sevInfo s.clk.sinceFail)) ∧
  (∀ (r : Req) (unit : Fin 38) (s : State),
      Accepted s r (O_CLK_EN unit.val) 1 1 { state := mayClock s unit.val } →
      exec (.clkEnSet r unit) s = .next (setEnable (answer s 0#32) unit.val)) ∧
  (∀ (r : Req) (unit : Fin 38) (s : State),
      Accepted s r (O_CLK_EN unit.val) 1 0 { state := mayGate s unit.val } →
      exec (.clkEnClear r unit) s = .next (portsSettle (clearEnable (answer s 0#32) unit.val))) ∧
  (∀ (r : Req) (i : Fin 32) (v : BitVec 8) (s : State),
      oGet s (O_SYNTH_MODE i.val) = 0 →
      Accepted s r (O_APPLY i.val) 1 v.toNat { state := (synthOf s i.val).run == .none && !(synthOf s i.val).stopped } →
      exec (.synthApply r i v) s = .next { answer s 0#32 with clk := { s.clk with synths := tabPut s.clk.synths i.val { synthOf s i.val with run := .gatedLock, goal := oGet s (O_SYNTH_TARGET i.val), low := true, locked := false, d := chooseD (oGet s (O_SYNTH_TARGET i.val)) } } }) ∧
  (∀ (r : Req) (i : Fin 32) (v : BitVec 8) (s : State),
      oGet s (O_SYNTH_MODE i.val) = 1 →
      Accepted s r (O_APPLY i.val) 1 v.toNat { state := (synthOf s i.val).run == .none && !(synthOf s i.val).stopped && glideFits (synthOf s i.val) (oGet s (O_SYNTH_TARGET i.val)) } →
      exec (.synthApply r i v) s = .next { answer s 0#32 with clk := { s.clk with synths := tabPut s.clk.synths i.val { synthOf s i.val with run := .glide, goal := oGet s (O_SYNTH_TARGET i.val) } } }) ∧
  (∀ (r : Req) (s : State),
      Accepted s r O_RESET_REQUEST 1 1 { state := s.rst.standby == .none } →
      exec (.warmResetRequest r) s = .next { warmReset (answer s 0#32) 0x0012 with ans := (answer s 0#32).ans }) ∧
  (∀ (r : Req) (s : State),
      Accepted s r O_RESET_REQUEST 1 2 { state := s.rst.standby == .none } →
      exec (.coldResetRequest r) s = .next { coldReset (answer s 0#32) 0x0005 with ans := (answer s 0#32).ans }) ∧
  (∀ (r : Req) (d : Fin 8) (s : State),
      Accepted s r (O_DIE_REQUEST d.val) 1 1 { state := operating s && !dieRefused s d.val && dieOf s d.val != .waking } →
      exec (.dieEnterDormant r d) s = .next (if dieOf s d.val = .on then setDie { answer s 0#32 with eng := abandonOff (dieEngs d.val) s.eng } d.val .entering else answer s 0#32)) ∧
  (∀ (r : Req) (d : Fin 8) (s : State),
      Accepted s r (O_DIE_REQUEST d.val) 1 2 { state := operating s && dieOf s d.val != .entering } →
      exec (.dieReturn r d) s = .next (if dieOf s d.val = .dormant then { setDie (answer s 0#32) d.val .waking with rst := { (setDie (answer s 0#32) d.val .waking).rst with dieEmul := setBit s.rst.dieEmul d.val false } } else answer s 0#32)) ∧
  (∀ (r : Req) (v : BitVec 8) (s : State),
      Accepted s r O_STANDBY_ENTER 1 v.toNat { state := operating s && standbyReason s == 0 } →
      exec (.standbyEnter r v) s = .next { answer s 0#32 with rst := { s.rst with standby := .entering, treesHeld := true, latchedWake := 0#8, wakeSel := BitVec.ofNat 8 (oGet s O_WAKE_SOURCES) } }) ∧
  (∀ (r : Req) (target : BitVec 8) (sig : BitVec 768) (s : State),
      let val := target.toNat + 2 ^ 32 * leNat (beBytes 96 sig.toNat);
      s.rst.lc ≠ 2#3 →
      Accepted s r O_LC_REQUEST 100 val { state := s.rst.standby == .none && s.rst.lcRun.isNone && lcPermitted s (val % 256) } →
      val / 256 % 2 ^ 24 = 0 →
      exec (.lcRequest r target 0#24 sig) s = .next { answer s 0#32 with rst := { s.rst with lcRun := some { target := BitVec.ofNat 3 (val % 256), groups := true }, treesHeld := true } })

/-- Rows BBK_WRITE, KEY_PROGRAM, KEY_REVOKE, PR_STAGE_MIB, LOAD_REQUEST and FU_START: a write that passes the checks is answered with success and has the effect written out. Everything not named is as it was. That lines displaced by a larger staging region are chosen freely is log entry 16. -/
def Obligations.KeyAndLoadWrites : Prop :=
  (∀ (r : Req) (key : BitVec 256) (s : State),
      let val := leNat (beBytes 32 key.toNat);
      Accepted s r O_BBK_WRITE 32 val { life := s.rst.lc.toNat ≤ 2 } →
      loadUsesBbk s = false →
      exec (.bbkWrite r key) s = .next (putBbk (answer s 0#32) (BitVec.ofNat 256 (beNat (leBytes 32 val))))) ∧
  (∀ (r : Req) (key : BitVec 256) (s : State),
      let val := leNat (beBytes 32 key.toNat);
      Accepted s r O_BBK_WRITE 32 val { life := s.rst.lc.toNat ≤ 2 } →
      loadUsesBbk s = true →
      exec (.bbkWrite r key) s = .next { answer s 0#32 with ld := { s.ld with pendingBbk := some (BitVec.ofNat 256 (beNat (leBytes 32 val))) } }) ∧
  (∀ (r : Req) (slot : BitVec 8) (key : BitVec 384) (s : State) (k : Nat),
      let n := progLen slot.toNat - 4;
      let val := slot.toNat + 2 ^ 32 * leNat (beBytes n key.toNat);
      let v := BitVec.ofNat 384 (beNat (leBytes n (val / 2 ^ 32)));
      progSlot slot.toNat = some k →
      Accepted s r O_KEY_PROGRAM (n + 4) val { life := s.rst.lc.toNat ≤ 1, state := !loadUsesSlot s k && !(fuseSlot s k).fused && !(fuseSlot s k).destroyed } →
      exec (.keyProgram r slot 0#24 key) s = .next (setSlot (answer s 0#32) k { fuseSlot s k with fused := true, val := v, destroyed := v == slotOnes k })) ∧
  (∀ (r : Req) (slot : BitVec 8) (s : State),
      let k := slot.toNat % 4;
      Accepted s r O_KEY_REVOKE 1 slot.toNat { life := s.rst.lc == 1#3 || s.rst.lc == 2#3, state := !loadUsesSlot s k && (fuseSlot s k).fused && !(fuseSlot s k).destroyed && ((fuseSlot s k).revoked || otherOwner s k) } →
      s.dbg.token = none →
      exec (.keyRevoke r slot) s = .next (setSlot (answer s 0#32) k { fuseSlot s k with revoked := true })) ∧
  (∀ (r : Req) (v : BitVec 16) (s : State),
      Accepted s r O_PR_STAGE_MIB 2 v.toNat { value := v.toNat == 0 || v.toNat == 64 || v.toNat == 128 || v.toNat == 256 || v.toNat == 512, state := s.ld.load.isNone } →
      exec (.prStageMib r v) s = .next (stageDisplace (answer s 0#32) v.toNat)) ∧
  (∀ (v : Nat) (s : State),
      s.hub.slices = [] →
      s.hub.hlines = [] →
      stageDisplace s v = oSet (freeStep s) O_PR_STAGE_MIB v) ∧
  (∀ (r : Req) (source : BitVec 8) (addr : BitVec 64) (s : State),
      let val := source.toNat + 2 ^ 64 * addr.toNat;
      (source = 1#8 ∨ source = 2#8) →
      Accepted s r 0x231001 16 val { state := operating s && !loadBusy s && oGet s O_PR_STAGE_MIB != 0 && !(source == 2#8 && inOpenSlot s addr.toNat) } →
      exec (.loadRequest r source 0#56 addr) s = .next { answer s 0#32 with ld := { s.ld with state := 1#8, load := some { src := if source = 1#8 then 0x10#8 else 0x11#8, boot := false, follow := none, tenant := r.view, addr := addr.toNat } } }) ∧
  (∀ (r : Req) (v : BitVec 8) (s : State) (f : FlashInfo) (d k : Nat) (b : List (BitVec 8)),
      fuImage s = some (f, d, k, b) →
      Accepted s r O_FU_START 1 v.toNat { state := operating s && !serviceBusy s } →
      exec (.fuStart r v) s = .next { oSet (answer s 0#32) O_FU_STATE 1 with ld := { s.ld with flash := some (journalPut f d s.fw.dtime 1 k (journalTop f d + 1)), fu := some { slot := k, seq := journalTop f d + 1, image := b } } })

/-- Rows GRST_PULSE, PROBE_SEL_WRITE, PROBE_ROUTE_WRITE, CAP_ARM, CAP_STOP, RAM_CNT_CLEAR, QB_CNT_CLEAR, READY, START, HALT, CLEAR_FAULT, POWER_OFF and POWER_ON: a write that passes the checks is answered with success and has the effect written out. Everything not named is as it was. -/
def Obligations.FabricWrites : Prop :=
  (∀ (r : Req) (t : BitVec 8) (s : State),
      Accepted s r O_GRST_PULSE 1 t.toNat {} →
      exec (.grstPulse r t) s = .next (settle { answer s 0#32 with fab := { s.fab with pulse := s.fab.pulse ||| t } })) ∧
  (∀ (r : Req) (ch : Fin 64) (v : BitVec 16) (s : State),
      Accepted s r (O_PROBE_SEL ch.val) 2 v.toNat { owns := tapAllowed s r ch.val (v.toNat % 4096) } →
      exec (.probeSelWrite r ch v) s = .next (oSet { answer s 0#32 with fab := { s.fab with probeNew := setBit s.fab.probeNew ch.val true } } (O_PROBE_SEL ch.val) v.toNat)) ∧
  (∀ (r : Req) (ch : Fin 64) (v : BitVec 16) (s : State),
      Accepted s r (O_PROBE_ROUTE ch.val) 2 v.toNat { value := v.toNat / 2 ^ 14 != 3 && (v.toNat / 2 ^ 14 != 1 || (104 * (ch.val / 8) ≤ v.toNat % 1024 && v.toNat % 1024 < 104 * (ch.val / 8) + 104)), state := v.toNat / 2 ^ 14 != 1 || tabGet s.fab.spare (v.toNat % 1024) false } →
      exec (.probeRouteWrite r ch v) s = .next (oSet (answer s 0#32) (O_PROBE_ROUTE ch.val) v.toNat)) ∧
  (∀ (r : Req) (s : State),
      (oGet s O_CAP_STATE = 0 ∨ oGet s O_CAP_STATE = 3 ∨ oGet s O_CAP_STATE = 4) →
      Accepted s r O_CAP_CONTROL 1 1 { state := enabled s unProbe } →
      exec (.capArm r) s = .next (oSet (oSet { answer s 0#32 with fab := { s.fab with cap := [], capWritten := 0, capAfter := 0 } } O_CAP_STATE 1) O_TRIG_INDEX 0xFFFF)) ∧
  (∀ (r : Req) (s : State),
      (oGet s O_CAP_STATE = 1 ∨ oGet s O_CAP_STATE = 2) →
      Accepted s r O_CAP_CONTROL 1 2 {} →
      exec (.capStop r) s = .next (oSet (answer s 0#32) O_CAP_STATE 4)) ∧
  (∀ (r : Req) (v : BitVec 8) (s : State),
      Accepted s r O_RAM_CNT_CLEAR 1 v.toNat {} →
      v ≠ 0xFF#8 →
      exec (.ramCntClear r v) s = .next (clearRamCounts (answer s 0#32) (v.toNat - 1))) ∧
  (∀ (r : Req) (v : BitVec 16) (s : State),
      Accepted s r O_QB_CNT_CLEAR 2 v.toNat {} →
      v ≠ 0xFFFF#16 →
      exec (.qbCntClear r v) s = .next (clearQbCounts (answer s 0#32) v.toNat)) ∧
  (∀ (r : Req) (e : Fin 768) (s : State),
      Accepted s r (O_ENG_COMMAND e.val) 1 1 { state := engClocked s e.val && engPermits s e.val 1 } →
      exec (.ready r e) s = .next (setEng (answer s 0#32) e.val { engOf s e.val with state := .halted, pc := 0#16, dbgLogged := false })) ∧
  (∀ (r : Req) (e : Fin 768) (s : State),
      Accepted s r (O_ENG_COMMAND e.val) 1 2 { state := engClocked s e.val && engPermits s e.val 2 } →
      exec (.start r e) s = .next (setEng (answer s 0#32) e.val { engOf s e.val with state := .running })) ∧
  (∀ (r : Req) (e : Fin 768) (s : State),
      (engOf s e.val).state = .waiting →
      debugWait (engOf s e.val) = none →
      Accepted s r (O_ENG_COMMAND e.val) 1 3 { state := engClocked s e.val && engPermits s e.val 3 } →
      exec (.halt r e) s = .next (setEng (answer s 0#32) e.val { engOf s e.val with state := .halted })) ∧
  (∀ (r : Req) (e : Fin 768) (s : State),
      let g := engOf s e.val;
      g.state = .running →
      debugDue g = none →
      bundleFault (answer s 0#32) e.val (g.frozen.getD (bundleAt g g.pc.toNat)) = none →
      Accepted s r (O_ENG_COMMAND e.val) 1 3 { state := engClocked s e.val && engPermits s e.val 3 } →
      exec (.halt r e) s = .next (setEng (answer s 0#32) e.val { drain g with state := .halted, wait := 0, frozen := none, cldPaid := false })) ∧
  (∀ (r : Req) (e : Fin 768) (s : State),
      Accepted s r (O_ENG_COMMAND e.val) 1 4 { state := engClocked s e.val && engPermits s e.val 4 } →
      exec (.clearFault r e) s = .next (setEng (answer s 0#32) e.val { engOf s e.val with state := .halted, pc := (engOf s e.val).epc })) ∧
  (∀ (r : Req) (e : Fin 768) (s : State),
      Accepted s r (O_ENG_COMMAND e.val) 1 5 { state := engClocked s e.val && engPermits s e.val 5 } →
      exec (.powerOff r e) s = .next (setEng (answer s 0#32) e.val { engOf s e.val with power := some false })) ∧
  (∀ (r : Req) (e : Fin 768) (s : State),
      Accepted s r (O_ENG_COMMAND e.val) 1 6 { state := engClocked s e.val && engPermits s e.val 6 } →
      exec (.powerOn r e) s = .next (setEng (answer s 0#32) e.val { engOf s e.val with power := some true }))

/-- Rows SAM_ENTRY_WRITE, SAM_INVALIDATE, EP_BIND, EP_RELEASE, TENANT_RESET, PART_OWNER, ENG_OWNER, FAULT_CLEAR, HOST_QUOTA_MIB, GG_ENABLE, GG_RELEASE and GG_HOLD_RESET: a write that passes the checks of R648 is answered with success and has the effect written out; SAM_INVALIDATE and a smaller quota are answered when the invalidation or the eviction is done (rows SAM_INVALIDATE_DONE and HOST_QUOTA_EVICTION_DONE). Everything not named is as it was. -/
def Obligations.TenantWrites : Prop :=
  (∀ (r : Req) (e : Fin 256) (v : BitVec 128) (s : State),
      Accepted s r (samKey e.val) 16 v.toNat { value := samValueOk v.toNat, state := samStateOk s e.val v.toNat } →
      exec (.samEntryWrite r e v) s = .next (samStore (answer s 0#32) e.val v.toNat)) ∧
  (∀ (s : State) (e v : Nat),
      e < 256 →
      ∃ t, t = samStore s e v ∧ oGet t (samKey e) = v ∧ t.fw = (logEv s 0x2801 sevWarn e).fw ∧ t.vent.cache = s.vent.cache ∧ t.eng = s.eng ∧ t.hub = s.hub) ∧
  (∀ (r : Req) (v : BitVec 16) (s : State),
      Accepted s r O_SAM_INVALIDATE 2 v.toNat {} →
      exec (.samInvalidate r v) s = .next (unanswered (beginInval (answer s 0#32) (if v.toNat = 0xFFFF then none else some v.toNat)))) ∧
  (∀ (r : Req) (id : BitVec 16) (part : BitVec 8) (s : State),
      let val := id.toNat + part.toNat * 65536 + 2 ^ 24;
      0x500 ≤ id.toNat ∧ id.toNat ≤ 0x3FFF ∧ part.toNat < 128 →
      Accepted s r O_EP_BIND 4 val { owns := actor s r == 0 || (part.toNat < 128 && partOwner s part.toNat == actor s r), cap := s.vent.soft.length < 15104, state := (softPart s id.toNat).isNone } →
      exec (.epBind r id part) s = .next { answer s 0#32 with vent := { s.vent with soft := tabPut s.vent.soft id.toNat part.toNat } }) ∧
  (∀ (r : Req) (id : BitVec 16) (part : BitVec 8) (s : State),
      let val := id.toNat + part.toNat * 65536 + 2 ^ 25;
      part.toNat < 128 →
      Accepted s r O_EP_BIND 4 val { owns := actor s r == 0 || (part.toNat < 128 && partOwner s part.toNat == actor s r), state := softPart s id.toNat == some part.toNat } →
      exec (.epRelease r id part) s = .next { answer s 0#32 with vent := { s.vent with soft := tabDel s.vent.soft id.toNat } }) ∧
  (∀ (r : Req) (v : BitVec 8) (s : State),
      Accepted s r 0x292001 1 v.toNat { value := v.toNat ≤ 15, owns := (match r.view with | some w => w.toNat == v.toNat | none => true) } →
      exec (.tenantReset r v) s = .next (startReset (answer s 0#32) v.toNat (match roleOf s r with | .tenant _ => 1 | _ => 2))) ∧
  (∀ (r : Req) (p : Fin 128) (v : BitVec 8) (s : State),
      Accepted s r (ownerKey p.val) 1 v.toNat { value := v.toNat ≤ 15, state := (tabFind s.ten.reassign p.val).isNone } →
      oGet s (ownerKey p.val) ≠ v.toNat →
      planTime s = false →
      reassignBlocked s p.val v.toNat = false →
      exec (.partOwner r p v) s = .next (reassignStart (answer s 0#32) p.val v.toNat)) ∧
  (∀ (r : Req) (e : Fin 768) (v : BitVec 8) (s : State),
      Accepted s r (ownerKey (128 + e.val)) 1 v.toNat { value := v.toNat ≤ 15, state := (tabFind s.ten.reassign (128 + e.val)).isNone } →
      oGet s (ownerKey (128 + e.val)) ≠ v.toNat →
      planTime s = true →
      exec (.engOwner r e v) s = .next (oSet (answer s 0#32) (ownerKey (128 + e.val)) v.toNat)) ∧
  (∀ (r : Req) (e : Fin 768) (v : BitVec 8) (s : State),
      Accepted s r (ownerKey (128 + e.val)) 1 v.toNat { value := v.toNat ≤ 15, state := (tabFind s.ten.reassign (128 + e.val)).isNone } →
      oGet s (ownerKey (128 + e.val)) ≠ v.toNat →
      planTime s = false →
      reassignBlocked s (128 + e.val) v.toNat = false →
      exec (.engOwner r e v) s = .next (reassignStart (answer s 0#32) (128 + e.val) v.toNat)) ∧
  (∀ (r : Req) (t : Fin 16) (v : BitVec 32) (s : State),
      let new := oGet s (O_FAULT_RECORD t.val) ^^^ (oGet s (O_FAULT_RECORD t.val) &&& v.toNat);
      Accepted s r (O_FAULT_CLEAR t.val) 4 v.toNat {} →
      new ≠ 0 →
      exec (.faultClear r t v) s = .next (oSet (answer s 0#32) (O_FAULT_RECORD t.val) new)) ∧
  (∀ (r : Req) (t : Fin 16) (v : BitVec 32) (s : State),
      let new := oGet s (O_FAULT_RECORD t.val) ^^^ (oGet s (O_FAULT_RECORD t.val) &&& v.toNat);
      Accepted s r (O_FAULT_CLEAR t.val) 4 v.toNat {} →
      new = 0 →
      exec (.faultClear r t v) s = .next (oSet (oSet (answer s 0#32) (O_FAULT_RECORD t.val) 0) (O_FAULT_INFO t.val) 0)) ∧
  (∀ (r : Req) (v : BitVec 16) (s : State),
      Accepted s r O_HOST_QUOTA_MIB 2 v.toNat { value := v.toNat % 16 == 0 && v.toNat ≤ 256, state := s.hub.evicting.isNone } →
      s.hub.quota ≤ v.toNat →
      exec (.hostQuotaMib r v) s = .next (oSet { answer s 0#32 with hub := { s.hub with quota := v.toNat } } O_HOST_QUOTA_MIB v.toNat)) ∧
  (∀ (r : Req) (v : BitVec 16) (s : State),
      Accepted s r O_HOST_QUOTA_MIB 2 v.toNat { value := v.toNat % 16 == 0 && v.toNat ≤ 256, state := s.hub.evicting.isNone } →
      v.toNat < s.hub.quota →
      exec (.hostQuotaMib r v) s = .next (unanswered { s with hub := { s.hub with evicting := some v.toNat } })) ∧
  (∀ (r : Req) (g : Fin 2) (s : State),
      Accepted s r (O_GG_CONTROL g.val) 1 1 { state := s.fuse.sites.getLsbD g.val && (enabled s (unGuest g.val) && gateState s g.val == 0 && s.rst.lc.toNat ≤ 2) } →
      exec (.ggEnable r g) s = .next (oSet (answer s 0#32) (O_GG_STATE g.val) 1)) ∧
  (∀ (r : Req) (g : Fin 2) (s : State),
      Accepted s r (O_GG_CONTROL g.val) 1 2 { state := s.fuse.sites.getLsbD g.val && (gateState s g.val == 3 && (gate s g.val).walked) } →
      exec (.ggRelease r g) s = .next (logEv (oSet (oSet (setGate (answer s 0#32) g.val { gate s g.val with walked := false }) (O_GG_VIOL_COUNT g.val) 0) (O_GG_STATE g.val) 1) 0x290C sevInfo g.val)) ∧
  (∀ (r : Req) (g : Fin 2) (s : State),
      Accepted s r (O_GG_CONTROL g.val) 1 3 { state := s.fuse.sites.getLsbD g.val } →
      exec (.ggHoldReset r g) s = .next (oSet (muteGuest (answer s 0#32) g.val) (O_GG_STATE g.val) 0))

/-- Rows ECC_CNT_CLEAR, LANE_REQ_ON, LANE_REQ_QUIET, LANE_REQ_DORMANT, PRBS_CLEAR, ERR_INJECT, TWIN_FORCE_ACTIVE, TWIN_RELEASE, CAN_APPLY, STORE_ALL and RESTORE_DEFAULTS: a write that passes the checks is answered with success and has the effect written out. Everything not named is as it was. -/
def Obligations.LinkWrites : Prop :=
  (∀ (r : Req) (v : BitVec 8) (s : State),
      Accepted s r O_ECC_CNT_CLEAR 1 v.toNat {} →
      v ≠ 0xFF#8 →
      exec (.eccCntClear r v) s = .next (clearEcc (answer s 0#32) (v.toNat - 1))) ∧
  (∀ (r : Req) (l : Fin 128) (s : State),
      Accepted s r (O_LANE_STATE_REQ l.val) 1 0 { state := laneFree s l.val && (match laneUser l.val with | .fabric d => dieOf s d == .on | _ => true) } →
      exec (.laneReqOn r l) s = .next (setLane (answer s 0#32) l.val { sline s l.val with goal := 0 })) ∧
  (∀ (r : Req) (l : Fin 128) (s : State),
      Accepted s r (O_LANE_STATE_REQ l.val) 1 1 { state := laneFree s l.val } →
      exec (.laneReqQuiet r l) s = .next (laneSet (answer s 0#32) l.val 1)) ∧
  (∀ (r : Req) (l : Fin 128) (s : State),
      Accepted s r (O_LANE_STATE_REQ l.val) 1 2 { state := laneFree s l.val } →
      exec (.laneReqDormant r l) s = .next (laneSet (answer s 0#32) l.val 2)) ∧
  (∀ (r : Req) (v : BitVec 8) (s : State),
      Accepted s r O_PRBS_CLEAR 1 v.toNat {} →
      v ≠ 0xFF#8 →
      exec (.prbsClear r v) s = .next (oSet (oSet (answer s 0#32) (O_PRBS_BITS (v.toNat - 1)) 0) (O_PRBS_ERRORS (v.toNat - 1)) 0)) ∧
  (∀ (r : Req) (l : Fin 128) (n : BitVec 8) (s : State),
      Accepted s r (O_ERR_INJECT l.val) 1 n.toNat { state := laneNow s l.val == 0 && (sline s l.val).inject == 0 } →
      exec (.errInject r l n) s = .next (setLane (answer s 0#32) l.val { sline s l.val with inject := n.toNat })) ∧
  (∀ (r : Req) (s : State),
      Accepted s r O_TWIN_FORCE_ACTIVE 1 1 { state := twinRuns s && twinState s == 1 && !(s.twin.linkOk && s.twin.partner == 4) && (oGet s O_WITNESS_EN != 1 || s.twin.gnt) } →
      exec (.twinForceActive r false) s = .next (becomeActive (answer s 0#32) 6)) ∧
  (∀ (r : Req) (s : State),
      Accepted s r O_TWIN_RELEASE 1 1 { state := twinState s == 5 } →
      exec (.twinRelease r) s = .next (setTwinState { answer s 0#32 with twin := { s.twin with intact := false } } 1)) ∧
  (∀ (r : Req) (v : BitVec 8) (s : State),
      Accepted s r O_CAN_APPLY 1 v.toNat {} →
      exec (.canApply r v) s = .next (canRestart (answer s 0#32))) ∧
  (∀ (r : Req) (v : BitVec 32) (s : State),
      Accepted s r O_STORE_ALL 4 v.toNat {} →
      storeRefused s 0x65766173 v.toNat = false →
      serviceBusy s = false →
      exec (.storeAll r v) s = .next (oSet (freeStep (eraseIdle { answer s 0#32 with fw := { s.fw with store := some (paramKeys.length, paramBytes (answer s 0#32)) } })) O_STORE_STATE 1)) ∧
  (∀ (r : Req) (v : BitVec 32) (s : State),
      Accepted s r O_RESTORE_DEFAULTS 4 v.toNat {} →
      storeRefused s 0x64616F6C v.toNat = false →
      serviceBusy s = false →
      exec (.restoreDefaults r v) s = .next (oSet (answer s 0#32) O_STORE_STATE 2))

/-- Rows DTIME_SET, SCHED_ADD, MIO_STATUS_CLEAR, ANIN_RANGE_WRITE, DBG_TOKEN and DBG_END: a write that passes the checks is answered with success and has the effect written out. A token is held for its verification; DBG_END ends the token in force. Everything not named is as it was. -/
def Obligations.DeviceWrites : Prop :=
  (∀ (r : Req) (v : BitVec 64) (s : State),
      Accepted s r O_DTIME_SET 8 v.toNat { value := s.fw.dtime < v.toNat, state := oGet s O_CASC_STATE == 0 } →
      exec (.dtimeSet r v) s = .next (logEv (stepDtime (answer s 0#32) v.toNat) 0x2F05 sevInfo (min ((v.toNat - s.fw.dtime) / 1000000) 0xFFFFFF))) ∧
  (∀ (s : State) (v : Nat),
      ∃ late, stepDtime s v = { s with fw := { s.fw with dtime := v, late := late } }) ∧
  (∀ (r : Req) (v : BitVec 256) (s : State) (i : Nat),
      schedRoom s = some i →
      Accepted s r O_SCHED_ADD 32 v.toNat { value := schedOk v.toNat } →
      exec (.schedAdd r v) s = .next (oSet (schedPut (answer s 0#32) i v.toNat) O_SCHED_LAST (i + 1))) ∧
  (∀ (s : State) (i x : Nat),
      ∃ t, t = schedPut s i x ∧ schedEntry t i = x ∧ t.fw = { s.fw with late := setBit s.fw.late i (schedValid x && schedTime x < s.fw.dtime) } ∧ t.eng = s.eng ∧ t.rst = s.rst) ∧
  (∀ (r : Req) (pin : Fin 64) (s : State),
      Accepted s r (O_MIO_STATUS pin.val) 1 1 {} →
      exec (.mioStatusClear r pin) s = .next (oSet (answer s 0#32) (O_MIO_STATUS pin.val) 0)) ∧
  (∀ (r : Req) (i : Fin 4) (v : BitVec 8) (s : State),
      Accepted s r (O_ANIN_RANGE i.val) 1 v.toNat {} →
      v.toNat ≠ 0 →
      aninRange s i.val ≠ v.toNat →
      exec (.aninRangeWrite r i v) s = .next { oSet (answer s 0#32) (O_ANIN_RANGE i.val) v.toNat with mio := { s.mio with range := tabPut s.mio.range i.val v.toNat, narrow := tabDel s.mio.narrow i.val, ranged := setBit s.mio.ranged i.val true } }) ∧
  (∀ (r : Req) (t : BitVec 1664) (s : State),
      Accepted s r O_DBG_TOKEN 208 t.toNat { value := bitsAt t.toNat 16 16 == 0 && bitsAt t.toNat 840 56 == 0, life := s.rst.lc == 2#3 } →
      exec (.dbgToken r t) s = .next { answer s 0#32 with dbg := { s.dbg with verifying := some t } }) ∧
  (∀ (r : Req) (v : BitVec 8) (s : State),
      Accepted s r O_DBG_END 1 v.toNat {} →
      exec (.dbgEnd r v) s = .next (endToken (answer s 0#32) 2))

/-- Rows LC_CHALLENGE_READ, DBG_CHALLENGE_READ, PRBS_BITS_READ, EVENT_READ and EVENT_LOST_READ: a read that no check stops answers the value and has the effect written out. The challenges are free values (log entry 2), new at every read. EVENT_READ takes the reader's next record, and answers an empty one where there is none. -/
def Obligations.ObjectReads : Prop :=
  (∀ (r : Req) (s : State),
      Readable s r O_LC_CHALLENGE →
      exec (.lcChallengeRead r) s = .next { freeStep { s with rst := { s.rst with lcChallenge := Config.free 384 s.freeCtr } } with ans := { answered := true, abort := 0#32, value := leNat (beBytes 48 (Config.free 384 s.freeCtr).toNat), total := 48 } }) ∧
  (∀ (r : Req) (s : State),
      Readable s r O_DBG_CHALLENGE →
      exec (.dbgChallengeRead r) s = .next { freeStep { s with dbg := { s.dbg with challenge := Config.free 384 s.freeCtr } } with ans := { answered := true, abort := 0#32, value := leNat (beBytes 48 (Config.free 384 s.freeCtr).toNat), total := 48 } }) ∧
  (∀ (r : Req) (l : Fin 128) (s : State),
      Readable s r (O_PRBS_BITS l.val) →
      exec (.prbsBitsRead r l) s = .next { setLane s l.val { sline s l.val with latched := some (oGet s (O_PRBS_ERRORS l.val)) } with ans := { answered := true, abort := 0#32, value := oGet s (O_PRBS_BITS l.val), total := 8 } }) ∧
  (∀ (r : Req) (s : State) (q : Nat) (e : EventRec),
      nextRec s.fw.ring (readerOf r) (tabGet s.fw.pos (readerOf r) 0) = some (q, e) →
      Readable s r O_EVENT_READ →
      exec (.eventRead r) s = .next { s with fw := { s.fw with pos := tabPut s.fw.pos (readerOf r) (q + 1) }, ans := { answered := true, abort := 0#32, value := q % 2 ^ 32 + 2 ^ 32 * recNat e, total := 20 } }) ∧
  (∀ (r : Req) (s : State),
      nextRec s.fw.ring (readerOf r) (tabGet s.fw.pos (readerOf r) 0) = none →
      Readable s r O_EVENT_READ →
      exec (.eventRead r) s = .next { s with ans := { answered := true, abort := 0#32, value := 0, total := 20 } }) ∧
  (∀ (r : Req) (s : State),
      Readable s r O_EVENT_LOST →
      exec (.eventLostRead r) s = .next { s with fw := { s.fw with lost := tabPut s.fw.lost (readerOf r) 0 }, ans := { answered := true, abort := 0#32, value := tabGet s.fw.lost (readerOf r) 0, total := 4 } })

/-- Rows SYS_RST_N_LOW, SYS_RST_N_RISE, WATCHDOG_EXPIRY, WARM_FLUSH_DONE, WARM_FLUSH_TIMEOUT, WIPE_DONE, WIPE_TIMEOUT and BOOT_WAIT_END, with what a warm reset keeps and what it does with WARM_RETAIN 1. Everything not named in a result is as it was. The model's choices: how long a wipe that failed is said to have taken is a free value (log entry 2); a reference failure that is latched comes through a warm reset (log entry 94); a temperature wait, a strap error or a latched tamper come before the stop of a failed wipe (log entry 92). -/
def Obligations.ResetsAndBoot : Prop :=
  (∀ (s : State),
      s.pwr.vaux = true →
      exec .sysRstNLow s = .next (warmReset { s with pwr := { s.pwr with sysRstN := false } } 0x0011)) ∧
  (∀ (s : State),
      s.pwr.vaux = true →
      s.pwr.tripped = false →
      s.pwr.effReset = false →
      s.rst.phase = .held →
      s.rst.flushing = false →
      s.rst.standby = .none →
      exec .sysRstNRise s = .next { s with pwr := { s.pwr with sysRstN := true }, rst := { s.rst with phase := .wiping } }) ∧
  (∀ (s : State) (cause : Nat),
      s.rst.standby ≠ .none →
      warmReset s cause = s) ∧
  (∀ (service : BitVec 24) (s : State),
      fwRuns s = true →
      exec (.watchdogExpiry service) s = .next (warmGo { s with rst := { s.rst with wdExpired := some service } } 0x0013)) ∧
  (∀ (s : State) (cause : Nat),
      s.rst.standby = .none →
      warmReset s cause = warmGo s cause) ∧
  (∀ (s : State) (cause : Nat),
      operating s = true →
      oGet s O_WARM_RETAIN ≠ 1 →
      ∃ t, warmGo s cause = t ∧ t.pending = s.pending ∧ t.rst.cause = BitVec.ofNat 16 cause ∧ t.rst.count = s.rst.count + 1#32 ∧ t.rst.warm = true ∧
        t.fuse = s.fuse ∧ t.vbat = s.vbat ∧ t.pwr.straps = s.pwr.straps ∧ t.clk.trim = s.clk.trim ∧ t.clk.mode = s.clk.mode ∧ t.clk.clkEn = 0#38 ∧
        t.fw.dtime = s.fw.dtime ∧ t.eng = State.reset.eng ∧ t.hub = State.reset.hub ∧ t.ddr = State.reset.ddr ∧ t.obj = [] ∧ t.dbg.token = none ∧ t.dbg.attached = false) ∧
  (∀ (s : State) (cause : Nat),
      operating s = true →
      oGet s O_WARM_RETAIN = 1 →
      ∃ t, warmGo s cause = t ∧ t.pending = s.pending ∧ t.rst.cause = BitVec.ofNat 16 cause ∧ t.rst.count = s.rst.count + 1#32 ∧ t.rst.warm = true ∧ t.rst.flushing = true ∧ t.rst.retain = true ∧
        t.rst.phase = .held ∧ t.fuse = s.fuse ∧ t.vbat = s.vbat ∧ t.pwr = { s.pwr with gone := goneAfter s } ∧ t.clk = s.clk ∧ t.hub = s.hub ∧ t.ddr = s.ddr ∧ t.ten = {} ∧ t.ld.load = none ∧ t.dbg.token = none ∧ t.dbg.attached = false) ∧
  (∀ (s : State),
      s.rst.flushing = true →
      ∃ u, u = (List.range 16).foldl storeRecs (flushHosts (flushSlices s)) ∧ exec .warmFlushDone s = .next (warmCore { u with rst := { u.rst with flushing := false, retain := true, abandoned := s.rst.abandoned } })) ∧
  (∀ (us : Nat) (s : State),
      s.rst.flushing = true →
      exec (.warmFlushTimeout us) s = .next (warmCore { s with rst := { s.rst with flushing := false, retain := false, abandoned := some us } })) ∧
  (∀ (us : BitVec 32) (s : State),
      wipeRuns s = true →
      exec (.wipeDone us) s = .next (bootNext (bootStep5 s us 0x7F#7))) ∧
  (∀ (s : State),
      s.pwr.tripLatch = none →
      strapError s = false →
      s.rst.wipeFailed = false →
      s.ld.tamperStop = false →
      s.clk.mode = .reduced →
      bootNext s = { s with rst := { s.rst with phase := .waitRoot } }) ∧
  (∀ (s : State),
      s.pwr.tripLatch = none →
      strapError s = true →
      bootNext s = { logEv s 0x2107 sevFatal (s.pwr.straps.toNat / 4) with rst := { s.rst with phase := .halted } }) ∧
  (∀ (done : BitVec 7) (s : State),
      wipeRuns s = true →
      done ≠ 0x7F#7 →
      ∃ u, exec (.wipeTimeout done) s = .next (bootNext u) ∧ u.rst.wipeFailed = true ∧ u.rst.wipeStatus = done ∧ u.rst.phase = s.rst.phase ∧ u.pending = s.pending ∧ u.pwr = s.pwr ∧ u.clk = s.clk ∧ u.obj = s.obj) ∧
  (∀ (s : State),
      s.pwr.tripLatch = none →
      s.rst.wipeFailed = true →
      ∃ t, bootNext s = t ∧ t.rst.phase = .halted ∧ t.rst.wipeFailed = true ∧ t.rst.initDone = s.rst.initDone ∧ t.pending = s.pending) ∧
  (∀ (s : State),
      s.rst.phase = .waitRoot →
      clocked s = true →
      s.clk.mode ≠ .reduced →
      exec .bootWaitEnd s = .next (enterStep6 s)) ∧
  (∀ (s : State),
      s.rst.phase = .waitHot →
      clocked s = true →
      exec .bootWaitEnd s = .next (bootNext (logEv { s with pwr := { s.pwr with tripLatch := none } } 0x2106 sevFatal (s.pwr.tripLatch.getD 0))))

/-- Rows DIE_DRAIN_DONE, DIE_POWER_OFF_DONE, DIE_RETURN_DONE, STANDBY_SAVE_DONE, WAKE_CAN, WAKE_PIN, WAKE_TIMER_EXPIRY, LATCHED_WAKE_RISE and WAKE_RAILS_READY. Everything not named in a result is as it was. The model's choices: an answer that still comes for an engine of the die is discarded (log entry 90); AON32K counts 32.768 kHz where no frequency was measured (log entry 18). -/
def Obligations.DieAndStandby : Prop :=
  (∀ (d : Fin 8) (s : State),
      operating s = true →
      dieOf s d.val = .entering →
      s.dbg.attached = false →
      ∃ u, u = (dieParts d.val).foldl (fun a p => setPart a p 3) (drainTxs s (dieParts d.val) (dieEngs d.val) rGated) ∧
        exec (.dieDrainDone d) s = .next (lanesDieDormant (synthsStop { u with vent := { u.vent with txs := orphan [] (dieEngs d.val) u.vent.txs } } d.val) d.val)) ∧
  (∀ (d : Fin 8) (s : State),
      operating s = true →
      dieOf s d.val = .entering →
      partState s (16 * d.val) = 3 →
      exec (.diePowerOffDone d) s = .next (logEv { s with rst := { s.rst with die := tabPut s.rst.die d.val .dormant, dieEmul := setBit s.rst.dieEmul d.val s.dbg.attached } } 0x2140 sevInfo d.val)) ∧
  (∀ (d : Fin 8) (s : State),
      operating s = true →
      dieOf s d.val = .waking →
      ∃ t, exec (.dieReturnDone d) s = .next t ∧ dieOf t d.val = .on ∧ t.pending = s.pending ∧ t.fuse = s.fuse ∧ t.pwr = s.pwr ∧ t.hub = s.hub ∧ t.ddr = s.ddr) ∧
  (∀ (s : State),
      s.rst.standby = .entering →
      s.rst.standbyEmul = false →
      s.dbg.attached = false →
      exec .standbySaveDone s = .next { lanesAllDormant s with ddr := State.reset.ddr, rst := { (lanesAllDormant s).rst with standby := .asleep, standbyEmul := false, savedEvents := (s.fw.ring.take 32).map (·.2), savedDtime := s.fw.dtime, savedFreq := oGet s O_AON32K_FREQ }, pwr := { (lanesAllDormant s).pwr with corePwrEn := false, monSuspended := true } }) ∧
  (∀ (s : State),
      s.rst.standby = .entering →
      s.rst.standbyEmul = false →
      s.dbg.attached = true →
      exec .standbySaveDone s = .next { lanesAllDormant s with ddr := State.reset.ddr, rst := { (lanesAllDormant s).rst with standbyEmul := true, savedEvents := (s.fw.ring.take 32).map (·.2), savedDtime := s.fw.dtime, savedFreq := oGet s O_AON32K_FREQ } }) ∧
  (∀ (s : State) (b : Nat) (c : BitVec 8),
      s.pwr.vaux = true →
      s.pwr.tripped = false →
      s.rst.wakeSel.getLsbD b = true →
      s.rst.standby = .asleep →
      s.rst.latchedWake = 0#8 →
      wake s b c = { s with rst := { s.rst with standby := .waking, wakeCause := c, standbyEmul := false, latchedWake := 0#8 }, pwr := { s.pwr with corePwrEn := true } }) ∧
  (∀ (s : State),
      canRxPin s = true →
      exec .wakeCan s = .next (wake s 0 1#8)) ∧
  (∀ (s : State),
      exec .wakePin s = .next (wake s 1 2#8)) ∧
  (∀ (s : State),
      s.rst.standby = .asleep →
      exec .wakeTimerExpiry s = .next (wake s 2 3#8)) ∧
  (∀ (s : State),
      s.rst.standby = .asleep →
      s.rst.latchedWake ≠ 0#8 →
      s.pwr.vaux = true →
      s.pwr.tripped = false →
      exec .latchedWakeRise s = .next { s with rst := { s.rst with standby := .waking, wakeCause := s.rst.latchedWake, standbyEmul := false, latchedWake := 0#8 }, pwr := { s.pwr with corePwrEn := true } }) ∧
  (∀ (rails : BitVec 28) (periods : Nat) (s : State),
      s.rst.standby = .waking →
      groupsIn s.pwr rails = true →
      s.pwr.rails.getLsbD 7 = true →
      s.pwr.porN = true →
      ∃ t, exec (.wakeRailsReady rails periods) s = .next t ∧ t.rst.cause = 0x0021#16 ∧ t.rst.wakeCause = s.rst.wakeCause ∧ t.rst.phase = (if s.pwr.sysRstN then .wiping else .held) ∧
        t.fw.dtime = s.rst.savedDtime + aonTime periods s.rst.savedFreq ∧ t.fw.ring = restoreRing s.rst.savedEvents ∧ t.pwr.rails = railsSeen s.pwr (setBit rails 7 true) ∧ t.clk.trim = s.clk.trim ∧ t.pwr.straps = s.pwr.straps ∧
        t.fuse = s.fuse ∧ t.vbat = s.vbat ∧ t.eng = State.reset.eng ∧ t.pending = s.pending)

/-- Rows LC_GROUPS_BLOWN and LC_KEYS_DESTROYED: where every group up to the target reads as blown the transition goes on with its keys; where one does not, no key is changed and the cold reset runs. LC_KEYS_DESTROYED destroys what the target state forbids and starts the cold reset. After it each forbidden slot has all bits blown. The life cycle never falls. -/
def Obligations.LifeCycle : Prop :=
  (∀ (reads : BitVec 32) (s : State) (x : LcRun),
      s.rst.lcRun = some x →
      x.groups = true →
      (blowGroups s.fuse.lg reads 1 x.target.toNat 4).2 = true →
      exec (.lcGroupsBlown reads) s = .next { s with fuse := { s.fuse with lg := (blowGroups s.fuse.lg reads 1 x.target.toNat 4).1 }, rst := { s.rst with lcRun := some { x with groups := false } } }) ∧
  (∀ (reads : BitVec 32) (s : State) (x : LcRun),
      s.rst.lcRun = some x →
      x.groups = true →
      (blowGroups s.fuse.lg reads 1 x.target.toNat 4).2 = false →
      ∃ t, exec (.lcGroupsBlown reads) s = .next t ∧ t.fuse.slots = s.fuse.slots ∧ t.rst.cause = (if inReset s = true ∧ s.rst.warm = false then s.rst.cause else 0x0031#16) ∧ t.rst.lcFail = some x.target ∧ t.rst.phase = .held) ∧
  (∀ (s : State) (x : LcRun),
      s.rst.lcRun = some x →
      x.groups = false →
      ∃ t, exec .lcKeysDestroyed s = .next t ∧ (∀ k < 7, slotForbidden x.target.toNat k = true → (fuseSlot t k).destroyed = true) ∧
        (∀ k < 7, slotForbidden x.target.toNat k = false → fuseSlot t k = fuseSlot s k) ∧ t.fuse.lg = s.fuse.lg ∧ t.rst.lcOld = some s.rst.lc ∧ t.rst.phase = .held) ∧
  (∀ (s t : State),
      FuseLe s t →
      lcOf s ≤ lcOf t)

/-- Rows FLASH_DIRECTORY_READ, FLASH_READ_TIMEOUT, STREAM_HEADER, REAM, SEAL_RECORD and FOLLOW_ON_LOAD_START: what each leaves where it applies. A header, ream or seal that fails a check aborts the load with that check's reason. Everything not named in a result is as it was. -/
def Obligations.StreamIntake : Prop :=
  (∀ (x0 x1 : FlashChip) (a b : Bool) (s : State),
      s.rst.phase = .directory →
      strapCfgSrc s = false →
      clocked s = true →
      (discover x0 x1).count = 0 →
      exec (.flashDirectoryRead x0 x1 a b) s = .next { s with ld := { s.ld with flash := none }, rst := { s.rst with phase := .halted } }) ∧
  (∀ (x0 x1 : FlashChip) (a b : Bool) (s : State),
      s.rst.phase = .directory →
      strapCfgSrc s = false →
      clocked s = true →
      (discover x0 x1).count ≠ 0 →
      chooseDir (discover x0 x1) a b = none →
      exec (.flashDirectoryRead x0 x1 a b) s = .next { s with ld := { s.ld with flash := some (discover x0 x1) }, rst := { s.rst with phase := .halted } }) ∧
  (∀ (x0 x1 : FlashChip) (a b : Bool) (s : State) (d : Nat),
      s.rst.phase = .directory →
      strapCfgSrc s = false →
      clocked s = true →
      (discover x0 x1).count ≠ 0 →
      chooseDir (discover x0 x1) a b = some d →
      flashNat (discover x0 x1) (d + 6) 1 ≠ (discover x0 x1).count →
      exec (.flashDirectoryRead x0 x1 a b) s = .next { logIf (d != 0) s 0x2305 sevWarn (discover x0 x1).count with ld := { s.ld with flash := some (discover x0 x1) }, rst := { s.rst with phase := .halted } }) ∧
  (∀ (s : State) (l : Load),
      s.ld.load = some l →
      fromFlash l = true →
      loadReads l = true →
      exec .flashReadTimeout s = .next (abortLoad s 0x12)) ∧
  (∀ (head : Vector (BitVec 8) 128) (s : State) (l : Load),
      s.ld.load = some l →
      l.phase = .header →
      l.src ≠ 0xFE#8 →
      sourceGives s l 0 128 = true →
      exec (.streamHeader head) s = .next (if headerReason s l (sourceBytes s l 0 head.toList) = 0 then acceptHeader s l (sourceBytes s l 0 head.toList) else abortLoad s (headerReason s l (sourceBytes s l 0 head.toList)))) ∧
  (∀ (head : Vector (BitVec 8) 128) (s : State) (l : Load),
      s.ld.load = some l →
      l.phase = .header →
      l.src ≠ 0xFE#8 →
      sourceGives s l 0 128 = false →
      exec (.streamHeader head) s = .next (abortLoad s 0x12)) ∧
  (∀ (b : List (BitVec 8)) (s : State) (l l1 : Load),
      let len := leAt b 4 4;
      let ct := (b.drop 16).take len;
      s.ld.load = some l →
      l.phase = .reams →
      l.keySource = 0 →
      l.src ≠ 0x10#8 →
      sourceGives s l l.staged b.length = true →
      leAt b 0 4 = l.next ∧ leAt b 8 8 = 0 ∧ 8 ≤ len ∧ len ≤ 16777216 ∧ len % 8 = 0 ∧ b.length = 32 + len →
      BitVec.ofNat 128 (beNat (b.drop (16 + len))) = 0#128 →
      l.staged + b.length + (l.reams - l.next - 1) * 40 + 208 ≤ l.ownLen →
      l.next + 1 ≠ l.reams →
      parseRecords s (planOk s) ct l ct.length = .ok l1 →
      exec (.ream b) s = .next { s with ld := { s.ld with load := some { l1 with key := nextKey l l.next, sha := Config.shaStep l.sha b, staged := l.staged + b.length, next := l.next + 1, phase := .reams } } }) ∧
  (∀ (rec_ : Vector (BitVec 8) 208) (s : State) (l : Load),
      let bytes := sourceBytes s l l.staged rec_.toList;
      let digest := Config.shaEnd (Config.shaStep l.sha (bytes.take 112));
      let why := if sourceGives s l l.staged 208 then sealReason s l bytes digest else 0x12;
      s.ld.load = some l →
      l.phase = .seal →
      exec (.sealRecord rec_) s = .next (if why = 0 then sealPassed s { l with digest := digest, staged := l.staged + 208 } else relayAfterFail (abortLoad s why) 208)) ∧
  (∀ (s : State) (l : Load) (o : Nat) (given : List (BitVec 8)),
      l.src ≠ 0x10#8 →
      sourceBytes s l o given = given) ∧
  (∀ (s : State) (f : FlashInfo) (d : Nat),
      s.ld.flash = some f ∧ s.ld.dir = some d →
      operating s = true →
      s.rst.initDone = true →
      loadBusy s = false →
      s.ld.relay = .off →
      s.ld.active.toNat ≤ 3 →
      s.ld.followPos < s.ld.followN →
      exec .followOnLoadStart s = .next { s with ld := { s.ld with state := 1#8, followPos := s.ld.followPos + 1, load := some { src := s.ld.active, boot := false, follow := some s.ld.followPos, tenant := none, addr := slotOff f d s.ld.active.toNat + flashNat f (slotOff f d s.ld.active.toNat + 20 + 4 * s.ld.followPos) 4 } } })

/-- Rows FRAMES_WRITTEN, PARTIAL_WRITE_START, PARTIAL_WRITE_DONE, STAGING_WIPE_DONE, RELAY_START, RELAY_DONE, RELAY_TIMEOUT, CFGR_READY_CHANGE, FU_DONE, INIT_DONE_RELEASE and INIT_DONE_PIN_HIGH. The model's choice: how far a relay has come when CFGR_READY falls is a free value up to the section's end (log entry 99). Everything not named in a result is as it was. -/
def Obligations.LoadWriting : Prop :=
  (∀ (design : List DesignItem) (s : State) (l : Load),
      s.ld.load = some l →
      l.boot = true →
      l.phase = .writing →
      exec (.framesWritten design) s = .next { toWipe (writeLoad s l design) l with rst := { (toWipe (writeLoad s l design) l).rst with phase := .stageWipe } }) ∧
  (∀ (s : State) (l : Load),
      let ps := loadParts l;
      let s1 : State := { s with ld := { s.ld with load := some { l with phase := .writing }, state := 3#8 } };
      let s2 := advanceEpochs (ps.foldl (fun a p => setPart a p 2) (drainTxs s1 ps [] rNotready)) ps [];
      s.ld.load = some l →
      l.boot = false →
      l.phase = .checked →
      check8 s l = true →
      exec .partialWriteStart s = .next { s2 with fab := { s2.fab with written := s2.fab.written &&& ~~~l.parts } }) ∧
  (∀ (s : State) (l : Load),
      s.ld.load = some l →
      l.boot = false →
      l.phase = .checked →
      check8 s l = false →
      exec .partialWriteStart s = .next (abortLoad s 0x15)) ∧
  (∀ (design : List DesignItem) (s : State) (l : Load),
      let ps := loadParts l;
      let s2 := toWipe (holdCheck (ps.foldl (fun a p => setPart a p 1) (writeLoad (ps.foldl wipePart s) l design))) l;
      let t := (l.tenant.map Fin.val).getD 0;
      s.ld.load = some l →
      l.boot = false →
      l.phase = .writing →
      l.kind = 2 →
      exec (.partialWriteDone design) s = .next (logEvT s2 0x230E sevInfo (t * 65536 + ps.length) t 0xFFFF)) ∧
  (∀ (s : State) (l : Load),
      s.ld.load = some l →
      l.phase = .wiping →
      clocked s = true →
      l.boot = true →
      l.reason = 0 →
      exec .stagingWipeDone s = .next (bootApply s l)) ∧
  (∀ (s : State) (l : Load),
      s.ld.load = some l →
      l.phase = .wiping →
      clocked s = true →
      l.boot = true →
      l.reason ≠ 0 →
      exec .stagingWipeDone s = .next (bootFallback (endLoad s) l)) ∧
  (∀ (s : State) (l : Load),
      s.ld.load = some l →
      l.phase = .wiping →
      clocked s = true →
      l.boot = false →
      l.reason ≠ 0 →
      s.ld.pendingBbk = none →
      exec .stagingWipeDone s = .next { s with ld := { s.ld with load := none, state := 0#8, pendingBbk := none } }) ∧
  (∀ (s : State),
      clocked s = true →
      s.ld.relay = .waiting →
      s.ld.cfgrReady = true →
      exec .relayStart s = .next { s with ld := { s.ld with relay := .running } }) ∧
  (∀ (s : State),
      s.ld.relay = .running →
      s.ld.cfgrReady = true →
      exec .relayDone s = .next { s with ld := { s.ld with relay := .off, relaySent := s.ld.relayLen } }) ∧
  (∀ (s : State),
      s.ld.relay = .running →
      s.ld.cfgrReady = false →
      s.ld.relaySent ≠ s.ld.relayLen →
      exec .relayDone s = .next s) ∧
  (∀ (s : State),
      (s.ld.relay = .running ∨ s.ld.relay = .waiting) →
      s.ld.cfgrReady = false →
      exec .relayTimeout s = .next (logEv { s with ld := { s.ld with relay := .off } } 0x230A sevErr (s.ld.relaySent / 2 ^ 20))) ∧
  (∀ (s : State),
      exec (.cfgrReadyChange true) s = .next { s with ld := { s.ld with cfgrReady := true } }) ∧
  (∀ (s : State),
      ∃ n, exec (.cfgrReadyChange false) s = .next { s with freeCtr := n, ld := { s.ld with cfgrReady := false, relaySent := (relayGo s).ld.relaySent } } ∧
        s.ld.relaySent ≤ (relayGo s).ld.relaySent ∧ (cfgrValid s = true → (relayGo s).ld.relaySent ≤ s.ld.relayLen) ∧ (cfgrValid s = false → relayGo s = s)) ∧
  (∀ (s : State),
      relayOut s = (relaySection s).take s.ld.relaySent ∧ (relaySection s).length = s.ld.relayLen) ∧
  (∀ (s : State) (f : FlashInfo),
      s.ld.flash = some f →
      relaySection s = flashBytes f s.ld.relayAt s.ld.relayLen) ∧
  (∀ (s : State) (j : FuJob) (f : FlashInfo) (d : Nat),
      let o := slotOff f d j.slot;
      let f2 := flashWrite (flashErase f o (slotSize f d j.slot)) o ((j.image.take 4) ++ List.replicate 4 0xFF#8 ++ j.image.drop 8);
      let f3 := flashWrite f2 (o + 4) [0, 0, 0, 0];
      s.ld.fu = some j ∧ s.ld.flash = some f ∧ s.ld.dir = some d →
      flashBytes f2 o j.image.length = j.image →
      flashNat f3 (o + 4) 4 = 0 →
      exec (.fuDone []) s = .next (logEv { oSet s O_FU_STATE 5 with ld := { s.ld with flash := some (journalPut f3 d s.fw.dtime 2 j.slot j.seq), fu := none } } 0x230B sevInfo (j.slot * 65536 + j.seq % 65536))) ∧
  (∀ (pin : Bool) (s : State),
      s.rst.phase = .applied →
      clocked s = true →
      trainingOver s = true →
      requiredMissing s = false →
      (oGet s O_INIT_WAIT_PIN = 0 ∨ pin = true) →
      exec (.initDoneRelease pin) s = .next (releaseTrees { s with rst := { s.rst with initDone := true } })) ∧
  (∀ (s : State),
      s.rst.phase = .applied →
      clocked s = true →
      trainingOver s = true →
      requiredMissing s = false →
      oGet s O_INIT_WAIT_PIN = 1 →
      exec (.initDoneRelease false) s = .next { s with rst := { s.rst with initDone := true, phase := .waitPin } }) ∧
  (∀ (pin : Bool) (s : State),
      s.rst.phase = .applied →
      clocked s = true →
      trainingOver s = true →
      requiredMissing s = true →
      exec (.initDoneRelease pin) s = .next { s with rst := { s.rst with phase := .halted } }) ∧
  (∀ (s : State),
      s.rst.phase = .waitPin →
      clocked s = true →
      exec .initDonePinHigh s = .next (releaseTrees s)) ∧
  (∀ (s : State),
      ∃ t, releaseTrees s = t ∧ t.rst.phase = .run ∧ t.rst.treesHeld = false ∧ t.pending = s.pending ∧ t.fuse = s.fuse)

/-- Rows GRST_RELEASE, GRST_USER_ASSERT, SCRUB_FRAME_CHECK, CAPTURE_TRIGGER and CAPTURE_COMPLETE: a tree whose release clock runs is released, one whose release clock stands stays asserted; a user source that rises or falls (a fall waits for the release clock where it stands), what it then restores at once, which partitions it reaches and which it is held back from; a clean, a corrected and an uncorrectable word of a frame; a capture that takes samples, finds its trigger and ends. That event 0x2505 carries the tenant of the partition held back is the model's choice (log entry 85). The number of errors of a word with more than two bad bits is left open (log entry 2) and not stated here. Then what a step does to the fabric: a register's next value in the order of 06 R262; what an idle step gives each flip-flop of a running partition, and none of one that does not run; the accumulator of a multiply cell; a seam register of a dormant die; a boundary that does not pass. In which steps a clock has an edge is left free (log entry 81). -/
def Obligations.FabricHappenings : Prop :=
  (∀ (g : Fin 8) (t : RTree) (s : State),
      tabFind s.fab.trees g.val = some t →
      exec (.grstRelease g) s = .next (if treeClkOn s t.release.val = true then { s with fab := { s.fab with pulse := setBit s.fab.pulse g.val false } } else s)) ∧
  (∀ (g : Fin 8) (level : Bool) (src : Fin 128) (x : Sig) (t : RTree) (s : State),
      tabFind s.fab.trees g.val = some t →
      t.src = some (.logic src x) →
      exec (.grstUserAssert g level) s = .next (settle (holdCheck (setUser s g.val t (level && partRuns s src.val))))) ∧
  (∀ (g : Fin 8) (level : Bool) (pin : Fin 832) (t : RTree) (s : State),
      tabFind s.fab.trees g.val = some t →
      t.src = some (.pin pin) →
      exec (.grstUserAssert g level) s = .next (settle (holdCheck (setUser s g.val t level)))) ∧
  (∀ (g : Fin 8) (level : Bool) (t : RTree) (s : State),
      tabFind s.fab.trees g.val = some t →
      t.src = none →
      exec (.grstUserAssert g level) s = .next s) ∧
  (∀ (g : Nat) (t : RTree) (s : State),
      setUser s g t true = { s with fab := { s.fab with user := setBit s.fab.user g true, userHold := setBit s.fab.userHold g false } } ∧
        (s.fab.user.getLsbD g = true → setUser s g t false = { s with fab := { s.fab with user := setBit s.fab.user g false, userHold := setBit s.fab.userHold g (!treeClkOn s t.release.val) } }) ∧
        (s.fab.user.getLsbD g = false → setUser s g t false = { s with fab := { s.fab with user := setBit s.fab.user g false } })) ∧
  (∀ (s : State),
      settle s = { s with fab := { s.fab with logic := logicRegs s false } }) ∧
  (∀ (g : Fin 8) (src p : Nat) (s : State),
      treeFrom s g.val = some src →
      s.rst.treesHeld = false →
      s.fab.pulse.getLsbD g.val = false ∧ s.fab.relHold.getLsbD g.val = false →
      treeIn s g.val p = (partRuns s p && ((s.fab.user.getLsbD g.val && partRuns s src) || s.fab.userHold.getLsbD g.val) && partOwner s src == partOwner s p)) ∧
  (∀ (g p : Nat) (s : State),
      s.fab.heldBack.getLsbD p = false →
      holdBack s g [p] = logEvT { s with fab := { s.fab with heldBack := setBit s.fab.heldBack p true } } 0x2505 sevWarn (g * 65536 + p) (partOwner s p) 0xFFFF) ∧
  (∀ (frame : BitVec 19) (word : Fin 512) (bad : BitVec 64) (s : State),
      let p := frameX frame.toNat;
      operating s = true →
      oGet s O_SCRUB_EN = 1 →
      pathTaken s (frame.toNat / 65536) = false →
      frameValid frame.toNat = true ∧ frame.toNat.testBit 11 = false →
      partRuns s p = true →
      popUpTo 64 bad.toNat ≤ 2 →
      exec (.scrubFrameCheck frame word bad none) s = .next (freeStep (if popUpTo 64 bad.toNat = 0 then s else if popUpTo 64 bad.toNat = 1 then scrubCorrect s p frame.toNat word.val else scrubBad s p frame.toNat word.val bad))) ∧
  (∀ (samples : List (BitVec 64)) (s : State),
      capRuns s = true →
      oGet s O_CAP_STATE = 1 →
      exec (.captureTrigger samples) s = .next (capFeed s samples)) ∧
  (∀ (samples : List (BitVec 64)) (s : State),
      capRuns s = true →
      oGet s O_CAP_STATE = 2 →
      exec (.captureComplete samples) s = .next (capFeed s samples)) ∧
  (∀ (x : BitVec 64) (r : List (BitVec 64)) (s : State),
      let y := x &&& probeMask s;
      let s1 := capPush s y;
      (oGet s O_CAP_STATE = 1 → ¬ (oGet s O_TRIG_POS ≤ s.fab.capWritten ∧ trigMatch s y = true) → capFeed s (x :: r) = capFeed s1 r) ∧
        (oGet s O_CAP_STATE = 1 → oGet s O_TRIG_POS ≤ s.fab.capWritten → trigMatch s y = true → capFeed s (x :: r) = capFeed (capEnd (logEv (oSet s1 O_CAP_STATE 2) 0x2501 sevInfo (min s1.fab.capWritten 0xFFFFFF))) r) ∧
        (oGet s O_CAP_STATE = 2 → capFeed s (x :: r) = capFeed (capEnd s1) r)) ∧
  (∀ (s : State),
      oGet s O_CAP_STATE = 2 →
      4095 ≤ s.fab.capAfter + oGet s O_TRIG_POS →
      capEnd s = logEv (oSet (oSet s O_CAP_STATE 3) O_TRIG_INDEX (oGet s O_TRIG_POS)) 0x2502 sevInfo (oGet s O_TRIG_POS)) ∧
  (∀ (i sr async v edge en d q : Bool),
      regNext true i sr async v edge en d q = i ∧ regNext false i true true v edge en d q = v ∧ regNext false i true false v true en d q = v ∧
        regNext false i false async v true true d q = d ∧ regNext false i false async v true false d q = q ∧ regNext false i sr false v false en d q = q) ∧
  (∀ (k : Nat) (y : Cell) (s : State),
      tabFind s.fab.logic.cells k = some y →
      (partRuns s (keyPart (k / 16)) = false → tabFind (logicStep s).cells k = some y) ∧
        (∀ f, partRuns s (keyPart (k / 16)) = true → y.cfg.ff0 = some f → ∃ z, tabFind (logicStep s).cells k = some z ∧ z.cfg = y.cfg ∧
        z.q0 = ffNext s true (k / 16) (keyPart (k / 16)) f (sig s (keyPart (k / 16)) (if f.byp = true then y.cfg.byp else .lut (keyCell k))) y.q0) ∧
        (∀ f, partRuns s (keyPart (k / 16)) = true → y.cfg.ff0 = some f → f.restore = true → treeIn s f.tree.val (keyPart (k / 16)) = true → ∃ z, tabFind (logicStep s).cells k = some z ∧ z.q0 = f.init)) ∧
  (∀ (base : BitVec 58) (prod : BitVec 54) (sub : Bool),
      let v : Int := if sub = true then base.toInt - prod.toInt else base.toInt + prod.toInt;
      (-2 ^ 57 ≤ v ∧ v < 2 ^ 57 → (accNext base prod sub).1.toInt = v ∧ (accNext base prod sub).2 = false) ∧
        (¬ (-2 ^ 57 ≤ v ∧ v < 2 ^ 57) → (accNext base prod sub).2 = true) ∧ ((accNext base prod sub).1.toInt - v) % 2 ^ 58 = 0) ∧
  (∀ (k : Nat) (e : Bool) (y : Seam) (s : State),
      dieOf s (seamFrom k / 16) = .dormant →
      seamStep s e k y = { y with q := false }) ∧
  (∀ (n q : Nat) (k : Nat) (y : BPort) (s : State),
      tabFind s.fab.logic.ports k = some y →
      passes s y.frm y.dest = false →
      sigVal s (n + 1) q (.port k) = false) ∧
  (∀ (pin : Nat) (s : State),
      bankOn s pin = false →
      padOut s pin = none ∧ pinPull s pin = .none)

/-- Rows RAM_READ, RAM_WRITE, RAM_NARROW_WRITE, RAM_SCRUB_VISIT and RAM_SCRUB_WRITEBACK through a port of a RAM whose partition runs and whose clock runs. A full ECC write stores the word with its injected error bits; a narrow write in ECC mode is merged; a read judges the stored word with its upsets and the address reached, leaves the stored error and gives the port its output; the scrubber steps to its next word and writes back what it has corrected. Outside ECC mode a port reads and writes its own slice. A port that does not read, or does not write, does nothing. What a word with three or more errors, or one of the address differences that go undetected, is judged as is a free value (log entry 86, the model's choice) and not stated here. -/
def Obligations.RamAccesses : Prop :=
  (∀ (r : RamId) (p : Port) (addr reach : BitVec 15) (upset : BitVec 72) (s : State),
      let m := ramOf s r;
      let a := addr.toNat % ramDepth r;
      let i := reach.toNat % ramDepth r;
      let x : RamWord := { ramWord m i with err := (ramWord m i).err ^^^ upset };
      let k := ramJudge r x a i s.freeCtr;
      portUsable s r p = true →
      (portOf m p).reads = true →
      m.ecc = true →
      exec (.ramRead r p addr reach upset) s = .next (ramReport (freeStep (setRam s r (setOut { m with words := tabSet m.words i x {} } p (eccOut (ramFixed x k ((a ^^^ i) == x.adr.toNat) s.freeCtr) k)))) r k a)) ∧
  (∀ (r : RamId) (x : RamWord) (a f : Nat),
      x.adr = 0#12 →
      popUpTo 72 x.err.toNat ≤ 2 →
      ramJudge r x a a f = popUpTo 72 x.err.toNat ∧ eccOut (ramFixed x 0 true f) 0 = { data := ramStored x &&& 0xFFFFFFFFFFFFFFFF#72 } ∧
        (popUpTo 72 x.err.toNat = 1 → eccOut (ramFixed x 1 true f) 1 = { data := x.val &&& 0xFFFFFFFFFFFFFFFF#72, sbe := true }) ∧
        eccOut (ramFixed x 2 true f) 2 = { data := ramStored x &&& 0xFFFFFFFFFFFFFFFF#72, dbe := true }) ∧
  (∀ (r : RamId) (p : Port) (addr reach : BitVec 15) (upset : BitVec 72) (s : State),
      let m := ramOf s r;
      let w := (portOf m p).width;
      let i := reach.toNat / portRatio w % ramDepth r;
      let x : RamWord := { ramWord m i with err := (ramWord m i).err ^^^ upset };
      portUsable s r p = true →
      (portOf m p).reads = true →
      m.ecc = false →
      exec (.ramRead r p addr reach upset) s = .next (freeStep (setRam s r (setOut { m with words := tabSet m.words i x {} } p { data := BitVec.ofNat 72 ((x.val ^^^ x.err).toNat / 2 ^ portShift w reach.toNat % 2 ^ w) })))) ∧
  (∀ (r : RamId) (p : Port) (addr reach : BitVec 15) (w : BitVec 72) (inj1 inj2 lost reads : Bool) (s : State),
      let m := ramOf s r;
      let a := addr.toNat % ramDepth r;
      let i := reach.toNat % ramDepth r;
      let v := w &&& 0xFFFFFFFFFFFFFFFF#72;
      let e : BitVec 72 := if inj2 then 0x30000000000000000#72 else if inj1 then 0x10000000000000000#72 else 0#72;
      portUsable s r p = true →
      (portOf m p).writes = true →
      (lost && p == .b) = false →
      m.ecc = true →
      (portOf m p).rdw ≠ .readFirst →
      exec (.ramWrite r p addr reach w 0xFF#8 inj1 inj2 lost reads) s = .next (freeStep (setRam s r (setOut (putWord m i { val := v, err := e, adr := BitVec.ofNat 12 (a ^^^ i) }) p (if reads = true ∧ (portOf m p).reads = true ∧ (portOf m p).rdw = .writeFirst then { data := v } else outOf m p))))) ∧
  (∀ (r : RamId) (p : Port) (addr reach : BitVec 15) (w : BitVec 72) (en : BitVec 8) (inj1 inj2 lost reads : Bool) (s : State),
      let m := ramOf s r;
      let wd := (portOf m p).width;
      let i := portWord false wd reach.toNat % ramDepth r;
      let sh := portShift wd reach.toNat;
      let old := (ramWord m i).val ^^^ (ramWord m i).err;
      let mask := enMask false wd en.toNat * 2 ^ sh;
      let v := BitVec.ofNat 72 ((old.toNat &&& (2 ^ 72 - 1 - mask)) ||| ((w.toNat * 2 ^ sh) &&& mask));
      portUsable s r p = true →
      (portOf m p).writes = true →
      (lost && p == .b) = false →
      m.ecc = false →
      exec (.ramWrite r p addr reach w en inj1 inj2 lost reads) s = .next (freeStep (setRam s r (setOut (putWord m i { val := v }) p (if reads = true ∧ (portOf m p).reads = true then (match (portOf m p).rdw with | .writeFirst => { data := BitVec.ofNat 72 (v.toNat / 2 ^ sh % 2 ^ wd) } | .readFirst => { data := BitVec.ofNat 72 (old.toNat / 2 ^ sh % 2 ^ wd) } | .noChange => outOf m p) else outOf m p))))) ∧
  (∀ (r : RamId) (addr reach : BitVec 15) (w : BitVec 72) (en : BitVec 8) (inj1 inj2 reads : Bool) (s : State),
      exec (.ramWrite r .b addr reach w en inj1 inj2 true reads) s = .next s) ∧
  (∀ (r : RamId) (p : Port) (addr reach : BitVec 15) (w : BitVec 64) (en : BitVec 8) (inj1 inj2 : Bool) (upset : BitVec 72) (reads : Bool) (s : State),
      portUsable s r p = true →
      (portOf (ramOf s r) p).writes = true →
      exec (.ramNarrowWrite r p addr reach w en inj1 inj2 upset reads) s = .next (if (ramOf s r).ecc = true ∧ en ≠ 0xFF#8 then ramMerge s r p addr.toNat reach.toNat w en.toNat upset (injMask inj1 inj2) reads else ramWrite s r p addr.toNat reach.toNat (w.setWidth 72) en.toNat upset (injMask inj1 inj2) reads)) ∧
  (∀ (r : RamId) (p : Port) (addr reach : BitVec 15) (w : BitVec 72) (en : BitVec 8) (inj1 inj2 lost reads : Bool) (upset : BitVec 72) (s : State),
      ((portOf (ramOf s r) p).reads = false → exec (.ramRead r p addr reach upset) s = .next s) ∧
        ((portOf (ramOf s r) p).writes = false → exec (.ramWrite r p addr reach w en inj1 inj2 lost reads) s = .next s)) ∧
  (∀ (r : RamId) (upset : BitVec 72) (s : State),
      let m := ramOf s r;
      let i := m.pos % ramDepth r;
      let x : RamWord := { ramWord m i with err := (ramWord m i).err ^^^ upset };
      let n := popUpTo 72 x.err.toNat;
      let s1 (b : Option (Nat × BitVec 72)) : State := freeStep (setRam s r { m with words := tabSet m.words i x {}, pos := (i + 1) % ramDepth r, back := b });
      portUsable s r .b = true →
      m.ecc = true ∧ m.scrub = true →
      x.adr = 0#12 ∧ n ≤ 2 →
      exec (.ramScrubVisit r upset) s = .next (if n = 2 then ramUncorrectable (s1 m.back) r i else if n = 1 then s1 (some (i, x.val &&& 0xFFFFFFFFFFFFFFFF#72)) else s1 m.back)) ∧
  (∀ (r : RamId) (i : Nat) (v : BitVec 72) (s : State),
      portUsable s r .b = true →
      (ramOf s r).back = some (i, v) →
      exec (.ramScrubWriteback r) s = .next (ramCorrected (setRam s r { ramOf s r with words := tabSet (ramOf s r).words i { val := v } {}, back := none }) r))

/-- Rows QB_WRITE, QB_READ, QB_FLUSH, QB_FLUSH_OBSERVED, QB_FLUSH_DONE and QB_DROP of a block whose partition runs, at sides that fabric logic holds and whose clock runs; q is the block as its sides count it now. A write that finds space appends its word with three copies of its end mark; one that finds the block full is not taken; while the rest of a packet is discarded, words go until its end; a read of a clean word takes the oldest, its end mark by the majority of the three, and one of an empty block or during a drop delivers nothing; a flush empties the block in its steps and discards the rest of an open packet; a drop removes the rest of the packet that is being read while the consumer's clock runs. Each of them leaves every other block as it is; a side whose clock stands keeps its counts. What a word with three or more errors is judged as is a free value (log entry 86, the model's choice) and not stated here. -/
def Obligations.QueueBlocks : Prop :=
  (∀ (b : Fin 1024) (data : BitVec 128) (last : Bool) (bytes : BitVec 4) (inj1 inj2 : Bool) (adr : BitVec 10) (s : State),
      let q := qbNow s b.val;
      let w : QbWord := { data := data, last := last, bytes := bytes, err := qbInj inj1 inj2, adr := adr, ends := if last then 7#3 else 0#3 };
      let e := q.packet && last;
      qbFabricIn s b.val = true →
      exec (.qbWrite b data last bytes inj1 inj2 adr) s = .next (qbPut s b.val (if q.discard = true then { q with discard := !last } else if 1024 ≤ q.words.length + q.freed then q else { q with words := q.words ++ [w], open_ := !last, newWords := q.newWords + 1, pkts := if e = true then q.pkts + 1 else q.pkts, newEnds := if e = true then q.newEnds + 1 else q.newEnds }))) ∧
  (∀ (b : Nat) (q : Qb) (s : State),
      qbOf (qbPut s b q) b = qbCatch (qbRclk s b) (qbWclk s b) q ∧ (∀ c, c ≠ b → qbOf (qbPut s b q) c = qbOf s c) ∧ qbCatch false false q = q ∧
        (q.dropping = false → qbCatch true true q = { q with newWords := 0, newEnds := 0, freed := 0 }) ∧
        (q.dropping = true ∧ q.flush = 0 → (qbCatch true true q).words = (qbSkip q q.words).words ∧ (qbCatch true true q).dropping = (qbSkip q q.words).dropping)) ∧
  (∀ (q : Qb) (w : QbWord) (r : List QbWord),
      qbSkip q (w :: r) = (if qbEnd w.ends = true then { q with words := r, dropping := false, inside := false, pkts := q.pkts - 1 } else qbSkip q r) ∧ qbSkip q [] = { q with words := [] }) ∧
  (∀ (b : Fin 1024) (w : QbWord) (r : List QbWord) (ends : BitVec 3) (s : State),
      let q := qbNow s b.val;
      let e := qbEnd (w.ends ^^^ ends);
      qbFabricOut s b.val = true →
      q.flush = 0 ∧ q.dropping = false ∧ q.newWords = 0 →
      q.words = w :: r →
      w.err = 0 ∧ w.adr = 0 →
      exec (.qbRead b 0 ends 0) s = .next (freeStep (qbPut s b.val { q with words := r, inside := q.packet && !e, freed := q.freed + 1, pkts := if (q.packet && e) = true then q.pkts - 1 else q.pkts, valid := true, out := { data := w.data, last := e, bytes := w.bytes, poison := false } }))) ∧
  (∀ (b : Fin 1024) (upset : BitVec 142) (ends : BitVec 3) (adr : BitVec 10) (s : State),
      ((qbNow s b.val).dropping = true ∨ qbRcount (qbNow s b.val) = 0) →
      exec (.qbRead b upset ends adr) s = .next s) ∧
  (∀ (b : Fin 1024) (s : State),
      let q := qbNow s b.val;
      qbFabricOut s b.val = true →
      q.flushOk = true ∧ q.flush = 0 →
      exec (.qbFlush b) s = .next (qbPut s b.val { q with flush := 1, dropping := false, inside := false })) ∧
  (∀ (b : Fin 1024) (s : State),
      let q := qbNow s b.val;
      qbUsable s b.val = true →
      qbWclk s b.val = true →
      q.flush = 1 →
      exec (.qbFlushObserved b) s = .next (qbPut s b.val { q with flush := 2, words := [], pkts := 0, open_ := false, newWords := 0, newEnds := 0, freed := 0, discard := q.packet && (q.open_ || q.discard) })) ∧
  (∀ (b : Fin 1024) (s : State),
      let q := qbNow s b.val;
      qbFabricOut s b.val = true →
      qbWclk s b.val = true →
      q.flush = 2 →
      exec (.qbFlushDone b) s = .next (qbPut s b.val { q with flush := 0 })) ∧
  (∀ (b : Fin 1024) (s : State),
      let q := qbNow s b.val;
      qbFabricOut s b.val = true →
      q.dropOk = true ∧ q.packet = true ∧ q.inside = true ∧ q.flush = 0 ∧ q.dropping = false →
      exec (.qbDrop b) s = .next (qbPut s b.val { q with dropping := true }))

/-- Rows VADD to VSEL. Where the bundle that carries the operation issues (Issues: the engine is clocked and at a boundary with nothing else due and no exception applies), the bundle takes effect and sends the operation's result to its destination with latency 2; a lane of a marked operation that does not fit is clipped or wrapped as CSTAT.SAT says, and raises OVF. A halving difference that does not fit its lane is left open (log entry 12). -/
def Obligations.ValuResults : Prop :=
  (∀ (e : Fin 768) (d a b : BitVec 5) (wc : BitVec 2) (f : Bool) (rest : BitVec 64) (s : State),
      let w := withM rest 1 (fmtV (4 * 1 + wc.toNat) d.toNat a.toNat b.toNat f.toNat);
      let g := engOf s e;
      let c := (actBank g).cstat;
      let n := laneBits wc.toNat;
      let x (i : Nat) : Int := slane (rdV g a.toNat) n i;
      let y (i : Nat) : Int := if f then slane (rdS g b.toNat) n 0 else slane (rdV g b.toNat) n i;
      let r (i : Nat) : Int := x i + y i;
      Issues s e w →
      ∃ bb, decBundle w = some bb ∧ exec (.vadd e d a b wc f rest) s = .next (applyBundle s e bb) ∧
        (2, .v (physV c d.toNat) (vecOf n fun i => markS (csSat c) n (r i)) (ones 256)) ∈ bundleWrites s e bb ∧
        ((∃ i, i < 256 / n ∧ fitsS n (r i) = false) → (2, .sticky 8#32) ∈ bundleWrites s e bb)) ∧
  (∀ (e : Fin 768) (d a b : BitVec 5) (wc : BitVec 2) (f : Bool) (rest : BitVec 64) (s : State),
      let w := withM rest 1 (fmtV (4 * 2 + wc.toNat) d.toNat a.toNat b.toNat f.toNat);
      let g := engOf s e;
      let c := (actBank g).cstat;
      let n := laneBits wc.toNat;
      let x (i : Nat) : Int := slane (rdV g a.toNat) n i;
      let y (i : Nat) : Int := if f then slane (rdS g b.toNat) n 0 else slane (rdV g b.toNat) n i;
      let r (i : Nat) : Int := x i - y i;
      Issues s e w →
      ∃ bb, decBundle w = some bb ∧ exec (.vsub e d a b wc f rest) s = .next (applyBundle s e bb) ∧
        (2, .v (physV c d.toNat) (vecOf n fun i => markS (csSat c) n (r i)) (ones 256)) ∈ bundleWrites s e bb ∧
        ((∃ i, i < 256 / n ∧ fitsS n (r i) = false) → (2, .sticky 8#32) ∈ bundleWrites s e bb)) ∧
  (∀ (e : Fin 768) (d a b : BitVec 5) (wc : BitVec 2) (f : Bool) (rest : BitVec 64) (s : State),
      let w := withM rest 1 (fmtV (4 * 3 + wc.toNat) d.toNat a.toNat b.toNat f.toNat);
      let g := engOf s e;
      let c := (actBank g).cstat;
      let n := laneBits wc.toNat;
      let x (i : Nat) : Int := slane (rdV g a.toNat) n i;
      let y (i : Nat) : Int := if f then slane (rdS g b.toNat) n 0 else slane (rdV g b.toNat) n i;
      let r (i : Nat) : Int := rndShift (csRnd c) (x i + y i) 1;
      Issues s e w →
      ∃ bb, decBundle w = some bb ∧ exec (.vhadd e d a b wc f rest) s = .next (applyBundle s e bb) ∧
        (2, .v (physV c d.toNat) (vecOf n fun i => wrapTo n (r i)) (ones 256)) ∈ bundleWrites s e bb) ∧
  (∀ (e : Fin 768) (d a b : BitVec 5) (wc : BitVec 2) (f : Bool) (rest : BitVec 64) (s : State),
      let w := withM rest 1 (fmtV (4 * 4 + wc.toNat) d.toNat a.toNat b.toNat f.toNat);
      let g := engOf s e;
      let c := (actBank g).cstat;
      let n := laneBits wc.toNat;
      let x (i : Nat) : Int := slane (rdV g a.toNat) n i;
      let y (i : Nat) : Int := if f then slane (rdS g b.toNat) n 0 else slane (rdV g b.toNat) n i;
      let r (i : Nat) : Int := rndShift (csRnd c) (x i - y i) 1;
      Issues s e w →
      ∃ bb, decBundle w = some bb ∧ exec (.vhsub e d a b wc f rest) s = .next (applyBundle s e bb) ∧
        ∃ fr : Nat → Nat, (2, .v (physV c d.toNat) (vecOf n fun i => if fitsS n (r i) then wrapTo n (r i) else fr i) (ones 256)) ∈ bundleWrites s e bb) ∧
  (∀ (e : Fin 768) (d a b : BitVec 5) (wc : BitVec 2) (f : Bool) (rest : BitVec 64) (s : State),
      let w := withM rest 1 (fmtV (4 * 5 + wc.toNat) d.toNat a.toNat b.toNat f.toNat);
      let g := engOf s e;
      let c := (actBank g).cstat;
      let n := laneBits wc.toNat;
      let x (i : Nat) : Int := slane (rdV g a.toNat) n i;
      let y (i : Nat) : Int := if f then slane (rdS g b.toNat) n 0 else slane (rdV g b.toNat) n i;
      let r (i : Nat) : Int := min (x i) (y i);
      Issues s e w →
      ∃ bb, decBundle w = some bb ∧ exec (.vmin e d a b wc f rest) s = .next (applyBundle s e bb) ∧
        (2, .v (physV c d.toNat) (vecOf n fun i => wrapTo n (r i)) (ones 256)) ∈ bundleWrites s e bb) ∧
  (∀ (e : Fin 768) (d a b : BitVec 5) (wc : BitVec 2) (f : Bool) (rest : BitVec 64) (s : State),
      let w := withM rest 1 (fmtV (4 * 6 + wc.toNat) d.toNat a.toNat b.toNat f.toNat);
      let g := engOf s e;
      let c := (actBank g).cstat;
      let n := laneBits wc.toNat;
      let x (i : Nat) : Int := slane (rdV g a.toNat) n i;
      let y (i : Nat) : Int := if f then slane (rdS g b.toNat) n 0 else slane (rdV g b.toNat) n i;
      let r (i : Nat) : Int := max (x i) (y i);
      Issues s e w →
      ∃ bb, decBundle w = some bb ∧ exec (.vmax e d a b wc f rest) s = .next (applyBundle s e bb) ∧
        (2, .v (physV c d.toNat) (vecOf n fun i => wrapTo n (r i)) (ones 256)) ∈ bundleWrites s e bb) ∧
  (∀ (e : Fin 768) (d a : BitVec 5) (wc : BitVec 2) (rest : BitVec 64) (s : State),
      let w := withM rest 1 (fmtV (4 * 7 + wc.toNat) d.toNat a.toNat 0 0);
      let g := engOf s e;
      let c := (actBank g).cstat;
      let n := laneBits wc.toNat;
      let x (i : Nat) : Int := slane (rdV g a.toNat) n i;
      let r (i : Nat) : Int := if x i < 0 then -x i else x i;
      Issues s e w →
      ∃ bb, decBundle w = some bb ∧ exec (.vabs e d a wc rest) s = .next (applyBundle s e bb) ∧
        (2, .v (physV c d.toNat) (vecOf n fun i => markS (csSat c) n (r i)) (ones 256)) ∈ bundleWrites s e bb ∧
        ((∃ i, i < 256 / n ∧ fitsS n (r i) = false) → (2, .sticky 8#32) ∈ bundleWrites s e bb)) ∧
  (∀ (e : Fin 768) (d a : BitVec 5) (wc : BitVec 2) (rest : BitVec 64) (s : State),
      let w := withM rest 1 (fmtV (4 * 8 + wc.toNat) d.toNat a.toNat 0 0);
      let g := engOf s e;
      let c := (actBank g).cstat;
      let n := laneBits wc.toNat;
      let x (i : Nat) : Int := slane (rdV g a.toNat) n i;
      let r (i : Nat) : Int := -x i;
      Issues s e w →
      ∃ bb, decBundle w = some bb ∧ exec (.vneg e d a wc rest) s = .next (applyBundle s e bb) ∧
        (2, .v (physV c d.toNat) (vecOf n fun i => markS (csSat c) n (r i)) (ones 256)) ∈ bundleWrites s e bb ∧
        ((∃ i, i < 256 / n ∧ fitsS n (r i) = false) → (2, .sticky 8#32) ∈ bundleWrites s e bb)) ∧
  (∀ (e : Fin 768) (d a b : BitVec 5) (f : Bool) (rest : BitVec 64) (s : State),
      let w := withM rest 1 (fmtV (4 * 9) d.toNat a.toNat b.toNat f.toNat);
      let g := engOf s e;
      let c := (actBank g).cstat;
      let n := laneBits 0;
      let x (i : Nat) : Nat := lane (rdV g a.toNat) n i;
      let y (i : Nat) : Nat := if f then lane (rdS g b.toNat) n 0 else lane (rdV g b.toNat) n i;
      let r (i : Nat) : Nat := x i &&& y i;
      Issues s e w →
      ∃ bb, decBundle w = some bb ∧ exec (.vand e d a b f rest) s = .next (applyBundle s e bb) ∧
        (2, .v (physV c d.toNat) (vecOf n fun i => wrapTo n (r i : Nat)) (ones 256)) ∈ bundleWrites s e bb) ∧
  (∀ (e : Fin 768) (d a b : BitVec 5) (f : Bool) (rest : BitVec 64) (s : State),
      let w := withM rest 1 (fmtV (4 * 10) d.toNat a.toNat b.toNat f.toNat);
      let g := engOf s e;
      let c := (actBank g).cstat;
      let n := laneBits 0;
      let x (i : Nat) : Nat := lane (rdV g a.toNat) n i;
      let y (i : Nat) : Nat := if f then lane (rdS g b.toNat) n 0 else lane (rdV g b.toNat) n i;
      let r (i : Nat) : Nat := x i ||| y i;
      Issues s e w →
      ∃ bb, decBundle w = some bb ∧ exec (.vor e d a b f rest) s = .next (applyBundle s e bb) ∧
        (2, .v (physV c d.toNat) (vecOf n fun i => wrapTo n (r i : Nat)) (ones 256)) ∈ bundleWrites s e bb) ∧
  (∀ (e : Fin 768) (d a b : BitVec 5) (f : Bool) (rest : BitVec 64) (s : State),
      let w := withM rest 1 (fmtV (4 * 11) d.toNat a.toNat b.toNat f.toNat);
      let g := engOf s e;
      let c := (actBank g).cstat;
      let n := laneBits 0;
      let x (i : Nat) : Nat := lane (rdV g a.toNat) n i;
      let y (i : Nat) : Nat := if f then lane (rdS g b.toNat) n 0 else lane (rdV g b.toNat) n i;
      let r (i : Nat) : Nat := x i ^^^ y i;
      Issues s e w →
      ∃ bb, decBundle w = some bb ∧ exec (.vxor e d a b f rest) s = .next (applyBundle s e bb) ∧
        (2, .v (physV c d.toNat) (vecOf n fun i => wrapTo n (r i : Nat)) (ones 256)) ∈ bundleWrites s e bb) ∧
  (∀ (e : Fin 768) (d a sh : BitVec 5) (wc : BitVec 2) (rest : BitVec 64) (s : State),
      let w := withM rest 1 (fmtV (4 * 12 + wc.toNat) d.toNat a.toNat sh.toNat 0);
      let g := engOf s e;
      let c := (actBank g).cstat;
      let n := laneBits wc.toNat;
      let x (i : Nat) : Int := slane (rdV g a.toNat) n i;
      let r (i : Nat) : Int := rndShift (csRnd c) (x i) sh.toNat;
      Issues s e w →
      ∃ bb, decBundle w = some bb ∧ exec (.vsra e d a sh wc rest) s = .next (applyBundle s e bb) ∧
        (2, .v (physV c d.toNat) (vecOf n fun i => wrapTo n (r i)) (ones 256)) ∈ bundleWrites s e bb) ∧
  (∀ (e : Fin 768) (d a sh : BitVec 5) (wc : BitVec 2) (rest : BitVec 64) (s : State),
      let w := withM rest 1 (fmtV (4 * 13 + wc.toNat) d.toNat a.toNat sh.toNat 0);
      let g := engOf s e;
      let c := (actBank g).cstat;
      let n := laneBits wc.toNat;
      let r (i : Nat) : Nat := lane (rdV g a.toNat) n i / 2 ^ sh.toNat;
      Issues s e w →
      ∃ bb, decBundle w = some bb ∧ exec (.vsrl e d a sh wc rest) s = .next (applyBundle s e bb) ∧
        (2, .v (physV c d.toNat) (vecOf n fun i => wrapTo n (r i : Nat)) (ones 256)) ∈ bundleWrites s e bb) ∧
  (∀ (e : Fin 768) (d a sh : BitVec 5) (wc : BitVec 2) (rest : BitVec 64) (s : State),
      let w := withM rest 1 (fmtV (4 * 14 + wc.toNat) d.toNat a.toNat sh.toNat 0);
      let g := engOf s e;
      let c := (actBank g).cstat;
      let n := laneBits wc.toNat;
      let x (i : Nat) : Int := slane (rdV g a.toNat) n i;
      let r (i : Nat) : Int := x i * 2 ^ sh.toNat;
      Issues s e w →
      ∃ bb, decBundle w = some bb ∧ exec (.vshl e d a sh wc rest) s = .next (applyBundle s e bb) ∧
        (2, .v (physV c d.toNat) (vecOf n fun i => markS (csSat c) n (r i)) (ones 256)) ∈ bundleWrites s e bb ∧
        ((∃ i, i < 256 / n ∧ fitsS n (r i) = false) → (2, .sticky 8#32) ∈ bundleWrites s e bb)) ∧
  (∀ (e : Fin 768) (d a b : BitVec 5) (wc : BitVec 2) (f : Bool) (rest : BitVec 64) (s : State),
      let w := withM rest 1 (fmtV (4 * 15 + wc.toNat) d.toNat a.toNat b.toNat f.toNat);
      let g := engOf s e;
      let c := (actBank g).cstat;
      let n := laneBits wc.toNat;
      let x (i : Nat) : Int := slane (rdV g a.toNat) n i;
      let y (i : Nat) : Int := if f then slane (rdS g b.toNat) n 0 else slane (rdV g b.toNat) n i;
      let r (i : Nat) : Int := if y i < x i then -1 else 0;
      Issues s e w →
      ∃ bb, decBundle w = some bb ∧ exec (.vcmpgt e d a b wc f rest) s = .next (applyBundle s e bb) ∧
        (2, .v (physV c d.toNat) (vecOf n fun i => wrapTo n (r i)) (ones 256)) ∈ bundleWrites s e bb) ∧
  (∀ (e : Fin 768) (d a b : BitVec 5) (wc : BitVec 2) (f : Bool) (rest : BitVec 64) (s : State),
      let w := withM rest 1 (fmtV (4 * 16 + wc.toNat) d.toNat a.toNat b.toNat f.toNat);
      let g := engOf s e;
      let c := (actBank g).cstat;
      let n := laneBits wc.toNat;
      let x (i : Nat) : Int := slane (rdV g a.toNat) n i;
      let y (i : Nat) : Int := if f then slane (rdS g b.toNat) n 0 else slane (rdV g b.toNat) n i;
      let r (i : Nat) : Int := if x i = y i then -1 else 0;
      Issues s e w →
      ∃ bb, decBundle w = some bb ∧ exec (.vcmpeq e d a b wc f rest) s = .next (applyBundle s e bb) ∧
        (2, .v (physV c d.toNat) (vecOf n fun i => wrapTo n (r i)) (ones 256)) ∈ bundleWrites s e bb) ∧
  (∀ (e : Fin 768) (d a b : BitVec 5) (rest : BitVec 64) (s : State),
      let w := withM rest 1 (fmtV (4 * 17) d.toNat a.toNat b.toNat 0);
      let g := engOf s e;
      let c := (actBank g).cstat;
      let n := laneBits 0;
      let x (i : Nat) : Nat := lane (rdV g a.toNat) n i;
      let y (i : Nat) : Nat := lane (rdV g b.toNat) n i;
      let z (i : Nat) : Nat := lane (rdV g d.toNat) n i;
      let r (i : Nat) : Nat := (z i &&& x i) ||| ((255 - z i) &&& y i);
      Issues s e w →
      ∃ bb, decBundle w = some bb ∧ exec (.vsel e d a b rest) s = .next (applyBundle s e bb) ∧
        (2, .v (physV c d.toNat) (vecOf n fun i => wrapTo n (r i : Nat)) (ones 256)) ∈ bundleWrites s e bb)

/-- Rows VMAC_H to ALD. Where the bundle issues, it sends the accumulator lanes the operation writes with latency 3: the old lane (0 with the Z flag, results in flight for the accumulator taken) plus the exact product, clipped or wrapped to 48 bits as CSTAT.SAT says. The mask tells the lanes that are written. -/
def Obligations.MacResults : Prop :=
  (∀ (e : Fin 768) (d a b : BitVec 5) (z : Bool) (rest : BitVec 64) (s : State),
      let w := withM rest 0 (fmtV 1 d.toNat a.toNat b.toNat z.toNat);
      let g := engOf s e;
      let c := (actBank g).cstat;
      let u := rdV g a.toNat;
      let base (i : Nat) : Int := if z then 0 else slane (accChain g d.toNat) 48 i;
      let v := rdV g b.toNat;
      let r (i : Nat) : Int := base i + slane u 16 i * slane v 16 i;
      Issues s e w →
      ∃ bb, decBundle w = some bb ∧ exec (.vmacH e d a b z rest) s = .next (applyBundle s e bb) ∧
        (3, .a d.toNat (BitVec.ofNat 768 (packLanes 48 ((List.range 16).map fun i => markS (csSat c) 48 (r i)))) (BitVec.ofNat 768 (packLanes 48 ((List.range 16).map fun _ => 2 ^ 48 - 1)))) ∈ bundleWrites s e bb ∧
        ((∃ i, i < 16 ∧ fitsS 48 (r i) = false) → (3, .sticky 8#32) ∈ bundleWrites s e bb)) ∧
  (∀ (e : Fin 768) (d a b : BitVec 5) (z : Bool) (rest : BitVec 64) (s : State),
      let w := withM rest 0 (fmtV 2 d.toNat a.toNat b.toNat z.toNat);
      let g := engOf s e;
      let c := (actBank g).cstat;
      let u := rdV g a.toNat;
      let base (i : Nat) : Int := if z then 0 else slane (accChain g d.toNat) 48 i;
      let v := rdV g b.toNat;
      let r (i : Nat) : Int := base i + -(slane u 16 i * slane v 16 i);
      Issues s e w →
      ∃ bb, decBundle w = some bb ∧ exec (.vmsuH e d a b z rest) s = .next (applyBundle s e bb) ∧
        (3, .a d.toNat (BitVec.ofNat 768 (packLanes 48 ((List.range 16).map fun i => markS (csSat c) 48 (r i)))) (BitVec.ofNat 768 (packLanes 48 ((List.range 16).map fun _ => 2 ^ 48 - 1)))) ∈ bundleWrites s e bb ∧
        ((∃ i, i < 16 ∧ fitsS 48 (r i) = false) → (3, .sticky 8#32) ∈ bundleWrites s e bb)) ∧
  (∀ (e : Fin 768) (d a b : BitVec 5) (z : Bool) (rest : BitVec 64) (s : State),
      let w := withM rest 0 (fmtV 3 d.toNat a.toNat b.toNat z.toNat);
      let g := engOf s e;
      let c := (actBank g).cstat;
      let u := rdV g a.toNat;
      let base (i : Nat) : Int := if z then 0 else slane (accChain g d.toNat) 48 i;
      let v := rdV g b.toNat;
      let r (i : Nat) : Int := base i + (slane u 8 (2 * i) * slane v 8 (2 * i) + slane u 8 (2 * i + 1) * slane v 8 (2 * i + 1));
      Issues s e w →
      ∃ bb, decBundle w = some bb ∧ exec (.vmacB e d a b z rest) s = .next (applyBundle s e bb) ∧
        (3, .a d.toNat (BitVec.ofNat 768 (packLanes 48 ((List.range 16).map fun i => markS (csSat c) 48 (r i)))) (BitVec.ofNat 768 (packLanes 48 ((List.range 16).map fun _ => 2 ^ 48 - 1)))) ∈ bundleWrites s e bb ∧
        ((∃ i, i < 16 ∧ fitsS 48 (r i) = false) → (3, .sticky 8#32) ∈ bundleWrites s e bb)) ∧
  (∀ (e : Fin 768) (d a b : BitVec 5) (z : Bool) (rest : BitVec 64) (s : State),
      let w := withM rest 0 (fmtV 4 d.toNat a.toNat b.toNat z.toNat);
      let g := engOf s e;
      let c := (actBank g).cstat;
      let u := rdV g a.toNat;
      let base (i : Nat) : Int := if z then 0 else slane (accChain g d.toNat) 48 i;
      let v := rdV g b.toNat;
      let r (i : Nat) : Int := base i + -(slane u 8 (2 * i) * slane v 8 (2 * i) + slane u 8 (2 * i + 1) * slane v 8 (2 * i + 1));
      Issues s e w →
      ∃ bb, decBundle w = some bb ∧ exec (.vmsuB e d a b z rest) s = .next (applyBundle s e bb) ∧
        (3, .a d.toNat (BitVec.ofNat 768 (packLanes 48 ((List.range 16).map fun i => markS (csSat c) 48 (r i)))) (BitVec.ofNat 768 (packLanes 48 ((List.range 16).map fun _ => 2 ^ 48 - 1)))) ∈ bundleWrites s e bb ∧
        ((∃ i, i < 16 ∧ fitsS 48 (r i) = false) → (3, .sticky 8#32) ∈ bundleWrites s e bb)) ∧
  (∀ (e : Fin 768) (d a b : BitVec 5) (z : Bool) (rest : BitVec 64) (s : State),
      let w := withM rest 0 (fmtV 5 d.toNat a.toNat b.toNat z.toNat);
      let g := engOf s e;
      let c := (actBank g).cstat;
      let u := rdV g a.toNat;
      let base (i : Nat) : Int := if z then 0 else slane (accChain g d.toNat) 48 i;
      let v := rdV g b.toNat;
      let r (i : Nat) : Int := base i + (if i % 2 = 0 then slane u 16 (i / 2 * 2) * slane v 16 (i / 2 * 2) - slane u 16 ((i / 2 * 2) + 1) * slane v 16 ((i / 2 * 2) + 1) else slane u 16 (i / 2 * 2) * slane v 16 ((i / 2 * 2) + 1) + slane u 16 ((i / 2 * 2) + 1) * slane v 16 (i / 2 * 2));
      Issues s e w →
      ∃ bb, decBundle w = some bb ∧ exec (.cmacL e d a b z rest) s = .next (applyBundle s e bb) ∧
        (3, .a d.toNat (BitVec.ofNat 768 (packLanes 48 ((List.range 16).map fun i => if i < 8 then markS (csSat c) 48 (r i) else 0))) (BitVec.ofNat 768 (packLanes 48 ((List.range 16).map fun i => if i < 8 then 2 ^ 48 - 1 else 0)))) ∈ bundleWrites s e bb ∧
        ((∃ i, i < 8 ∧ fitsS 48 (r i) = false) → (3, .sticky 8#32) ∈ bundleWrites s e bb)) ∧
  (∀ (e : Fin 768) (d a b : BitVec 5) (z : Bool) (rest : BitVec 64) (s : State),
      let w := withM rest 0 (fmtV 6 d.toNat a.toNat b.toNat z.toNat);
      let g := engOf s e;
      let c := (actBank g).cstat;
      let u := rdV g a.toNat;
      let base (i : Nat) : Int := if z then 0 else slane (accChain g d.toNat) 48 i;
      let v := rdV g b.toNat;
      let r (i : Nat) : Int := base i + (if i % 2 = 0 then slane u 16 (i / 2 * 2) * slane v 16 (i / 2 * 2) - slane u 16 ((i / 2 * 2) + 1) * slane v 16 ((i / 2 * 2) + 1) else slane u 16 (i / 2 * 2) * slane v 16 ((i / 2 * 2) + 1) + slane u 16 ((i / 2 * 2) + 1) * slane v 16 (i / 2 * 2));
      Issues s e w →
      ∃ bb, decBundle w = some bb ∧ exec (.cmacH e d a b z rest) s = .next (applyBundle s e bb) ∧
        (3, .a d.toNat (BitVec.ofNat 768 (packLanes 48 ((List.range 16).map fun i => if 8 ≤ i then markS (csSat c) 48 (r i) else 0))) (BitVec.ofNat 768 (packLanes 48 ((List.range 16).map fun i => if 8 ≤ i then 2 ^ 48 - 1 else 0)))) ∈ bundleWrites s e bb ∧
        ((∃ i, 8 ≤ i ∧ i < 16 ∧ fitsS 48 (r i) = false) → (3, .sticky 8#32) ∈ bundleWrites s e bb)) ∧
  (∀ (e : Fin 768) (d a b : BitVec 5) (z : Bool) (rest : BitVec 64) (s : State),
      let w := withM rest 0 (fmtV 7 d.toNat a.toNat b.toNat z.toNat);
      let g := engOf s e;
      let c := (actBank g).cstat;
      let u := rdV g a.toNat;
      let base (i : Nat) : Int := if z then 0 else slane (accChain g d.toNat) 48 i;
      let v := rdV g b.toNat;
      let r (i : Nat) : Int := base i + (if i % 2 = 0 then slane u 16 (i / 2 * 2) * slane v 16 (i / 2 * 2) + slane u 16 ((i / 2 * 2) + 1) * slane v 16 ((i / 2 * 2) + 1) else slane u 16 ((i / 2 * 2) + 1) * slane v 16 (i / 2 * 2) - slane u 16 (i / 2 * 2) * slane v 16 ((i / 2 * 2) + 1));
      Issues s e w →
      ∃ bb, decBundle w = some bb ∧ exec (.cmacjL e d a b z rest) s = .next (applyBundle s e bb) ∧
        (3, .a d.toNat (BitVec.ofNat 768 (packLanes 48 ((List.range 16).map fun i => if i < 8 then markS (csSat c) 48 (r i) else 0))) (BitVec.ofNat 768 (packLanes 48 ((List.range 16).map fun i => if i < 8 then 2 ^ 48 - 1 else 0)))) ∈ bundleWrites s e bb ∧
        ((∃ i, i < 8 ∧ fitsS 48 (r i) = false) → (3, .sticky 8#32) ∈ bundleWrites s e bb)) ∧
  (∀ (e : Fin 768) (d a b : BitVec 5) (z : Bool) (rest : BitVec 64) (s : State),
      let w := withM rest 0 (fmtV 8 d.toNat a.toNat b.toNat z.toNat);
      let g := engOf s e;
      let c := (actBank g).cstat;
      let u := rdV g a.toNat;
      let base (i : Nat) : Int := if z then 0 else slane (accChain g d.toNat) 48 i;
      let v := rdV g b.toNat;
      let r (i : Nat) : Int := base i + (if i % 2 = 0 then slane u 16 (i / 2 * 2) * slane v 16 (i / 2 * 2) + slane u 16 ((i / 2 * 2) + 1) * slane v 16 ((i / 2 * 2) + 1) else slane u 16 ((i / 2 * 2) + 1) * slane v 16 (i / 2 * 2) - slane u 16 (i / 2 * 2) * slane v 16 ((i / 2 * 2) + 1));
      Issues s e w →
      ∃ bb, decBundle w = some bb ∧ exec (.cmacjH e d a b z rest) s = .next (applyBundle s e bb) ∧
        (3, .a d.toNat (BitVec.ofNat 768 (packLanes 48 ((List.range 16).map fun i => if 8 ≤ i then markS (csSat c) 48 (r i) else 0))) (BitVec.ofNat 768 (packLanes 48 ((List.range 16).map fun i => if 8 ≤ i then 2 ^ 48 - 1 else 0)))) ∈ bundleWrites s e bb ∧
        ((∃ i, 8 ≤ i ∧ i < 16 ∧ fitsS 48 (r i) = false) → (3, .sticky 8#32) ∈ bundleWrites s e bb)) ∧
  (∀ (e : Fin 768) (d a b : BitVec 5) (z : Bool) (rest : BitVec 64) (s : State),
      let w := withM rest 0 (fmtV 9 d.toNat a.toNat b.toNat z.toNat);
      let g := engOf s e;
      let c := (actBank g).cstat;
      let u := rdV g a.toNat;
      let base (i : Nat) : Int := if z then 0 else slane (accChain g d.toNat) 48 i;
      let r (i : Nat) : Int := base i + slane u 16 i * slane (rdS g b.toNat) 16 0;
      Issues s e w →
      ∃ bb, decBundle w = some bb ∧ exec (.vmacsH e d a b z rest) s = .next (applyBundle s e bb) ∧
        (3, .a d.toNat (BitVec.ofNat 768 (packLanes 48 ((List.range 16).map fun i => markS (csSat c) 48 (r i)))) (BitVec.ofNat 768 (packLanes 48 ((List.range 16).map fun _ => 2 ^ 48 - 1)))) ∈ bundleWrites s e bb ∧
        ((∃ i, i < 16 ∧ fitsS 48 (r i) = false) → (3, .sticky 8#32) ∈ bundleWrites s e bb)) ∧
  (∀ (e : Fin 768) (d a : BitVec 5) (z : Bool) (rest : BitVec 64) (s : State),
      let w := withM rest 0 (fmtV 10 d.toNat a.toNat 0 z.toNat);
      let g := engOf s e;
      let c := (actBank g).cstat;
      let base (i : Nat) : Int := if z then 0 else slane (accChain g d.toNat) 48 i;
      let r (i : Nat) : Int := base i + slane (vecGet g.a a.toNat) 48 i;
      Issues s e w →
      ∃ bb, decBundle w = some bb ∧ exec (.aadd e d a z rest) s = .next (applyBundle s e bb) ∧
        (3, .a d.toNat (BitVec.ofNat 768 (packLanes 48 ((List.range 16).map fun i => markS (csSat c) 48 (r i)))) (BitVec.ofNat 768 (packLanes 48 ((List.range 16).map fun _ => 2 ^ 48 - 1)))) ∈ bundleWrites s e bb ∧
        ((∃ i, i < 16 ∧ fitsS 48 (r i) = false) → (3, .sticky 8#32) ∈ bundleWrites s e bb)) ∧
  (∀ (e : Fin 768) (d a sh : BitVec 5) (rest : BitVec 64) (s : State),
      let w := withM rest 0 (fmtV 11 d.toNat a.toNat sh.toNat 0);
      let g := engOf s e;
      let c := (actBank g).cstat;
      let r (i : Nat) : Int := slane (rdV g a.toNat) 16 i * 2 ^ sh.toNat;
      Issues s e w →
      ∃ bb, decBundle w = some bb ∧ exec (.ald e d a sh rest) s = .next (applyBundle s e bb) ∧
        (3, .a d.toNat (BitVec.ofNat 768 (packLanes 48 ((List.range 16).map fun i => markS (csSat c) 48 (r i)))) (BitVec.ofNat 768 (packLanes 48 ((List.range 16).map fun _ => 2 ^ 48 - 1)))) ∈ bundleWrites s e bb ∧
        ((∃ i, i < 16 ∧ fitsS 48 (r i) = false) → (3, .sticky 8#32) ∈ bundleWrites s e bb))

/-- Rows VMULJ to VPACK. Where the bundle issues, it sends the permuted vector with latency 2. The complex rotations negate with mark S, VPACK narrows with mark N (always clipped); each then raises OVF for a lane that does not fit. -/
def Obligations.VpermResults : Prop :=
  (∀ (e : Fin 768) (d a : BitVec 5) (rest : BitVec 64) (s : State),
      let w := withM rest 2 (fmtV (4 * 1 + 1) d.toNat a.toNat 0 0);
      let g := engOf s e;
      let c := (actBank g).cstat;
      let n := laneBits 1;
      let x (i : Nat) : Int := slane (rdV g a.toNat) n i;
      let r (i : Nat) : Int := if i % 2 = 0 then -x (i + 1) else x (i - 1);
      Issues s e w →
      ∃ bb, decBundle w = some bb ∧ exec (.vmulj e d a rest) s = .next (applyBundle s e bb) ∧
        (2, .v (physV c d.toNat) (vecOf (n) fun i => markS (csSat c) (n) (r i)) (ones 256)) ∈ bundleWrites s e bb ∧
        ((∃ i, i < 256 / (n) ∧ fitsS (n) (r i) = false) → (2, .sticky 8#32) ∈ bundleWrites s e bb)) ∧
  (∀ (e : Fin 768) (d a : BitVec 5) (rest : BitVec 64) (s : State),
      let w := withM rest 2 (fmtV (4 * 2 + 1) d.toNat a.toNat 0 0);
      let g := engOf s e;
      let c := (actBank g).cstat;
      let n := laneBits 1;
      let x (i : Nat) : Int := slane (rdV g a.toNat) n i;
      let r (i : Nat) : Int := if i % 2 = 0 then x (i + 1) else -x (i - 1);
      Issues s e w →
      ∃ bb, decBundle w = some bb ∧ exec (.vmulnj e d a rest) s = .next (applyBundle s e bb) ∧
        (2, .v (physV c d.toNat) (vecOf (n) fun i => markS (csSat c) (n) (r i)) (ones 256)) ∈ bundleWrites s e bb ∧
        ((∃ i, i < 256 / (n) ∧ fitsS (n) (r i) = false) → (2, .sticky 8#32) ∈ bundleWrites s e bb)) ∧
  (∀ (e : Fin 768) (d a : BitVec 5) (rest : BitVec 64) (s : State),
      let w := withM rest 2 (fmtV (4 * 3 + 1) d.toNat a.toNat 0 0);
      let g := engOf s e;
      let c := (actBank g).cstat;
      let n := laneBits 1;
      let x (i : Nat) : Int := slane (rdV g a.toNat) n i;
      let r (i : Nat) : Int := if i % 2 = 0 then x i else -x i;
      Issues s e w →
      ∃ bb, decBundle w = some bb ∧ exec (.vconj e d a rest) s = .next (applyBundle s e bb) ∧
        (2, .v (physV c d.toNat) (vecOf (n) fun i => markS (csSat c) (n) (r i)) (ones 256)) ∈ bundleWrites s e bb ∧
        ((∃ i, i < 256 / (n) ∧ fitsS (n) (r i) = false) → (2, .sticky 8#32) ∈ bundleWrites s e bb)) ∧
  (∀ (e : Fin 768) (d a k : BitVec 5) (wc : BitVec 2) (rest : BitVec 64) (s : State),
      let w := withM rest 2 (fmtV (4 * 4 + wc.toNat) d.toNat a.toNat k.toNat 0);
      let g := engOf s e;
      let c := (actBank g).cstat;
      let n := laneBits wc.toNat;
      let x (i : Nat) : Int := slane (rdV g a.toNat) n i;
      let r (_ : Nat) : Int := x k.toNat;
      Issues s e w →
      ∃ bb, decBundle w = some bb ∧ exec (.vsplat e d a k wc rest) s = .next (applyBundle s e bb) ∧
        (2, .v (physV c d.toNat) (vecOf (n) fun i => wrapTo (n) (r i)) (ones 256)) ∈ bundleWrites s e bb) ∧
  (∀ (e : Fin 768) (d a k : BitVec 5) (wc : BitVec 2) (rest : BitVec 64) (s : State),
      let w := withM rest 2 (fmtV (4 * 5 + wc.toNat) d.toNat a.toNat k.toNat 0);
      let g := engOf s e;
      let c := (actBank g).cstat;
      let n := laneBits wc.toNat;
      let x (i : Nat) : Int := slane (rdV g a.toNat) n i;
      let r (i : Nat) : Int := x ((i + k.toNat) % (256 / n));
      Issues s e w →
      ∃ bb, decBundle w = some bb ∧ exec (.vrot e d a k wc rest) s = .next (applyBundle s e bb) ∧
        (2, .v (physV c d.toNat) (vecOf (n) fun i => wrapTo (n) (r i)) (ones 256)) ∈ bundleWrites s e bb) ∧
  (∀ (e : Fin 768) (d a b : BitVec 5) (wc : BitVec 2) (rest : BitVec 64) (s : State),
      let w := withM rest 2 (fmtV (4 * 6 + wc.toNat) d.toNat a.toNat b.toNat 0);
      let g := engOf s e;
      let c := (actBank g).cstat;
      let n := laneBits wc.toNat;
      let x (i : Nat) : Int := slane (rdV g a.toNat) n i;
      let y (i : Nat) : Int := slane (rdV g b.toNat) n i;
      let r (i : Nat) : Int := if i % 2 = 0 then x (i / 2) else y (i / 2);
      Issues s e w →
      ∃ bb, decBundle w = some bb ∧ exec (.vilvl e d a b wc rest) s = .next (applyBundle s e bb) ∧
        (2, .v (physV c d.toNat) (vecOf (n) fun i => wrapTo (n) (r i)) (ones 256)) ∈ bundleWrites s e bb) ∧
  (∀ (e : Fin 768) (d a b : BitVec 5) (wc : BitVec 2) (rest : BitVec 64) (s : State),
      let w := withM rest 2 (fmtV (4 * 7 + wc.toNat) d.toNat a.toNat b.toNat 0);
      let g := engOf s e;
      let c := (actBank g).cstat;
      let n := laneBits wc.toNat;
      let x (i : Nat) : Int := slane (rdV g a.toNat) n i;
      let y (i : Nat) : Int := slane (rdV g b.toNat) n i;
      let r (i : Nat) : Int := if i % 2 = 0 then x (256 / n / 2 + i / 2) else y (256 / n / 2 + i / 2);
      Issues s e w →
      ∃ bb, decBundle w = some bb ∧ exec (.vilvh e d a b wc rest) s = .next (applyBundle s e bb) ∧
        (2, .v (physV c d.toNat) (vecOf (n) fun i => wrapTo (n) (r i)) (ones 256)) ∈ bundleWrites s e bb) ∧
  (∀ (e : Fin 768) (d a b : BitVec 5) (wc : BitVec 2) (rest : BitVec 64) (s : State),
      let w := withM rest 2 (fmtV (4 * 8 + wc.toNat) d.toNat a.toNat b.toNat 0);
      let g := engOf s e;
      let c := (actBank g).cstat;
      let n := laneBits wc.toNat;
      let x (i : Nat) : Int := slane (rdV g a.toNat) n i;
      let y (i : Nat) : Int := slane (rdV g b.toNat) n i;
      let r (i : Nat) : Int := if i < 256 / n / 2 then x (2 * i) else y (2 * (i - 256 / n / 2));
      Issues s e w →
      ∃ bb, decBundle w = some bb ∧ exec (.vevn e d a b wc rest) s = .next (applyBundle s e bb) ∧
        (2, .v (physV c d.toNat) (vecOf (n) fun i => wrapTo (n) (r i)) (ones 256)) ∈ bundleWrites s e bb) ∧
  (∀ (e : Fin 768) (d a b : BitVec 5) (wc : BitVec 2) (rest : BitVec 64) (s : State),
      let w := withM rest 2 (fmtV (4 * 9 + wc.toNat) d.toNat a.toNat b.toNat 0);
      let g := engOf s e;
      let c := (actBank g).cstat;
      let n := laneBits wc.toNat;
      let x (i : Nat) : Int := slane (rdV g a.toNat) n i;
      let y (i : Nat) : Int := slane (rdV g b.toNat) n i;
      let r (i : Nat) : Int := if i < 256 / n / 2 then x (2 * i + 1) else y (2 * (i - 256 / n / 2) + 1);
      Issues s e w →
      ∃ bb, decBundle w = some bb ∧ exec (.vodd e d a b wc rest) s = .next (applyBundle s e bb) ∧
        (2, .v (physV c d.toNat) (vecOf (n) fun i => wrapTo (n) (r i)) (ones 256)) ∈ bundleWrites s e bb) ∧
  (∀ (e : Fin 768) (d a : BitVec 5) (wc : BitVec 2) (rest : BitVec 64) (s : State),
      let w := withM rest 2 (fmtV (4 * 10 + wc.toNat) d.toNat a.toNat 0 0);
      let g := engOf s e;
      let c := (actBank g).cstat;
      let n := laneBits wc.toNat;
      let x (i : Nat) : Int := slane (rdV g a.toNat) n i;
      let r (i : Nat) : Int := x i;
      Issues s e w →
      ∃ bb, decBundle w = some bb ∧ exec (.vunpl e d a wc rest) s = .next (applyBundle s e bb) ∧
        (2, .v (physV c d.toNat) (vecOf (2 * n) fun i => wrapTo (2 * n) (r i)) (ones 256)) ∈ bundleWrites s e bb) ∧
  (∀ (e : Fin 768) (d a : BitVec 5) (wc : BitVec 2) (rest : BitVec 64) (s : State),
      let w := withM rest 2 (fmtV (4 * 11 + wc.toNat) d.toNat a.toNat 0 0);
      let g := engOf s e;
      let c := (actBank g).cstat;
      let n := laneBits wc.toNat;
      let x (i : Nat) : Int := slane (rdV g a.toNat) n i;
      let r (i : Nat) : Int := x (256 / n / 2 + i);
      Issues s e w →
      ∃ bb, decBundle w = some bb ∧ exec (.vunph e d a wc rest) s = .next (applyBundle s e bb) ∧
        (2, .v (physV c d.toNat) (vecOf (2 * n) fun i => wrapTo (2 * n) (r i)) (ones 256)) ∈ bundleWrites s e bb) ∧
  (∀ (e : Fin 768) (d a b : BitVec 5) (wc : BitVec 2) (rest : BitVec 64) (s : State),
      let w := withM rest 2 (fmtV (4 * 12 + wc.toNat) d.toNat a.toNat b.toNat 0);
      let g := engOf s e;
      let c := (actBank g).cstat;
      let n := laneBits wc.toNat;
      let x (i : Nat) : Int := slane (rdV g a.toNat) n i;
      let y (i : Nat) : Int := slane (rdV g b.toNat) n i;
      let r (i : Nat) : Int := if i < 256 / n then x i else y (i - 256 / n);
      Issues s e w →
      ∃ bb, decBundle w = some bb ∧ exec (.vpack e d a b wc rest) s = .next (applyBundle s e bb) ∧
        (2, .v (physV c d.toNat) (vecOf (n / 2) fun i => markN (n / 2) (r i)) (ones 256)) ∈ bundleWrites s e bb ∧
        ((∃ i, i < 256 / (n / 2) ∧ fitsS (n / 2) (r i) = false) → (2, .sticky 8#32) ∈ bundleWrites s e bb))

/-- Rows VFMA to VCVTI. Where the bundle issues, each lane written takes the rounded result of the operation on the lanes read: the fused operations write four lanes with latency 3, the others all eight with latency 2. The sticky flags of the lanes written are raised together. Of two zeros of unlike sign, min and max leave the sign open (log entry 2). -/
def Obligations.VfpResults : Prop :=
  (∀ (e : Fin 768) (d a b : BitVec 5) (h : Bool) (rest : BitVec 64) (s : State),
      let w := withM rest 3 (fmtV 0x01 d.toNat a.toNat b.toNat h.toNat);
      let g := engOf s e;
      let c := (actBank g).cstat;
      let x (i : Nat) : Fp := fpRead (lane (rdV g a.toNat) 32 i);
      let y (i : Nat) : Fp := fpRead (lane (rdV g b.toNat) 32 i);
      let u (i : Nat) : Fp := fpRead (lane (rdV g d.toNat) 32 i);
      let r (i : Nat) : Nat × Nat := fpFma (u i) (x i) (y i);
      Issues s e w →
      ∃ bb, decBundle w = some bb ∧ exec (.vfma e d a b h rest) s = .next (applyBundle s e bb) ∧
        (3, .v (physV c d.toNat) (vecOf 32 fun i => (r i).1) (vecOf 32 fun i => if (if h then 4 ≤ i else i < 4) then 2 ^ 32 - 1 else 0)) ∈ bundleWrites s e bb ∧
        (3, .sticky (BitVec.ofNat 32 (16 * (List.range 8).foldl (fun f i => if (if h then 4 ≤ i else i < 4) then f ||| (r i).2 else f) 0))) ∈ bundleWrites s e bb) ∧
  (∀ (e : Fin 768) (d a b : BitVec 5) (h : Bool) (rest : BitVec 64) (s : State),
      let w := withM rest 3 (fmtV 0x02 d.toNat a.toNat b.toNat h.toNat);
      let g := engOf s e;
      let c := (actBank g).cstat;
      let x (i : Nat) : Fp := fpRead (lane (rdV g a.toNat) 32 i);
      let y (i : Nat) : Fp := fpRead (lane (rdV g b.toNat) 32 i);
      let u (i : Nat) : Fp := fpRead (lane (rdV g d.toNat) 32 i);
      let r (i : Nat) : Nat × Nat := fpFma (u i) (x i).flip (y i);
      Issues s e w →
      ∃ bb, decBundle w = some bb ∧ exec (.vfms e d a b h rest) s = .next (applyBundle s e bb) ∧
        (3, .v (physV c d.toNat) (vecOf 32 fun i => (r i).1) (vecOf 32 fun i => if (if h then 4 ≤ i else i < 4) then 2 ^ 32 - 1 else 0)) ∈ bundleWrites s e bb ∧
        (3, .sticky (BitVec.ofNat 32 (16 * (List.range 8).foldl (fun f i => if (if h then 4 ≤ i else i < 4) then f ||| (r i).2 else f) 0))) ∈ bundleWrites s e bb) ∧
  (∀ (e : Fin 768) (d a b : BitVec 5) (h : Bool) (rest : BitVec 64) (s : State),
      let w := withM rest 3 (fmtV 0x03 d.toNat a.toNat b.toNat h.toNat);
      let g := engOf s e;
      let c := (actBank g).cstat;
      let x (i : Nat) : Fp := fpRead (lane (rdV g a.toNat) 32 i);
      let y (i : Nat) : Fp := fpRead (lane (rdV g b.toNat) 32 i);
      let r (i : Nat) : Nat × Nat := fpOr (fpPut (fpProd (x i) (y i)).1) ((fpProd (x i) (y i)).2 ||| fpSig [x i, y i]);
      Issues s e w →
      ∃ bb, decBundle w = some bb ∧ exec (.vfmul e d a b h rest) s = .next (applyBundle s e bb) ∧
        (3, .v (physV c d.toNat) (vecOf 32 fun i => (r i).1) (vecOf 32 fun i => if (if h then 4 ≤ i else i < 4) then 2 ^ 32 - 1 else 0)) ∈ bundleWrites s e bb ∧
        (3, .sticky (BitVec.ofNat 32 (16 * (List.range 8).foldl (fun f i => if (if h then 4 ≤ i else i < 4) then f ||| (r i).2 else f) 0))) ∈ bundleWrites s e bb) ∧
  (∀ (e : Fin 768) (d a b : BitVec 5) (rest : BitVec 64) (s : State),
      let w := withM rest 3 (fmtV 0x10 d.toNat a.toNat b.toNat 0);
      let g := engOf s e;
      let c := (actBank g).cstat;
      let x (i : Nat) : Fp := fpRead (lane (rdV g a.toNat) 32 i);
      let y (i : Nat) : Fp := fpRead (lane (rdV g b.toNat) 32 i);
      let r (i : Nat) : Nat × Nat := fpOr (fpAdd (x i) (y i)) (fpSig [x i, y i]);
      Issues s e w →
      ∃ bb, decBundle w = some bb ∧ exec (.vfadd e d a b rest) s = .next (applyBundle s e bb) ∧
        (2, .v (physV c d.toNat) (vecOf 32 fun i => (r i).1) (vecOf 32 fun _ => 2 ^ 32 - 1)) ∈ bundleWrites s e bb ∧
        (2, .sticky (BitVec.ofNat 32 (16 * (List.range 8).foldl (fun f i => f ||| (r i).2) 0))) ∈ bundleWrites s e bb) ∧
  (∀ (e : Fin 768) (d a b : BitVec 5) (rest : BitVec 64) (s : State),
      let w := withM rest 3 (fmtV 0x11 d.toNat a.toNat b.toNat 0);
      let g := engOf s e;
      let c := (actBank g).cstat;
      let x (i : Nat) : Fp := fpRead (lane (rdV g a.toNat) 32 i);
      let y (i : Nat) : Fp := fpRead (lane (rdV g b.toNat) 32 i);
      let r (i : Nat) : Nat × Nat := fpOr (fpAdd (x i) (y i).flip) (fpSig [x i, y i]);
      Issues s e w →
      ∃ bb, decBundle w = some bb ∧ exec (.vfsub e d a b rest) s = .next (applyBundle s e bb) ∧
        (2, .v (physV c d.toNat) (vecOf 32 fun i => (r i).1) (vecOf 32 fun _ => 2 ^ 32 - 1)) ∈ bundleWrites s e bb ∧
        (2, .sticky (BitVec.ofNat 32 (16 * (List.range 8).foldl (fun f i => f ||| (r i).2) 0))) ∈ bundleWrites s e bb) ∧
  (∀ (e : Fin 768) (d a b : BitVec 5) (rest : BitVec 64) (s : State),
      let w := withM rest 3 (fmtV 0x12 d.toNat a.toNat b.toNat 0);
      let g := engOf s e;
      let c := (actBank g).cstat;
      let x (i : Nat) : Fp := fpRead (lane (rdV g a.toNat) 32 i);
      let y (i : Nat) : Fp := fpRead (lane (rdV g b.toNat) 32 i);
      let r (i : Nat) : Nat × Nat := fpMinMax false (x i) (y i) (s.freeCtr + i);
      Issues s e w →
      ∃ bb, decBundle w = some bb ∧ exec (.vfmin e d a b rest) s = .next (applyBundle s e bb) ∧
        (2, .v (physV c d.toNat) (vecOf 32 fun i => (r i).1) (vecOf 32 fun _ => 2 ^ 32 - 1)) ∈ bundleWrites s e bb ∧
        (2, .sticky (BitVec.ofNat 32 (16 * (List.range 8).foldl (fun f i => f ||| (r i).2) 0))) ∈ bundleWrites s e bb) ∧
  (∀ (e : Fin 768) (d a b : BitVec 5) (rest : BitVec 64) (s : State),
      let w := withM rest 3 (fmtV 0x13 d.toNat a.toNat b.toNat 0);
      let g := engOf s e;
      let c := (actBank g).cstat;
      let x (i : Nat) : Fp := fpRead (lane (rdV g a.toNat) 32 i);
      let y (i : Nat) : Fp := fpRead (lane (rdV g b.toNat) 32 i);
      let r (i : Nat) : Nat × Nat := fpMinMax true (x i) (y i) (s.freeCtr + i);
      Issues s e w →
      ∃ bb, decBundle w = some bb ∧ exec (.vfmax e d a b rest) s = .next (applyBundle s e bb) ∧
        (2, .v (physV c d.toNat) (vecOf 32 fun i => (r i).1) (vecOf 32 fun _ => 2 ^ 32 - 1)) ∈ bundleWrites s e bb ∧
        (2, .sticky (BitVec.ofNat 32 (16 * (List.range 8).foldl (fun f i => f ||| (r i).2) 0))) ∈ bundleWrites s e bb) ∧
  (∀ (e : Fin 768) (d a : BitVec 5) (rest : BitVec 64) (s : State),
      let w := withM rest 3 (fmtV 0x14 d.toNat a.toNat 0 0);
      let g := engOf s e;
      let c := (actBank g).cstat;
      let p (i : Nat) : Nat := lane (rdV g a.toNat) 32 i;
      let x (i : Nat) : Fp := fpRead (lane (rdV g a.toNat) 32 i);
      let r (i : Nat) : Nat × Nat := (if (x i).isNaN then fpNaN else match x i with | .zero _ => 0 | _ => p i % 2 ^ 31, 0);
      Issues s e w →
      ∃ bb, decBundle w = some bb ∧ exec (.vfabs e d a rest) s = .next (applyBundle s e bb) ∧
        (2, .v (physV c d.toNat) (vecOf 32 fun i => (r i).1) (vecOf 32 fun _ => 2 ^ 32 - 1)) ∈ bundleWrites s e bb ∧
        (2, .sticky (BitVec.ofNat 32 (16 * (List.range 8).foldl (fun f i => f ||| (r i).2) 0))) ∈ bundleWrites s e bb) ∧
  (∀ (e : Fin 768) (d a : BitVec 5) (rest : BitVec 64) (s : State),
      let w := withM rest 3 (fmtV 0x15 d.toNat a.toNat 0 0);
      let g := engOf s e;
      let c := (actBank g).cstat;
      let p (i : Nat) : Nat := lane (rdV g a.toNat) 32 i;
      let x (i : Nat) : Fp := fpRead (lane (rdV g a.toNat) 32 i);
      let r (i : Nat) : Nat × Nat := (if (x i).isNaN then fpNaN else match x i with | .zero q => fpSign (!q) | _ => p i ^^^ 2 ^ 31, 0);
      Issues s e w →
      ∃ bb, decBundle w = some bb ∧ exec (.vfneg e d a rest) s = .next (applyBundle s e bb) ∧
        (2, .v (physV c d.toNat) (vecOf 32 fun i => (r i).1) (vecOf 32 fun _ => 2 ^ 32 - 1)) ∈ bundleWrites s e bb ∧
        (2, .sticky (BitVec.ofNat 32 (16 * (List.range 8).foldl (fun f i => f ||| (r i).2) 0))) ∈ bundleWrites s e bb) ∧
  (∀ (e : Fin 768) (d a b : BitVec 5) (rest : BitVec 64) (s : State),
      let w := withM rest 3 (fmtV 0x16 d.toNat a.toNat b.toNat 0);
      let g := engOf s e;
      let c := (actBank g).cstat;
      let x (i : Nat) : Fp := fpRead (lane (rdV g a.toNat) 32 i);
      let y (i : Nat) : Fp := fpRead (lane (rdV g b.toNat) 32 i);
      let r (i : Nat) : Nat × Nat := (if fpGt (x i) (y i) then 2 ^ 32 - 1 else 0, if (x i).isNaN || (y i).isNaN then fxInvalid else 0);
      Issues s e w →
      ∃ bb, decBundle w = some bb ∧ exec (.vfcmpgt e d a b rest) s = .next (applyBundle s e bb) ∧
        (2, .v (physV c d.toNat) (vecOf 32 fun i => (r i).1) (vecOf 32 fun _ => 2 ^ 32 - 1)) ∈ bundleWrites s e bb ∧
        (2, .sticky (BitVec.ofNat 32 (16 * (List.range 8).foldl (fun f i => f ||| (r i).2) 0))) ∈ bundleWrites s e bb) ∧
  (∀ (e : Fin 768) (d a : BitVec 5) (rest : BitVec 64) (s : State),
      let w := withM rest 3 (fmtV 0x18 d.toNat a.toNat 0 0);
      let g := engOf s e;
      let c := (actBank g).cstat;
      let p (i : Nat) : Nat := lane (rdV g a.toNat) 32 i;
      let r (i : Nat) : Nat × Nat := fpExact (signed 32 (p i)) 0 false;
      Issues s e w →
      ∃ bb, decBundle w = some bb ∧ exec (.vcvtf e d a rest) s = .next (applyBundle s e bb) ∧
        (2, .v (physV c d.toNat) (vecOf 32 fun i => (r i).1) (vecOf 32 fun _ => 2 ^ 32 - 1)) ∈ bundleWrites s e bb ∧
        (2, .sticky (BitVec.ofNat 32 (16 * (List.range 8).foldl (fun f i => f ||| (r i).2) 0))) ∈ bundleWrites s e bb) ∧
  (∀ (e : Fin 768) (d a : BitVec 5) (rest : BitVec 64) (s : State),
      let w := withM rest 3 (fmtV 0x19 d.toNat a.toNat 0 0);
      let g := engOf s e;
      let c := (actBank g).cstat;
      let x (i : Nat) : Fp := fpRead (lane (rdV g a.toNat) 32 i);
      let r (i : Nat) : Nat × Nat := fpToInt (x i);
      Issues s e w →
      ∃ bb, decBundle w = some bb ∧ exec (.vcvti e d a rest) s = .next (applyBundle s e bb) ∧
        (2, .v (physV c d.toNat) (vecOf 32 fun i => (r i).1) (vecOf 32 fun _ => 2 ^ 32 - 1)) ∈ bundleWrites s e bb ∧
        (2, .sticky (BitVec.ofNat 32 (16 * (List.range 8).foldl (fun f i => f ||| (r i).2) 0))) ∈ bundleWrites s e bb)

/-- Rows ADD to SEQ and ADDI to SLTI. Where the bundle issues, the scalar result goes to its register of the active bank with latency 1; a shift takes the low five bits of its count, an immediate is sign-extended from eight bits. Rows VMOV to CSRW. Where the bundle issues, the value moved goes to its destination: latency 2 into a vector register (VGET: into a scalar), 1 otherwise. CSRR reads the control register as R405 gives it; CSRW is refused (ILLEGAL, so the bundle does not issue) where R405 says so. -/
def Obligations.SaluAndMoveResults : Prop :=
  (∀ (e : Fin 768) (d a b : BitVec 4) (rest : BitVec 64) (s : State),
      let w := withM rest 4 (fmtS 1 d.toNat a.toNat (b.toNat * 16));
      let g := engOf s e;
      let x := rdS g a.toNat;
      let y := rdS g b.toNat;
      Issues s e w →
      ∃ bb, decBundle w = some bb ∧ exec (.add e d a b rest) s = .next (applyBundle s e bb) ∧
        (1, .s d.toNat (x + y)) ∈ bundleWrites s e bb) ∧
  (∀ (e : Fin 768) (d a b : BitVec 4) (rest : BitVec 64) (s : State),
      let w := withM rest 4 (fmtS 2 d.toNat a.toNat (b.toNat * 16));
      let g := engOf s e;
      let x := rdS g a.toNat;
      let y := rdS g b.toNat;
      Issues s e w →
      ∃ bb, decBundle w = some bb ∧ exec (.sub e d a b rest) s = .next (applyBundle s e bb) ∧
        (1, .s d.toNat (x - y)) ∈ bundleWrites s e bb) ∧
  (∀ (e : Fin 768) (d a b : BitVec 4) (rest : BitVec 64) (s : State),
      let w := withM rest 4 (fmtS 3 d.toNat a.toNat (b.toNat * 16));
      let g := engOf s e;
      let x := rdS g a.toNat;
      let y := rdS g b.toNat;
      Issues s e w →
      ∃ bb, decBundle w = some bb ∧ exec (.and e d a b rest) s = .next (applyBundle s e bb) ∧
        (1, .s d.toNat (x &&& y)) ∈ bundleWrites s e bb) ∧
  (∀ (e : Fin 768) (d a b : BitVec 4) (rest : BitVec 64) (s : State),
      let w := withM rest 4 (fmtS 4 d.toNat a.toNat (b.toNat * 16));
      let g := engOf s e;
      let x := rdS g a.toNat;
      let y := rdS g b.toNat;
      Issues s e w →
      ∃ bb, decBundle w = some bb ∧ exec (.or e d a b rest) s = .next (applyBundle s e bb) ∧
        (1, .s d.toNat (x ||| y)) ∈ bundleWrites s e bb) ∧
  (∀ (e : Fin 768) (d a b : BitVec 4) (rest : BitVec 64) (s : State),
      let w := withM rest 4 (fmtS 5 d.toNat a.toNat (b.toNat * 16));
      let g := engOf s e;
      let x := rdS g a.toNat;
      let y := rdS g b.toNat;
      Issues s e w →
      ∃ bb, decBundle w = some bb ∧ exec (.xor e d a b rest) s = .next (applyBundle s e bb) ∧
        (1, .s d.toNat (x ^^^ y)) ∈ bundleWrites s e bb) ∧
  (∀ (e : Fin 768) (d a b : BitVec 4) (rest : BitVec 64) (s : State),
      let w := withM rest 4 (fmtS 6 d.toNat a.toNat (b.toNat * 16));
      let g := engOf s e;
      let x := rdS g a.toNat;
      let y := rdS g b.toNat;
      Issues s e w →
      ∃ bb, decBundle w = some bb ∧ exec (.shl e d a b rest) s = .next (applyBundle s e bb) ∧
        (1, .s d.toNat (x <<< (y.toNat % 32))) ∈ bundleWrites s e bb) ∧
  (∀ (e : Fin 768) (d a b : BitVec 4) (rest : BitVec 64) (s : State),
      let w := withM rest 4 (fmtS 7 d.toNat a.toNat (b.toNat * 16));
      let g := engOf s e;
      let x := rdS g a.toNat;
      let y := rdS g b.toNat;
      Issues s e w →
      ∃ bb, decBundle w = some bb ∧ exec (.shr e d a b rest) s = .next (applyBundle s e bb) ∧
        (1, .s d.toNat (x >>> (y.toNat % 32))) ∈ bundleWrites s e bb) ∧
  (∀ (e : Fin 768) (d a b : BitVec 4) (rest : BitVec 64) (s : State),
      let w := withM rest 4 (fmtS 8 d.toNat a.toNat (b.toNat * 16));
      let g := engOf s e;
      let x := rdS g a.toNat;
      let y := rdS g b.toNat;
      Issues s e w →
      ∃ bb, decBundle w = some bb ∧ exec (.sra e d a b rest) s = .next (applyBundle s e bb) ∧
        (1, .s d.toNat (x.sshiftRight (y.toNat % 32))) ∈ bundleWrites s e bb) ∧
  (∀ (e : Fin 768) (d a b : BitVec 4) (rest : BitVec 64) (s : State),
      let w := withM rest 4 (fmtS 9 d.toNat a.toNat (b.toNat * 16));
      let g := engOf s e;
      let x := rdS g a.toNat;
      let y := rdS g b.toNat;
      Issues s e w →
      ∃ bb, decBundle w = some bb ∧ exec (.mul e d a b rest) s = .next (applyBundle s e bb) ∧
        (1, .s d.toNat (x * y)) ∈ bundleWrites s e bb) ∧
  (∀ (e : Fin 768) (d a b : BitVec 4) (rest : BitVec 64) (s : State),
      let w := withM rest 4 (fmtS 10 d.toNat a.toNat (b.toNat * 16));
      let g := engOf s e;
      let x := rdS g a.toNat;
      let y := rdS g b.toNat;
      Issues s e w →
      ∃ bb, decBundle w = some bb ∧ exec (.min e d a b rest) s = .next (applyBundle s e bb) ∧
        (1, .s d.toNat (if x.toInt ≤ y.toInt then x else y)) ∈ bundleWrites s e bb) ∧
  (∀ (e : Fin 768) (d a b : BitVec 4) (rest : BitVec 64) (s : State),
      let w := withM rest 4 (fmtS 11 d.toNat a.toNat (b.toNat * 16));
      let g := engOf s e;
      let x := rdS g a.toNat;
      let y := rdS g b.toNat;
      Issues s e w →
      ∃ bb, decBundle w = some bb ∧ exec (.max e d a b rest) s = .next (applyBundle s e bb) ∧
        (1, .s d.toNat (if x.toInt ≤ y.toInt then y else x)) ∈ bundleWrites s e bb) ∧
  (∀ (e : Fin 768) (d a b : BitVec 4) (rest : BitVec 64) (s : State),
      let w := withM rest 4 (fmtS 12 d.toNat a.toNat (b.toNat * 16));
      let g := engOf s e;
      let x := rdS g a.toNat;
      let y := rdS g b.toNat;
      Issues s e w →
      ∃ bb, decBundle w = some bb ∧ exec (.slt e d a b rest) s = .next (applyBundle s e bb) ∧
        (1, .s d.toNat (if x.toInt < y.toInt then 1#32 else 0#32)) ∈ bundleWrites s e bb) ∧
  (∀ (e : Fin 768) (d a b : BitVec 4) (rest : BitVec 64) (s : State),
      let w := withM rest 4 (fmtS 13 d.toNat a.toNat (b.toNat * 16));
      let g := engOf s e;
      let x := rdS g a.toNat;
      let y := rdS g b.toNat;
      Issues s e w →
      ∃ bb, decBundle w = some bb ∧ exec (.sltu e d a b rest) s = .next (applyBundle s e bb) ∧
        (1, .s d.toNat (if x.toNat < y.toNat then 1#32 else 0#32)) ∈ bundleWrites s e bb) ∧
  (∀ (e : Fin 768) (d a b : BitVec 4) (rest : BitVec 64) (s : State),
      let w := withM rest 4 (fmtS 14 d.toNat a.toNat (b.toNat * 16));
      let g := engOf s e;
      let x := rdS g a.toNat;
      let y := rdS g b.toNat;
      Issues s e w →
      ∃ bb, decBundle w = some bb ∧ exec (.seq e d a b rest) s = .next (applyBundle s e bb) ∧
        (1, .s d.toNat (if x = y then 1#32 else 0#32)) ∈ bundleWrites s e bb) ∧
  (∀ (e : Fin 768) (d a : BitVec 4) (imm : BitVec 8) (rest : BitVec 64) (s : State),
      let w := withM rest 4 (fmtS 17 d.toNat a.toNat imm.toNat);
      let g := engOf s e;
      let x := rdS g a.toNat;
      let y := BitVec.ofInt 32 imm.toInt;
      Issues s e w →
      ∃ bb, decBundle w = some bb ∧ exec (.addi e d a imm rest) s = .next (applyBundle s e bb) ∧
        (1, .s d.toNat (x + y)) ∈ bundleWrites s e bb) ∧
  (∀ (e : Fin 768) (d a : BitVec 4) (imm : BitVec 8) (rest : BitVec 64) (s : State),
      let w := withM rest 4 (fmtS 19 d.toNat a.toNat imm.toNat);
      let g := engOf s e;
      let x := rdS g a.toNat;
      let y := BitVec.ofInt 32 imm.toInt;
      Issues s e w →
      ∃ bb, decBundle w = some bb ∧ exec (.andi e d a imm rest) s = .next (applyBundle s e bb) ∧
        (1, .s d.toNat (x &&& y)) ∈ bundleWrites s e bb) ∧
  (∀ (e : Fin 768) (d a : BitVec 4) (imm : BitVec 8) (rest : BitVec 64) (s : State),
      let w := withM rest 4 (fmtS 20 d.toNat a.toNat imm.toNat);
      let g := engOf s e;
      let x := rdS g a.toNat;
      let y := BitVec.ofInt 32 imm.toInt;
      Issues s e w →
      ∃ bb, decBundle w = some bb ∧ exec (.ori e d a imm rest) s = .next (applyBundle s e bb) ∧
        (1, .s d.toNat (x ||| y)) ∈ bundleWrites s e bb) ∧
  (∀ (e : Fin 768) (d a : BitVec 4) (imm : BitVec 8) (rest : BitVec 64) (s : State),
      let w := withM rest 4 (fmtS 21 d.toNat a.toNat imm.toNat);
      let g := engOf s e;
      let x := rdS g a.toNat;
      let y := BitVec.ofInt 32 imm.toInt;
      Issues s e w →
      ∃ bb, decBundle w = some bb ∧ exec (.xori e d a imm rest) s = .next (applyBundle s e bb) ∧
        (1, .s d.toNat (x ^^^ y)) ∈ bundleWrites s e bb) ∧
  (∀ (e : Fin 768) (d a : BitVec 4) (imm : BitVec 8) (rest : BitVec 64) (s : State),
      let w := withM rest 4 (fmtS 22 d.toNat a.toNat imm.toNat);
      let g := engOf s e;
      let x := rdS g a.toNat;
      let y := BitVec.ofInt 32 imm.toInt;
      Issues s e w →
      ∃ bb, decBundle w = some bb ∧ exec (.shli e d a imm rest) s = .next (applyBundle s e bb) ∧
        (1, .s d.toNat (x <<< (y.toNat % 32))) ∈ bundleWrites s e bb) ∧
  (∀ (e : Fin 768) (d a : BitVec 4) (imm : BitVec 8) (rest : BitVec 64) (s : State),
      let w := withM rest 4 (fmtS 23 d.toNat a.toNat imm.toNat);
      let g := engOf s e;
      let x := rdS g a.toNat;
      let y := BitVec.ofInt 32 imm.toInt;
      Issues s e w →
      ∃ bb, decBundle w = some bb ∧ exec (.shri e d a imm rest) s = .next (applyBundle s e bb) ∧
        (1, .s d.toNat (x >>> (y.toNat % 32))) ∈ bundleWrites s e bb) ∧
  (∀ (e : Fin 768) (d a : BitVec 4) (imm : BitVec 8) (rest : BitVec 64) (s : State),
      let w := withM rest 4 (fmtS 24 d.toNat a.toNat imm.toNat);
      let g := engOf s e;
      let x := rdS g a.toNat;
      let y := BitVec.ofInt 32 imm.toInt;
      Issues s e w →
      ∃ bb, decBundle w = some bb ∧ exec (.srai e d a imm rest) s = .next (applyBundle s e bb) ∧
        (1, .s d.toNat (x.sshiftRight (y.toNat % 32))) ∈ bundleWrites s e bb) ∧
  (∀ (e : Fin 768) (d a : BitVec 4) (imm : BitVec 8) (rest : BitVec 64) (s : State),
      let w := withM rest 4 (fmtS 28 d.toNat a.toNat imm.toNat);
      let g := engOf s e;
      let x := rdS g a.toNat;
      let y := BitVec.ofInt 32 imm.toInt;
      Issues s e w →
      ∃ bb, decBundle w = some bb ∧ exec (.slti e d a imm rest) s = .next (applyBundle s e bb) ∧
        (1, .s d.toNat (if x.toInt < y.toInt then 1#32 else 0#32)) ∈ bundleWrites s e bb) ∧
  (∀ (e : Fin 768) (d a : BitVec 5) (rest : BitVec 64) (s : State),
      let w := withM rest 5 (fmtV 1 d.toNat a.toNat 0 0);
      let g := engOf s e;
      let c := (actBank g).cstat;
      Issues s e w →
      ∃ bb, decBundle w = some bb ∧ exec (.vmov e d a rest) s = .next (applyBundle s e bb) ∧
        (2, .v (physV c d.toNat) (rdV g a.toNat) (ones 256)) ∈ bundleWrites s e bb) ∧
  (∀ (e : Fin 768) (d a k : BitVec 5) (rest : BitVec 64) (s : State),
      let w := withM rest 5 (fmtV 2 d.toNat a.toNat k.toNat 0);
      let g := engOf s e;
      Issues s e w →
      ∃ bb, decBundle w = some bb ∧ exec (.vget e d a k rest) s = .next (applyBundle s e bb) ∧
        (2, .s d.toNat (BitVec.ofNat 32 (lane (rdV g a.toNat) 32 k.toNat))) ∈ bundleWrites s e bb) ∧
  (∀ (e : Fin 768) (d a k : BitVec 5) (rest : BitVec 64) (s : State),
      let w := withM rest 5 (fmtV 3 d.toNat a.toNat k.toNat 0);
      let g := engOf s e;
      let c := (actBank g).cstat;
      Issues s e w →
      ∃ bb, decBundle w = some bb ∧ exec (.vput e d a k rest) s = .next (applyBundle s e bb) ∧
        (2, .v (physV c d.toNat) (vecOf 32 fun _ => (rdS g a.toNat).toNat) (vecOf 32 fun i => if i = k.toNat then 2 ^ 32 - 1 else 0)) ∈ bundleWrites s e bb) ∧
  (∀ (e : Fin 768) (d a : BitVec 5) (wc : BitVec 2) (rest : BitVec 64) (s : State),
      let w := withM rest 5 (fmtV 4 d.toNat a.toNat wc.toNat 0);
      let g := engOf s e;
      let c := (actBank g).cstat;
      Issues s e w →
      ∃ bb, decBundle w = some bb ∧ exec (.vbcst e d a wc rest) s = .next (applyBundle s e bb) ∧
        (2, .v (physV c d.toNat) (vecOf (laneBits wc.toNat) fun _ => (rdS g a.toNat).toNat) (ones 256)) ∈ bundleWrites s e bb) ∧
  (∀ (e : Fin 768) (d a sh : BitVec 5) (rest : BitVec 64) (s : State),
      let w := withM rest 5 (fmtV 5 d.toNat a.toNat sh.toNat 0);
      let g := engOf s e;
      let c := (actBank g).cstat;
      let r (i : Nat) : Int := rndShift (csRnd c) (slane (vecGet g.a a.toNat) 48 i) sh.toNat;
      Issues s e w →
      ∃ bb, decBundle w = some bb ∧ exec (.anarrow e d a sh rest) s = .next (applyBundle s e bb) ∧
        (2, .v (physV c d.toNat) (vecOf 16 fun i => markN 16 (r i)) (ones 256)) ∈ bundleWrites s e bb ∧
        ((∃ i, i < 16 ∧ fitsS 16 (r i) = false) → (2, .sticky 8#32) ∈ bundleWrites s e bb)) ∧
  (∀ (e : Fin 768) (d a : BitVec 5) (rest : BitVec 64) (s : State),
      let w := withM rest 5 (fmtV 6 d.toNat a.toNat 0 0);
      let g := engOf s e;
      Issues s e w →
      ∃ bb, decBundle w = some bb ∧ exec (.movsp e d a rest) s = .next (applyBundle s e bb) ∧
        (1, .s d.toNat ((vecGet (actBank g).p a.toNat).setWidth 32)) ∈ bundleWrites s e bb) ∧
  (∀ (e : Fin 768) (d a : BitVec 5) (rest : BitVec 64) (s : State),
      let w := withM rest 5 (fmtV 7 d.toNat a.toNat 0 0);
      let g := engOf s e;
      Issues s e w →
      ∃ bb, decBundle w = some bb ∧ exec (.movps e d a rest) s = .next (applyBundle s e bb) ∧
        (1, .p d.toNat ((rdS g a.toNat).setWidth 16)) ∈ bundleWrites s e bb) ∧
  (∀ (e : Fin 768) (d a : BitVec 5) (rest : BitVec 64) (s : State),
      let w := withM rest 5 (fmtV 8 d.toNat a.toNat 0 0);
      let g := engOf s e;
      Issues s e w →
      ∃ bb, decBundle w = some bb ∧ exec (.movsm e d a rest) s = .next (applyBundle s e bb) ∧
        (1, .s d.toNat (vecGet (actBank g).m a.toNat)) ∈ bundleWrites s e bb) ∧
  (∀ (e : Fin 768) (d a : BitVec 5) (rest : BitVec 64) (s : State),
      let w := withM rest 5 (fmtV 9 d.toNat a.toNat 0 0);
      let g := engOf s e;
      Issues s e w →
      ∃ bb, decBundle w = some bb ∧ exec (.movms e d a rest) s = .next (applyBundle s e bb) ∧
        (1, .m d.toNat (rdS g a.toNat)) ∈ bundleWrites s e bb) ∧
  (∀ (e : Fin 768) (d a : BitVec 5) (rest : BitVec 64) (s : State),
      let w := withM rest 5 (fmtV 10 d.toNat a.toNat 0 0);
      let g := engOf s e;
      Issues s e w →
      ∃ bb, decBundle w = some bb ∧ exec (.movsc e d a rest) s = .next (applyBundle s e bb) ∧
        (1, .s d.toNat (vecGet (actBank g).cp a.toNat)) ∈ bundleWrites s e bb) ∧
  (∀ (e : Fin 768) (d a : BitVec 5) (rest : BitVec 64) (s : State),
      let w := withM rest 5 (fmtV 11 d.toNat a.toNat 0 0);
      let g := engOf s e;
      Issues s e w →
      ∃ bb, decBundle w = some bb ∧ exec (.movcs e d a rest) s = .next (applyBundle s e bb) ∧
        (1, .cp d.toNat (rdS g a.toNat)) ∈ bundleWrites s e bb) ∧
  (∀ (e : Fin 768) (d a : BitVec 5) (rest : BitVec 64) (s : State),
      let w := withM rest 5 (fmtV 12 d.toNat a.toNat 0 0);
      Issues s e w →
      ∃ bb, decBundle w = some bb ∧ exec (.csrr e d a rest) s = .next (applyBundle s e bb) ∧
        (1, .s d.toNat (csrRead s e a.toNat)) ∈ bundleWrites s e bb) ∧
  (∀ (e : Fin 768) (d a : BitVec 5) (rest : BitVec 64) (s : State),
      let w := withM rest 5 (fmtV 13 d.toNat a.toNat 0 0);
      let g := engOf s e;
      Issues s e w →
      ∃ bb, decBundle w = some bb ∧ exec (.csrw e d a rest) s = .next (applyBundle s e bb) ∧
        (1, .csr d.toNat (rdS g a.toNat)) ∈ bundleWrites s e bb)

/-- Rows CLD, VLD to SST, PMOD, PADD, PMOVS, SIN and SOUT. Where the bundle issues, a load sends the word (or the word's element) at the pointer with latency 4, a store puts its word into the memory of its slot at once, a post-modified pointer follows R347, and a stream operation moves one word of the attached queue block. -/
def Obligations.SlotResults : Prop :=
  (∀ (e : Fin 768) (ci : Bool) (v : BitVec 3) (rest : BitVec 64) (s : State),
      let w := withP rest (16 + ci.toNat * 8 + v.toNat);
      let g := engOf s e;
      let c := (actBank g).cstat;
      let cp := vecGet (actBank g).cp ci.toNat;
      Issues s e w →
      ∃ bb, decBundle w = some bb ∧ exec (.cld e ci v rest) s = .next (applyBundle s e bb) ∧
        (4, .v (physV c v.toNat) (progWord g (fld cp 5 11)) (ones 256)) ∈ bundleWrites s e bb ∧
        (1, .cp ci.toNat (cpAdvance cp)) ∈ bundleWrites s e bb) ∧
  (∀ (e : Fin 768) (y : Bool) (v : BitVec 5) (p : BitVec 3) (u : Bool) (rest : BitVec 64) (s : State),
      let w := withSlot rest y (0x1000 + v.toNat * 128 + p.toNat * 16 + u.toNat * 8);
      let g := engOf s e;
      let c := (actBank g).cstat;
      let q := (vecGet (actBank g).p p.toNat).toNat;
      Issues s e w →
      ∃ bb, decBundle w = some bb ∧ exec (.vld e y v p u rest) s = .next (applyBundle s e bb) ∧
        (4, .v (physV c v.toNat) (dataWord g y (q / 32)) (ones 256)) ∈ bundleWrites s e bb ∧
        (u → (1, .p p.toNat (postMod (vecGet (actBank g).m p.toNat) (vecGet (actBank g).p p.toNat))) ∈ bundleWrites s e bb)) ∧
  (∀ (e : Fin 768) (y : Bool) (v : BitVec 5) (p : BitVec 3) (u : Bool) (rest : BitVec 64) (s : State),
      let w := withSlot rest y (0x2000 + v.toNat * 128 + p.toNat * 16 + u.toNat * 8);
      let g := engOf s e;
      let c := (actBank g).cstat;
      let q := (vecGet (actBank g).p p.toNat).toNat;
      Issues s e w →
      ∃ bb, decBundle w = some bb ∧ exec (.vldb e y v p u rest) s = .next (applyBundle s e bb) ∧
        (4, .v (physV c v.toNat) (vecOf 32 fun _ => lane (dataWord g y (q / 32)) 32 (q / 4 % 8)) (ones 256)) ∈ bundleWrites s e bb ∧
        (u → (1, .p p.toNat (postMod (vecGet (actBank g).m p.toNat) (vecGet (actBank g).p p.toNat))) ∈ bundleWrites s e bb)) ∧
  (∀ (e : Fin 768) (y : Bool) (v : BitVec 5) (p : BitVec 3) (u t : Bool) (wc : BitVec 2) (rest : BitVec 64) (s : State),
      let w := withSlot rest y (0x3000 + v.toNat * 128 + p.toNat * 16 + u.toNat * 8 + t.toNat * 4 + wc.toNat);
      let g := engOf s e;
      let q := (vecGet (actBank g).p p.toNat).toNat;
      Issues s e w →
      ∃ bb, decBundle w = some bb ∧ exec (.vst e y v p u t wc rest) s = .next (applyBundle s e bb) ∧
        dataWord (engOf (applyBundle s e bb) e) y (q / 32) = rdV g v.toNat ∧
        (u → (1, .p p.toNat (postMod (vecGet (actBank g).m p.toNat) (vecGet (actBank g).p p.toNat))) ∈ bundleWrites s e bb) ∧
        (t → (3, .track (BitVec.ofNat 5 (fewestSigns (laneBits wc.toNat) (rdV g v.toNat)))) ∈ bundleWrites s e bb)) ∧
  (∀ (e : Fin 768) (y : Bool) (a p : BitVec 3) (u : Bool) (sh : BitVec 5) (rest : BitVec 64) (s : State),
      let w := withSlot rest y (0x4000 + a.toNat * 512 + p.toNat * 64 + u.toNat * 32 + sh.toNat);
      let g := engOf s e;
      let c := (actBank g).cstat;
      let q := (vecGet (actBank g).p p.toNat).toNat;
      let r (i : Nat) : Int := rndShift (csRnd c) (slane (vecGet g.a a.toNat) 48 i) sh.toNat;
      let x := vecOf 16 fun i => markN 16 (r i);
      Issues s e w →
      ∃ bb, decBundle w = some bb ∧ exec (.staH e y a p u sh rest) s = .next (applyBundle s e bb) ∧
        dataWord (engOf (applyBundle s e bb) e) y (q / 32) = x ∧
        (u → (1, .p p.toNat (postMod (vecGet (actBank g).m p.toNat) (vecGet (actBank g).p p.toNat))) ∈ bundleWrites s e bb) ∧
        ((∃ i, i < 16 ∧ fitsS 16 (r i) = false) → (2, .sticky 8#32) ∈ bundleWrites s e bb)) ∧
  (∀ (e : Fin 768) (y : Bool) (a p : BitVec 3) (u : Bool) (sh : BitVec 5) (rest : BitVec 64) (s : State),
      let w := withSlot rest y (0x5000 + a.toNat * 512 + p.toNat * 64 + u.toNat * 32 + sh.toNat);
      let g := engOf s e;
      let c := (actBank g).cstat;
      let q := (vecGet (actBank g).p p.toNat).toNat;
      let r (i : Nat) : Int := rndShift (csRnd c) (slane (vecGet g.a a.toNat) 48 i) sh.toNat;
      let x := vecOf 16 fun i => markN 16 (r i);
      Issues s e w →
      ∃ bb, decBundle w = some bb ∧ exec (.staHt e y a p u sh rest) s = .next (applyBundle s e bb) ∧
        dataWord (engOf (applyBundle s e bb) e) y (q / 32) = x ∧
        (u → (1, .p p.toNat (postMod (vecGet (actBank g).m p.toNat) (vecGet (actBank g).p p.toNat))) ∈ bundleWrites s e bb) ∧
        ((∃ i, i < 16 ∧ fitsS 16 (r i) = false) → (2, .sticky 8#32) ∈ bundleWrites s e bb) ∧
        (3, .track (BitVec.ofNat 5 (fewestSigns 16 x))) ∈ bundleWrites s e bb) ∧
  (∀ (e : Fin 768) (y : Bool) (a p : BitVec 3) (u h : Bool) (sh : BitVec 4) (rest : BitVec 64) (s : State),
      let w := withSlot rest y (0x6000 + a.toNat * 512 + p.toNat * 64 + u.toNat * 32 + h.toNat * 16 + sh.toNat);
      let g := engOf s e;
      let c := (actBank g).cstat;
      let q := (vecGet (actBank g).p p.toNat).toNat;
      let r (i : Nat) : Int := rndShift (csRnd c) (slane (vecGet g.a a.toNat) 48 ((if h then 8 else 0) + i)) sh.toNat;
      let x := vecOf 32 fun i => markN 32 (r i);
      Issues s e w →
      ∃ bb, decBundle w = some bb ∧ exec (.staW e y a p u h sh rest) s = .next (applyBundle s e bb) ∧
        dataWord (engOf (applyBundle s e bb) e) y (q / 32) = x ∧
        (u → (1, .p p.toNat (postMod (vecGet (actBank g).m p.toNat) (vecGet (actBank g).p p.toNat))) ∈ bundleWrites s e bb) ∧
        ((∃ i, i < 8 ∧ fitsS 32 (r i) = false) → (2, .sticky 8#32) ∈ bundleWrites s e bb)) ∧
  (∀ (e : Fin 768) (y : Bool) (a p : BitVec 3) (u h : Bool) (sh : BitVec 4) (rest : BitVec 64) (s : State),
      let w := withSlot rest y (0x7000 + a.toNat * 512 + p.toNat * 64 + u.toNat * 32 + h.toNat * 16 + sh.toNat);
      let g := engOf s e;
      let c := (actBank g).cstat;
      let q := (vecGet (actBank g).p p.toNat).toNat;
      let r (i : Nat) : Int := rndShift (csRnd c) (slane (vecGet g.a a.toNat) 48 ((if h then 8 else 0) + i)) sh.toNat;
      let x := vecOf 32 fun i => markN 32 (r i);
      Issues s e w →
      ∃ bb, decBundle w = some bb ∧ exec (.staWt e y a p u h sh rest) s = .next (applyBundle s e bb) ∧
        dataWord (engOf (applyBundle s e bb) e) y (q / 32) = x ∧
        (u → (1, .p p.toNat (postMod (vecGet (actBank g).m p.toNat) (vecGet (actBank g).p p.toNat))) ∈ bundleWrites s e bb) ∧
        ((∃ i, i < 8 ∧ fitsS 32 (r i) = false) → (2, .sticky 8#32) ∈ bundleWrites s e bb) ∧
        (3, .track (BitVec.ofNat 5 (fewestSigns 32 x))) ∈ bundleWrites s e bb) ∧
  (∀ (e : Fin 768) (y : Bool) (r : BitVec 4) (p : BitVec 3) (u : Bool) (rest : BitVec 64) (s : State),
      let w := withSlot rest y (0x8000 + r.toNat * 256 + p.toNat * 32 + u.toNat * 16);
      let g := engOf s e;
      let q := (vecGet (actBank g).p p.toNat).toNat;
      Issues s e w →
      ∃ bb, decBundle w = some bb ∧ exec (.sld e y r p u rest) s = .next (applyBundle s e bb) ∧
        (4, .s r.toNat (BitVec.ofNat 32 (lane (dataWord g y (q / 32)) 32 (q / 4 % 8)))) ∈ bundleWrites s e bb ∧
        (u → (1, .p p.toNat (postMod (vecGet (actBank g).m p.toNat) (vecGet (actBank g).p p.toNat))) ∈ bundleWrites s e bb)) ∧
  (∀ (e : Fin 768) (y : Bool) (r : BitVec 4) (p : BitVec 3) (u : Bool) (rest : BitVec 64) (s : State),
      let w := withSlot rest y (0x9000 + r.toNat * 256 + p.toNat * 32 + u.toNat * 16);
      let g := engOf s e;
      let q := (vecGet (actBank g).p p.toNat).toNat;
      Issues s e w →
      ∃ bb, decBundle w = some bb ∧ exec (.sst e y r p u rest) s = .next (applyBundle s e bb) ∧
        dataWord (engOf (applyBundle s e bb) e) y (q / 32) = putWord32 (dataWord g y (q / 32)) (q / 4 % 8) (rdS g r.toNat) ∧
        (u → (1, .p p.toNat (postMod (vecGet (actBank g).m p.toNat) (vecGet (actBank g).p p.toNat))) ∈ bundleWrites s e bb)) ∧
  (∀ (e : Fin 768) (y : Bool) (p : BitVec 3) (rest : BitVec 64) (s : State),
      let w := withSlot rest y (0xA000 + p.toNat * 512);
      let g := engOf s e;
      Issues s e w →
      ∃ bb, decBundle w = some bb ∧ exec (.pmod e y p rest) s = .next (applyBundle s e bb) ∧
        (1, .p p.toNat (postMod (vecGet (actBank g).m p.toNat) (vecGet (actBank g).p p.toNat))) ∈ bundleWrites s e bb) ∧
  (∀ (e : Fin 768) (y : Bool) (p : BitVec 3) (imm : BitVec 7) (rest : BitVec 64) (s : State),
      let w := withSlot rest y (0xA080 + p.toNat * 512 + imm.toNat);
      let g := engOf s e;
      Issues s e w →
      ∃ bb, decBundle w = some bb ∧ exec (.padd e y p imm rest) s = .next (applyBundle s e bb) ∧
        (1, .p p.toNat (vecGet (actBank g).p p.toNat + BitVec.ofInt 16 (32 * imm.toInt))) ∈ bundleWrites s e bb) ∧
  (∀ (e : Fin 768) (y : Bool) (p : BitVec 3) (a : BitVec 4) (rest : BitVec 64) (s : State),
      let w := withSlot rest y (0xA100 + p.toNat * 512 + a.toNat * 8);
      let g := engOf s e;
      Issues s e w →
      ∃ bb, decBundle w = some bb ∧ exec (.pmovs e y p a rest) s = .next (applyBundle s e bb) ∧
        (1, .p p.toNat ((rdS g a.toNat).setWidth 16)) ∈ bundleWrites s e bb) ∧
  (∀ (e : Fin 768) (v : BitVec 5) (h : Bool) (rest : BitVec 64) (qb : Nat) (s : State),
      let w := withSlot rest false (0xB000 + v.toNat * 128 + h.toNat * 64);
      let g := engOf s e;
      let c := (actBank g).cstat;
      let o := (qbOf (qbRead s qb 0#142 0#3 0#10) qb).out;
      let k := if h then 2 ^ 128 else 1;
      Issues s e w →
      streamBlock s e false = some qb →
      ∃ bb, decBundle w = some bb ∧ exec (.sin e v h rest) s = .next (applyBundle s e bb) ∧
        (4, .v (physV c v.toNat) (BitVec.ofNat 256 (o.data.toNat * k)) (BitVec.ofNat 256 ((2 ^ 128 - 1) * k))) ∈ (streamMove s e bb).2 ∧
        (4, .sstat o.bytes o.last o.poison) ∈ (streamMove s e bb).2 ∧
        qbOf (applyBundle s e bb) qb = qbOf (qbRead s qb 0#142 0#3 0#10) qb) ∧
  (∀ (e : Fin 768) (v : BitVec 5) (h l : Bool) (n : BitVec 4) (rest : BitVec 64) (qb : Nat) (s : State),
      let w := withSlot rest false (0xC000 + v.toNat * 128 + h.toNat * 64 + l.toNat * 32 + n.toNat * 2);
      let g := engOf s e;
      let k := if h then 2 ^ 128 else 1;
      Issues s e w →
      streamBlock s e true = some qb →
      ∃ bb, decBundle w = some bb ∧ exec (.sout e v h l n rest) s = .next (applyBundle s e bb) ∧
        qbOf (applyBundle s e bb) qb = qbPush (qbOf s qb) { data := BitVec.ofNat 128 ((rdV g v.toNat).toNat / k), last := l, bytes := n, ends := qbEnds l, adr := 0 })

/-- Rows LOOP, B to JR, SIMM and VIMM, the system operations and the absolute accesses. Where the bundle issues: what becomes of PC, the wait after a taken branch, the loop registers, the engine's state, the register or the memory word that the operation names. -/
def Obligations.ControlResults : Prop :=
  (∀ (e : Fin 768) (rw : BitVec 2) (cs : Bool) (a : BitVec 4) (count last : BitVec 16) (s : State),
      let w := BitVec.ofNat 64 (6 * 2 ^ 60 + rw.toNat * 2 ^ 58 + cs.toNat * 2 ^ 57 + a.toNat * 2 ^ 53 + count.toNat * 2 ^ 32 + last.toNat * 2 ^ 16);
      let g := engOf s e;
      let c := (actBank g).cstat;
      let n := if cs then (rdS g a.toNat).toNat % 65536 else count.toNat;
      let k (bb : Bundle) : EngBank := actBank (engOf (applyBundle s e bb) e);
      Issues s e w →
      ∃ bb, decBundle w = some bb ∧ exec (.loop e rw cs a count last) s = .next (applyBundle s e bb) ∧
        (n = 0 → (engOf (applyBundle s e bb) e).pc = last + 8#16) ∧
        (n ≠ 0 → (engOf (applyBundle s e bb) e).pc = g.pc + 8#16) ∧
        (n ≠ 0 → g.flight = [] → csDepth (k bb).cstat = csDepth c + 1 ∧ vecGet (k bb).lcnt (csDepth c) = BitVec.ofNat 16 n ∧ vecGet (k bb).lstart (csDepth c) = g.pc + 8#16 ∧ vecGet (k bb).lend (csDepth c) = last)) ∧
  (∀ (e : Fin 768) (t : BitVec 16) (s : State),
      let w := BitVec.ofNat 64 (7 * 2 ^ 60 + 0 * 2 ^ 56 + t.toNat * 2 ^ 16);
      Issues s e w →
      ∃ bb, decBundle w = some bb ∧ exec (.b e t) s = .next (applyBundle s e bb) ∧
        ((engOf (applyBundle s e bb) e).pc = t ∧ (engOf (applyBundle s e bb) e).wait = 2)) ∧
  (∀ (e : Fin 768) (a b : BitVec 4) (t : BitVec 16) (s : State),
      let w := BitVec.ofNat 64 (7 * 2 ^ 60 + 1 * 2 ^ 56 + a.toNat * 2 ^ 52 + b.toNat * 2 ^ 48 + t.toNat * 2 ^ 16);
      let g := engOf s e;
      Issues s e w →
      ∃ bb, decBundle w = some bb ∧ exec (.beq e a b t) s = .next (applyBundle s e bb) ∧
        (rdS g a.toNat = rdS g b.toNat → (engOf (applyBundle s e bb) e).pc = t ∧ (engOf (applyBundle s e bb) e).wait = 2) ∧
        (¬ (rdS g a.toNat = rdS g b.toNat) → (engOf (applyBundle s e bb) e).pc = (advancePc g).pc)) ∧
  (∀ (e : Fin 768) (a b : BitVec 4) (t : BitVec 16) (s : State),
      let w := BitVec.ofNat 64 (7 * 2 ^ 60 + 2 * 2 ^ 56 + a.toNat * 2 ^ 52 + b.toNat * 2 ^ 48 + t.toNat * 2 ^ 16);
      let g := engOf s e;
      Issues s e w →
      ∃ bb, decBundle w = some bb ∧ exec (.bne e a b t) s = .next (applyBundle s e bb) ∧
        (rdS g a.toNat ≠ rdS g b.toNat → (engOf (applyBundle s e bb) e).pc = t ∧ (engOf (applyBundle s e bb) e).wait = 2) ∧
        (¬ (rdS g a.toNat ≠ rdS g b.toNat) → (engOf (applyBundle s e bb) e).pc = (advancePc g).pc)) ∧
  (∀ (e : Fin 768) (a b : BitVec 4) (t : BitVec 16) (s : State),
      let w := BitVec.ofNat 64 (7 * 2 ^ 60 + 3 * 2 ^ 56 + a.toNat * 2 ^ 52 + b.toNat * 2 ^ 48 + t.toNat * 2 ^ 16);
      let g := engOf s e;
      Issues s e w →
      ∃ bb, decBundle w = some bb ∧ exec (.blt e a b t) s = .next (applyBundle s e bb) ∧
        ((rdS g a.toNat).toInt < (rdS g b.toNat).toInt → (engOf (applyBundle s e bb) e).pc = t ∧ (engOf (applyBundle s e bb) e).wait = 2) ∧
        (¬ ((rdS g a.toNat).toInt < (rdS g b.toNat).toInt) → (engOf (applyBundle s e bb) e).pc = (advancePc g).pc)) ∧
  (∀ (e : Fin 768) (a b : BitVec 4) (t : BitVec 16) (s : State),
      let w := BitVec.ofNat 64 (7 * 2 ^ 60 + 4 * 2 ^ 56 + a.toNat * 2 ^ 52 + b.toNat * 2 ^ 48 + t.toNat * 2 ^ 16);
      let g := engOf s e;
      Issues s e w →
      ∃ bb, decBundle w = some bb ∧ exec (.bge e a b t) s = .next (applyBundle s e bb) ∧
        ((rdS g b.toNat).toInt ≤ (rdS g a.toNat).toInt → (engOf (applyBundle s e bb) e).pc = t ∧ (engOf (applyBundle s e bb) e).wait = 2) ∧
        (¬ ((rdS g b.toNat).toInt ≤ (rdS g a.toNat).toInt) → (engOf (applyBundle s e bb) e).pc = (advancePc g).pc)) ∧
  (∀ (e : Fin 768) (a b : BitVec 4) (t : BitVec 16) (s : State),
      let w := BitVec.ofNat 64 (7 * 2 ^ 60 + 5 * 2 ^ 56 + a.toNat * 2 ^ 52 + b.toNat * 2 ^ 48 + t.toNat * 2 ^ 16);
      let g := engOf s e;
      Issues s e w →
      ∃ bb, decBundle w = some bb ∧ exec (.bltu e a b t) s = .next (applyBundle s e bb) ∧
        ((rdS g a.toNat).toNat < (rdS g b.toNat).toNat → (engOf (applyBundle s e bb) e).pc = t ∧ (engOf (applyBundle s e bb) e).wait = 2) ∧
        (¬ ((rdS g a.toNat).toNat < (rdS g b.toNat).toNat) → (engOf (applyBundle s e bb) e).pc = (advancePc g).pc)) ∧
  (∀ (e : Fin 768) (a b : BitVec 4) (t : BitVec 16) (s : State),
      let w := BitVec.ofNat 64 (7 * 2 ^ 60 + 6 * 2 ^ 56 + a.toNat * 2 ^ 52 + b.toNat * 2 ^ 48 + t.toNat * 2 ^ 16);
      let g := engOf s e;
      Issues s e w →
      ∃ bb, decBundle w = some bb ∧ exec (.bgeu e a b t) s = .next (applyBundle s e bb) ∧
        ((rdS g b.toNat).toNat ≤ (rdS g a.toNat).toNat → (engOf (applyBundle s e bb) e).pc = t ∧ (engOf (applyBundle s e bb) e).wait = 2) ∧
        (¬ ((rdS g b.toNat).toNat ≤ (rdS g a.toNat).toNat) → (engOf (applyBundle s e bb) e).pc = (advancePc g).pc)) ∧
  (∀ (e : Fin 768) (a : BitVec 4) (t : BitVec 16) (s : State),
      let w := BitVec.ofNat 64 (7 * 2 ^ 60 + 7 * 2 ^ 56 + a.toNat * 2 ^ 52 + t.toNat * 2 ^ 16);
      let g := engOf s e;
      Issues s e w →
      ∃ bb, decBundle w = some bb ∧ exec (.beqz e a t) s = .next (applyBundle s e bb) ∧
        (rdS g a.toNat = 0#32 → (engOf (applyBundle s e bb) e).pc = t ∧ (engOf (applyBundle s e bb) e).wait = 2) ∧
        (¬ (rdS g a.toNat = 0#32) → (engOf (applyBundle s e bb) e).pc = (advancePc g).pc)) ∧
  (∀ (e : Fin 768) (a : BitVec 4) (t : BitVec 16) (s : State),
      let w := BitVec.ofNat 64 (7 * 2 ^ 60 + 8 * 2 ^ 56 + a.toNat * 2 ^ 52 + t.toNat * 2 ^ 16);
      let g := engOf s e;
      Issues s e w →
      ∃ bb, decBundle w = some bb ∧ exec (.bnez e a t) s = .next (applyBundle s e bb) ∧
        (rdS g a.toNat ≠ 0#32 → (engOf (applyBundle s e bb) e).pc = t ∧ (engOf (applyBundle s e bb) e).wait = 2) ∧
        (¬ (rdS g a.toNat ≠ 0#32) → (engOf (applyBundle s e bb) e).pc = (advancePc g).pc)) ∧
  (∀ (e : Fin 768) (l : BitVec 4) (t : BitVec 16) (s : State),
      let w := BitVec.ofNat 64 (7 * 2 ^ 60 + 9 * 2 ^ 56 + l.toNat * 2 ^ 44 + t.toNat * 2 ^ 16);
      let g := engOf s e;
      Issues s e w →
      ∃ bb, decBundle w = some bb ∧ exec (.call e l t) s = .next (applyBundle s e bb) ∧
        ((engOf (applyBundle s e bb) e).pc = t ∧ (engOf (applyBundle s e bb) e).wait = 2) ∧
        (1, .s l.toNat ((g.pc + 8#16).setWidth 32)) ∈ bundleWrites s e bb) ∧
  (∀ (e : Fin 768) (a : BitVec 4) (s : State),
      let w := BitVec.ofNat 64 (7 * 2 ^ 60 + 10 * 2 ^ 56 + a.toNat * 2 ^ 52);
      let g := engOf s e;
      Issues s e w →
      ∃ bb, decBundle w = some bb ∧ exec (.jr e a) s = .next (applyBundle s e bb) ∧
        ((engOf (applyBundle s e bb) e).pc = (rdS g a.toNat).setWidth 16 ∧ (engOf (applyBundle s e bb) e).wait = 2)) ∧
  (∀ (e : Fin 768) (i : BitVec 4) (imm : BitVec 32) (s : State),
      let w := BitVec.ofNat 64 (8 * 2 ^ 60 + 0 * 2 ^ 57 + i.toNat * 2 ^ 53 + imm.toNat);
      let g := engOf s e;
      Issues s e w →
      ∃ bb, decBundle w = some bb ∧ exec (.simmS e i imm) s = .next (applyBundle s e bb) ∧
        (1, .s i.toNat imm) ∈ bundleWrites s e bb ∧
        (engOf (applyBundle s e bb) e).pc = (advancePc g).pc) ∧
  (∀ (e : Fin 768) (i : BitVec 4) (imm : BitVec 32) (s : State),
      let w := BitVec.ofNat 64 (8 * 2 ^ 60 + 1 * 2 ^ 57 + i.toNat * 2 ^ 53 + imm.toNat);
      let g := engOf s e;
      Issues s e w →
      ∃ bb, decBundle w = some bb ∧ exec (.simmM e i imm) s = .next (applyBundle s e bb) ∧
        (1, .m i.toNat imm) ∈ bundleWrites s e bb ∧
        (engOf (applyBundle s e bb) e).pc = (advancePc g).pc) ∧
  (∀ (e : Fin 768) (i : BitVec 4) (imm : BitVec 32) (s : State),
      let w := BitVec.ofNat 64 (8 * 2 ^ 60 + 2 * 2 ^ 57 + i.toNat * 2 ^ 53 + imm.toNat);
      let g := engOf s e;
      Issues s e w →
      ∃ bb, decBundle w = some bb ∧ exec (.simmCp e i imm) s = .next (applyBundle s e bb) ∧
        (1, .cp i.toNat imm) ∈ bundleWrites s e bb ∧
        (engOf (applyBundle s e bb) e).pc = (advancePc g).pc) ∧
  (∀ (e : Fin 768) (i : BitVec 4) (imm : BitVec 32) (s : State),
      let w := BitVec.ofNat 64 (8 * 2 ^ 60 + 3 * 2 ^ 57 + i.toNat * 2 ^ 53 + imm.toNat);
      let g := engOf s e;
      Issues s e w →
      ∃ bb, decBundle w = some bb ∧ exec (.simmP e i imm) s = .next (applyBundle s e bb) ∧
        (1, .p i.toNat (imm.setWidth 16)) ∈ bundleWrites s e bb ∧
        (engOf (applyBundle s e bb) e).pc = (advancePc g).pc) ∧
  (∀ (e : Fin 768) (v : BitVec 5) (wc : BitVec 2) (imm : BitVec 32) (s : State),
      let w := BitVec.ofNat 64 (9 * 2 ^ 60 + v.toNat * 2 ^ 55 + wc.toNat * 2 ^ 53 + imm.toNat);
      let g := engOf s e;
      Issues s e w →
      ∃ bb, decBundle w = some bb ∧ exec (.vimm e v wc imm) s = .next (applyBundle s e bb) ∧
        wrV g 2 v.toNat (vecOf (laneBits wc.toNat) fun _ => imm.toNat) ∈ bundleWrites s e bb ∧
        (engOf (applyBundle s e bb) e).pc = (advancePc g).pc) ∧
  (∀ (e : Fin 768)  (s : State),
      let w := BitVec.ofNat 64 (10 * 2 ^ 60 + 1 * 2 ^ 52);
      let g := engOf s e;
      Issues s e w →
      ∃ bb, decBundle w = some bb ∧ exec (.wait e) s = .next (applyBundle s e bb) ∧
        (engOf (applyBundle s e bb) e).state = (if g.state = .monitor ∨ irqActive s e = true then g.state else .waiting) ∧
        (engOf (applyBundle s e bb) e).pc = (advancePc g).pc) ∧
  (∀ (e : Fin 768)  (s : State),
      let w := BitVec.ofNat 64 (10 * 2 ^ 60 + 2 * 2 ^ 52);
      let g := engOf s e;
      Issues s e w →
      ∃ bb, decBundle w = some bb ∧ exec (.reti e) s = .next (applyBundle s e bb) ∧
        (engOf (applyBundle s e bb) e).shadow = false ∧
        (engOf (applyBundle s e bb) e).pc = g.ipc ∧
        (engOf (applyBundle s e bb) e).wait = 2) ∧
  (∀ (e : Fin 768)  (s : State),
      let w := BitVec.ofNat 64 (10 * 2 ^ 60 + 3 * 2 ^ 52);
      let g := engOf s e;
      Issues s e w →
      ∃ bb, decBundle w = some bb ∧ exec (.dret e) s = .next (applyBundle s e bb) ∧
        (engOf (applyBundle s e bb) e).state = .running ∧
        (engOf (applyBundle s e bb) e).pc = BitVec.ofNat 16 (readSave g / 2 ^ 992 % 65536 / 8 * 8) ∧
        (engOf (applyBundle s e bb) e).wait = 5 ∧
        (engOf (applyBundle s e bb) e).shadow = (readSave g / 2 ^ 1016 % 2 == 1)) ∧
  (∀ (e : Fin 768)  (s : State),
      let w := BitVec.ofNat 64 (10 * 2 ^ 60 + 4 * 2 ^ 52);
      let g := engOf s e;
      Issues s e w →
      ∃ bb, decBundle w = some bb ∧ exec (.bkpt e) s = .next (applyBundle s e bb) ∧
        (g.state ≠ .monitor → (engOf (applyBundle s e bb) e).dbgEvt = some (if g.stepArm then 4 else 6, 0)) ∧
        (engOf (applyBundle s e bb) e).pc = (advancePc g).pc) ∧
  (∀ (e : Fin 768)  (s : State),
      let w := BitVec.ofNat 64 (10 * 2 ^ 60 + 5 * 2 ^ 52);
      let g := engOf s e;
      Issues s e w →
      ∃ bb, decBundle w = some bb ∧ exec (.bxclr e) s = .next (applyBundle s e bb) ∧
        (1, .bexp 31#5) ∈ bundleWrites s e bb ∧
        (engOf (applyBundle s e bb) e).pc = (advancePc g).pc) ∧
  (∀ (e : Fin 768) (n : BitVec 4) (s : State),
      let w := BitVec.ofNat 64 (10 * 2 ^ 60 + 6 * 2 ^ 52 + n.toNat * 2 ^ 48);
      let g := engOf s e;
      Issues s e w →
      ∃ bb, decBundle w = some bb ∧ exec (.sirq e n) s = .next (applyBundle s e bb) ∧
        (g.flight = [] → (engOf (applyBundle s e bb) e).pend.getLsbD n.toNat = true) ∧
        (engOf (applyBundle s e bb) e).pc = (advancePc g).pc) ∧
  (∀ (e : Fin 768)  (s : State),
      let w := BitVec.ofNat 64 (10 * 2 ^ 60 + 7 * 2 ^ 52);
      let g := engOf s e;
      Issues s e w →
      ∃ bb, decBundle w = some bb ∧ exec (.stop e) s = .next (applyBundle s e bb) ∧
        (engOf (applyBundle s e bb) e).state = .halted ∧
        (engOf (applyBundle s e bb) e).pc = g.pc + 8#16) ∧
  (∀ (e : Fin 768) (y : Bool) (r : BitVec 4) (addr : BitVec 16) (s : State),
      let w := BitVec.ofNat 64 (11 * 2 ^ 60 + y.toNat * 2 ^ 59 + 0 * 2 ^ 56 + r.toNat * 2 ^ 51 + addr.toNat * 2 ^ 16);
      let g := engOf s e;
      let q := addr.toNat;
      Issues s e w →
      ∃ bb, decBundle w = some bb ∧ exec (.absSld e y r addr) s = .next (applyBundle s e bb) ∧
        (4, .s r.toNat (BitVec.ofNat 32 (lane (dataWord g y (q / 32)) 32 (q / 4 % 8)))) ∈ bundleWrites s e bb ∧
        (engOf (applyBundle s e bb) e).pc = (advancePc g).pc) ∧
  (∀ (e : Fin 768) (y : Bool) (r : BitVec 4) (addr : BitVec 16) (s : State),
      let w := BitVec.ofNat 64 (11 * 2 ^ 60 + y.toNat * 2 ^ 59 + 1 * 2 ^ 56 + r.toNat * 2 ^ 51 + addr.toNat * 2 ^ 16);
      let g := engOf s e;
      let q := addr.toNat;
      Issues s e w →
      ∃ bb, decBundle w = some bb ∧ exec (.absSst e y r addr) s = .next (applyBundle s e bb) ∧
        dataWord (engOf (applyBundle s e bb) e) y (q / 32) = putWord32 (dataWord g y (q / 32)) (q / 4 % 8) (rdS g r.toNat) ∧
        (engOf (applyBundle s e bb) e).pc = (advancePc g).pc) ∧
  (∀ (e : Fin 768) (y : Bool) (v : BitVec 5) (addr : BitVec 16) (s : State),
      let w := BitVec.ofNat 64 (11 * 2 ^ 60 + y.toNat * 2 ^ 59 + 2 * 2 ^ 56 + v.toNat * 2 ^ 51 + addr.toNat * 2 ^ 16);
      let g := engOf s e;
      let q := addr.toNat;
      Issues s e w →
      ∃ bb, decBundle w = some bb ∧ exec (.absVld e y v addr) s = .next (applyBundle s e bb) ∧
        wrV g 4 v.toNat (dataWord g y (q / 32)) ∈ bundleWrites s e bb ∧
        (engOf (applyBundle s e bb) e).pc = (advancePc g).pc) ∧
  (∀ (e : Fin 768) (y : Bool) (v : BitVec 5) (addr : BitVec 16) (s : State),
      let w := BitVec.ofNat 64 (11 * 2 ^ 60 + y.toNat * 2 ^ 59 + 3 * 2 ^ 56 + v.toNat * 2 ^ 51 + addr.toNat * 2 ^ 16);
      let g := engOf s e;
      let q := addr.toNat;
      Issues s e w →
      ∃ bb, decBundle w = some bb ∧ exec (.absVst e y v addr) s = .next (applyBundle s e bb) ∧
        dataWord (engOf (applyBundle s e bb) e) y (q / 32) = rdV g v.toNat ∧
        (engOf (applyBundle s e bb) e).pc = (advancePc g).pc)

/-- Rows ENG_POWER_OFF_DONE, ENG_POWER_ON_DONE, ENG_INTERRUPT_ENTRY, ENG_WAKE, ENG_TIMER_MATCH, ENG_DEBUG_ENTRY, ENG_STREAM_UNFREEZE, and the register commands DBG_HALT_REQ, IRQ_PEND_CLEAR, IRQ_SET, SSTAT_POISON_CLEAR, DMA_START, DMA_ABORT, DMA_LINE_RESPONSE and DMA_STATUS_CLEAR: what each leaves where it applies. A START of a busy channel is refused and changes the answer alone. -/
def Obligations.EngineRows : Prop :=
  (∀ (e : Fin 768) (s : State),
      (engOf s e).power = some false →
      exec (.engPowerOffDone e) s = .next (setEng s e { state := .off })) ∧
  (∀ (e : Fin 768) (s : State),
      (engOf s e).power = some true →
      exec (.engPowerOnDone e) s = .next (engEvent (advanceEpochs (setEng s e {}) [] [e.val]) e 0x2704 sevInfo e.val)) ∧
  (∀ (e : Fin 768) (s : State),
      let g := cyclesPass (engOf s e).wait (engOf s e);
      engClocked s e = true →
      engIssues (engOf s e) = true →
      debugDue (engOf s e) = none →
      irqDue s e = true →
      exec (.engInterruptEntry e) s = .next (setEng s e { cycleEnd g with ipc := g.pc, pc := g.ivec, shadow := true, wait := 2, frozen := none, cldPaid := false, sh := { (cycleEnd g).sh with cstat := g.fg.cstat &&& 0x0000E000#32, rot := 0#2 } })) ∧
  (∀ (e : Fin 768) (s : State),
      let g := { engOf s e with state := EngState.running };
      engClocked s e = true →
      (engOf s e).state = .waiting →
      irqActive s e = true →
      exec (.engWake e) s = .next (match debugDue g with | some (c, i) => debugEntry (setEng s e g) e c i | none => if irqDue (setEng s e g) e = true then setEng (setEng s e g) e (irqEntry g) else setEng s e g)) ∧
  (∀ (e : Fin 768) (s : State),
      let g := engOf s e;
      engClocked s e = true →
      engIssues g = true →
      g.cycles = g.timer →
      exec (.engTimerMatch e) s = .next (setEng s e { g with pend := setBit g.pend 7 true })) ∧
  (∀ (e : Fin 768) (c i : Nat) (s : State),
      let g := engOf s e;
      engClocked s e = true →
      g.state = .running →
      debugDue g = some (c, i) →
      exec (.engDebugEntry e) s = .next (debugEntry (setEng s e { cyclesPass g.wait g with wait := 0 }) e c i)) ∧
  (∀ (e : Fin 768) (c i : Nat) (s : State),
      let g := engOf s e;
      engClocked s e = true →
      g.state = .waiting →
      (g.dbgEvt = some (c, i) ∨ (g.dbgEvt = none ∧ g.haltReq = true ∧ c = 3 ∧ i = 0)) →
      exec (.engDebugEntry e) s = .next (debugEntry s e c i)) ∧
  (∀ (e : Fin 768) (w : BitVec 64) (s : State),
      (engOf s e).frozen = some w →
      engClocked s e = true →
      engIssues (engOf s e) = true →
      exec (.engStreamUnfreeze e) s = .next (boundary (setEng s e { engOf s e with spIn := 0, spOut := 0 }) e w)) ∧
  (∀ (e : Fin 768) (v : BitVec 32) (s : State),
      let g := engOf s e;
      engClocked s e = true →
      g.state ≠ .off ∧ g.state ≠ .notready →
      exec (.dbgHaltReq e v) s = .next { setEng s e { g with dbgCtrl := v.setWidth 4 &&& 0xC#4, haltReq := true } with ans := { answered := true, resp := rOk } }) ∧
  (∀ (e : Fin 768) (v : BitVec 32) (s : State),
      let g := engOf s e;
      engClocked s e = true →
      g.state ≠ .off ∧ g.state ≠ .notready →
      exec (.irqPendClear e v) s = .next { setEng s e { g with pend := g.pend &&& ~~~(v.setWidth 16 &&& 0x7F80#16) } with ans := { answered := true, resp := rOk } }) ∧
  (∀ (e : Fin 768) (v : BitVec 32) (s : State),
      let g := engOf s e;
      engClocked s e = true →
      g.state ≠ .off ∧ g.state ≠ .notready →
      exec (.irqSet e v) s = .next { setEng s e { g with pend := g.pend ||| (v.setWidth 16 &&& 0x3F00#16) } with ans := { answered := true, resp := rOk } }) ∧
  (∀ (e : Fin 768) (v : BitVec 32) (s : State),
      let g := engOf s e;
      engClocked s e = true →
      g.state ≠ .off ∧ g.state ≠ .notready →
      exec (.sstatPoisonClear e v) s = .next { (if v.getLsbD 5 then setEng s e { g with sstat := setBit g.sstat 5 false, poisLogged := false } else s) with ans := { answered := true, resp := rOk } }) ∧
  (∀ (e : Fin 768) (c : Fin 4) (v : BitVec 32) (s : State),
      let d := dmaOf s e c;
      let ctrl := maskMerge d.ctrl (v.setWidth 10) 0x3F9#10;
      engClocked s e = true →
      (engOf s e).state ≠ .off ∧ (engOf s e).state ≠ .notready →
      d.busy = false →
      exec (.dmaStart e c v) s = .next { dmaStart (setDma s e c { d with ctrl := ctrl }) e c with ans := { answered := true, resp := rOk } }) ∧
  (∀ (e : Fin 768) (c : Fin 4) (v : BitVec 32) (s : State),
      let d := dmaOf s e c;
      engClocked s e = true →
      (engOf s e).state ≠ .off ∧ (engOf s e).state ≠ .notready →
      d.busy = true →
      exec (.dmaStart e c v) s = .next { s with ans := { answered := true, resp := rSlverr } }) ∧
  (∀ (e : Fin 768) (c : Fin 4) (v : BitVec 32) (s : State),
      let d := dmaOf s e c;
      let ctrl := maskMerge d.ctrl (v.setWidth 10) 0x3F9#10;
      engClocked s e = true →
      (engOf s e).state ≠ .off ∧ (engOf s e).state ≠ .notready →
      v.getLsbD 31 = false →
      exec (.dmaAbort e c v) s = .next { dmaSettle (setDma s e c { d with ctrl := ctrl, abort := d.abort || d.busy }) e c with ans := { answered := true, resp := rOk } }) ∧
  (∀ (e : Fin 768) (c : Fin 4) (v : BitVec 32) (s : State),
      let d := dmaOf s e c;
      engClocked s e = true →
      (engOf s e).state ≠ .off ∧ (engOf s e).state ≠ .notready →
      exec (.dmaStatusClear e c v) s = .next { setDma s e c { d with done := d.done && !v.getLsbD 30, error := d.error && !v.getLsbD 29, aborted := d.aborted && !v.getLsbD 28 } with ans := { answered := true, resp := rOk } }) ∧
  (∀ (e : Fin 768) (c : Fin 4) (txn : BitVec 16) (t : Tx) (s : State),
      let k := txKey (.eng e c) txn.toNat;
      let d := dmaOf s e c;
      let s2 := dropTx s k;
      tabFind s.vent.txs k = some t →
      engClocked s e = true →
      t.init = .eng e c ∧ t.phase = .rsp ∧ t.resp = rOk ∧ cmdReads t.cmd = false →
      t.lost = false ∧ t.gone = false ∧ inOrder s k t = true →
      exec (.dmaLineResponse e c txn) s = .next (dmaSettle (setDma s2 e c { d with flight := d.flight.filter (· != t.tag), lines := d.lines + 1#11 }) e c))

/-- (s1 is the state in the cycle that begins there, in which the engine has stored nothing yet.) A statement about every row of the instruction set, told on the row ADD and its bundle word: where the engine is at a boundary with no cycle left to pass, a due debug event is taken; else a due interrupt; else, where an exception applies, the first of R421's order is taken; else a coefficient load that has not paid freezes one cycle first; else a stream operation that cannot move its word freezes the bundle. An engine that is not clocked, does not issue or is frozen does nothing. -/
def Obligations.EngineBoundary : Prop :=
  (∀ (e : Fin 768) (d a b : BitVec 4) (rest : BitVec 64) (s : State),
      let g := engOf s e;
      (engClocked s e && engIssues g && g.frozen.isNone) = false →
      exec (.add e d a b rest) s = .next s) ∧
  (∀ (e : Fin 768) (d a b : BitVec 4) (rest : BitVec 64) (s : State),
      let w := withM rest 4 (fmtS 1 d.toNat a.toNat (b.toNat * 16));
      let g := engOf s e;
      let s1 := toEng s e { g with stored := [] };
      engClocked s e = true ∧ engIssues g = true ∧ g.frozen = none →
      g.wait = 0 ∧ g.spIn = 0 ∧ g.spOut = 0 →
      (∀ c i, debugDue g = some (c, i) → exec (.add e d a b rest) s = .next (debugEntry s1 e c i)) ∧
        (debugDue g = none → irqDue s e = true → exec (.add e d a b rest) s = .next (setEng s1 e (irqEntry { g with stored := [] }))) ∧
        (∀ c, debugDue g = none → irqDue s e = false → bundleFault s e w = some c → exec (.add e d a b rest) s = .next (engException s1 e c)) ∧
        (debugDue g = none → irqDue s e = false → bundleFault s e w = none → hasCld w = true → fromCache g = false → g.cldPaid = false → exec (.add e d a b rest) s = .next (boundary (toEng s e (freezeCycle g)) e w)) ∧
        (∀ bb, debugDue g = none → irqDue s e = false → bundleFault s e w = none → hasCld w = false → decBundle w = some bb → streamBlocked s e bb = true → exec (.add e d a b rest) s = .next (linkRefusal (setEng s e { freezeCycle g with frozen := some w }) e bb)))

/-- When a bundle without a stream operation issues, only its engine's record and the counter of free values change; every other engine is as it was, every word of the two data memories is as it was except the ones its own slots or its absolute access store to, and program memory, EPC, the exception cause, the breakpoints and watchpoints and the DMA channels are unchanged. -/
def Obligations.EngineFrame : Prop :=
  (∀ (e : Nat) (b : Bundle) (s : State),
      let g := engOf s e;
      let t := applyBundle s e b;
      streamOp b = none →
      t = { s with eng := t.eng, freeCtr := s.freeCtr + freeBlock } ∧
        (∀ f, f ≠ e → engOf t f = engOf s f) ∧
        (engOf t e).prog = g.prog ∧ (engOf t e).epc = g.epc ∧ (engOf t e).ecause = g.ecause ∧ (engOf t e).dma = g.dma ∧
        (engOf t e).bp = g.bp ∧ (engOf t e).wp = g.wp ∧ (engOf t e).dbgCtrl = g.dbgCtrl ∧
        (∀ y i, storesTo g b y i = false → dataWord (engOf t e) y i = dataWord g y i))

/-- After a parallel bundle has issued, each of its results with a latency above 1 is in flight, one cycle closer; a scalar or pointer result with latency 1 is in its register, unless two results of the bundle meet in one register (a conflict, which R416 makes an ILLEGAL); and every older result that was not at its end is still in flight, one cycle closer. -/
def Obligations.EngineLanding : Prop :=
  (∀ (e : Nat) (p : Option (Nat × Nat)) (m : MOp) (x y : SlotOp) (s : State),
      let b : Bundle := .par p m x y;
      let g := engOf s e;
      let t := engOf (applyBundle s e b) e;
      streamOp b = none →
      conflicts (bundleWrites s e b) = false →
      ((∀ l k v, (l, Dest.s k v) ∈ bundleWrites s e b → k < 16) ∧ (∀ l k v, (l, Dest.p k v) ∈ bundleWrites s e b → k < 8)) →
      (∀ l d, (l, d) ∈ bundleWrites s e b → 1 < l → { left := l - 1, shadow := g.shadow, dest := d } ∈ t.flight) ∧
        (∀ w ∈ g.flight, 1 < w.left → { w with left := w.left - 1 } ∈ t.flight) ∧
        (∀ k v, (1, Dest.s k v) ∈ bundleWrites s e b → vecGet (bankOf t g.shadow).s k = v) ∧
        (∀ k v, (1, Dest.p k v) ∈ bundleWrites s e b → vecGet (bankOf t g.shadow).p k = v))

/-- Rows RD, RDP, WR, WRP and MSG, told for the management core; AP_REQUEST and AP_WRITE_DATA; what a header with an uncorrectable error, a reserved value or a wrong local ID meets. A privileged initiator's request to device memory that the gateway admits takes a tracker and travels with the live entry; to an address that no entry covers it is answered DECERR without injection; while STANDBY is being entered it is answered GATED. An access point holds what its logic presents, with the code by which it answers the request itself where it does: GATED, TENANT_RESET, or SLVERR for a length that does not fit the command or a reserved hint. -/
def Obligations.RequestHeaders : Prop :=
  (∀ (h : VHdr) (up : Fin 16) (r : Route) (s : State),
      let x (cmd : Nat) : Hdr := rowHdr h cmd;
      let s1 := setVent s { s.vent with trkWait := s.vent.trkWait.filter (· != gatePort) };
      let go (cmd u : Nat) : State := travel s1 (x cmd) r h.pk u;
      h.init = .mgmt →
      operating s = true →
      tabFind s.vent.txs (txKey h.init h.txn.toNat) = none →
      trackersHeld s .mgmt < 256 ∧ trackersGranted s < 64512 ∧ trkTurn s gatePort = true →
      h.addr.toNat < controlBase ∧ liveRoute s h.addr.toNat = some r ∧ inFull s r = false →
      gwAdmits s .mgmt (samKind r.raw) (samForm r.raw h.addr.toNat / 64) 1 none = true →
      behind s (rowHdr h 0x20) (some r) = false →
      exec (.rd h up) s = .next (go 1 up) ∧ exec (.rdp h up) s = .next (go 2 up) ∧ exec (.wr h) s = .next (go 0x10 0) ∧
        exec (.wrp h) s = .next (go 0x11 0) ∧ exec (.msg h) s = .next (go 0x20 0)) ∧
  (∀ (h : VHdr) (up : Fin 16) (s : State),
      let no (cmd code : Nat) : State := noInject s (rowHdr h cmd) code;
      h.init = .mgmt →
      operating s = true →
      tabFind s.vent.txs (txKey h.init h.txn.toNat) = none →
      h.addr.toNat < controlBase ∧ liveRoute s h.addr.toNat = none →
      exec (.rd h up) s = .next (no 1 rDecerr) ∧ exec (.rdp h up) s = .next (no 2 rDecerr) ∧ exec (.wr h) s = .next (no 0x10 rDecerr) ∧
        exec (.wrp h) s = .next (no 0x11 rDecerr) ∧ exec (.msg h) s = .next (no 0x20 rDecerr)) ∧
  (∀ (h : VHdr) (up : Fin 16) (s : State),
      let no (cmd : Nat) : State := noInject s (rowHdr h cmd) rGated;
      h.init = .mgmt →
      entering s = true →
      tabFind s.vent.txs (txKey h.init h.txn.toNat) = none →
      exec (.rd h up) s = .next (no 1) ∧ exec (.rdp h up) s = .next (no 2) ∧ exec (.wr h) s = .next (no 0x10) ∧
        exec (.wrp h) s = .next (no 0x11) ∧ exec (.msg h) s = .next (no 0x20)) ∧
  (∀ (s : State) (h : Hdr) (r : Route) (p : Pkt) (u : Nat),
      let s1 := headerOk s p;
      let a := takerPort r h.addr;
      (p.herr = 2 → travel s h r p u = headerLost (headerBad s p 0 (srcPort h.init) a) h a) ∧
        (p.herr ≠ 2 → p.odd = .fine → travel s h r p u = arrive s1 h r (judge s h.init h.cmd h.addr h.hint r) u) ∧
        (∀ q, p.herr ≠ 2 → pointOf h.init = none → p.odd = .misaddressed q → travel s h r p u = refused s1 h q.val rDecerr) ∧
        (∀ c v, p.herr ≠ 2 → pointOf h.init = none → p.odd = .reserved c v → travel s h r p u = (if v = 0#3 then refused (packetOdd s1 c.toNat v.toNat a) h a rSlverr else headerLost (packetOdd s1 c.toNat v.toNat a) h a))) ∧
  (∀ (p : Fin 128) (cmd : BitVec 8) (addr : BitVec 52) (be : BitVec 64) (len : BitVec 5) (aux : BitVec 64) (tag : BitVec 8) (qos hint : BitVec 2) (s : State),
      let base := tabGet s.vent.wneed p 0;
      let code := if entering s || dieOf s (p / 16) != .on then some rGated else if partRefuses s p then some rTenantReset else if !lenFits cmd.toNat len.toNat || hint.toNat = 3 then some rSlverr else none;
      let q : ApReq := { cmd := cmd.toNat, addr := addr.toNat, be := be, len := len.toNat, aux := aux, tag := tag.toNat, hint := hint.toNat, wbase := base, qos := qos, code := code };
      let s1 := setVent s { s.vent with wneed := tabPut s.vent.wneed p (base + len.toNat), apq := tabPut s.vent.apq p (tabGet s.vent.apq p [] ++ [q]) };
      serving s = true →
      partRuns s p = true →
      tagBusy s p tag.toNat = false →
      exec (.apRequest p cmd addr be len aux tag qos hint) s = .next (apFlush s1 p) ∧ (tabGet s.vent.apq p [] = [] → code = none → apFlush s1 p = s1) ∧
        (∀ c, tabGet s.vent.apq p [] = [] → code = some c → (s.vent.txs.any fun x => !x.2.gone && x.1 / 65536 == apPort p && x.2.addr / 64 == addr.toNat / 64) = false → apFlush s1 p = apGive (setVent s1 { s1.vent with apq := tabSet s1.vent.apq p [] [] }) p tag.toNat c 0#512)) ∧
  (∀ (p : Fin 128) (data : BitVec 512) (last : Bool) (s : State),
      let n := tabGet s.vent.wrecv p 0;
      serving s = true →
      partRuns s p = true →
      n < tabGet s.vent.wneed p 0 →
      exec (.apWriteData p data last) s = .next (setVent s { s.vent with wrecv := tabPut s.vent.wrecv p (n + 1), wlast := setBit s.vent.wlast p last , wdata := if flitWanted s p n then tabPut s.vent.wdata (p * 2 ^ 40 + n) data else s.vent.wdata }))

/-- Rows PULL, RSP, DATA, EPOCH_RESPONSE, REQ_TIMEOUT, AP_INBOUND_ANSWER, MGMT, SAM_INVALIDATE_DONE and TOKEN_BUCKET_REFILL of a transaction that is in the phase the row moves, whose packet was not lost and has none sent before it on its way: held data leave, a response reaches the initiator (after EPOCH its copy of the entry takes the target's epoch), a host or another device answers, write data reach the target, read data the initiator; a packet with an uncorrectable header error or a reserved value leaves the transaction to its timeout, which completes with SLVERR and event 0x2803. -/
def Obligations.TransactionPhases : Prop :=
  (∀ (i : Init) (txn : BitVec 16) (pk : Pkt) (t : Tx) (s : State),
      let k := txKey i txn.toNat;
      let s1 := headerOk (fromRemote s t.target 2 pk 1) pk;
      serving s = true →
      tabFind s.vent.txs k = some t →
      t.init = i ∧ t.phase = .pull ∧ t.lost = false ∧ inOrder s k t = true →
      pk.herr ≠ 2 ∧ pk.odd = .fine →
      exec (.pull i txn pk) s = .next (pull (sendBack s1 t 0x81 2 0 []) k t) ∧ (match i with | .casc _ _ _ => true | _ => false) = false → sendBack s1 t 0x81 2 0 [] = s1) ∧
  (∀ (k : Nat) (t : Tx) (s : State),
      (t.gone = true → pull s k t = dropTx (dropHeld s t) k) ∧ (t.gone = false → pull s k t = (match heldData s t with | none => s | some d => (match takeTokens s t.init (1 + t.len) with | none => s | some s2 => putTx (dropHeld s2 t) k { t with phase := .data, data := d })))) ∧
  (∀ (i : Init) (txn : BitVec 16) (code : BitVec 4) (line : BitVec 512) (pk : Pkt) (t : Tx) (s : State),
      let k := txKey i txn.toNat;
      serving s = true →
      tabFind s.vent.txs k = some t →
      t.init = i ∧ t.phase = .rsp ∧ t.lost = false ∧ inOrder s k t = true →
      pk.herr ≠ 2 ∧ pk.odd = .fine →
      exec (.rsp i txn code line pk) s = .next (respond (headerOk s pk) k t) ∧ (t.resp = rEpoch → exec (.epochResponse i txn) s = .next (respond s k t)) ∧
        (bringsData t = false → t.resp ≠ rEpoch ∨ t.gone = true → respond s k t = deliver s k t t.resp 0#512) ∧
        (t.resp = rEpoch → t.gone = false → bringsData t = false ∧ respond s k t = deliver (refreshEpoch s t) k t rEpoch 0#512) ∧
        (bringsData t = true → (match i with | .eng _ _ | .dbg _ => true | _ => false) = false → respond s k t = putTx s k { t with phase := .data })) ∧
  (∀ (i : Init) (txn : BitVec 16) (code : BitVec 4) (line : BitVec 512) (pk : Pkt) (t : Tx) (p hpa : Nat) (s : State),
      let k := txKey i txn.toNat;
      serving s = true →
      tabFind s.vent.txs k = some t →
      t.init = i ∧ t.lost = false →
      t.target = .host p hpa ∧ t.phase = .atTarget →
      exec (.rsp i txn code line pk) s = .next (outsideAnswer s k t code.toNat line)) ∧
  (∀ (i : Init) (txn : BitVec 16) (code : BitVec 4) (line : BitVec 512) (pk : Pkt) (t : Tx) (d a : Nat) (c : Bool) (s : State),
      let k := txKey i txn.toNat;
      let u := headerOk (fromRemote s t.target 2 pk 1) pk;
      serving s = true →
      tabFind s.vent.txs k = some t →
      t.init = i ∧ t.lost = false ∧ cmdReads t.cmd = false →
      t.target = .remote d a c →
      (t.phase = .atTarget ∨ t.phase = .pull) →
      pk.herr ≠ 2 ∧ pk.odd = .fine →
      exec (.rsp i txn code line pk) s = .next (outsideAnswer (if t.phase = .pull then dropHeld u t else u) k t code.toNat line)) ∧
  (∀ (i : Init) (txn : BitVec 16) (code : BitVec 4) (line : BitVec 512) (data : List (BitVec 512)) (poison : Bool) (up : Fin 16) (pk : Pkt) (t : Tx) (s : State),
      let k := txKey i txn.toNat;
      let gone (u : State) : State := putTx u k { t with lost := true };
      serving s = true →
      tabFind s.vent.txs k = some t →
      t.init = i ∧ t.lost = false ∧ inOrder s k t = true →
      pk.herr = 2 →
      (t.phase = .rsp → exec (.rsp i txn code line pk) s = .next (gone (headerBad s pk 2 t.at_ (srcPort i)))) ∧
        (t.phase = .pull → exec (.pull i txn pk) s = .next (gone (headerBad (fromRemote s t.target 2 pk 1) pk 2 t.at_ (srcPort i)))) ∧
        (t.phase = .data → cmdReads t.cmd = true → exec (.data i txn data poison up pk) s = .next (gone (headerBad s pk 3 t.at_ (srcPort i)))) ∧
        (t.phase = .data → cmdReads t.cmd = false → (dataOf t data).length = t.len → exec (.data i txn data poison up pk) s = .next (gone (headerBad (fromLink s i 3 pk (1 + t.len)) pk 3 (srcPort i) t.at_)))) ∧
  (∀ (i : Init) (txn : BitVec 16) (code : BitVec 4) (line : BitVec 512) (data : List (BitVec 512)) (poison : Bool) (up : Fin 16) (pk : Pkt) (c : BitVec 8) (v : BitVec 3) (t : Tx) (s : State),
      let k := txKey i txn.toNat;
      let odd (u : State) (a : Nat) : State := loseTx k t (v == 0#3) (packetOdd (headerOk u pk) c.toNat v.toNat a);
      serving s = true →
      tabFind s.vent.txs k = some t →
      t.init = i ∧ t.lost = false ∧ inOrder s k t = true →
      pk.herr ≠ 2 ∧ pk.odd = .reserved c v →
      (t.phase = .rsp → exec (.rsp i txn code line pk) s = .next (odd s (srcPort i))) ∧
        (t.phase = .pull → exec (.pull i txn pk) s = .next (odd (fromRemote s t.target 2 pk 1) (srcPort i))) ∧
        (t.phase = .data → cmdReads t.cmd = false → (dataOf t data).length = t.len → exec (.data i txn data poison up pk) s = .next (odd (fromLink s i 3 pk (1 + t.len)) t.at_)) ∧
        (v ≠ 0#3 → ∀ u, loseTx k t (v == 0#3) u = putTx u k { t with lost := true })) ∧
  (∀ (i : Init) (txn : BitVec 16) (data : List (BitVec 512)) (poison : Bool) (up : Fin 16) (pk : Pkt) (t : Tx) (s : State),
      let k := txKey i txn.toNat;
      let d := match i with | .ap _ | .eng _ _ | .dbg _ => t.data | _ => data;
      serving s = true →
      tabFind s.vent.txs k = some t →
      t.init = i ∧ t.phase = .data ∧ t.lost = false ∧ inOrder s k t = true →
      pk.herr ≠ 2 ∧ pk.odd = .fine →
      (cmdReads t.cmd = true → exec (.data i txn data poison up pk) s = .next (deliver (headerOk s pk) k t (if poison then rPoison else t.resp) (t.data.headD 0#512))) ∧
        (cmdReads t.cmd = false → d.length = t.len → exec (.data i txn data poison up pk) s = .next (writeAt (headerOk (fromLink s i 3 pk (1 + t.len)) pk) k t d poison up))) ∧
  (∀ (i : Init) (txn : BitVec 16) (t : Tx) (s : State),
      let k := txKey i txn.toNat;
      let d := srcPort i + t.cmd * 65536;
      let s1 := muteTx (logEvT s 0x2803 sevErr d t.tenant gatePort) k;
      let s2 := if (pointOf i).isSome then recordFault s1 t.tenant 3 d else s1;
      let t1 : Tx := { t with tracked := false, lost := false };
      serving s = true →
      tabFind s.vent.txs k = some t →
      t.init = i ∧ t.tracked = true →
      exec (.reqTimeout i txn) s = .next (deliver (txAnswer s2 k t1 rSlverr []) k { t1 with resp := rSlverr } rSlverr 0#512)) ∧
  (∀ (p : Fin 128) (id : BitVec 8) (resp : BitVec 4) (data : BitVec 512) (b : Inbound) (k : Nat) (t : Tx) (s : State),
      let s1 := setVent s { s.vent with inb := tabDel s.vent.inb (p * 256 + id.toNat) };
      serving s = true →
      partRuns s p = true →
      tabFind s.vent.inb (p * 256 + id.toNat) = some b →
      b.tx = some k ∧ tabFind s.vent.txs k = some t →
      exec (.apInboundAnswer p id resp data) s = .next (txAnswer s1 k t (if 10 ≤ resp.toNat then rSlverr else resp.toNat) [data &&& beMask t.cmd t.be])) ∧
  (∀ (point : Fin 224) (tenant : Fin 16) (addr : BitVec 52) (body : Mgmt) (pk : Pkt) (s : State),
      operating s = true →
      pk.herr ≠ 2 ∧ pk.odd = .fine →
      exec (.mgmt point tenant addr body pk) s = .next (match body with | .fetch => fetchReturn (headerOk s pk) point tenant addr.toNat | _ => headerOk s pk)) ∧
  (∀ (pt t a : Nat) (f : Fetch) (r : Route) (s : State),
      let v := { s.vent with fetch := s.vent.fetch.erase f };
      s.vent.fetch.find? (fun f => f.point == pt && f.tenant == t && f.addr == a && !f.absent) = some f →
      (f.stale = true → fetchReturn s pt t a = setVent s v) ∧ (f.stale = false → samFetch s t a = none → fetchReturn s pt t a = setVent s { v with fetch := { f with absent := true } :: v.fetch }) ∧
        (f.stale = false → samFetch s t a = some r → fetchReturn s pt t a = setVent s { v with cache := tabPut v.cache pt ((cacheOf r t :: tabGet v.cache pt []).take 16) })) ∧
  (∀ (s : State),
      let u := s.vent.inval.foldl invalDone s;
      s.vent.inval ≠ [] →
      exec .samInvalidateDone s = .next { u with vent := { u.vent with inval := [] }, ans := { answered := true, abort := 0#32, value := 0, total := 0 } }) ∧
  (∀ (s : State),
      operating s = true →
      ∃ t, exec .tokenBucketRefill s = .next t ∧ t.vent.tokLevel = (List.range 16).map (fun n => (n, min (oGet s (O_TB_BURST n)) (tabGet s.vent.tokLevel n 65535 + tabGet s.vent.rate n 0))) ∧
        (∀ n < 16, tabGet t.vent.rate n 0 = oGet s (O_TB_RATE n)) ∧ t.obj = s.obj ∧ t.eng = s.eng ∧ t.fuse = s.fuse ∧ t.vent.txs = s.vent.txs)

/-- Rows TENANT_RESET_DRAIN_DONE, TENANT_RESET_WIPE_DONE, REASSIGN_START and OWNER_CHANGE: draining completes every transaction of the tenant's resources and wipes them; the wipe's end closes the reset with event 0x2902; a held reassignment starts by refusing, discarding what is answered late, abandoning a POWER_OFF in progress and advancing the resource's epoch; the owner changes after drain and wipe. The model's choice: with no command between a reassignment's drain and its wipe, OWNER_CHANGE brings both where no idle step has (log entry 91). -/
def Obligations.TenantTreatment : Prop :=
  (∀ (n : Fin 16) (x : TenReset) (s : State),
      let s1 := drainWipe s (partsOf s n) (engsOf s n);
      tabFind s.ten.resets n = some x →
      x.step = 3 →
      exec (.tenantResetDrainDone n) s = .next { s1 with ten := { s.ten with resets := tabPut s.ten.resets n { x with step := 5 } } }) ∧
  (∀ (n : Fin 16) (x : TenReset) (s : State),
      tabFind s.ten.resets n = some x →
      x.step = 5 →
      exec (.tenantResetWipeDone n) s = .next (logEvT { s with ten := { s.ten with resets := tabDel s.ten.resets n } } 0x2902 sevInfo x.source n 0xFFFF)) ∧
  (∀ (k : Fin 896) (x : Reassign) (s : State),
      let ps := if k.val < 128 then [k.val] else [];
      let es := if k.val < 128 then [] else [k.val - 128];
      let s1 : State := { s with ten := { s.ten with reassign := tabPut s.ten.reassign k { owner := x.owner, step := 3 } } };
      tabFind s.ten.reassign k = some x →
      x.step = 0 →
      reassignBlocked s k x.owner = false →
      exec (.reassignStart k) s = .next (advanceEpochs { s1 with vent := { s1.vent with txs := orphan ps es s1.vent.txs }, eng := abandonOff es s.eng } ps es)) ∧
  (∀ (k : Fin 896) (x : Reassign) (s : State),
      let ps := if k.val < 128 then [k.val] else [];
      let es := if k.val < 128 then [] else [k.val - 128];
      let s1 : State := if x.step = 3 then { drainWipe s ps es with ten := { s.ten with reassign := tabPut s.ten.reassign k { x with step := 5 } } } else s;
      let soft := if k.val < 128 then s1.vent.soft.filter (fun b => b.2 != k.val) else s1.vent.soft;
      tabFind s.ten.reassign k = some x →
      x.step ≠ 0 →
      exec (.ownerChange k) s = .next (oSet { s1 with ten := { s1.ten with reassign := tabDel s1.ten.reassign k }, vent := { s1.vent with soft := soft } } (ownerKey k) x.owner))

/-- Rows SNP_INV and SNP_DATA (to a CXL port and to a guest gate), SRSP_I, SRSP_S, SRSP_I_DATA, SRSP_S_DATA and HOST_BIRSP for an open snoop (the flow ends with its last answer), SNOOP_TIMEOUT, LINE_FLOW_RESUME, HSNP_INV, HSNP_DATA, HSNP_CUR and HOST_QUOTA_EVICTION_DONE. A response that is none of an open snoop is discarded; a flow that found no way in its set tries again; the port drops what a host sends in the insecure state. -/
def Obligations.SnoopFlows : Prop :=
  (∀ (a : Fin 6) (line : BitVec 46) (pk : Pkt) (f : Flow) (s : State),
      let s1 := headerOk (setFlow s line.toNat { f with toSend := setBit f.toSend a false, sent := setBit f.sent a true }) pk;
      let n (b : Bool) : Snoop := { inv := b, line := line.toNat, txn := f.trk, tenant := 0, epoch := 0 };
      let out (b : Bool) : State := if a.val < 4 then setCxl s1 a { cxl s1 a with bi := some (n b) } else setGate s1 (a - 4) { gate s1 (a - 4) with snp := some (n b) };
      operating s = true →
      tabFind s.hub.flows line.toNat = some f →
      f.toSend.getLsbD a = true →
      pk.herr ≠ 2 ∧ pk.odd = .fine →
      (f.inv = true → exec (.snpInv a line pk) s = .next (out true)) ∧ (f.inv = false → exec (.snpData a line pk) s = .next (out false))) ∧
  (∀ (a : Fin 6) (line : BitVec 46) (txn : BitVec 16) (data : BitVec 512) (pk : Pkt) (f : Flow) (s : State),
      let s1 := headerOk s pk;
      let f1 (shared : Bool) (d : Option (BitVec 512)) : Flow := { f with sent := setBit f.sent a false, toSend := setBit f.toSend a false, kept := if shared && !f.inv then setBit f.kept a true else f.kept, dirty := d.orElse fun _ => f.dirty };
      let t (shared : Bool) (d : Option (BitVec 512)) : State := if (f1 shared d).sent = 0#6 && (f1 shared d).toSend = 0#6 then finishFlow s1 (f1 shared d) else setFlow s1 line.toNat (f1 shared d);
      tabFind s.hub.flows line.toNat = some f →
      f.sent.getLsbD a = true ∧ f.trk = txn →
      pk.herr ≠ 2 ∧ pk.odd = .fine →
      exec (.srspI a line txn pk) s = .next (t false none) ∧ exec (.srspS a line txn pk) s = .next (t true none) ∧
        exec (.srspIData a line txn data pk) s = .next (t false (some data)) ∧ exec (.srspSData a line txn data pk) s = .next (t true (some data))) ∧
  (∀ (a : Fin 6) (line : BitVec 46) (txn : BitVec 16) (data : BitVec 512) (pk : Pkt) (s : State),
      let s1 := headerOk s pk;
      (match tabFind s.hub.flows line.toNat with | some f => f.sent.getLsbD a && f.trk == txn | none => false) = false →
      pk.herr ≠ 2 ∧ pk.odd = .fine →
      exec (.srspI a line txn pk) s = .next s1 ∧ exec (.srspS a line txn pk) s = .next s1 ∧
        exec (.srspIData a line txn data pk) s = .next s1 ∧ exec (.srspSData a line txn data pk) s = .next s1) ∧
  (∀ (a : Fin 6) (p : Fin 4) (line : BitVec 46) (txn : BitVec 16) (data : BitVec 512) (pk : Pkt) (s : State),
      let lost := headerBad s pk 2 (agentPort a) (linePort line.toNat);
      let lostH := headerBad s pk 1 (cxlPort p) (slicePort (hostSlice p (line.toNat * 64)));
      pk.herr = 2 →
      exec (.srspI a line txn pk) s = .next lost ∧ exec (.srspS a line txn pk) s = .next lost ∧
        exec (.srspIData a line txn data pk) s = .next lost ∧ exec (.srspSData a line txn data pk) s = .next lost ∧
        (cxlLive s p = true → (cxl s p).insecure = false → exec (.hsnpInv p line pk) s = .next lostH ∧ exec (.hsnpData p line pk) s = .next lostH ∧ exec (.hsnpCur p line pk) s = .next lostH)) ∧
  (∀ (p : Fin 4) (line : BitVec 46) (txn : BitVec 16) (shared : Bool) (data : Option (BitVec 512)) (f : Flow) (s : State),
      let x := cxl s p;
      let s1 := setCxl s p { x with fold := tabDel x.fold line.toNat };
      let d := data.orElse fun _ => tabFind x.fold line.toNat;
      let f1 : Flow := { f with sent := setBit f.sent p false, toSend := setBit f.toSend p false, kept := if shared && !f.inv then setBit f.kept p true else f.kept, dirty := d.orElse fun _ => f.dirty };
      x.insecure = false →
      tabFind s.hub.flows line.toNat = some f →
      f.sent.getLsbD p = true ∧ f.trk = txn →
      exec (.hostBirsp p line txn shared data) s = .next (if f1.sent = 0#6 && f1.toSend = 0#6 then finishFlow s1 f1 else setFlow s1 line.toNat f1)) ∧
  (∀ (p : Fin 4) (line : BitVec 46) (txn : BitVec 16) (shared : Bool) (data : Option (BitVec 512)) (s : State),
      (cxl s p).insecure = true →
      exec (.hostBirsp p line txn shared data) s = .next s) ∧
  (∀ (a : Fin 6) (line : BitVec 46) (f : Flow) (s : State),
      let owns := f.owned && f.pres.getLsbD a;
      let s1 := if a.val < 4 then oBump (setCxl s a { cxl s a with fold := tabDel (cxl s a).fold line.toNat }) (O_SNOOP_FAILS a) 1 (2 ^ 32 - 1) else setGate s (a - 4) { gate s (a - 4) with snoopFails := min ((gate s (a - 4)).snoopFails + 1) (2 ^ 32 - 1) };
      let s2 := logEv s1 0x2904 sevErr (a + if owns then 256 else 0);
      tabFind s.hub.flows line.toNat = some f →
      f.sent.getLsbD a = true →
      exec (.snoopTimeout a line) s = .next (snoopAnswer (if owns then poisonLine (logEv s2 0x2905 sevErr (a + 256)) line.toNat (a + 256) else s2) a line.toNat false none)) ∧
  (∀ (line : BitVec 46) (r : FlowReq) (q : List FlowReq) (s : State),
      operating s = true →
      tabFind s.hub.flows line.toNat = none →
      tabGet s.hub.waiting line.toNat [] = r :: q →
      (ddrHeld s r.ref.chan r.ref.n = false ∨ (sliceGet s line.toNat).isSome = true) →
      exec (.lineFlowResume line) s = .next (beginFlow { s with hub := { s.hub with waiting := tabSet s.hub.waiting line.toNat q [] } } r)) ∧
  (∀ (line : BitVec 46) (f : Flow) (s : State),
      operating s = true →
      tabFind s.hub.flows line.toNat = some f →
      exec (.lineFlowResume line) s = .next (if f.noWay = true ∧ f.toSend = 0#6 then finishFlow s { f with noWay := false } else s)) ∧
  (∀ (p : Fin 4) (line : BitVec 46) (pk : Pkt) (h : HostLine) (s : State),
      let s1 := headerOk s pk;
      let r := s.hub.hlines.filter fun x => !(x.port == p.val && x.line == line.toNat);
      let t (l : List HostLine) (kind : Nat) : State := setCxl { s1 with hub := { s.hub with hlines := l } } p { cxl s p with hsnp := { hit := true, dirty := h.dirty, kept := kind, data := if h.dirty then h.data else 0#512, poison := h.dirty && h.poison } };
      operating s = true ∧ s.hub.cxlUp.getLsbD p = true ∧ (cxl s p).insecure = false →
      hostFind s p line.toNat = some h →
      pk.herr ≠ 2 ∧ pk.odd = .fine →
      exec (.hsnpInv p line pk) s = .next (t r 0) ∧ exec (.hsnpData p line pk) s = .next (t ({ h with dirty := false, excl := false } :: r) 1) ∧
        exec (.hsnpCur p line pk) s = .next (t s.hub.hlines 2)) ∧
  (∀ (q : Nat) (s : State),
      let s1 := hostTrim s q s.hub.hlines.length;
      s.hub.evicting = some q →
      exec .hostQuotaEvictionDone s = .next { oSet { s1 with hub := { s1.hub with quota := q, evicting := none } } O_HOST_QUOTA_MIB q with ans := { answered := true, abort := 0#32, value := 0, total := 0 } })

/-- Rows CXL_MEMRD, CXL_MEMWR and CXL_IO_REQUEST on a live port: a request that a committed decoder covers is handed on with the flow R483 gives its opcode (a line of an HDM-H decoder is never recorded), one that none covers is refused as R494 says. IDENTIFY_MEMORY_DEVICE, GET_HEALTH_INFO, GET_EVENT_RECORDS, CLEAR_EVENT_RECORDS and GET_POISON_LIST are answered on a Type 3 port with a payload that the spec does not give (a free value). HDM_DECODER_COMMIT commits or refuses with event 0x290B. -/
def Obligations.HostRequests : Prop :=
  (∀ (p : Fin 4) (tag : BitVec 16) (dpa : BitVec 52) (snp : Fin 4) (bad : Bool) (up : Fin 16) (s : State),
      let q (k : FlowKind) : HostReq := { port := p, tag := tag.toNat, addr := hostAddr s p (dpa.toNat / 64 * 64), kind := k, io := false, data := 0#512, mask := ~~~0#512, up := up.val };
      memOpen s p = true →
      exec (.cxlMemrd p tag dpa snp bad up) s = .next (match hdmFind (cxl s p) dpa.toNat with | none => hostRefused s (q .rdCur) | some d => hostRequest s (q (if d.db = true ∧ snp.val = 1 then .rdOwn else if d.db = true ∧ snp.val = 2 then .rdShared else .rdCur)) bad)) ∧
  (∀ (p : Fin 4) (tag : BitVec 16) (dpa : BitVec 52) (mv : Fin 3) (be : BitVec 64) (data : BitVec 512) (bad : Bool) (up : Fin 16) (s : State),
      let q (rec_ : Bool) : HostReq := { port := p, tag := tag.toNat, addr := hostAddr s p (dpa.toNat / 64 * 64), kind := .hostWrite mv rec_, io := false, data := data, mask := BitVec.ofNat 512 (byteMask 64 be.toNat), up := up.val };
      memOpen s p = true →
      exec (.cxlMemwr p tag dpa mv be data bad up) s = .next (match hdmFind (cxl s p) dpa.toNat with | none => hostRefused s (q true) | some d => hostRequest s (q d.db) bad)) ∧
  (∀ (p : Fin 4) (tag : BitVec 16) (write : Bool) (x : BitVec 52) (be : BitVec 64) (data : BitVec 512) (up : Fin 16) (s : State),
      let q : HostReq := { port := p, tag := tag.toNat, addr := hostAddr s p (x.toNat / 64 * 64), kind := if write then .hostWrite 0 false else .rdCur, io := true, data := data, mask := BitVec.ofNat 512 (byteMask 64 be.toNat), up := up.val };
      cxlLive s p = true →
      exec (.cxlIoRequest p tag write x be data up) s = .next (if oGet s (O_PORT_MODE p) = 4 ∧ 2 ^ oGet s (O_PCIE_BAR2_LOG2 p) ≤ x.toNat then hostRefused s q else hostRequest s q false)) ∧
  (∀ (p : Fin 4) (s : State),
      let t (cmd : Nat) : State := freeStep (setCxl s p { cxl s p with mbox := some (cmd, s.freeCtr) });
      cxlLive s p = true →
      oGet s (O_PORT_MODE p) = 3 →
      exec (.identifyMemoryDevice p) s = .next (t 0) ∧ exec (.getHealthInfo p) s = .next (t 1) ∧ exec (.getEventRecords p) s = .next (t 2) ∧
        exec (.clearEventRecords p) s = .next (t 3) ∧ exec (.getPoisonList p) s = .next (t 4)) ∧
  (∀ (p : Fin 4) (dec : Fin 8) (db : Bool) (base size : BitVec 52) (ways : Fin 5) (gran : Fin 7) (s : State),
      let x := cxl s p;
      let refuse := (db && !x.flit256) || hdmOverlap s p base.toNat size.toNat db;
      let s1 := setCxl s p { x with decoders := tabPut x.decoders dec { committed := !refuse, error := refuse, db := db, base := base.toNat, size := size.toNat, ways := ways.val, gran := gran.val } };
      cxlLive s p = true →
      (oGet s (O_PORT_MODE p) = 3 ∨ (oGet s (O_PORT_MODE p) = 2 ∧ db = true)) →
      exec (.hdmDecoderCommit p dec db base size ways gran) s = .next (if refuse then cxlEv s1 0x290B sevWarn (p * 65536 + dec) p else s1))

/-- Rows CXL_LINK_UP, CXL_LINK_DOWN, CXL_LINK_RETRAIN, CXL_LINK_RETRAIN_DONE and IDE_MAC_FAIL, what each leaves on the port; GG_LINK_UP, GG_QUARANTINE_WALK_DONE, and IO_RD, IO_WR and the CC requests of a guest: a request that finds its tokens in the gate's bucket and a window of the gate that covers it with the permissions and the class it needs goes on as the window's tenant, in two parts where it covers two lines; one without tokens is a violation of reason 4, one that no window covers of reason 1, without a permission of reason 2, of a class the window does not admit of reason 3; while STANDBY is being entered, or with the gate's clock disabled, it is answered GATED. -/
def Obligations.LinksAndGuests : Prop :=
  (∀ (p : Fin 4) (rate : BitVec 3) (width : BitVec 5) (f l i : Bool) (s : State),
      let s1 : State := { s with hub := { s.hub with cxlUp := setBit s.hub.cxlUp p true } };
      let s2 := setCxl s1 p { cxl s1 p with rate := rate.toNat, width := width.toNat, flit256 := f, lopt := l, ideLink := i, retrain := false, insecure := false, ideMem := false, wait := [], decoders := (cxl s1 p).decoders.filter fun d => f || !d.2.db };
      operating s = true ∧ enabled s (unCxl p) = true →
      oGet s (O_PORT_MODE p) ≠ 0 ∧ s.hub.cxlUp.getLsbD p = false →
      (1 ≤ rate.toNat ∧ rate.toNat ≤ oGet s (O_PORT_MAX_RATE p) ∧ (f = true ∨ (l = false ∧ rate.toNat ≤ 5))) →
      cxlRefOk s p = true →
      ((width = 4#5 ∨ width = 8#5 ∨ width = 16#5) ∧ width.toNat ≤ oGet s (O_PORT_MAX_WIDTH p)) →
      exec (.cxlLinkUp p rate width f l i) s = .next (cxlEv s2 0x2908 sevInfo (p * 65536 + rate.toNat * 256 + width.toNat) p)) ∧
  (∀ (p : Fin 4) (s : State),
      s.hub.cxlUp.getLsbD p = true →
      exec (.cxlLinkDown p) s = .next (cxlDown s p)) ∧
  (∀ (p : Fin 4) (s : State),
      cxlLive s p = true →
      exec (.cxlLinkRetrain p) s = .next (setCxl s p { cxl s p with retrain := true })) ∧
  (∀ (p : Fin 4) (s : State),
      let x := cxl s p;
      cxlLive s p = true →
      x.retrain = true →
      exec (.cxlLinkRetrainDone p) s = .next (x.wait.foldl (fun a h => answerHost a p h) (setCxl s p { x with retrain := false, wait := [] }))) ∧
  (∀ (p : Fin 4) (lines : List (BitVec 46)) (s : State),
      let d := p * 65536 + lines.length;
      let s1 := setCxl s p { cxl s p with insecure := true, ideMem := false };
      cxlLive s p = true →
      (cxl s p).ideMem = true →
      lines.length ≤ 32 →
      exec (.ideMacFail p lines) s = .next (cxlEv (poisonReads (poisonWrites (lines.foldl (fun a l => poisonLine a l.toNat d) s1) p lines) p) 0x290A sevErr d p)) ∧
  (∀ (g : Fin 2) (s : State),
      operating s = true ∧ enabled s (unGuest g) = true →
      gateState s g = 1 →
      exec (.ggLinkUp g) s = .next (oSet s (O_GG_STATE g) 2)) ∧
  (∀ (g : Fin 2) (s : State),
      let d := dropAgent s (4 + g);
      let n := d.2 + (gate s g).lost;
      let s1 := if n = 0 then d.1 else logEv d.1 0x2905 sevErr (4 + g + min n 0xFFFF * 256);
      gateState s g = 3 →
      (gate s g).walked = false →
      exec (.ggQuarantineWalkDone g) s = .next (setGate s1 g { gate s1 g with walked := true })) ∧
  (∀ (g : Fin 2) (tag : BitVec 16) (a : BitVec 52) (len : Fin 65) (line : BitVec 46) (data : BitVec 512) (dirty : Bool) (up : Fin 16) (s : State),
      let raw (w : Nat) : Nat := oGet s (if g.val = 0 then O_GG0_WINDOW w else O_GG1_WINDOW w);
      let goes (q : GuestReq) : State := if (gate s g).tokens < q.flits * (guestParts q).length then violation s g tag.toNat q.cls 0x7F 4 else match ggFind s g q.addr q.len with | none => violation s g tag.toNat q.cls 0x7F 1 | some w => if (q.needR = true ∧ (raw w).testBit 127 = false) ∨ (q.needW = true ∧ (raw w).testBit 126 = false) ∨ (q.needC = true ∧ (raw w).testBit 125 = false) then violation s g tag.toNat q.cls w 2 else if (raw w).testBit (112 + q.cls) = false then violation s g tag.toNat q.cls w 3 else (guestParts q).foldl (fun b p => guestRun b g (raw w % 16) (if (guestParts q).length = 1 then .guest g tag.toNat else .half g tag.toNat) p) s;
      let out (q : GuestReq) : State := if entering s = true then answerGuest s g { tag := tag.toNat, resp := rGated } else if enabled s (unGuest g) = false then answerGuest (answerGated s (unGuest g)) g { tag := tag.toNat, resp := rGated } else goes q;
      serving s = true →
      gateState s g = 2 →
      flowsOf s (isGuest g) < 128 →
      outsideFree s (.gate g 0) = true →
      exec (.ioRd g tag a len up) s = .next (out { cls := 0, needR := true, needW := false, needC := false, addr := a.toNat, len := len, kind := .devRead, data := 0#512, flits := 1, up := up }) ∧
        exec (.ioWr g tag a len data up) s = .next (out { cls := 1, needR := false, needW := true, needC := false, addr := a.toNat, len := len, kind := .devWrite, data := data, flits := 2, up := up }) ∧
        exec (.ccRdCur g tag line up) s = .next (out { cls := 2, needR := true, needW := false, needC := false, addr := line.toNat * 64, len := 64, kind := .rdCur, data := 0#512, flits := 1, up := up }) ∧
        exec (.ccRdShared g tag line up) s = .next (out { cls := 3, needR := true, needW := false, needC := true, addr := line.toNat * 64, len := 64, kind := .rdShared, data := 0#512, flits := 1, up := up }) ∧
        exec (.ccRdOwn g tag line up) s = .next (out { cls := 4, needR := true, needW := true, needC := true, addr := line.toNat * 64, len := 64, kind := .rdOwn, data := 0#512, flits := 1, up := up }) ∧
        exec (.ccWr g tag line data up) s = .next (out { cls := 5, needR := false, needW := true, needC := false, addr := line.toNat * 64, len := 64, kind := .guestWrite, data := data, flits := 2, up := up }) ∧
        exec (.ccEvict g tag line dirty data up) s = .next (out { cls := 6, needR := false, needW := dirty, needC := true, addr := line.toNat * 64, len := 64, kind := .guestEvict dirty, data := data, flits := if dirty then 2 else 1, up := up })) ∧
  (∀ (q : GuestReq),
      q.len ≤ 64 →
      (guestParts q).length ≤ 2 ∧ ((q.addr % 64 + q.len ≤ 64) → guestParts q = [q]) ∧ ((guestParts q).map (·.len)).sum = q.len ∧ (∀ p ∈ guestParts q, p.addr % 64 + p.len ≤ 64))

/-- Rows DDR_SIZING_DONE (nothing found leaves the channel as it is; a failure of step 1 or 2 fails the channel with that step; DIMMs give the sizing word of R527), DDR_ATTEMPT_DONE (a pass ends the attempts; of a failing run the stored attempt is followed by full training, the first and second by one at the next rate with event 0x2A03, the third fails the channel with step 3 or 4) and DDR_CHANNEL_READY (the regions begin anew unless the reset kept the DDR key, which has the region table read, and event 0x2A01 tells how; where the region that was walked is lost with its record the next queued one starts). That an attempt which cannot complete ends as one whose check fails is the model's reading (log entry 15). Rows TRAINING_AREA_STORE and TRAINING_AREA_STORE_DONE: a store that is due begins; its end writes the area's header and the records of the trained channels, and clears what made the store due. The results themselves are opaque (log entry 9). -/
def Obligations.ChannelTraining : Prop :=
  (∀ (c : Fin 16) (second : Bool) (d : Fin 3) (x8 r2 n2 : Bool) (s : State),
      ddrTrains s c = true ∧ chanState s c = 0 →
      (chan s c).stage = 0 ∧ (chan s c).kept = false ∧ (chan s c).sized = false →
      exec (.ddrSizingDone c .empty) s = .next (setChan s c { chan s c with sized := true }) ∧
        exec (.ddrSizingDone c (.fails second)) s = .next (chanFail s c (if second then 2 else 1)) ∧
        exec (.ddrSizingDone c (.dimms d x8 r2 n2)) s = .next (sizingDone s c (512 * (d + 1) + (if x8 then 256 else 0) + (if r2 then 32 else 16) + (if n2 then 2 else 1)))) ∧
  (∀ (c : Fin 16) (code : Nat) (s : State),
      let d := c * 65536 + code;
      let x := chan s c;
      let s1 := ddrEv (oSet (setChan s c { beyond := x.beyond, corrMark := x.corrMark, full := x.full, sized := true, recs := x.recs, regions := x.regions.map fun g => (g.1, { epoch := g.2.epoch }) }) (O_CHAN_STATE c) 3) 0x2A02 sevErr d c;
      chanFail s c code = (chanOwners s1 c).foldl (fun a n => recordFault a n 4 d) s1) ∧
  (∀ (c : Fin 16) (s : State),
      let x := chan s c;
      let rate := nextRate (szDimms (oGet s (O_DDR_SIZING c))) (oGet s (O_DDR_RATE c));
      ddrTrains s c = true ∧ chanState s c = 1 ∧ x.stage = 1 →
      exec (.ddrAttemptDone c .pass) s = .next (setChan s c { x with stage := 2 }) ∧
        (x.attempt = 0 → exec (.ddrAttemptDone c .margin) s = .next (fullTraining (if x.kept then s else ddrEv s 0x2A04 sevWarn (c * 65536 + 3) c) c)) ∧
        (1 ≤ x.attempt ∧ x.attempt < 3 → exec (.ddrAttemptDone c .margin) s = .next (ddrEv (oSet (setChan s c { x with attempt := x.attempt + 1 }) (O_DDR_RATE c) rate) 0x2A03 sevWarn (c * 65536 + rate) c)) ∧
        (3 ≤ x.attempt → exec (.ddrAttemptDone c .margin) s = .next (chanFail s c 4) ∧ exec (.ddrAttemptDone c .incomplete) s = .next (chanFail s c 3))) ∧
  (∀ (c : Fin 16) (bad : List (Fin 512)) (s : State),
      let x := chan s c;
      let d := c * 65536 + oGet s (O_DDR_RATE c) * 256 + (if x.usesStored then 1 else 0) + (if x.kept then 2 else 0);
      let gs := x.recs.map fun v => (v.1, readRec s c v.1 v.2);
      let queued := (gs.filter fun g => g.2.state == 1).map (·.1);
      let y := if s.ddr.keyKept then bad.foldl (fun a r => badRecord a r.val s.freeCtr) { x with regions := gs, walk := (gs.find? fun g => 2 ≤ g.2.state).map (·.1), queue := x.queue.filter queued.contains ++ queued.filter fun r => !x.queue.contains r } else { x with regions := [], recs := [], queue := [], walk := none, deriving_ := false, lines := [], counters := [], tags := [], ccache := [] };
      let s1 := freeStep (setChan s c { y with stage := 0, resetN := true });
      let s2 := oSet s1 O_TRAIN_STORED (oGet s1 O_TRAIN_STORED ||| (if x.usesStored && !x.kept then 2 ^ c.val else 0));
      let s3 := ddrEv (oSet s2 (O_CHAN_STATE c) 2) 0x2A01 sevInfo d c;
      ddrTrains s c = true ∧ chanState s c = 1 ∧ x.stage = 2 →
      exec (.ddrChannelReady c bad) s = .next (match (chan s3 c).walk, (chan s3 c).queue with | none, q :: rest => startWalk (setChan s3 c { chan s3 c with queue := rest }) c q | _, _ => s3)) ∧
  (∀ (s : State),
      trainStoreDue s = true →
      exec .trainingAreaStore s = .next { s with ddr := { s.ddr with storing := true } }) ∧
  (∀ (s : State) (f : FlashInfo) (d : Nat),
      s.ld.flash = some f ∧ s.ld.dir = some d →
      s.ddr.storing = true →
      ∃ t g, exec .trainingAreaStoreDone s = .next t ∧ t.ld = { s.ld with flash := some g } ∧ t.ddr.storing = false ∧ t.ddr.limitsWritten = false ∧ t.ddr.key = s.ddr.key ∧ t.obj = s.obj ∧ t.eng = s.eng ∧ t.fuse = s.fuse ∧ t.hub = s.hub ∧ t.pending = s.pending)

/-- Rows DDR_ALERT (the third failed replay within 1 ms is the last: the next alert fails the channel), DDR_ALERT_RELEASE, DDR_PAGE_IDLE_CLOSE, DDR_REFRESH_DUE (a further interval is owed by each bank index, the model's reading, log entry 100; at four the all-bank refresh is forced; while ALERT_n is low or the controller gated no refresh is issued), DDR_MR4_POLL (event 0x2A0D on a change), DDR_CORRECTION_WRITEBACK (unless the line has been written since), DDR_PATROL_READ, DDR_KEY_DERIVED and DDR_WALK_UNIT (the counter line is looked up, 32 lines are read and converted, their counters begin anew; the walk ends with the region's last; the region's record is rewritten each 2^20 lines). -/
def Obligations.ChannelHappenings : Prop :=
  (∀ (c : Fin 16) (s : State),
      let x := chan s c;
      clocked s = true ∧ chanState s c = 2 ∧ x.alert = false →
      exec (.ddrAlert c) s = .next (if x.replays = 3 ∧ s.fw.dtime ≤ x.replayAt + 1000000 then chanFail s c 0x10 else setChan s c { x with alert := true })) ∧
  (∀ (c : Fin 16) (s : State),
      let x := chan s c;
      let w := 0 < x.replays ∧ s.fw.dtime ≤ x.replayAt + 1000000;
      let n := if w then x.replays + 1 else 1;
      clocked s = true ∧ x.alert = true →
      exec (.ddrAlertRelease c) s = .next (ddrEv (setChan s c { x with alert := false, replays := n, replayAt := if w then x.replayAt else s.fw.dtime }) 0x2A0E sevErr (c * 65536 + n % 4) c)) ∧
  (∀ (c : Fin 16) (bank : BitVec 8) (s : State),
      chanWorks s c = true →
      exec (.ddrPageIdleClose c bank) s = .next (setChan s c { chan s c with rows := tabDel (chan s c).rows bank.toNat })) ∧
  (∀ (c : Fin 16) (rank : Fin 4) (pays : List (Fin 4)) (s : State),
      let z := oGet s (O_DDR_SIZING c);
      let y := { chan s c with owed := (List.range 4).foldl (fun t b => tabPut t (4 * rank + b) (owedAt (chan s c) rank b + 1)) (chan s c).owed };
      let w := pays.foldl (fun a b => refreshBank a rank b.val) y;
      let s1 := setChan s c w;
      chanWorks s c = true →
      rank.val < szDimms z * szRanks z →
      exec (.ddrRefreshDue c rank pays) s = .next (if (List.range 4).any (fun b => 8 ≤ owedAt w rank b) = true then forcedRefab s1 c rank else s1)) ∧
  (∀ (c : Fin 16) (rank : Fin 4) (pays : List (Fin 4)) (s : State),
      let z := oGet s (O_DDR_SIZING c);
      clocked s = true ∧ chanState s c = 2 →
      chanWorks s c = false →
      rank.val < szDimms z * szRanks z →
      exec (.ddrRefreshDue c rank pays) s = .next (setChan s c { chan s c with owed := (List.range 4).foldl (fun t b => tabPut t (4 * rank + b) (owedAt (chan s c) rank b + 1)) (chan s c).owed })) ∧
  (∀ (c : Fin 16) (doubled : BitVec 4) (s : State),
      let z := oGet s (O_DDR_SIZING c);
      let on := doubled.toNat % 2 ^ (szDimms z * szRanks z) != 0;
      let old := oGet s O_REFRESH_2X;
      chanWorks s c = true →
      exec (.ddrMr4Poll c doubled) s = .next (if old.testBit c.val = on then s else ddrEv (oSet s O_REFRESH_2X (old ^^^ 2 ^ c.val)) 0x2A0D sevInfo (c * 65536 + if on then 1 else 0) c)) ∧
  (∀ (c : Fin 16) (line : BitVec 33) (l : DdrLine) (s : State),
      let x := chan s c;
      chanWorks s c = true →
      x.back.contains line.toNat = true →
      tabFind x.lines line.toNat = some l →
      exec (.ddrCorrectionWriteback c line) s = .next (setChan s c { x with back := x.back.filter (· != line.toNat), lines := tabPut x.lines line.toNat { l with err := if l.err = 1 then 0 else l.err } })) ∧
  (∀ (c : Fin 16) (found : Fin 4) (s : State),
      let m := chanLines s c;
      let pos := (chan s c).patrol;
      let s1 := if pos < m then (ddrRead (counterTouch s c (pos / 32) false 0) c pos found 0).1 else if pos < m + m / 32 then counterRead s c (pos - m) found else if found = 1 then eccCorrected s c else if found = 0 then s else eccDetected s c pos;
      chanWorks s c = true ∧ oGet s O_PATROL_HOURS ≠ 0 →
      ddrHeld s c pos = false →
      exec (.ddrPatrolRead c found) s = .next (setChan s1 c { chan s1 c with patrol := if m + m / 32 + chanRegions s c ≤ pos + 1 then 0 else pos + 1 })) ∧
  (∀ (c : Fin 16) (s : State),
      chanWorks s c = true →
      exec (.ddrKeyDerived c) s = .next (setChan s c { chan s c with deriving_ := false })) ∧
  (∀ (c : Fin 16) (line : Fin 32) (u : Fin 16) (r : Nat) (s : State),
      let w := (region (chan s c) r).wm.getD 0;
      let n := r * 2 ^ 24 + w;
      let s0 := counterTouch s c (n / 32) true (u / 4);
      let s1 := (List.range 32).foldl (fun a i => convertLine a c (n + i) (if i = line then u % 4 else 0)) s0;
      let x := chan s1 c;
      let s2 := freeStep (setChan s1 c (putCounts (setRegion x r { region x r with wm := some (w + 32) }) (n / 32) ((List.range 32).map fun i => (n + i, 0#12))));
      chanWorks s c = true →
      (chan s c).walk = some r ∧ (chan s c).deriving_ = false →
      exec (.ddrWalkUnit c line u) s = .next (if regionLines s c r ≤ w + 32 then walkEnd s2 c r else if fld (tabGet x.recs r 0#512) 32 32 + 2 ^ 20 ≤ w + 32 then storeRec s2 c r else s2)) ∧
  (∀ (c : Fin 16) (n r : Nat) (s : State),
      let g := region (chan s c) r;
      g.epoch ≠ 0xFFFFFFFF#32 →
      (g.state = 0 ∧ (chan s c).walk = none → requestAdvance s c r = startWalk s c r) ∧
        (g.state = 0 ∧ (chan s c).walk = some n → requestAdvance s c r = setChan s c { setRegion (chan s c) r { g with state := 1, mark := false } with queue := (chan s c).queue ++ [r] }) ∧
        (g.state = 1 → requestAdvance s c r = s) ∧
        (g.state = 2 → requestAdvance s c r = setChan s c (setRegion (chan s c) r { g with state := 3 })))

/-- Rows LANE_ADAPTED (its receiver takes a step of adaptation unless RX_FREEZE holds it), LANE_PLL_UNLOCK (events and what the lane's user does), LANE_PLL_RELOCK, LANE_TX_WRITE (the queue of 64 words), LANE_TX_UNDERFLOW (the idle word, status bit 7, event 0x2B06 once; with the generator on too, the model's choice, log entry 101), LANE_RX_SLIP, LANE_SIGNAL_LOSS (status bit 6, event 0x2B07 of a fabric lane once), LANE_SIGNAL_RETURN (the word boundary is then a free value) and PRBS_LOCK (counts while locked). -/
def Obligations.LaneEvents : Prop :=
  (∀ (l : Fin 128) (s : State),
      let x := sline s l;
      let s1 := setLane (setStat s l (lStat s l ||| 0x1E#16)) l { x with adapt := if (oGet s (O_LANE_CTRL l)).testBit 7 then x.adapt else x.adapt + 1 };
      laneWorks s l = true ∧ laneAsked s l = true →
      (sline s l).pllLost = false →
      exec (.laneAdapted l) s = .next (if laneFree s l = true then oSet s1 (O_LANE_STATE l) 0 else s1)) ∧
  (∀ (l : Fin 128) (s : State),
      let s1 := setLane (setStat s l ((lStat s l &&& 0xFFE5#16) ||| 0x20#16)) l { sline s l with pllLost := true };
      let s2 := logEv s1 0x2B05 sevErr l;
      laneWorks s l = true ∧ laneNow s l ≠ 2 →
      (sline s l).pllLost = false →
      exec (.lanePllUnlock l) s = .next (match laneUser l with | .casc p => portDown s2 p 4 | .cxl p => (if s2.hub.cxlUp.getLsbD p then cxlDown s2 p else s2) | .fabric _ => s2)) ∧
  (∀ (l : Fin 128) (s : State),
      laneWorks s l = true →
      (sline s l).pllLost = true →
      exec (.lanePllRelock l) s = .next (setLane (setStat s l (lStat s l ||| 2#16)) l { sline s l with pllLost := false })) ∧
  (∀ (l : Fin 128) (w : BitVec 256) (s : State),
      laneLogic s l = true →
      exec (.laneTxWrite l w) s = .next (if 64 ≤ (sline s l).txq.length then s else setLane s l { sline s l with txq := (sline s l).txq ++ [w &&& onesBelow (slineBits s l)] })) ∧
  (∀ (l : Fin 128) (s : State),
      let s1 := setStat (laneSend s l (idleWord &&& onesBelow (slineBits s l))) l (lStat s l ||| 0x80#16);
      96 ≤ l.val ∧ laneWorks s l = true ∧ laneNow s l = 0 →
      (sline s l).pllLost = false ∧ (sline s l).txq = [] →
      exec (.laneTxUnderflow l) s = .next (if (lStat s l).getLsbD 7 = true then s1 else logEv s1 0x2B06 sevWarn l)) ∧
  (∀ (l : Fin 128) (early : Bool) (s : State),
      laneLogic s l = true ∧ laneNow s l = 0 →
      (lStat s l).getLsbD 2 = true →
      exec (.laneRxSlip l early) s = .next (if early then s else setLane s l { sline s l with slip := ((sline s l).slip + if 5 ≤ oGet s (O_LANE_RATE l) then 2 else 1) % slineBits s l })) ∧
  (∀ (l : Fin 128) (s : State),
      let s1 := setStat s l ((lStat s l &&& 0xFFF3#16) ||| 0x40#16);
      laneWorks s l = true →
      laneNow s l ≠ 2 →
      exec (.laneSignalLoss l) s = .next (if 96 ≤ l.val ∧ (lStat s l).getLsbD 6 = false then logEv s1 0x2B07 sevWarn l else s1) ∧
        exec (.laneSignalReturn l) s = .next (freeStep (setLane (setStat s l (lStat s l ||| 0xC#16)) l { sline s l with slip := Config.freeNat s.freeCtr % slineBits s l }))) ∧
  (∀ (l : Fin 128) (lock : Bool) (bits errs : BitVec 48) (s : State),
      let s1 := if (lStat s l).getLsbD 8 = true then oBump (oBump s (O_PRBS_BITS l) bits.toNat (2 ^ 48 - 1)) (O_PRBS_ERRORS l) errs.toNat (2 ^ 48 - 1) else s;
      (laneWorks s l = true ∧ (lock = false ∨ laneNow s l = 0)) →
      (oGet s (O_PRBS_CTRL l)).testBit 7 = true →
      exec (.prbsLock l lock bits errs) s = .next (setStat s1 l (setBit (lStat s1 l) 8 lock)))

/-- Rows CASC_PORT_START and CASC_PORT_RESTART (a wanted port begins step 1), CASC_PORT_DOWN, CAPS_FRAME (a bad CRC restarts the lane's count, a wrong lane number holds the port with reason 3, a valid frame is counted; one whose SYNC is inverted inverts the lane's receive polarity), EQ_FRAME, BRINGUP_RATE_SWITCH, BRINGUP_ADAPT_END and BRINGUP_MEASURE_END (pass, fall-back, one more try). -/
def Obligations.PortBringup : Prop :=
  (∀ (p : Fin 4) (s : State),
      let s1 := setBup s p { offer := oGet s (O_CASC_RATE_LIMIT p), downAt := (bup s p).downAt };
      let s2 := oSet (oSet (oSet s1 (O_CASC_TRAIN_STATE p) 1) (O_CASC_LINK_STATE p) 1) (O_CASC_LANE_FAIL p) 0xFF;
      let t := (portLanes p).foldl (fun a l => freeStep (setLane (oSet (oSet (laneSet a l 0) (O_LANE_RATE l) 1) (O_LANE_TXEQ l) 0x24F) l { sline (oSet (oSet (laneSet a l 0) (O_LANE_RATE l) 1) (O_LANE_TXEQ l) 0x24F) l with fill := prbsSeed 5 (Config.free 31 (oSet (oSet (laneSet a l 0) (O_LANE_RATE l) 1) (O_LANE_TXEQ l) 0x24F).freeCtr) })) s2;
      portWants s p = true →
      (trainState s p = 0 → exec (.cascPortStart p) s = .next t) ∧ (trainState s p = 5 → exec (.cascPortRestart p) s = .next t)) ∧
  (∀ (p : Fin 4) (r : Fin 5) (s : State),
      portsMay s = true →
      exec (.cascPortDown p r) s = .next (if r = 0 then portsSettle s else portDown s p r)) ∧
  (∀ (p : Fin 4) (lane : Fin 8) (f : BitVec 4) (x : BitVec 64) (inv : Bool) (s0 : State),
      let s := if inv then oSet s0 (O_LANE_CTRL (64 + 8 * p + lane)) (oGet s0 (O_LANE_CTRL (64 + 8 * p + lane)) ^^^ 4) else s0;
      let b := bup s p;
      let t := oSet (oSet s (O_CASC_TRAIN_STATE p) 1) (O_CASC_LANE_FAIL p) (setBit (BitVec.ofNat 8 (oGet s (O_CASC_LANE_FAIL p))) lane true).toNat;
      let fl := setBit (BitVec.ofNat 8 (oGet s (O_CASC_LANE_FAIL p))) lane false;
      let why := if bitsAt x.toNat 38 2 ≠ strapMode s then 1 else if bitsAt x.toNat 48 16 ≠ oGet s O_PART_ID % 65536 ∨ bitsAt x.toNat 40 8 ≠ 1 then 2 else 0;
      let b1 := { b with seen := if why = 0 then tabPut b.seen lane (tabGet b.seen lane 0 + 1) else [], ack := b.ack || (why == 0 && x.toNat.testBit 30) };
      let s2 := oSet (setBup (oSet (oSet s (O_CASC_LANE_FAIL p) fl.toNat) (O_CASC_PARTNER_CAPS p) x.toNat) p b1) (O_CASC_TRAIN_STATE p) (if fl = 0#8 then 2 else 1);
      (portsMay s0 = true ∧ (trainState s0 p = 1 ∨ trainState s0 p = 2)) →
      x.toNat % 2 ^ 24 = 0 →
      exec (.capsFrame p lane f x false inv) s0 = .next (setBup s p { b with seen := tabPut b.seen lane 0 }) ∧
        (f.toNat ≠ lane → exec (.capsFrame p lane f x true inv) s0 = .next (portHeld t p 3)) ∧
        (f.toNat = lane → exec (.capsFrame p lane f x true inv) s0 = .next (if why ≠ 0 then portHeld s2 p why else if b1.ack = true ∧ (List.range 8).all (fun k => 8 ≤ tabGet b1.seen k 0) = true ∧ b1.next = 0 then portStep (setBup s2 p { b1 with common := commonRates b1.offer x.toNat }) p else s2))) ∧
  (∀ (p : Fin 4) (lane : Fin 8) (x : BitVec 64) (s : State),
      let l := 64 + 8 * p.val + lane.val;
      let s1 := oSet s (O_LANE_TXEQ l) (tapsAfter (oGet s (O_LANE_TXEQ l)) (x.toNat % 256));
      let b := bup s1 p;
      let b1 := { b with partner := if bitsAt x.toNat 48 8 = 1 then (if lane = 0 then b.partner + 1 else b.partner) else 0 };
      let s2 := setBup s1 p b1;
      let n := bitsAt x.toNat 40 8;
      portsMay s = true ∧ trainState s p = 3 →
      bitsAt x.toNat 8 24 = 0 →
      exec (.eqFrame p lane (BitVec.ofNat 4 lane) x true) s = .next (if n ≠ 0 ∧ n < b.rate ∧ b.fallback = none then fallBack s2 p else if b.passed = true ∧ 4 ≤ (bup s2 p).partner ∧ b.next = 0 then portStep s2 p else s2)) ∧
  (∀ (p : Fin 4) (s : State),
      let b := bup s p;
      let s1 := oSet (setBup s p { b with rate := b.next, next := 0, measuring := b.fallback.isSome, failed := 0, passed := false, partner := 0 }) (O_CASC_TRAIN_STATE p) 3;
      (portsMay s = true ∧ (trainState s p = 2 ∨ trainState s p = 3)) →
      b.next ≠ 0 →
      exec (.bringupRateSwitch p) s = .next ((portLanes p).foldl (fun a l => if b.fallback.isSome = true then oSet (oSet a (O_LANE_RATE l) b.next) (O_LANE_TXEQ l) (tabGet b.taps l 0x24F) else oSet a (O_LANE_RATE l) b.next) s1)) ∧
  (∀ (p : Fin 4) (s : State),
      let b := bup s p;
      portsMay s = true ∧ trainState s p = 3 →
      b.next = 0 ∧ b.measuring = false ∧ b.passed = false →
      exec (.bringupAdaptEnd p) s = .next (setBup s p { b with measuring := true })) ∧
  (∀ (p : Fin 4) (errors bits : Nat) (s : State),
      let b := bup s p;
      let s1 := setBup s p { b with measuring := false, passed := true, taps := (portLanes p).map fun l => (l, oGet s (O_LANE_TXEQ l)) };
      let good := if b.rate < 5 then errors = 0 else errors * 100000 ≤ bits;
      portsMay s = true ∧ trainState s p = 3 →
      b.measuring = true →
      exec (.bringupMeasureEnd p errors bits) s = .next (if good then (if b.fallback.isSome = true then portUp s p else if 4 ≤ b.partner then portStep s1 p else s1) else if b.fallback.isSome = true then portDown s p 2 else if b.failed = 0 then setBup s p { b with measuring := false, failed := 1 } else fallBack s p))

/-- Rows CODEWORD_RECEIVE (one beyond correction or with a bad CRC leaves the sequence and marks the port; one out of sequence changes nothing but the count of corrections; the next one advances RXSEQ and COUNT, takes an ACK and the credits it returns, a buffer holding no more than it has room for, and a NAK replays), LINK_LOST_TIMEOUT (the port goes DOWN with reason 3), HELLO (the nonce is kept, COUNT restarts and KCONF is sent), KCONF (the right confirmation passes the checks; a wrong one refuses the link with event 0x2C03), REKEY and TWEAK_COUNT_LIMIT (the next session alone, COUNT at 0 in both directions; the limit sends REKEY, one at a time, and the session changes as it is sent). -/
def Obligations.CascadeLinks : Prop :=
  (∀ (p : Fin 4) (fec : Fin 3) (ok : Bool) (seq ack : BitVec 16) (ackv nak : Bool) (back : BitVec 80) (s : State),
      let s0 := if fec = 1 then oBump s (O_CASC_FEC_CORRECTED p) 1 (2 ^ 32 - 1) else s;
      let x := cport s0 p;
      let room := List.zipWith min [8, 8, 8, 8, 8, 8, 34, 34, 4, 4] (x.credits.mapIdx fun i n => n + bitsAt back.toNat (8 * i) 8);
      let s1 := setCport s0 p { x with bad := false, heard := true, rxSeq := seq.toNat, rxCount := x.rxCount + 1, txAck := if ackv then ack.toNat else x.txAck, credits := room };
      portsMay s = true ∧ trainState s p = 4 →
      exec (.codewordReceive p fec ok seq ackv ack nak back) s = .next (if fec = 2 ∨ ok = false then setCport s0 p { x with bad := true } else if seq.toNat ≠ (x.rxSeq + 1) % 65536 then s0 else if nak = true then linkReplay s1 p else s1)) ∧
  (∀ (p : Fin 4) (s : State),
      portsMay s = true ∧ trainState s p = 4 →
      exec (.linkLostTimeout p) s = .next (portDown s p 3)) ∧
  (∀ (p : Fin 4) (nonce : BitVec 64) (intact : Bool) (partner : Fin 6) (differ : BitVec 8) (s : State),
      let s0 := setCport s p { cport s p with peer := some nonce.toNat, txCount := 0, rxCount := 0 };
      let s1 := pushMsg s0 p 2 (keyConfirm s0 p (lowerEnd s0 p));
      let s2 := setTwin s1 { s1.twin with peerIntact := intact, partner := partner, windowsOk := differ == 0#8 };
      linkLive s p = true →
      oGet s (O_CASC_LINK_STATE p) = 2 →
      exec (.hello p nonce intact partner differ) s = .next (if strapMode s = 2 then (if differ = 0#8 then s2 else logEv s2 0x2C15 sevErr differ.toNat) else s1)) ∧
  (∀ (p : Fin 4) (v : BitVec 64) (s : State),
      let s1 := oSet s (O_CASC_LINK_STATE p) 3;
      linkLive s p = true →
      oGet s (O_CASC_LINK_STATE p) = 2 ∧ (cport s p).peer.isSome = true →
      exec (.kconf p v) s = .next (if v.toNat = keyConfirm s p (!lowerEnd s p) then (if strapMode s = 2 then twinLinkPassed s1 else setCasc s1 { s1.casc with allDown := none }) else linkRefused s p 0x2C03 (p * 65536))) ∧
  (∀ (p : Fin 4) (idx : BitVec 32) (s : State),
      let n := ((cport s p).session + 1) % 2 ^ 32;
      let s1 := pushMsg s p 3 n;
      linkChecked s p = true →
      portsMay s = true →
      exec (.rekey p idx) s = .next (if idx.toNat = n then setCport s p { cport s p with session := n, rxCount := 0, txCount := 0 } else s) ∧
        exec (.tweakCountLimit p) s = .next (if (cport s p).msgs.any (fun m => m.1 == 3) = true then s else s1))

/-- Rows ENUM_ROUND, ENUM, ENUM_ANSWER (an answer with a reason of R613 is reported with event 0x2C07, the others may be assigned), ASSIGN, ADMIT (on the master and on the device), MASTER_LOST_TIMEOUT (a member becomes MASTERLESS with event 0x2C04), TIME_PERIOD, TIME and TIME_ECHO. How strongly a member steers its clock is a free value (log entry 2). -/
def Obligations.CascadeMembership : Prop :=
  (∀ (s : State),
      let s1 := masterBack s;
      let m := oGet s1 O_CASC_MEMBERS;
      let s2 := setMembers (oSet s1 O_CASC_STATE 2) (if m.testBit 0 then m else m + 1);
      let m2 := oGet s2 O_CASC_MEMBERS;
      cascRuns s = true ∧ strapCascId s = 0 →
      (∃ p, p < 4 ∧ linkChecked s p = true) →
      exec .enumRound s = .next (setCasc s2 { s2.casc with polled := (List.range 16).foldl (fun b d => setBit b d (d < cascDx s2 * cascDy s2 && !m2.testBit d && routeWhole s2 5 0 d)) 0#16 })) ∧
  (∀ (s : State),
      cascRuns s = true →
      strapCascId s ≠ 0 ∧ oGet s O_CASC_STATE ≠ 0 →
      exec .enum s = .next (setCasc s { s.casc with answered := s.casc.answered + 1, answer := some { part := oGet s O_PART_ID, id := strapCascId s, dim := oGet s O_CASC_DIM, group := oGet s O_CASC_GROUP, lc := s.rst.lc.toNat, state := oGet s O_CASC_STATE, dtime := s.fw.dtime } })) ∧
  (∀ (dev : Fin 16) (part : BitVec 16) (id : BitVec 4) (dim : BitVec 8) (group : BitVec 64) (lc : BitVec 3) (st : BitVec 8) (t : BitVec 64) (s : State),
      let s0 := setCasc s { s.casc with polled := setBit s.casc.polled dev false };
      let s1 := if st = 3#8 then raiseDtime s0 dev t.toNat else s0;
      let why := enumReason s1 part.toNat id.toNat dim.toNat group.toNat lc.toNat;
      let s2 := if why = 0 then setCasc s1 { s1.casc with assigned := setBit s1.casc.assigned dev true } else logEv s1 0x2C07 sevWarn (dev * 256 + why);
      cascRuns s = true ∧ strapCascId s = 0 →
      s.casc.polled.getLsbD dev = true →
      exec (.enumAnswer dev part id dim group lc st t) s = .next (if s2.casc.polled = 0#16 then masterBack s2 else s2)) ∧
  (∀ (m : BitVec 16) (s : State),
      let s1 := setCasc s { s.casc with aligning := true, aligned := false, off20 := 0 };
      cascRuns s = true ∧ cascPlaced s = true →
      strapCascId s ≠ 0 →
      (oGet s O_CASC_STATE = 2 → exec (.assign m) s = .next (setMembers s m.toNat)) ∧
        ((oGet s O_CASC_STATE = 1 ∨ oGet s O_CASC_STATE = 3) → exec (.assign m) s = .next (setMembers s1 m.toNat))) ∧
  (∀ (dev : Fin 16) (s : State),
      let m := oGet s O_CASC_MEMBERS;
      let w := if m.testBit dev then m else m + 2 ^ dev.val;
      cascRuns s = true →
      strapCascId s = 0 ∧ s.casc.assigned.getLsbD dev = true →
      exec (.cascAdmit dev) s = .next (logEv (setMembers (setCasc s { s.casc with assigned := setBit s.casc.assigned dev false }) w) 0x2C01 sevInfo dev)) ∧
  (∀ (dev : Fin 16) (s : State),
      let m := oGet s O_CASC_MEMBERS;
      let w := if m.testBit dev then m else m + 2 ^ dev.val;
      cascRuns s = true ∧ strapCascId s ≠ 0 ∧ strapCascId s = dev →
      s.casc.aligning = true ∧ s.casc.aligned = true →
      exec (.cascAdmit dev) s = .next (logEv (setMembers (oSet (setCasc s { s.casc with aligning := false, aligned := false }) O_CASC_STATE 2) w) 0x2C01 sevInfo dev)) ∧
  (∀ (s : State),
      cascRuns s = true →
      strapCascId s ≠ 0 ∧ oGet s O_CASC_STATE = 2 →
      exec .masterLostTimeout s = .next (logEv (oSet (setCasc s { s.casc with steer := 0, off20 := 0 }) O_CASC_STATE 3) 0x2C04 sevErr ((parentPort s).getD 0))) ∧
  (∀ (s : State),
      cascRuns s = true →
      (oGet s O_CASC_STATE = 2 ∨ oGet s O_CASC_STATE = 3) →
      exec .timePeriod s = .next ((childrenOf s).foldl (fun a d => match cascNext a d with | some p => pushMsg a p 4 0 | none => a) (setCasc s { s.casc with timesSent := s.casc.timesSent + (childrenOf s).length }))) ∧
  (∀ (p : Fin 4) (t : BitVec 64) (s : State),
      cascRuns s = true ∧ linkChecked s p = true →
      parentPort s = some p.val →
      (s.casc.aligning = true ∨ oGet s O_CASC_STATE = 2) →
      exec (.time p t) s = .next (pushMsg (setCport s p { cport s p with timeRx := some (t.toNat, s.fw.dtime) }) p 5 s.fw.dtime)) ∧
  (∀ (p : Fin 4) (trip turn : BitVec 56) (t own : Nat) (s : State),
      let off : Int := ((own : Int) - t) * 1000 - ((trip.toNat : Int) - turn.toNat) / 2;
      let s1 := setCport s p { cport s p with timeRx := none };
      let s2 := oSet (oSet s1 (O_CASC_LINK_DELAY p) (min ((trip.toNat - turn.toNat) / 2000) 0xFFFF)) O_DTIME_OFFSET ((off % 2 ^ 32).toNat);
      cascRuns s = true ∧ linkChecked s p = true →
      (cport s p).timeRx = some (t, own) →
      exec (.timeEcho p trip turn) s = .next (if s2.casc.aligning = true ∧ s2.casc.aligned = false then stepTime s2 off else if s2.casc.aligning = true ∨ oGet s2 O_CASC_STATE = 2 then steerTime s2 off else s2))

/-- Rows HB_EDGE_MISSED (the third in a run logs event 0x2C11, and decides or asks for a takeover), HB_GONE, TAKEOVER (the device is fenced unless it is already), FENCE_ACK, TAKEOVER_ACK_TIMEOUT, WITNESS_GNT, WITNESS_TIMEOUT, TWIN_SOLO_TIMEOUT, MIRROR_RECORD (the record next in sequence is applied, where the gateway admits its line, and MACK is sent; any other changes no memory) and MACK (the granules whose copy it covers are clean). That both a MACK and a copy number records as log entry 102 says is the model's choice. -/
def Obligations.TwinPair : Prop :=
  (∀ (first : Bool) (s : State),
      let s0 := if first = true ∧ s.twin.linkOk = false ∧ s.twin.missed ≠ 0 ∧ s.twin.hbLost = false then goStale s else s;
      let n := if first = true then 1 else s0.twin.missed + 1;
      let s1 := setTwin s0 { s0.twin with missed := n, hbLost := 3 ≤ n };
      let s2 := logEv s1 0x2C11 sevErr (twinState s1);
      twinRuns s = true →
      exec (.hbEdgeMissed first) s = .next (if n = 3 then (if s2.twin.linkOk = false then splitResolve s2 else if twinState s2 = 3 then pushMsg (setTwin s2 { s2.twin with sent := true }) 3 6 0 else s2) else s1)) ∧
  (∀ (s : State),
      twinRuns s = true →
      twinState s = 3 →
      exec .hbGone s = .next (becomeActive s 3)) ∧
  (∀ (s : State),
      let s1 := if twinState s = 5 then s else fenceDevice s 1;
      twinRuns s = true →
      s.twin.linkOk = true →
      exec .takeover s = .next (pushMsg (setTwin s1 { s1.twin with fenceAcked := s1.twin.fenceAcked + 1, partner := 4 }) 3 7 0)) ∧
  (∀ (s : State),
      twinRuns s = true ∧ twinState s = 3 →
      s.twin.linkOk = true ∧ s.twin.sent = true →
      exec .fenceAck s = .next (becomeActive (setTwin s { s.twin with partner := 5 }) 2) ∧
        exec .takeoverAckTimeout s = .next (portDown (setTwin s { s.twin with sent := false }) 3 3)) ∧
  (∀ (s : State),
      let s1 := setTwin s { s.twin with gnt := true };
      let s0 := setTwin s { s.twin with gnt := false };
      twinRuns s = true →
      exec (.witnessGnt true) s = .next (if s.twin.request = false then s1 else if twinState s = 3 then becomeActive s1 4 else if twinState s = 1 ∧ s.twin.soloOver = true ∧ s.twin.linkOk = false then becomeActive s1 (if strapSecondary s = true then 4 else 1) else s1) ∧
        exec (.witnessGnt false) s = .next (if twinState s = 4 ∧ oGet s O_WITNESS_EN = 1 ∧ s.twin.hbLost = true ∧ s.twin.linkOk = false then fenceDevice s0 2 else s0)) ∧
  (∀ (level : Bool) (s : State),
      twinRuns s = false →
      exec (.witnessGnt level) s = .next (setTwin s { s.twin with gnt := level })) ∧
  (∀ (s : State),
      twinRuns s = true ∧ twinState s = 3 →
      s.twin.request = true ∧ s.twin.gnt = false →
      exec .witnessTimeout s = .next (logEv (setTwin s { s.twin with request := false }) 0x2C12 sevErr 2)) ∧
  (∀ (s : State),
      let s1 := setTwin s { s.twin with soloOver := true };
      twinRuns s = true ∧ twinState s = 1 →
      s.twin.linkOk = false →
      exec .twinSoloTimeout s = .next (if oGet s O_WITNESS_EN = 1 then (if s.twin.gnt = true then becomeActive s1 (if strapSecondary s = true then 4 else 1) else setTwin s1 { s1.twin with request := true }) else if strapSecondary s = true then s1 else becomeActive s1 1)) ∧
  (∀ (seq : BitVec 32) (line : BitVec 46) (data : BitVec 512) (synced : Bool) (s : State),
      let s0 := pushMsg (setTwin s { s.twin with applied := s.twin.applied + 1 }) 3 8 ((s.twin.applied + 1) % 2 ^ 32);
      let s1 := if mirrorAdmits s line.toNat = true then (match refOfLine s0 line.toNat with | some m => memWrite s0 m data false 0 0 | none => s0) else gwEvent s 0 4;
      twinRuns s = true ∧ s.twin.linkOk = true →
      (twinState s = 2 ∨ twinState s = 3) →
      seq.toNat = (s.twin.applied + 1) % 2 ^ 32 →
      exec (.mirrorRecord seq line data synced) s = .next (if synced = true ∧ twinState s1 = 2 then setTwinState (setTwin s1 { s1.twin with intact := false }) 3 else s1)) ∧
  (∀ (seq : BitVec 32) (line : BitVec 46) (data : BitVec 512) (synced : Bool) (s : State),
      twinRuns s = true ∧ s.twin.linkOk = true →
      (twinState s = 2 ∨ twinState s = 3) →
      seq.toNat ≠ (s.twin.applied + 1) % 2 ^ 32 →
      exec (.mirrorRecord seq line data synced) s = .next (if synced = true ∧ seq.toNat = s.twin.applied % 2 ^ 32 ∧ twinState s = 2 then setTwinState (setTwin s { s.twin with intact := false }) 3 else s)) ∧
  (∀ (seq : BitVec 32) (s : State),
      let t := s.twin;
      let hit : Option MirrorRec := t.unacked.find? fun r => r.seq % 2 ^ 32 == seq.toNat;
      let s1 : State := match hit with | some r => releaseWaits (setTwin s { t with acked := r.seq, unacked := t.unacked.filter fun u => r.seq < u.seq }) r.seq | none => s;
      let upTo : Nat := (hit.map (·.seq)).getD 0;
      let done := s1.twin.copies.filter fun (c : Nat × Nat) => decide (c.2 ≤ upTo);
      let dirty := done.foldl (fun d c => clearGranule d c.1) s1.twin.dirty;
      let left := s1.twin.copies.filter fun (c : Nat × Nat) => !decide (c.2 ≤ upTo);
      let s2 := setTwin s1 { s1.twin with dirty := dirty, copies := left, copied := s1.twin.copied + done.length };
      twinRuns s = true ∧ twinState s = 4 →
      t.linkOk = true →
      exec (.mack seq) s = .next (if hit.isNone = true then s else if s2.twin.partner = 2 ∧ rangeCount dirty = 0 then logEv (setTwin s2 { s2.twin with partner := 3 }) 0x2C13 sevInfo (min s2.twin.copied 0xFFFFFF) else s2))

/-- Rows MCTP_OBJECT_READ, MCTP_OBJECT_WRITE and MCTP_EVENT_ACK: on a closed binding nothing answers, a lost message is discarded with event 0x1003, a fifth unanswered one is answered 0x0A000003, a malformed one 0x05040001; otherwise the access of R654, or the acknowledge of the open batch; an answer leaves as the response message of R653. EVENT_PUSH_RETRY (three more attempts, each the same message, bytes 6, 7, 14 and 15 of which the spec does not name and the model leaves free; then the batch counts as lost). SET_ENDPOINT_ID (that the EIDs 0x00 and 0xFF are refused is presumed, log entry 27), GET_ENDPOINT_ID, GET_MCTP_VERSION_SUPPORT (the versions are a free value) and GET_MESSAGE_TYPE_SUPPORT. -/
def Obligations.MctpMessages : Prop :=
  (∀ (m : Mctp) (index : BitVec 16) (sub : BitVec 8) (off : BitVec 32) (len : BitVec 16) (last : Bool) (data : List (BitVec 8)) (s : State),
      let r := mctpReq m;
      let go (n : Nat) (t : State) : State := if pathOpen s r = false then unanswered s else if m.lost = true then logEv (unanswered s) 0x1003 sevWarn (pathCode r.path * 65536 + m.eid.toNat) else if m.waiting = 4 then answer s 0x0A000003#32 else if m.vendor.toNat ≠ oGet s O_MCTP_VENDOR_IANA ∨ m.unused ≠ 0#64 ∨ 4076 < n then answer s 0x05040001#32 else t;
      let out (cmd n : Nat) (t : State) : State := if t.ans.answered = false then t else setFw t { t.fw with mctpOut := [0x7F#8] ++ beBytes 4 m.vendor.toNat ++ [BitVec.ofNat 8 (cmd + 0x80), m.tag, 0#8] ++ leBytes 4 t.ans.abort.toNat ++ leBytes 4 t.ans.total ++ leBytes n t.ans.value };
      let a := go len.toNat (segRead r index.toNat sub.toNat off.toNat len.toNat s);
      exec (.mctpObjectRead m index sub off len) s = .next (out 1 (if a.ans.abort = 0#32 then min len.toNat (a.ans.total - off.toNat) else 0) a) ∧
        exec (.mctpObjectWrite m index sub off last data) s = .next (out 2 0 (go data.length (writtenTotal r index.toNat sub.toNat (segWrite r index.toNat sub.toNat off.toNat last data s))))) ∧
  (∀ (m : Mctp) (seq : BitVec 32) (s : State),
      let q := pushPos s + (seq.toNat + 2 ^ 32 - pushPos s % 2 ^ 32) % 2 ^ 32;
      pathOpen s (mctpReq m) = true ∧ m.lost = false ∧ m.waiting ≠ 4 →
      m.vendor.toNat = oGet s O_MCTP_VENDOR_IANA ∧ m.unused = 0#64 →
      exec (.mctpEventAck m seq) s = .next (if m.eid.toNat = oGet s O_EVT_MCTP_EID ∧ pushPos s < s.fw.mctpSent ∧ q < s.fw.mctpSent then setFw s { s.fw with pos := tabPut s.fw.pos 18 (q + 1), mctpTries := 0 } else s)) ∧
  (∀ (s : State),
      let n := ((heldFrom18 s).filter fun q => q < s.fw.mctpSent).length;
      let rs := ((s.fw.ring.filter fun x => pushPos s ≤ x.1 && x.1 < s.fw.mctpSent).reverse).take 16;
      let msg := [0x7F#8] ++ beBytes 4 (oGet s O_MCTP_VENDOR_IANA) ++ [3#8, Config.free 8 s.freeCtr, Config.free 8 (s.freeCtr + 1)] ++ leBytes 4 ((rs.map (·.1)).headD 0) ++ leBytes 2 rs.length ++ [Config.free 8 (s.freeCtr + 2), Config.free 8 (s.freeCtr + 3)] ++ rs.flatMap fun x => leBytes 16 (recNat x.2);
      fwRuns s = true ∧ oGet s O_EVT_MCTP_EID ≠ 0 →
      pushPos s < s.fw.mctpSent →
      exec .eventPushRetry s = .next (if s.fw.mctpTries < 3 then freeStep (setFw s { s.fw with mctpTries := s.fw.mctpTries + 1, mctpEvent := msg }) else setFw s { s.fw with pos := tabPut s.fw.pos 18 s.fw.mctpSent, mctpTries := 0, lost := tabPut s.fw.lost 18 (satAdd (tabGet s.fw.lost 18 0) n 0xFFFFFF) })) ∧
  (∀ (vdm : Bool) (eid : BitVec 8) (s : State),
      bindingOpen s vdm = true →
      exec (.setEndpointId vdm eid) s = .next (if eid = 0#8 ∨ eid = 0xFF#8 then reply s 2 0 0 else reply (oSet s O_MCTP_EID eid.toNat) 0 eid.toNat 1) ∧
        exec (.getEndpointId vdm) s = .next (reply s 0 (oGet s O_MCTP_EID) 1) ∧
        exec (.getMctpVersionSupport vdm) s = .next (freeStep (reply s 0 (Config.freeNat s.freeCtr) 5)) ∧
        exec (.getMessageTypeSupport vdm) s = .next (reply s 0 0x7F050003 4)) ∧
  (∀ (vdm : Bool) (eid : BitVec 8) (s : State),
      bindingOpen s vdm = false →
      exec (.setEndpointId vdm eid) s = .next (unanswered s) ∧ exec (.getEndpointId vdm) s = .next (unanswered s) ∧
        exec (.getMctpVersionSupport vdm) s = .next (unanswered s) ∧ exec (.getMessageTypeSupport vdm) s = .next (unanswered s))

/-- Rows GET_VERSION, GET_CAPABILITIES, NEGOTIATE_ALGORITHMS, GET_DIGESTS, GET_CERTIFICATE, CHALLENGE, GET_MEASUREMENTS, KEY_EXCHANGE, FINISH, END_SESSION, KEY_UPDATE and IDE_KM, each at the stage of the connection that it needs. What R660 leaves to SPDM 1.2 (the stages, the error codes, the session) is presumed (log entry 28); signatures and capability bits are free values. -/
def Obligations.SpdmRequests : Prop :=
  (∀ (v : Via) (ok : Bool) (s : State),
      viaOpen s v = true →
      exec (.getVersion v) s = .next (reply (setSpdm s { stage := 1 }) 0 0x12 1) ∧
        exec (.getCapabilities v) s = .next (if s.fw.spdm.stage < 1 then reply s 4 0 0 else freeStep (reply (setSpdm s { s.fw.spdm with stage := max 2 s.fw.spdm.stage }) 0 (Config.freeNat s.freeCtr) 4)) ∧
        exec (.negotiateAlgorithms v ok) s = .next (if s.fw.spdm.stage < 2 then reply s 4 0 0 else if ok = true then reply (setSpdm s { s.fw.spdm with stage := 3 }) 0 0 0 else reply s 1 0 0)) ∧
  (∀ (v : Via) (slot : BitVec 8) (off len : BitVec 16) (s : State),
      let l := ((chainBytes s).drop off.toNat).take len.toNat;
      viaOpen s v = true →
      3 ≤ s.fw.spdm.stage →
      exec (.getDigests v) s = .next (reply s 0 (leNat (beBytes 48 (Config.shaEnd (Config.shaStep 0#1024 (chainBytes s))).toNat)) 48) ∧
        exec (.getCertificate v slot off len) s = .next (if slot ≠ 0#8 ∨ (certChain s).1 ≤ off.toNat then reply s 1 0 0 else reply s 0 (leNat l) l.length)) ∧
  (∀ (v : Via) (b : BitVec 8) (s : State),
      let dig := leNat (beBytes 48 s.ld.digest.toNat);
      let fwv := Config.fwVersion % 2 ^ 32;
      let mon := Config.monitorVersion % 2 ^ 32;
      viaOpen s v = true →
      3 ≤ s.fw.spdm.stage →
      exec (.getMeasurements v b) s = .next (if b = 0#8 then reply s 0 3 1 else if b = 1#8 then reply s 0 fwv 4 else if b = 2#8 then reply s 0 dig 48 else if b = 3#8 then reply s 0 mon 4 else if b = 0xFF#8 then reply s 0 (fwv + 2 ^ 32 * dig + 2 ^ 416 * mon) 56 else reply s 1 0 0)) ∧
  (∀ (v : Via) (slot : BitVec 8) (s : State),
      let no (t : State) : State := if slot ≠ 0#8 then reply s 1 0 0 else if s.fw.idKey = none then reply s 5 0 0 else t;
      viaOpen s v = true →
      3 ≤ s.fw.spdm.stage →
      exec (.challenge v slot) s = .next (no (freeStep (reply s 0 (Config.freeNat s.freeCtr) 96))) ∧
        exec (.keyExchange v slot) s = .next (no (freeStep (reply (setSpdm s { s.fw.spdm with session := 1, updates := 0 }) 0 (Config.freeNat s.freeCtr) 96)))) ∧
  (∀ (v : Via) (s : State),
      let t (n : Nat) : State := setSpdm s { s.fw.spdm with session := n };
      viaOpen s v = true →
      3 ≤ s.fw.spdm.stage →
      exec (.finish v true) s = .next (if s.fw.spdm.session ≠ 1 then reply s 4 0 0 else reply (t 2) 0 0 0) ∧
        exec (.finish v false) s = .next (if s.fw.spdm.session ≠ 1 then reply s 4 0 0 else reply (t 0) 6 0 0) ∧
        exec (.endSession v) s = .next (if s.fw.spdm.session ≠ 2 then reply s 4 0 0 else reply (setSpdm s { s.fw.spdm with session := 0, updates := 0 }) 0 0 0) ∧
        exec (.keyUpdate v) s = .next (if s.fw.spdm.session ≠ 2 then reply s 4 0 0 else reply (setSpdm s { s.fw.spdm with updates := s.fw.spdm.updates + 1 }) 0 0 0)) ∧
  (∀ (p : Fin 4) (s : State),
      let x := cxl s p;
      viaOpen s (.doe p) = true →
      3 ≤ s.fw.spdm.stage ∧ s.fw.spdm.session = 2 →
      exec (.ideKm p true) s = .next (reply (setCxl s p { x with ideLink := true }) 0 0 0) ∧
        exec (.ideKm p false) s = .next (reply (setCxl s p { x with ideMem := true, insecure := false }) 0 0 0)) ∧
  (∀ (v : Via) (p : Fin 4) (ok : Bool) (slot : BitVec 8) (off len : BitVec 16) (s : State),
      viaOpen s v = true →
      s.fw.spdm.stage < 3 →
      exec (.getDigests v) s = .next (reply s 4 0 0) ∧ exec (.getCertificate v slot off len) s = .next (reply s 4 0 0) ∧ exec (.challenge v slot) s = .next (reply s 4 0 0) ∧
        exec (.getMeasurements v slot) s = .next (reply s 4 0 0) ∧ exec (.keyExchange v slot) s = .next (reply s 4 0 0) ∧ exec (.finish v ok) s = .next (reply s 4 0 0) ∧
        exec (.endSession v) s = .next (reply s 4 0 0) ∧ exec (.keyUpdate v) s = .next (reply s 4 0 0) ∧ (v = .doe p → exec (.ideKm p ok) s = .next (reply s 4 0 0))) ∧
  (∀ (v : Via) (p : Fin 4) (ok : Bool) (slot : BitVec 8) (off len : BitVec 16) (s : State),
      viaOpen s v = false →
      exec (.getVersion v) s = .next (unanswered s) ∧ exec (.getCapabilities v) s = .next (unanswered s) ∧ exec (.negotiateAlgorithms v ok) s = .next (unanswered s) ∧
        exec (.getDigests v) s = .next (unanswered s) ∧ exec (.getCertificate v slot off len) s = .next (unanswered s) ∧ exec (.challenge v slot) s = .next (unanswered s) ∧
        exec (.getMeasurements v slot) s = .next (unanswered s) ∧ exec (.keyExchange v slot) s = .next (unanswered s) ∧ exec (.finish v ok) s = .next (unanswered s) ∧
        exec (.endSession v) s = .next (unanswered s) ∧ exec (.keyUpdate v) s = .next (unanswered s) ∧ (v = .doe p → exec (.ideKm p ok) s = .next (unanswered s)))

/-- Rows USDO_DOWNLOAD, USDO_UPLOAD (one session per client), NMT_RESET_COMMUNICATION, CAN_HEARTBEAT_TICK, EMCY_SEND, CAN_BUS_OFF, CAN_ERROR_PASSIVE, CAN_BUS_OFF_RECOVERY, SEGMENT_TIMEOUT, SCHED_DUE, SCHED_LATE_ENTRY, PPS_PULSE, PARAM_STORE_DONE, PARAM_ERASE_DONE, DBG_TOKEN_VERIFIED and DBG_TOKEN_EXPIRY. That a store with no active half writes half A is the model's choice (log entry 25). -/
def Obligations.CanAndServices : Prop :=
  (∀ (node : BitVec 8) (index : BitVec 16) (sub : BitVec 8) (off : BitVec 32) (last : Bool) (data : List (BitVec 8)) (s : State),
      let r := canReq node;
      pathOpen s r = true →
      exec (.usdoDownload node index sub off last data) s = .next (if usdoOpen s node ((devKey r index.toNat sub.toNat).map (·.2)) = true then answer s 0x08000022#32 else segWrite r index.toNat sub.toNat off.toNat last data s) ∧
        exec (.usdoUpload node index sub) s = .next (if usdoOpen s node ((devKey r index.toNat sub.toNat).map (·.2)) = true then answer s 0x08000022#32 else readObj r index.toNat sub.toNat s)) ∧
  (∀ (tec : BitVec 16) (r t : BitVec 8) (s : State),
      canOn s = true →
      exec .nmtResetCommunication s = .next (oSet (setFw s { s.fw with xfers := s.fw.xfers.filter (fun x => x.2.r.path != .can), canRestarts := s.fw.canRestarts + 1 }) O_CAN_STATUS 0) ∧
        (oGet s O_HEARTBEAT_TIME ≠ 0 → exec .canHeartbeatTick s = .next (setFw s { s.fw with heartbeats := s.fw.heartbeats + 1 })) ∧
        exec (.canBusOff tec) s = .next (logEv (oSet s O_CAN_STATUS 2) 0x1001 sevErr tec.toNat) ∧
        exec (.canErrorPassive r t) s = .next (logEv (oSet s O_CAN_STATUS 1) 0x1002 sevWarn (r.toNat * 256 + t.toNat))) ∧
  (∀ (s : State),
      fwRuns s = true ∧ canPins s = true →
      oGet s O_CAN_STATUS = 2 →
      exec .canBusOffRecovery s = .next (oSet s O_CAN_STATUS 0)) ∧
  (∀ (q : Nat) (e : EventRec) (s : State),
      canOn s = true →
      (∀ t, s.fw.emcyAt = some t → t + oGet s O_EMCY_INHIBIT * 100000 ≤ s.fw.dtime) →
      nextEmcy s = some (q, e) →
      exec .emcySend s = .next (setFw s { s.fw with pos := tabPut s.fw.pos 17 (q + 1), emcy := some e, emcyCode := 0xFF00 + e.sev.toNat, emcyReg := errorRegister s, emcyAt := some s.fw.dtime, pushed := s.fw.pushed + 1 })) ∧
  (∀ (index : BitVec 16) (sub : BitVec 8) (k : Nat) (x : Xfer) (s : State),
      fwRuns s = true →
      (devKey internalReq index.toNat sub.toNat).map (·.2) = some k ∧ tabFind s.fw.xfers k = some x →
      exec (.segmentTimeout index sub) s = .next (answer (setFw s { s.fw with xfers := tabDel s.fw.xfers k }) 0x05040000#32)) ∧
  (∀ (e : Fin 32) (s : State),
      fwRuns s = true ∧ schedDue s e = true →
      (∀ j, j < e.val → schedDue s j = true → schedTime (schedEntry s j) ≠ schedTime (schedEntry s e)) →
      exec (.schedDue e) s = .next (schedRun s e)) ∧
  (∀ (e : Fin 32) (s : State),
      let d := e * 65536 + min (lateness s e / 1000000) 0xFFFF;
      fwRuns s = true →
      s.fw.late.getLsbD e = true ∧ schedValid (schedEntry s e) = true →
      exec (.schedLateEntry e) s = .next (if schedSkip (schedEntry s e) = true then schedAfter (logEv s 0x2F03 sevWarn d) e else schedRun (logEv (oSet s (O_SCHED_LATENESS e) (lateness s e)) 0x2F02 sevWarn d) e)) ∧
  (∀ (s : State),
      mioApplied s = true →
      s.clk.locked = true →
      exec .ppsPulse s = .next (setFw s { s.fw with pps := some (s.fw.dtime / 10 ^ 9 * 10 ^ 9) })) ∧
  (∀ (bad : List (Nat × BitVec 8)) (count : Nat) (entries : List (BitVec 8)) (f : FlashInfo) (o size : Nat) (s : State),
      let a := activeHalf f o size;
      let at_ := match a with | some (0, _) => o + size / 2 | _ => o;
      let img := halfBytes s.ld.active.toNat ((a.map (·.2)).getD 0 + 1) count entries;
      let f1 := flawed (flashWrite (flashErase f at_ (size / 2)) at_ img) at_ (bad.filter fun b => b.1 < size / 2);
      let s1 := setLd (setFw s { s.fw with store := none }) { s.ld with flash := some f1 };
      s.fw.store = some (count, entries) →
      paramBlock s = some (f, o, size) →
      exec (.paramStoreDone bad) s = .next (if flashBytes f1 at_ img.length = img then logEv (oSet s1 O_STORE_STATE 3) 0x1004 sevInfo count else logEv (oSet s1 O_STORE_STATE 4) 0x1005 sevErr 4)) ∧
  (∀ (f : FlashInfo) (o size : Nat) (s : State),
      paramBlock s = some (f, o, size) →
      oGet s O_STORE_STATE = 2 →
      exec .paramEraseDone s = .next (oSet (setLd s { s.ld with flash := some (flashErase f o size) }) O_STORE_STATE 3)) ∧
  (∀ (v : BitVec 1664) (s : State),
      let b := leBytes 208 v.toNat;
      let s0 := setDbg s { s.dbg with verifying := none };
      let why := tokenReason s b;
      let ten := if leAt b 0 1 = 0 then 0 else leAt b 0 1 - 0x10;
      let s1 := logEvT (setDbg s0 { s0.dbg with token := some (tokenOf s b) }) 0x2E01 sevInfo (leAt b 0 1 + leAt b 1 1 * 256) ten 0xFFFF;
      fwRuns s = true →
      s.dbg.verifying = some v →
      exec .dbgTokenVerified s = .next (if why ≠ 0 then logEv s0 0x2E02 sevWarn why else if wideAuth s1 = true then s1 else endAttach s1)) ∧
  (∀ (t : Token) (s : State),
      s.dbg.token = some t →
      t.expiry ≠ 0 ∧ t.expiry ≤ s.fw.dtime →
      exec .dbgTokenExpiry s = .next (endToken s 3))

/-- Rows MIO_BANK_DETECT (a bank that floated returns, with event 0x2D04), MIO_BANK_FLOAT (event 0x2D03; bit 9 or 10 of RAIL_STATUS follows the bank), MIO_CONTENTION (event 0x2D01 unless the pin was already in contention) and SM_CONVERSION (a channel converts in its turn, or in one inserted after a range switch; the sample of a channel ends the round with the last enabled one; RAIL_STATUS follows the samples of VCCLANEH, VCCLPLL, VCCADC and VBAT, the model's reading, log entry 104). -/
def Obligations.PinsAndMonitor : Prop :=
  (∀ (bank : Fin 2) (v33 : Bool) (s : State),
      let v := if v33 = true then 2 else 1;
      let s1 := setPwr s { s.pwr with mioBank := tabPut s.pwr.mioBank bank v, rails := setBit s.pwr.rails (9 + bank) true };
      s.pwr.vaux = true →
      (bankState s bank = 0 ∨ bankState s bank = 3) →
      exec (.mioBankDetect bank v33) s = .next (if bankState s bank = 3 ∧ fwRuns s = true then logEv s1 0x2D04 sevInfo (bank * 65536 + v) else s1)) ∧
  (∀ (bank : Fin 2) (mv : BitVec 16) (s : State),
      let s1 := setPwr s { s.pwr with mioBank := tabPut s.pwr.mioBank bank 3, rails := setBit s.pwr.rails (9 + bank) false };
      s.pwr.vaux = true →
      (bankState s bank = 1 ∨ bankState s bank = 2) →
      exec (.mioBankFloat bank mv) s = .next (if fwRuns s = true then logEv s1 0x2D03 sevErr (bank * 65536 + mv.toNat) else s1)) ∧
  (∀ (pin : Fin 64) (s : State),
      let off := (oGet s (O_MIO_CFG pin)).testBit 3;
      let s1 := oSet s (O_MIO_STATUS pin) (1 + (if off = true then 2 else 0));
      pinWatched s pin = true →
      exec (.mioContention pin) s = .next (if pinHeld s pin = true then s1 else logEv s1 0x2D01 sevWarn (pin + (if off = true then 256 else 0)))) ∧
  (∀ (ch : Fin 68) (v : BitVec 32) (s : State),
      let x := signed32 v.toNat;
      let bit : Option Nat := match ch.val with | 44 => some 4 | 45 => some 5 | 48 => some 8 | 51 => some 11 | _ => none;
      let s1 := match bit with | some b => setPwr s { s.pwr with rails := setBit s.pwr.rails b (decide ((smLoDefault ch : Int) ≤ x ∧ x ≤ smHiDefault ch)) } | none => s;
      smRuns s ch = true →
      (smTurn s = some ch.val ∨ (64 ≤ ch.val ∧ s.mio.ranged.getLsbD (ch - 64) = true)) →
      (ch.val < 64 → exec (.smConversion ch v) s = .next (roundEnd (smPlain s1 ch x) ch)) ∧
        (64 ≤ ch.val → exec (.smConversion ch v) s = .next (if s.mio.ranged.getLsbD (ch - 64) = true then smAnin s (ch - 64) v.toNat else roundEnd (smAnin s (ch - 64) v.toNat) ch)))

/-- Rows GOITH_LINE_RESET and GOITH_SYNC_BYTE; and for any access of the port, which the row REGISTER_WRITE carries for the registers with no row of their own: no acknowledge on a line that is not ready, event 0x2E05 once and a dead line for a bad header, FAULT and the parity bit for bad data, FAULT while an error bit stands, WAIT while the class has an operation in flight, FAULT and DENIED without authority, else the access. An object or an engine register that REGISTER_WRITE names is written. -/
def Obligations.PortLine : Prop :=
  (∀ (b : BitVec 8) (s : State),
      portSilent s = false →
      exec .goithLineReset s = .next (setDbg s { s.dbg with line := .sync, hdrLogged := false }) ∧
        (s.dbg.line = .sync → exec (.goithSyncByte b) s = .next (setDbg s { s.dbg with line := if b = 0x5A#8 then .ready else .dead }))) ∧
  (∀ (g : GAcc) (cls : Fin 4) (rs : Fin 8) (rnw : Bool) (v : BitVec 32) (s : State),
      let s1 := if s.dbg.hdrLogged = true then s else logEv s 0x2E05 sevWarn 0;
      let bad := setDbg s1 { s1.dbg with ack := .none, line := .dead, hdrLogged := true };
      let t := ackWith s .ok;
      exec (.registerWrite (.goith g cls rs rnw v)) s = .next (if portSilent s = true ∨ s.dbg.line ≠ .ready then ackWith s .none else if g.hdrOk = false then bad else if rnw = false ∧ g.dataOk = false then setDbg s { s.dbg with ack := .fault, wdParity := true } else if ¬ (cls = 0 ∧ rs < 3) ∧ portError s = true then ackWith s .fault else if ¬ (cls = 0 ∧ (rs < 3 ∨ rs = 7)) ∧ fwRuns s = false then ackWith s .wait else if classBusy s cls = true then ackWith s .wait else if regAuth s cls rs = false then accDenied s else if rnw = true then portRead t cls rs else portWrite t cls rs v)) ∧
  (∀ (r : Req) (index : BitVec 16) (sub : BitVec 8) (value : List (BitVec 8)) (e : Fin 768) (off : BitVec 12) (v : BitVec 32) (s : State),
      exec (.registerWrite (.obj r index sub value)) s = .next (writeObj r index.toNat sub.toNat value.length (leNat value) s) ∧
        exec (.registerWrite (.engine e off v)) s = .next (winReg s e (off.toNat / 4 * 4) false true v.toNat))

/-- Each row of a register is the access of that register, answered before it acts as PortLine says. Rows ATTACH (DENIED without device-wide authority), DETACH, PORT_CLEAR, GOITH_ABORT, PORT_CMD_INVALID, ENG_SEL_WRITE, ENG_DATA_ACCESS, PRB_DATA_ACCESS, MEM_BUF_ACCESS, READ_LINE, WRITE_LINE, READ_WORD, WRITE_BYTES (a word operation at an address that is no multiple of 4 is FAULT), TUN_READ, TUN_WRITE, TUN_DATA_ACCESS, RB_FRAME_WRITE and RB_DATA_READ on a ready line with good parity; GOITH_MEM_DONE, GOITH_TUNNEL_DONE, GOITH_READBACK_DONE and GOITH_ATTACH_TIMEOUT. -/
def Obligations.PortAccesses : Prop :=
  (∀ (g : GAcc) (cmd : BitVec 8) (rnw adv : Bool) (lanes : BitVec 4) (v : BitVec 32) (s : State),
      let acc (cls : Fin 4) (rs : Fin 8) (rnw : Bool) (v : BitVec 32) := exec (.registerWrite (.goith g cls rs rnw v)) s;
      let op (n : Nat) (l : BitVec 4) : BitVec 32 := BitVec.ofNat 32 (n + l.toNat * 256 + (if adv then 4096 else 0));
      exec (.attach g) s = acc 0 2 false 1 ∧ exec (.detach g) s = acc 0 2 false 2 ∧ exec (.portClear g) s = acc 0 2 false 3 ∧ exec (.goithAbort g) s = acc 0 2 false 4 ∧
        exec (.portCmdInvalid g cmd) s = acc 0 2 false (cmd.setWidth 32) ∧ exec (.engSelWrite g v) s = acc 0 3 false v ∧ exec (.engDataAccess g rnw v) s = acc 0 4 rnw v ∧
        exec (.prbDataAccess g rnw v) s = acc 0 6 rnw v ∧ exec (.memBufAccess g rnw v) s = acc 1 2 rnw v ∧ exec (.readLine g adv) s = acc 1 4 false (op 1 0) ∧
        exec (.writeLine g adv) s = acc 1 4 false (op 2 0) ∧ exec (.readWord g adv) s = acc 1 4 false (op 3 0) ∧ exec (.writeBytes g adv lanes) s = acc 1 4 false (op 4 lanes) ∧
        exec (.tunRead g) s = acc 2 4 false 1 ∧ exec (.tunWrite g) s = acc 2 4 false 2 ∧ exec (.tunDataAccess g rnw v) s = acc 2 3 rnw v ∧
        exec (.rbFrameWrite g v) s = acc 3 0 false v ∧ exec (.rbDataRead g) s = acc 3 2 true 0) ∧
  (∀ (g : GAcc) (cmd : BitVec 8) (s : State),
      let t := ackWith s .ok;
      portSilent s = false ∧ s.dbg.line = .ready →
      g.hdrOk = true ∧ g.dataOk = true →
      exec (.attach g) s = .next (if wideAuth t = false then accDenied t else if s.dbg.attached = true then t else logEv (setDbg t { t.dbg with attached := true }) 0x2E04 sevInfo 1) ∧
        exec (.detach g) s = .next (endAttach t) ∧
        exec (.portClear g) s = .next (setDbg t { t.dbg with wdParity := false, accessErr := false, denied := false }) ∧
        exec (.goithAbort g) s = .next (portAbort t) ∧
        (cmd = 0#8 ∨ 5 ≤ cmd.toNat → exec (.portCmdInvalid g cmd) s = .next (accFault t))) ∧
  (∀ (g : GAcc) (rnw : Bool) (v : BitVec 32) (s : State),
      let t := ackWith s .ok;
      portSilent s = false ∧ s.dbg.line = .ready ∧ fwRuns s = true →
      g.hdrOk = true ∧ g.dataOk = true →
      portError s = false ∧ anyAuth s = true →
      exec (.engSelWrite g v) s = .next (if 767 < fld v 16 10 ∨ fld v 0 2 ≠ 0 then accFault t else setDbg t { t.dbg with engSel := v &&& 0x83FF0FFF#32 }) ∧
        exec (.engDataAccess g rnw v) s = .next (engData t rnw (if rnw = true then 0#32 else v)) ∧
        exec (.prbDataAccess g rnw v) s = .next (prbData t rnw (if rnw = true then 0#32 else v))) ∧
  (∀ (g : GAcc) (adv : Bool) (lanes : BitVec 4) (v : BitVec 32) (s : State),
      let t := ackWith s .ok;
      let d := t.dbg;
      portSilent s = false ∧ s.dbg.line = .ready ∧ fwRuns s = true →
      g.hdrOk = true ∧ g.dataOk = true →
      portError s = false ∧ anyAuth s = true ∧ s.dbg.memOp = none →
      exec (.memBufAccess g true v) s = .next (accData (setDbg t { d with memPtr := d.memPtr + 1#4 }) (tabGet d.memBuf d.memPtr.toNat 0#32)) ∧
        exec (.memBufAccess g false v) s = .next (setDbg t { d with memBuf := tabPut d.memBuf d.memPtr.toNat v, memPtr := d.memPtr + 1#4 }) ∧
        exec (.readLine g adv) s = .next (memStart t (.readLine adv)) ∧
        exec (.writeLine g adv) s = .next (memStart t (.writeLine adv)) ∧
        exec (.readWord g adv) s = .next (if memAddr t % 4 ≠ 0 then accFault t else memStart t (.readWord adv)) ∧
        exec (.writeBytes g adv lanes) s = .next (if memAddr t % 4 ≠ 0 then accFault t else memStart t (.writeBytes adv lanes))) ∧
  (∀ (g : GAcc) (v : BitVec 32) (s : State),
      let t := ackWith s .ok;
      let d := t.dbg;
      portSilent s = false ∧ s.dbg.line = .ready ∧ fwRuns s = true →
      g.hdrOk = true ∧ g.dataOk = true →
      portError s = false ∧ s.dbg.tunOp = none →
      exec (.tunRead g) s = .next (setDbg t { d with tunPtr := 0#12, tunOp := some false }) ∧
        exec (.tunWrite g) s = .next (setDbg t { d with tunPtr := 0#12, tunOp := some true }) ∧
        exec (.tunDataAccess g true v) s = .next (accData (setDbg t { d with tunPtr := d.tunPtr + 4#12 }) (tunWord d)) ∧
        exec (.tunDataAccess g false v) s = .next (setDbg t (tunPut d v))) ∧
  (∀ (g : GAcc) (v : BitVec 32) (s : State),
      let t := ackWith s .ok;
      let d := t.dbg;
      portSilent s = false ∧ s.dbg.line = .ready ∧ fwRuns s = true →
      g.hdrOk = true ∧ g.dataOk = true →
      portError s = false ∧ anyAuth s = true ∧ s.dbg.rbWait = none →
      exec (.rbFrameWrite g v) s = .next (if frameOpen t v.toNat = true then setDbg t { d with rbAddr := v, rbWait := some v.toNat } else accFault t) ∧
        exec (.rbDataRead g) s = .next (if rbAllowed t = true then accData (setDbg t { d with rbIndex := d.rbIndex + 1#10 }) (BitVec.ofNat 32 (d.rbBuf / 2 ^ (32 * d.rbIndex.toNat))) else accFault t)) ∧
  (∀ (op : GMemOp) (t : Tx) (s : State),
      let s1 := memPush (memIssue (memDrop s) op);
      portSilent s = false →
      s.dbg.memOp = some op →
      tabFind s1.vent.txs (memKey s1) = some t ∧ isPort t.init = true →
      exec .goithMemDone s = .next (if t.phase = .rsp ∧ t.lost = false ∧ inOrder s1 (memKey s1) t = true then memEnd s1 op t else s1)) ∧
  (∀ (write : Bool) (s : State),
      let t := tunRun s write;
      let n := if write = true ∨ t.ans.abort ≠ 0#32 then 0 else min (fld s.dbg.tunLen 0 13) (t.ans.total - s.dbg.tunOffset.toNat);
      fwRuns s = true →
      s.dbg.tunOp = some write →
      exec .goithTunnelDone s = .next (setDbg t { t.dbg with tunOp := none, tunAbort := t.ans.abort, tunTotal := if t.ans.abort = 0#32 then BitVec.ofNat 32 t.ans.total else t.dbg.tunTotal, tunBuf := (List.range n).foldl (fun b k => tabPut b k (BitVec.ofNat 8 (t.ans.value / 2 ^ (8 * k)))) t.dbg.tunBuf })) ∧
  (∀ (a : Nat) (s : State),
      portSilent s = false →
      s.dbg.rbWait = some a →
      exec .goithReadbackDone s = .next (if rbHeld s a = true then s else setDbg s { s.dbg with rbWait := none, rbFrame := some a, rbBuf := frameContent s a })) ∧
  (∀ (s : State),
      exec .goithAttachTimeout s = .next (endAttach s))

/-- Rows MONITOR_STORE, MONITOR_LOAD and MONITOR_RESUME of an engine in its monitor whose command byte holds the row's command (another byte of 0x80 or above 0x83 becomes 0xFF, a lower one is ignored); TAP_RESET, IDCODE, BYPASS and SAMPLE_PRELOAD, and EXTEST, EXTEST_PULSE, EXTEST_TRAIN, CLAMP and HIGHZ, which act while POR_N is low alone and as BYPASS otherwise (log entry 31). -/
def Obligations.MonitorAndTap : Prop :=
  (∀ (e : Fin 768) (s : State),
      let g := engOf s e;
      let b := monByte g;
      let no := if 0x84 ≤ b ∨ b = 0x80 then setEng s e (setMonByte g 0xFF) else s;
      engClocked s e = true →
      g.state = .monitor →
      exec (.monitorStore e) s = .next (if b = 0x81 then setEng s e (setMonByte (monStore g) 0) else no) ∧
        exec (.monitorLoad e) s = .next (if b = 0x82 then setEng s e (setMonByte (monLoad g) 0) else no) ∧
        exec (.monitorResume e) s = .next (if b = 0x83 then setEng s e (doDret g) else no)) ∧
  (∀ (s : State),
      let t (i : TapInstr) : State := setDbg s { s.dbg with tap := i };
      s.pwr.vaux = true →
      exec .tapReset s = .next (t .idcode) ∧ exec .idcode s = .next (t .idcode) ∧ exec .bypass s = .next (t .bypass) ∧ exec .samplePreload s = .next (t .sample) ∧
        (s.pwr.porN = false → exec .extest s = .next (t .extest) ∧ exec .extestPulse s = .next (t .extestPulse) ∧
        exec .extestTrain s = .next (t .extestTrain) ∧ exec .clamp s = .next (t .clamp) ∧ exec .highz s = .next (t .highz)) ∧
        (s.pwr.porN = true → exec .extest s = .next (t .bypass) ∧ exec .extestPulse s = .next (t .bypass) ∧
        exec .extestTrain s = .next (t .bypass) ∧ exec .clamp s = .next (t .bypass) ∧ exec .highz s = .next (t .bypass)))

/-- For every command c and state s, the step of s with c at the front of its queue is exec of c on s with the queue's rest (15 R643 and 01 R54 have the commands arrive one after another). On an empty queue time passes: that a tick takes the place of idling is the model's choice (log entry 1). -/
def Obligations.StepRunsFront : Prop :=
  (∀ (c : Instr) (q : List Instr) (s : State),
      step { s with pending := c :: q } = exec c { s with pending := q }) ∧
  (∀ (s : State),
      s.pending = [] →
      step s = .next (idleTick s))

/-- For every command and every state there is a next state that exec answers: no command of the table ends in a fault or a refusal; one that the device turns away is answered as its rule says (an abort code, a response code, a wait) and the run goes on. -/
def Obligations.EveryCommandCompletes : Prop :=
  (∀ (c : Instr) (s : State),
      ∃ t, exec c s = .next t)

/-- In State.reset every partition, engine and entry of the system address map belongs to T0, every engine is NOTREADY and its memories read zero, no DDR channel is populated, the port's error bits, its attachment and its last response are clear, the life cycle reads BLANK (as shipped), and every destroyed key slot is all ones. That the queue of commands is empty and that VCCAUX stands are the model's own (log entries 1 and 3). -/
def Obligations.ResetState : Prop :=
  (State.reset.pending = [] ∧ State.reset.pwr.vaux = true ∧ lcOf State.reset = 0 ∧
        (∀ p < 128, partOwner State.reset p = 0) ∧ (∀ e < 768, engOwner State.reset e = 0) ∧ (∀ e < 256, samOwner State.reset e = 0) ∧
        (∀ e, (engOf State.reset e).state = .notready ∧ (engOf State.reset e).prog = [] ∧ (engOf State.reset e).xmem = [] ∧ (engOf State.reset e).ymem = []) ∧
        (∀ c < 16, chanState State.reset c = 0) ∧
        (State.reset.dbg.wdParity = false ∧ State.reset.dbg.accessErr = false ∧ State.reset.dbg.denied = false ∧ State.reset.dbg.attached = false ∧ State.reset.dbg.lastResp = 0#4) ∧
        SlotsOk State.reset)

/-- No command adds, removes or reorders the commands that wait: when exec answers a next state, its queue is the one it was given; so a step with a command in front takes exactly that one off. The queue is the model's own (15 R643 and 01 R54 have commands arrive one after another). -/
def Obligations.QueueKept : Prop :=
  (∀ (c : Instr) (s t : State),
      exec c s = .next t →
      t.pending = s.pending) ∧
  (∀ (c : Instr) (q : List Instr) (s t : State),
      s.pending = c :: q →
      step s = .next t →
      t.pending = q)

/-- For every state s, if a step answers t, no blown bit of the life-cycle groups is clear in t, a fused key slot stays fused, a destroyed one destroyed, a revoked one revoked, and a fused slot keeps its value until it is destroyed (FuseLe in Sys2Proof/Safety.lean). It holds of resets, boots, loads, object writes through every path, the port and the tick alike. -/
def Obligations.FusesOneWay : Prop :=
  (∀ (s t : State),
      step s = .next t →
      FuseLe s t)

/-- For every state s in which every destroyed key slot has all its bits blown (SlotsOk in Sys2Proof/Safety.lean), if a step answers t, then so it is in t. State.reset has it (ResetState). That a slot programmed with all ones reads as destroyed is the model's reading of R189 (log entry 61). -/
def Obligations.DestroyedSlotsRead : Prop :=
  (∀ (s t : State),
      SlotsOk s →
      step s = .next t →
      SlotsOk t)

/-- Rows KEY_PROGRAM and KEY_REVOKE, for a write that no other check of the object turns away (Accepted with no condition of R236): a slot in use by a load is answered 0x0800_0022 with event 0x2309; KEY_PROGRAM is carried out in BLANK and PROVISIONED, answered 0x0A00_0005 in DEPLOYED and later, and 0x0800_0022 on a fused or destroyed slot; KEY_REVOKE is carried out in PROVISIONED and DEPLOYED, answered 0x0A00_0005 elsewhere, changes no fuse of a slot already revoked, and is answered 0x0800_0022 on an unfused or destroyed slot. -/
def Obligations.KeySlotWrites : Prop :=
  (∀ (r : Req) (slot : BitVec 8) (key : BitVec 384) (k : Nat) (s : State),
      let n := progLen slot.toNat - 4;
      let val := slot.toNat + 2 ^ 32 * leNat (beBytes n key.toNat);
      progSlot slot.toNat = some k →
      Accepted s r O_KEY_PROGRAM (n + 4) val {} →
      s.rst.lc.toNat ≤ 1 →
      (loadUsesSlot s k = true → exec (.keyProgram r slot 0#24 key) s = .next (logEv (answer s 0x08000022#32) 0x2309 sevWarn slot.toNat)) ∧
        (loadUsesSlot s k = false ∧ ((fuseSlot s k).fused = true ∨ (fuseSlot s k).destroyed = true) → exec (.keyProgram r slot 0#24 key) s = .next (answer s 0x08000022#32)) ∧
        (loadUsesSlot s k = false ∧ (fuseSlot s k).fused = false ∧ (fuseSlot s k).destroyed = false → ∃ x, x.fused = true ∧ x.val = BitVec.ofNat 384 (beNat (leBytes n (val / 2 ^ 32))) ∧ exec (.keyProgram r slot 0#24 key) s = .next (setSlot (answer s 0#32) k x))) ∧
  (∀ (r : Req) (slot : BitVec 8) (key : BitVec 384) (k : Nat) (s : State),
      let n := progLen slot.toNat - 4;
      let val := slot.toNat + 2 ^ 32 * leNat (beBytes n key.toNat);
      progSlot slot.toNat = some k →
      Accepted s r O_KEY_PROGRAM (n + 4) val {} →
      2 ≤ s.rst.lc.toNat →
      exec (.keyProgram r slot 0#24 key) s = .next (answer s 0x0A000005#32)) ∧
  (∀ (r : Req) (slot : BitVec 8) (s : State),
      let k := slot.toNat % 4;
      let x := fuseSlot s k;
      Accepted s r O_KEY_REVOKE 1 slot.toNat {} →
      (s.rst.lc = 1#3 ∨ s.rst.lc = 2#3) →
      (loadUsesSlot s k = true → exec (.keyRevoke r slot) s = .next (logEv (answer s 0x08000022#32) 0x2309 sevWarn k)) ∧
        (loadUsesSlot s k = false ∧ (x.fused = false ∨ x.destroyed = true) → exec (.keyRevoke r slot) s = .next (answer s 0x08000022#32)) ∧
        (loadUsesSlot s k = false ∧ x.fused = true ∧ x.destroyed = false ∧ x.revoked = true → exec (.keyRevoke r slot) s = .next (setSlot (answer s 0#32) k x)) ∧
        (loadUsesSlot s k = false ∧ x.fused = true ∧ x.destroyed = false ∧ x.revoked = false ∧ otherOwner s k = true ∧ s.dbg.token = none → exec (.keyRevoke r slot) s = .next (setSlot (answer s 0#32) k { x with revoked := true }))) ∧
  (∀ (r : Req) (slot : BitVec 8) (s : State),
      Accepted s r O_KEY_REVOKE 1 slot.toNat {} →
      s.rst.lc ≠ 1#3 ∧ s.rst.lc ≠ 2#3 →
      exec (.keyRevoke r slot) s = .next (answer s 0x0A000005#32))

/-- The window of engine n is the 16 MiB from 0xF_FF00_0000_0000 + 0x10_0000_0000 + n × 0x0100_0000; at 0x00_0000, 0x10_0000 and 0x20_0000 of it lie 64 KiB each of program, X and Y memory, whose lines a read returns while the engine is neither OFF nor NOTREADY and stores nothing in the same cycle, and at 0x30_0000 the engine registers. The example: X memory of E517 starts at 0xF_FF12_0510_0000. -/
def Obligations.EngineWindows : Prop :=
  (∀ (n off : Nat),
      n < 768 →
      off < 0x1000000 →
      controlTarget (0xFFF0000000000 + 0x1000000000 + n * 0x1000000 + off) = some (.window n off)) ∧
  (∀ (o : Nat),
      o < 0x10000 →
      winRegion o = some 0 ∧ winRegion (0x100000 + o) = some 1 ∧ winRegion (0x200000 + o) = some 2 ∧ (o < 0x1000 → winRegion (0x300000 + o) = some 3)) ∧
  (∀ (e i : Nat) (s : State),
      let g := engOf s e;
      let x (y : Bool) : BitVec 512 := dataWord g y (2 * i + 1) ++ dataWord g y (2 * i);
      i < 1024 →
      g.state ≠ .off ∧ g.state ≠ .notready →
      g.stored = [] →
      winRead s e (64 * i) (2 ^ 64 - 1) = (s, rOk, progWord g (2 * i + 1) ++ progWord g (2 * i)) ∧
        winRead s e (0x100000 + 64 * i) (2 ^ 64 - 1) = (s, rOk, x false) ∧ winRead s e (0x200000 + 64 * i) (2 ^ 64 - 1) = (s, rOk, x true)) ∧
  (controlTarget 0xFFF1205100000 = some (.window 517 0x100000))

/-- For a mask with 2^k bits set, k from 0 to 4, and a DPA of 52 bits: with m the xor of the k-bit groups of G = DPA[51:8], the channel is the set bit of the mask below which m others are set, and the channel address is DPA[51:8 + k] × 2^8 + DPA[7:0]; the four lines of a run share their channel; a line of an entry is served by that channel at that address. The example of the rule: 0x0_0000_4000_1F40 and the next line. -/
def Obligations.InterleaveChannel : Prop :=
  (∀ (mask k dpa : Nat),
      let m := (List.range 44).foldl (fun a i => a ^^^ (dpa / 2 ^ 8 / 2 ^ (k * i) % 2 ^ k)) 0;
      let c := chanOf mask dpa;
      k ≤ 4 ∧ mask < 2 ^ 16 →
      ((List.range 16).filter mask.testBit).length = 2 ^ k →
      dpa < 2 ^ 52 →
      c < 16 ∧ mask.testBit c = true ∧ ((List.range c).filter mask.testBit).length = m ∧ chanAddr mask dpa = dpa / 2 ^ (8 + k) * 2 ^ 8 + dpa % 2 ^ 8 ∧
        (∀ j, j < 4 → chanOf mask (dpa / 256 * 256 + 64 * j) = c)) ∧
  (∀ (x line : Nat) (s : State),
      let mask := oGet s (O_ISET_MASK (samIset x));
      (refUnder s x line).chan = chanOf mask (line * 64) ∧ (refUnder s x line).n = chanAddr mask (line * 64) / 64) ∧
  (chanOf 0xFFFF 0x40001F40 = 10 ∧ chanAddr 0xFFFF 0x40001F40 = 0x4000140 ∧ sliceOf 0x40001F40 = 61 ∧ chanOf 0xFFFF 0x40001F80 = 10 ∧ sliceOf 0x40001F80 = 62)

/-- A device that takes a member set sets the source count of each cascade port to 512 × the number of the other members whose route ends through that port (rows ASSIGN and ADMIT, and ENUM_ROUND on the master, take it through setMembers). The example: in a full 4 × 4 torus the counts of every device are W 1,024, E 512, N 4,096 and S 2,048. -/
def Obligations.SourceCounts : Prop :=
  (∀ (m : Nat) (p : Fin 4) (s : State),
      let ends (d : Nat) : Bool := d != strapCascId s && m.testBit d && lastPort s 5 d (strapCascId s) == some p.val;
      tabGet (setMembers s m).casc.srcCount p 0 = 512 * ((List.range 16).filter ends).length) ∧
  (∀ (s : State),
      cascDx s = 4 ∧ cascDy s = 4 →
      (setMembers s 0xFFFF).casc.srcCount = [(0, 4096), (1, 512), (2, 2048), (3, 1024)]) ∧
  (∀ (s : State),
      let s1 := setCasc s { s.casc with aligning := true, aligned := false, off20 := 0 };
      cascRuns s = true ∧ strapCascId s ≠ 0 →
      cascDx s = 4 ∧ cascDy s = 4 →
      oGet s O_CASC_STATE = 1 →
      exec (.assign 0xFFFF#16) s = .next (setMembers s1 0xFFFF))
end

