-- ==== Sys2Proof/Laws/State.lean ====
section
/-! SUPPORT. One lemma for each field of State and each update of it, so that no proof unfolds a record update. -/
namespace Sys2Proof.Machine

/-! ### setPwr -/
@[simp] theorem setPwr_pending (s : State) (x : Power) : (setPwr s x).pending = s.pending := by unfold setPwr; rfl
@[simp] theorem setPwr_freeCtr (s : State) (x : Power) : (setPwr s x).freeCtr = s.freeCtr := by unfold setPwr; rfl
@[simp] theorem setPwr_obj (s : State) (x : Power) : (setPwr s x).obj = s.obj := by unfold setPwr; rfl
@[simp] theorem setPwr_ans (s : State) (x : Power) : (setPwr s x).ans = s.ans := by unfold setPwr; rfl
@[simp] theorem setPwr_pwr (s : State) (x : Power) : (setPwr s x).pwr = x := by unfold setPwr; rfl
@[simp] theorem setPwr_vbat (s : State) (x : Power) : (setPwr s x).vbat = s.vbat := by unfold setPwr; rfl
@[simp] theorem setPwr_clk (s : State) (x : Power) : (setPwr s x).clk = s.clk := by unfold setPwr; rfl
@[simp] theorem setPwr_rst (s : State) (x : Power) : (setPwr s x).rst = s.rst := by unfold setPwr; rfl
@[simp] theorem setPwr_fuse (s : State) (x : Power) : (setPwr s x).fuse = s.fuse := by unfold setPwr; rfl
@[simp] theorem setPwr_ld (s : State) (x : Power) : (setPwr s x).ld = s.ld := by unfold setPwr; rfl
@[simp] theorem setPwr_fab (s : State) (x : Power) : (setPwr s x).fab = s.fab := by unfold setPwr; rfl
@[simp] theorem setPwr_mem (s : State) (x : Power) : (setPwr s x).mem = s.mem := by unfold setPwr; rfl
@[simp] theorem setPwr_ten (s : State) (x : Power) : (setPwr s x).ten = s.ten := by unfold setPwr; rfl
@[simp] theorem setPwr_fw (s : State) (x : Power) : (setPwr s x).fw = s.fw := by unfold setPwr; rfl
@[simp] theorem setPwr_vent (s : State) (x : Power) : (setPwr s x).vent = s.vent := by unfold setPwr; rfl
@[simp] theorem setPwr_hub (s : State) (x : Power) : (setPwr s x).hub = s.hub := by unfold setPwr; rfl
@[simp] theorem setPwr_eng (s : State) (x : Power) : (setPwr s x).eng = s.eng := by unfold setPwr; rfl
@[simp] theorem setPwr_lanes (s : State) (x : Power) : (setPwr s x).lanes = s.lanes := by unfold setPwr; rfl
@[simp] theorem setPwr_casc (s : State) (x : Power) : (setPwr s x).casc = s.casc := by unfold setPwr; rfl
@[simp] theorem setPwr_twin (s : State) (x : Power) : (setPwr s x).twin = s.twin := by unfold setPwr; rfl
@[simp] theorem setPwr_ddr (s : State) (x : Power) : (setPwr s x).ddr = s.ddr := by unfold setPwr; rfl
@[simp] theorem setPwr_dbg (s : State) (x : Power) : (setPwr s x).dbg = s.dbg := by unfold setPwr; rfl
@[simp] theorem setPwr_mio (s : State) (x : Power) : (setPwr s x).mio = s.mio := by unfold setPwr; rfl

/-! ### setClk -/
@[simp] theorem setClk_pending (s : State) (x : Clocks) : (setClk s x).pending = s.pending := by unfold setClk; rfl
@[simp] theorem setClk_freeCtr (s : State) (x : Clocks) : (setClk s x).freeCtr = s.freeCtr := by unfold setClk; rfl
@[simp] theorem setClk_obj (s : State) (x : Clocks) : (setClk s x).obj = s.obj := by unfold setClk; rfl
@[simp] theorem setClk_ans (s : State) (x : Clocks) : (setClk s x).ans = s.ans := by unfold setClk; rfl
@[simp] theorem setClk_pwr (s : State) (x : Clocks) : (setClk s x).pwr = s.pwr := by unfold setClk; rfl
@[simp] theorem setClk_vbat (s : State) (x : Clocks) : (setClk s x).vbat = s.vbat := by unfold setClk; rfl
@[simp] theorem setClk_clk (s : State) (x : Clocks) : (setClk s x).clk = x := by unfold setClk; rfl
@[simp] theorem setClk_rst (s : State) (x : Clocks) : (setClk s x).rst = s.rst := by unfold setClk; rfl
@[simp] theorem setClk_fuse (s : State) (x : Clocks) : (setClk s x).fuse = s.fuse := by unfold setClk; rfl
@[simp] theorem setClk_ld (s : State) (x : Clocks) : (setClk s x).ld = s.ld := by unfold setClk; rfl
@[simp] theorem setClk_fab (s : State) (x : Clocks) : (setClk s x).fab = s.fab := by unfold setClk; rfl
@[simp] theorem setClk_mem (s : State) (x : Clocks) : (setClk s x).mem = s.mem := by unfold setClk; rfl
@[simp] theorem setClk_ten (s : State) (x : Clocks) : (setClk s x).ten = s.ten := by unfold setClk; rfl
@[simp] theorem setClk_fw (s : State) (x : Clocks) : (setClk s x).fw = s.fw := by unfold setClk; rfl
@[simp] theorem setClk_vent (s : State) (x : Clocks) : (setClk s x).vent = s.vent := by unfold setClk; rfl
@[simp] theorem setClk_hub (s : State) (x : Clocks) : (setClk s x).hub = s.hub := by unfold setClk; rfl
@[simp] theorem setClk_eng (s : State) (x : Clocks) : (setClk s x).eng = s.eng := by unfold setClk; rfl
@[simp] theorem setClk_lanes (s : State) (x : Clocks) : (setClk s x).lanes = s.lanes := by unfold setClk; rfl
@[simp] theorem setClk_casc (s : State) (x : Clocks) : (setClk s x).casc = s.casc := by unfold setClk; rfl
@[simp] theorem setClk_twin (s : State) (x : Clocks) : (setClk s x).twin = s.twin := by unfold setClk; rfl
@[simp] theorem setClk_ddr (s : State) (x : Clocks) : (setClk s x).ddr = s.ddr := by unfold setClk; rfl
@[simp] theorem setClk_dbg (s : State) (x : Clocks) : (setClk s x).dbg = s.dbg := by unfold setClk; rfl
@[simp] theorem setClk_mio (s : State) (x : Clocks) : (setClk s x).mio = s.mio := by unfold setClk; rfl

/-! ### setRst -/
@[simp] theorem setRst_pending (s : State) (x : ResetUnit) : (setRst s x).pending = s.pending := by unfold setRst; rfl
@[simp] theorem setRst_freeCtr (s : State) (x : ResetUnit) : (setRst s x).freeCtr = s.freeCtr := by unfold setRst; rfl
@[simp] theorem setRst_obj (s : State) (x : ResetUnit) : (setRst s x).obj = s.obj := by unfold setRst; rfl
@[simp] theorem setRst_ans (s : State) (x : ResetUnit) : (setRst s x).ans = s.ans := by unfold setRst; rfl
@[simp] theorem setRst_pwr (s : State) (x : ResetUnit) : (setRst s x).pwr = s.pwr := by unfold setRst; rfl
@[simp] theorem setRst_vbat (s : State) (x : ResetUnit) : (setRst s x).vbat = s.vbat := by unfold setRst; rfl
@[simp] theorem setRst_clk (s : State) (x : ResetUnit) : (setRst s x).clk = s.clk := by unfold setRst; rfl
@[simp] theorem setRst_rst (s : State) (x : ResetUnit) : (setRst s x).rst = x := by unfold setRst; rfl
@[simp] theorem setRst_fuse (s : State) (x : ResetUnit) : (setRst s x).fuse = s.fuse := by unfold setRst; rfl
@[simp] theorem setRst_ld (s : State) (x : ResetUnit) : (setRst s x).ld = s.ld := by unfold setRst; rfl
@[simp] theorem setRst_fab (s : State) (x : ResetUnit) : (setRst s x).fab = s.fab := by unfold setRst; rfl
@[simp] theorem setRst_mem (s : State) (x : ResetUnit) : (setRst s x).mem = s.mem := by unfold setRst; rfl
@[simp] theorem setRst_ten (s : State) (x : ResetUnit) : (setRst s x).ten = s.ten := by unfold setRst; rfl
@[simp] theorem setRst_fw (s : State) (x : ResetUnit) : (setRst s x).fw = s.fw := by unfold setRst; rfl
@[simp] theorem setRst_vent (s : State) (x : ResetUnit) : (setRst s x).vent = s.vent := by unfold setRst; rfl
@[simp] theorem setRst_hub (s : State) (x : ResetUnit) : (setRst s x).hub = s.hub := by unfold setRst; rfl
@[simp] theorem setRst_eng (s : State) (x : ResetUnit) : (setRst s x).eng = s.eng := by unfold setRst; rfl
@[simp] theorem setRst_lanes (s : State) (x : ResetUnit) : (setRst s x).lanes = s.lanes := by unfold setRst; rfl
@[simp] theorem setRst_casc (s : State) (x : ResetUnit) : (setRst s x).casc = s.casc := by unfold setRst; rfl
@[simp] theorem setRst_twin (s : State) (x : ResetUnit) : (setRst s x).twin = s.twin := by unfold setRst; rfl
@[simp] theorem setRst_ddr (s : State) (x : ResetUnit) : (setRst s x).ddr = s.ddr := by unfold setRst; rfl
@[simp] theorem setRst_dbg (s : State) (x : ResetUnit) : (setRst s x).dbg = s.dbg := by unfold setRst; rfl
@[simp] theorem setRst_mio (s : State) (x : ResetUnit) : (setRst s x).mio = s.mio := by unfold setRst; rfl

/-! ### setLd -/
@[simp] theorem setLd_pending (s : State) (x : LoadUnit) : (setLd s x).pending = s.pending := by unfold setLd; rfl
@[simp] theorem setLd_freeCtr (s : State) (x : LoadUnit) : (setLd s x).freeCtr = s.freeCtr := by unfold setLd; rfl
@[simp] theorem setLd_obj (s : State) (x : LoadUnit) : (setLd s x).obj = s.obj := by unfold setLd; rfl
@[simp] theorem setLd_ans (s : State) (x : LoadUnit) : (setLd s x).ans = s.ans := by unfold setLd; rfl
@[simp] theorem setLd_pwr (s : State) (x : LoadUnit) : (setLd s x).pwr = s.pwr := by unfold setLd; rfl
@[simp] theorem setLd_vbat (s : State) (x : LoadUnit) : (setLd s x).vbat = s.vbat := by unfold setLd; rfl
@[simp] theorem setLd_clk (s : State) (x : LoadUnit) : (setLd s x).clk = s.clk := by unfold setLd; rfl
@[simp] theorem setLd_rst (s : State) (x : LoadUnit) : (setLd s x).rst = s.rst := by unfold setLd; rfl
@[simp] theorem setLd_fuse (s : State) (x : LoadUnit) : (setLd s x).fuse = s.fuse := by unfold setLd; rfl
@[simp] theorem setLd_ld (s : State) (x : LoadUnit) : (setLd s x).ld = x := by unfold setLd; rfl
@[simp] theorem setLd_fab (s : State) (x : LoadUnit) : (setLd s x).fab = s.fab := by unfold setLd; rfl
@[simp] theorem setLd_mem (s : State) (x : LoadUnit) : (setLd s x).mem = s.mem := by unfold setLd; rfl
@[simp] theorem setLd_ten (s : State) (x : LoadUnit) : (setLd s x).ten = s.ten := by unfold setLd; rfl
@[simp] theorem setLd_fw (s : State) (x : LoadUnit) : (setLd s x).fw = s.fw := by unfold setLd; rfl
@[simp] theorem setLd_vent (s : State) (x : LoadUnit) : (setLd s x).vent = s.vent := by unfold setLd; rfl
@[simp] theorem setLd_hub (s : State) (x : LoadUnit) : (setLd s x).hub = s.hub := by unfold setLd; rfl
@[simp] theorem setLd_eng (s : State) (x : LoadUnit) : (setLd s x).eng = s.eng := by unfold setLd; rfl
@[simp] theorem setLd_lanes (s : State) (x : LoadUnit) : (setLd s x).lanes = s.lanes := by unfold setLd; rfl
@[simp] theorem setLd_casc (s : State) (x : LoadUnit) : (setLd s x).casc = s.casc := by unfold setLd; rfl
@[simp] theorem setLd_twin (s : State) (x : LoadUnit) : (setLd s x).twin = s.twin := by unfold setLd; rfl
@[simp] theorem setLd_ddr (s : State) (x : LoadUnit) : (setLd s x).ddr = s.ddr := by unfold setLd; rfl
@[simp] theorem setLd_dbg (s : State) (x : LoadUnit) : (setLd s x).dbg = s.dbg := by unfold setLd; rfl
@[simp] theorem setLd_mio (s : State) (x : LoadUnit) : (setLd s x).mio = s.mio := by unfold setLd; rfl

/-! ### setFab -/
@[simp] theorem setFab_pending (s : State) (x : Fabric) : (setFab s x).pending = s.pending := by unfold setFab; rfl
@[simp] theorem setFab_freeCtr (s : State) (x : Fabric) : (setFab s x).freeCtr = s.freeCtr := by unfold setFab; rfl
@[simp] theorem setFab_obj (s : State) (x : Fabric) : (setFab s x).obj = s.obj := by unfold setFab; rfl
@[simp] theorem setFab_ans (s : State) (x : Fabric) : (setFab s x).ans = s.ans := by unfold setFab; rfl
@[simp] theorem setFab_pwr (s : State) (x : Fabric) : (setFab s x).pwr = s.pwr := by unfold setFab; rfl
@[simp] theorem setFab_vbat (s : State) (x : Fabric) : (setFab s x).vbat = s.vbat := by unfold setFab; rfl
@[simp] theorem setFab_clk (s : State) (x : Fabric) : (setFab s x).clk = s.clk := by unfold setFab; rfl
@[simp] theorem setFab_rst (s : State) (x : Fabric) : (setFab s x).rst = s.rst := by unfold setFab; rfl
@[simp] theorem setFab_fuse (s : State) (x : Fabric) : (setFab s x).fuse = s.fuse := by unfold setFab; rfl
@[simp] theorem setFab_ld (s : State) (x : Fabric) : (setFab s x).ld = s.ld := by unfold setFab; rfl
@[simp] theorem setFab_fab (s : State) (x : Fabric) : (setFab s x).fab = x := by unfold setFab; rfl
@[simp] theorem setFab_mem (s : State) (x : Fabric) : (setFab s x).mem = s.mem := by unfold setFab; rfl
@[simp] theorem setFab_ten (s : State) (x : Fabric) : (setFab s x).ten = s.ten := by unfold setFab; rfl
@[simp] theorem setFab_fw (s : State) (x : Fabric) : (setFab s x).fw = s.fw := by unfold setFab; rfl
@[simp] theorem setFab_vent (s : State) (x : Fabric) : (setFab s x).vent = s.vent := by unfold setFab; rfl
@[simp] theorem setFab_hub (s : State) (x : Fabric) : (setFab s x).hub = s.hub := by unfold setFab; rfl
@[simp] theorem setFab_eng (s : State) (x : Fabric) : (setFab s x).eng = s.eng := by unfold setFab; rfl
@[simp] theorem setFab_lanes (s : State) (x : Fabric) : (setFab s x).lanes = s.lanes := by unfold setFab; rfl
@[simp] theorem setFab_casc (s : State) (x : Fabric) : (setFab s x).casc = s.casc := by unfold setFab; rfl
@[simp] theorem setFab_twin (s : State) (x : Fabric) : (setFab s x).twin = s.twin := by unfold setFab; rfl
@[simp] theorem setFab_ddr (s : State) (x : Fabric) : (setFab s x).ddr = s.ddr := by unfold setFab; rfl
@[simp] theorem setFab_dbg (s : State) (x : Fabric) : (setFab s x).dbg = s.dbg := by unfold setFab; rfl
@[simp] theorem setFab_mio (s : State) (x : Fabric) : (setFab s x).mio = s.mio := by unfold setFab; rfl

/-! ### setMem -/
@[simp] theorem setMem_pending (s : State) (x : Memories) : (setMem s x).pending = s.pending := by unfold setMem; rfl
@[simp] theorem setMem_freeCtr (s : State) (x : Memories) : (setMem s x).freeCtr = s.freeCtr := by unfold setMem; rfl
@[simp] theorem setMem_obj (s : State) (x : Memories) : (setMem s x).obj = s.obj := by unfold setMem; rfl
@[simp] theorem setMem_ans (s : State) (x : Memories) : (setMem s x).ans = s.ans := by unfold setMem; rfl
@[simp] theorem setMem_pwr (s : State) (x : Memories) : (setMem s x).pwr = s.pwr := by unfold setMem; rfl
@[simp] theorem setMem_vbat (s : State) (x : Memories) : (setMem s x).vbat = s.vbat := by unfold setMem; rfl
@[simp] theorem setMem_clk (s : State) (x : Memories) : (setMem s x).clk = s.clk := by unfold setMem; rfl
@[simp] theorem setMem_rst (s : State) (x : Memories) : (setMem s x).rst = s.rst := by unfold setMem; rfl
@[simp] theorem setMem_fuse (s : State) (x : Memories) : (setMem s x).fuse = s.fuse := by unfold setMem; rfl
@[simp] theorem setMem_ld (s : State) (x : Memories) : (setMem s x).ld = s.ld := by unfold setMem; rfl
@[simp] theorem setMem_fab (s : State) (x : Memories) : (setMem s x).fab = s.fab := by unfold setMem; rfl
@[simp] theorem setMem_mem (s : State) (x : Memories) : (setMem s x).mem = x := by unfold setMem; rfl
@[simp] theorem setMem_ten (s : State) (x : Memories) : (setMem s x).ten = s.ten := by unfold setMem; rfl
@[simp] theorem setMem_fw (s : State) (x : Memories) : (setMem s x).fw = s.fw := by unfold setMem; rfl
@[simp] theorem setMem_vent (s : State) (x : Memories) : (setMem s x).vent = s.vent := by unfold setMem; rfl
@[simp] theorem setMem_hub (s : State) (x : Memories) : (setMem s x).hub = s.hub := by unfold setMem; rfl
@[simp] theorem setMem_eng (s : State) (x : Memories) : (setMem s x).eng = s.eng := by unfold setMem; rfl
@[simp] theorem setMem_lanes (s : State) (x : Memories) : (setMem s x).lanes = s.lanes := by unfold setMem; rfl
@[simp] theorem setMem_casc (s : State) (x : Memories) : (setMem s x).casc = s.casc := by unfold setMem; rfl
@[simp] theorem setMem_twin (s : State) (x : Memories) : (setMem s x).twin = s.twin := by unfold setMem; rfl
@[simp] theorem setMem_ddr (s : State) (x : Memories) : (setMem s x).ddr = s.ddr := by unfold setMem; rfl
@[simp] theorem setMem_dbg (s : State) (x : Memories) : (setMem s x).dbg = s.dbg := by unfold setMem; rfl
@[simp] theorem setMem_mio (s : State) (x : Memories) : (setMem s x).mio = s.mio := by unfold setMem; rfl

/-! ### setTen -/
@[simp] theorem setTen_pending (s : State) (x : Tenants) : (setTen s x).pending = s.pending := by unfold setTen; rfl
@[simp] theorem setTen_freeCtr (s : State) (x : Tenants) : (setTen s x).freeCtr = s.freeCtr := by unfold setTen; rfl
@[simp] theorem setTen_obj (s : State) (x : Tenants) : (setTen s x).obj = s.obj := by unfold setTen; rfl
@[simp] theorem setTen_ans (s : State) (x : Tenants) : (setTen s x).ans = s.ans := by unfold setTen; rfl
@[simp] theorem setTen_pwr (s : State) (x : Tenants) : (setTen s x).pwr = s.pwr := by unfold setTen; rfl
@[simp] theorem setTen_vbat (s : State) (x : Tenants) : (setTen s x).vbat = s.vbat := by unfold setTen; rfl
@[simp] theorem setTen_clk (s : State) (x : Tenants) : (setTen s x).clk = s.clk := by unfold setTen; rfl
@[simp] theorem setTen_rst (s : State) (x : Tenants) : (setTen s x).rst = s.rst := by unfold setTen; rfl
@[simp] theorem setTen_fuse (s : State) (x : Tenants) : (setTen s x).fuse = s.fuse := by unfold setTen; rfl
@[simp] theorem setTen_ld (s : State) (x : Tenants) : (setTen s x).ld = s.ld := by unfold setTen; rfl
@[simp] theorem setTen_fab (s : State) (x : Tenants) : (setTen s x).fab = s.fab := by unfold setTen; rfl
@[simp] theorem setTen_mem (s : State) (x : Tenants) : (setTen s x).mem = s.mem := by unfold setTen; rfl
@[simp] theorem setTen_ten (s : State) (x : Tenants) : (setTen s x).ten = x := by unfold setTen; rfl
@[simp] theorem setTen_fw (s : State) (x : Tenants) : (setTen s x).fw = s.fw := by unfold setTen; rfl
@[simp] theorem setTen_vent (s : State) (x : Tenants) : (setTen s x).vent = s.vent := by unfold setTen; rfl
@[simp] theorem setTen_hub (s : State) (x : Tenants) : (setTen s x).hub = s.hub := by unfold setTen; rfl
@[simp] theorem setTen_eng (s : State) (x : Tenants) : (setTen s x).eng = s.eng := by unfold setTen; rfl
@[simp] theorem setTen_lanes (s : State) (x : Tenants) : (setTen s x).lanes = s.lanes := by unfold setTen; rfl
@[simp] theorem setTen_casc (s : State) (x : Tenants) : (setTen s x).casc = s.casc := by unfold setTen; rfl
@[simp] theorem setTen_twin (s : State) (x : Tenants) : (setTen s x).twin = s.twin := by unfold setTen; rfl
@[simp] theorem setTen_ddr (s : State) (x : Tenants) : (setTen s x).ddr = s.ddr := by unfold setTen; rfl
@[simp] theorem setTen_dbg (s : State) (x : Tenants) : (setTen s x).dbg = s.dbg := by unfold setTen; rfl
@[simp] theorem setTen_mio (s : State) (x : Tenants) : (setTen s x).mio = s.mio := by unfold setTen; rfl

/-! ### setFw -/
@[simp] theorem setFw_pending (s : State) (x : Firmware) : (setFw s x).pending = s.pending := by unfold setFw; rfl
@[simp] theorem setFw_freeCtr (s : State) (x : Firmware) : (setFw s x).freeCtr = s.freeCtr := by unfold setFw; rfl
@[simp] theorem setFw_obj (s : State) (x : Firmware) : (setFw s x).obj = s.obj := by unfold setFw; rfl
@[simp] theorem setFw_ans (s : State) (x : Firmware) : (setFw s x).ans = s.ans := by unfold setFw; rfl
@[simp] theorem setFw_pwr (s : State) (x : Firmware) : (setFw s x).pwr = s.pwr := by unfold setFw; rfl
@[simp] theorem setFw_vbat (s : State) (x : Firmware) : (setFw s x).vbat = s.vbat := by unfold setFw; rfl
@[simp] theorem setFw_clk (s : State) (x : Firmware) : (setFw s x).clk = s.clk := by unfold setFw; rfl
@[simp] theorem setFw_rst (s : State) (x : Firmware) : (setFw s x).rst = s.rst := by unfold setFw; rfl
@[simp] theorem setFw_fuse (s : State) (x : Firmware) : (setFw s x).fuse = s.fuse := by unfold setFw; rfl
@[simp] theorem setFw_ld (s : State) (x : Firmware) : (setFw s x).ld = s.ld := by unfold setFw; rfl
@[simp] theorem setFw_fab (s : State) (x : Firmware) : (setFw s x).fab = s.fab := by unfold setFw; rfl
@[simp] theorem setFw_mem (s : State) (x : Firmware) : (setFw s x).mem = s.mem := by unfold setFw; rfl
@[simp] theorem setFw_ten (s : State) (x : Firmware) : (setFw s x).ten = s.ten := by unfold setFw; rfl
@[simp] theorem setFw_fw (s : State) (x : Firmware) : (setFw s x).fw = x := by unfold setFw; rfl
@[simp] theorem setFw_vent (s : State) (x : Firmware) : (setFw s x).vent = s.vent := by unfold setFw; rfl
@[simp] theorem setFw_hub (s : State) (x : Firmware) : (setFw s x).hub = s.hub := by unfold setFw; rfl
@[simp] theorem setFw_eng (s : State) (x : Firmware) : (setFw s x).eng = s.eng := by unfold setFw; rfl
@[simp] theorem setFw_lanes (s : State) (x : Firmware) : (setFw s x).lanes = s.lanes := by unfold setFw; rfl
@[simp] theorem setFw_casc (s : State) (x : Firmware) : (setFw s x).casc = s.casc := by unfold setFw; rfl
@[simp] theorem setFw_twin (s : State) (x : Firmware) : (setFw s x).twin = s.twin := by unfold setFw; rfl
@[simp] theorem setFw_ddr (s : State) (x : Firmware) : (setFw s x).ddr = s.ddr := by unfold setFw; rfl
@[simp] theorem setFw_dbg (s : State) (x : Firmware) : (setFw s x).dbg = s.dbg := by unfold setFw; rfl
@[simp] theorem setFw_mio (s : State) (x : Firmware) : (setFw s x).mio = s.mio := by unfold setFw; rfl

/-! ### setVent -/
@[simp] theorem setVent_pending (s : State) (x : Vent) : (setVent s x).pending = s.pending := by unfold setVent; rfl
@[simp] theorem setVent_freeCtr (s : State) (x : Vent) : (setVent s x).freeCtr = s.freeCtr := by unfold setVent; rfl
@[simp] theorem setVent_obj (s : State) (x : Vent) : (setVent s x).obj = s.obj := by unfold setVent; rfl
@[simp] theorem setVent_ans (s : State) (x : Vent) : (setVent s x).ans = s.ans := by unfold setVent; rfl
@[simp] theorem setVent_pwr (s : State) (x : Vent) : (setVent s x).pwr = s.pwr := by unfold setVent; rfl
@[simp] theorem setVent_vbat (s : State) (x : Vent) : (setVent s x).vbat = s.vbat := by unfold setVent; rfl
@[simp] theorem setVent_clk (s : State) (x : Vent) : (setVent s x).clk = s.clk := by unfold setVent; rfl
@[simp] theorem setVent_rst (s : State) (x : Vent) : (setVent s x).rst = s.rst := by unfold setVent; rfl
@[simp] theorem setVent_fuse (s : State) (x : Vent) : (setVent s x).fuse = s.fuse := by unfold setVent; rfl
@[simp] theorem setVent_ld (s : State) (x : Vent) : (setVent s x).ld = s.ld := by unfold setVent; rfl
@[simp] theorem setVent_fab (s : State) (x : Vent) : (setVent s x).fab = s.fab := by unfold setVent; rfl
@[simp] theorem setVent_mem (s : State) (x : Vent) : (setVent s x).mem = s.mem := by unfold setVent; rfl
@[simp] theorem setVent_ten (s : State) (x : Vent) : (setVent s x).ten = s.ten := by unfold setVent; rfl
@[simp] theorem setVent_fw (s : State) (x : Vent) : (setVent s x).fw = s.fw := by unfold setVent; rfl
@[simp] theorem setVent_vent (s : State) (x : Vent) : (setVent s x).vent = x := by unfold setVent; rfl
@[simp] theorem setVent_hub (s : State) (x : Vent) : (setVent s x).hub = s.hub := by unfold setVent; rfl
@[simp] theorem setVent_eng (s : State) (x : Vent) : (setVent s x).eng = s.eng := by unfold setVent; rfl
@[simp] theorem setVent_lanes (s : State) (x : Vent) : (setVent s x).lanes = s.lanes := by unfold setVent; rfl
@[simp] theorem setVent_casc (s : State) (x : Vent) : (setVent s x).casc = s.casc := by unfold setVent; rfl
@[simp] theorem setVent_twin (s : State) (x : Vent) : (setVent s x).twin = s.twin := by unfold setVent; rfl
@[simp] theorem setVent_ddr (s : State) (x : Vent) : (setVent s x).ddr = s.ddr := by unfold setVent; rfl
@[simp] theorem setVent_dbg (s : State) (x : Vent) : (setVent s x).dbg = s.dbg := by unfold setVent; rfl
@[simp] theorem setVent_mio (s : State) (x : Vent) : (setVent s x).mio = s.mio := by unfold setVent; rfl

/-! ### setHub -/
@[simp] theorem setHub_pending (s : State) (x : Hub) : (setHub s x).pending = s.pending := by unfold setHub; rfl
@[simp] theorem setHub_freeCtr (s : State) (x : Hub) : (setHub s x).freeCtr = s.freeCtr := by unfold setHub; rfl
@[simp] theorem setHub_obj (s : State) (x : Hub) : (setHub s x).obj = s.obj := by unfold setHub; rfl
@[simp] theorem setHub_ans (s : State) (x : Hub) : (setHub s x).ans = s.ans := by unfold setHub; rfl
@[simp] theorem setHub_pwr (s : State) (x : Hub) : (setHub s x).pwr = s.pwr := by unfold setHub; rfl
@[simp] theorem setHub_vbat (s : State) (x : Hub) : (setHub s x).vbat = s.vbat := by unfold setHub; rfl
@[simp] theorem setHub_clk (s : State) (x : Hub) : (setHub s x).clk = s.clk := by unfold setHub; rfl
@[simp] theorem setHub_rst (s : State) (x : Hub) : (setHub s x).rst = s.rst := by unfold setHub; rfl
@[simp] theorem setHub_fuse (s : State) (x : Hub) : (setHub s x).fuse = s.fuse := by unfold setHub; rfl
@[simp] theorem setHub_ld (s : State) (x : Hub) : (setHub s x).ld = s.ld := by unfold setHub; rfl
@[simp] theorem setHub_fab (s : State) (x : Hub) : (setHub s x).fab = s.fab := by unfold setHub; rfl
@[simp] theorem setHub_mem (s : State) (x : Hub) : (setHub s x).mem = s.mem := by unfold setHub; rfl
@[simp] theorem setHub_ten (s : State) (x : Hub) : (setHub s x).ten = s.ten := by unfold setHub; rfl
@[simp] theorem setHub_fw (s : State) (x : Hub) : (setHub s x).fw = s.fw := by unfold setHub; rfl
@[simp] theorem setHub_vent (s : State) (x : Hub) : (setHub s x).vent = s.vent := by unfold setHub; rfl
@[simp] theorem setHub_hub (s : State) (x : Hub) : (setHub s x).hub = x := by unfold setHub; rfl
@[simp] theorem setHub_eng (s : State) (x : Hub) : (setHub s x).eng = s.eng := by unfold setHub; rfl
@[simp] theorem setHub_lanes (s : State) (x : Hub) : (setHub s x).lanes = s.lanes := by unfold setHub; rfl
@[simp] theorem setHub_casc (s : State) (x : Hub) : (setHub s x).casc = s.casc := by unfold setHub; rfl
@[simp] theorem setHub_twin (s : State) (x : Hub) : (setHub s x).twin = s.twin := by unfold setHub; rfl
@[simp] theorem setHub_ddr (s : State) (x : Hub) : (setHub s x).ddr = s.ddr := by unfold setHub; rfl
@[simp] theorem setHub_dbg (s : State) (x : Hub) : (setHub s x).dbg = s.dbg := by unfold setHub; rfl
@[simp] theorem setHub_mio (s : State) (x : Hub) : (setHub s x).mio = s.mio := by unfold setHub; rfl

/-! ### setLanes -/
@[simp] theorem setLanes_pending (s : State) (x : Lanes) : (setLanes s x).pending = s.pending := by unfold setLanes; rfl
@[simp] theorem setLanes_freeCtr (s : State) (x : Lanes) : (setLanes s x).freeCtr = s.freeCtr := by unfold setLanes; rfl
@[simp] theorem setLanes_obj (s : State) (x : Lanes) : (setLanes s x).obj = s.obj := by unfold setLanes; rfl
@[simp] theorem setLanes_ans (s : State) (x : Lanes) : (setLanes s x).ans = s.ans := by unfold setLanes; rfl
@[simp] theorem setLanes_pwr (s : State) (x : Lanes) : (setLanes s x).pwr = s.pwr := by unfold setLanes; rfl
@[simp] theorem setLanes_vbat (s : State) (x : Lanes) : (setLanes s x).vbat = s.vbat := by unfold setLanes; rfl
@[simp] theorem setLanes_clk (s : State) (x : Lanes) : (setLanes s x).clk = s.clk := by unfold setLanes; rfl
@[simp] theorem setLanes_rst (s : State) (x : Lanes) : (setLanes s x).rst = s.rst := by unfold setLanes; rfl
@[simp] theorem setLanes_fuse (s : State) (x : Lanes) : (setLanes s x).fuse = s.fuse := by unfold setLanes; rfl
@[simp] theorem setLanes_ld (s : State) (x : Lanes) : (setLanes s x).ld = s.ld := by unfold setLanes; rfl
@[simp] theorem setLanes_fab (s : State) (x : Lanes) : (setLanes s x).fab = s.fab := by unfold setLanes; rfl
@[simp] theorem setLanes_mem (s : State) (x : Lanes) : (setLanes s x).mem = s.mem := by unfold setLanes; rfl
@[simp] theorem setLanes_ten (s : State) (x : Lanes) : (setLanes s x).ten = s.ten := by unfold setLanes; rfl
@[simp] theorem setLanes_fw (s : State) (x : Lanes) : (setLanes s x).fw = s.fw := by unfold setLanes; rfl
@[simp] theorem setLanes_vent (s : State) (x : Lanes) : (setLanes s x).vent = s.vent := by unfold setLanes; rfl
@[simp] theorem setLanes_hub (s : State) (x : Lanes) : (setLanes s x).hub = s.hub := by unfold setLanes; rfl
@[simp] theorem setLanes_eng (s : State) (x : Lanes) : (setLanes s x).eng = s.eng := by unfold setLanes; rfl
@[simp] theorem setLanes_lanes (s : State) (x : Lanes) : (setLanes s x).lanes = x := by unfold setLanes; rfl
@[simp] theorem setLanes_casc (s : State) (x : Lanes) : (setLanes s x).casc = s.casc := by unfold setLanes; rfl
@[simp] theorem setLanes_twin (s : State) (x : Lanes) : (setLanes s x).twin = s.twin := by unfold setLanes; rfl
@[simp] theorem setLanes_ddr (s : State) (x : Lanes) : (setLanes s x).ddr = s.ddr := by unfold setLanes; rfl
@[simp] theorem setLanes_dbg (s : State) (x : Lanes) : (setLanes s x).dbg = s.dbg := by unfold setLanes; rfl
@[simp] theorem setLanes_mio (s : State) (x : Lanes) : (setLanes s x).mio = s.mio := by unfold setLanes; rfl

/-! ### setCasc -/
@[simp] theorem setCasc_pending (s : State) (x : Casc) : (setCasc s x).pending = s.pending := by unfold setCasc; rfl
@[simp] theorem setCasc_freeCtr (s : State) (x : Casc) : (setCasc s x).freeCtr = s.freeCtr := by unfold setCasc; rfl
@[simp] theorem setCasc_obj (s : State) (x : Casc) : (setCasc s x).obj = s.obj := by unfold setCasc; rfl
@[simp] theorem setCasc_ans (s : State) (x : Casc) : (setCasc s x).ans = s.ans := by unfold setCasc; rfl
@[simp] theorem setCasc_pwr (s : State) (x : Casc) : (setCasc s x).pwr = s.pwr := by unfold setCasc; rfl
@[simp] theorem setCasc_vbat (s : State) (x : Casc) : (setCasc s x).vbat = s.vbat := by unfold setCasc; rfl
@[simp] theorem setCasc_clk (s : State) (x : Casc) : (setCasc s x).clk = s.clk := by unfold setCasc; rfl
@[simp] theorem setCasc_rst (s : State) (x : Casc) : (setCasc s x).rst = s.rst := by unfold setCasc; rfl
@[simp] theorem setCasc_fuse (s : State) (x : Casc) : (setCasc s x).fuse = s.fuse := by unfold setCasc; rfl
@[simp] theorem setCasc_ld (s : State) (x : Casc) : (setCasc s x).ld = s.ld := by unfold setCasc; rfl
@[simp] theorem setCasc_fab (s : State) (x : Casc) : (setCasc s x).fab = s.fab := by unfold setCasc; rfl
@[simp] theorem setCasc_mem (s : State) (x : Casc) : (setCasc s x).mem = s.mem := by unfold setCasc; rfl
@[simp] theorem setCasc_ten (s : State) (x : Casc) : (setCasc s x).ten = s.ten := by unfold setCasc; rfl
@[simp] theorem setCasc_fw (s : State) (x : Casc) : (setCasc s x).fw = s.fw := by unfold setCasc; rfl
@[simp] theorem setCasc_vent (s : State) (x : Casc) : (setCasc s x).vent = s.vent := by unfold setCasc; rfl
@[simp] theorem setCasc_hub (s : State) (x : Casc) : (setCasc s x).hub = s.hub := by unfold setCasc; rfl
@[simp] theorem setCasc_eng (s : State) (x : Casc) : (setCasc s x).eng = s.eng := by unfold setCasc; rfl
@[simp] theorem setCasc_lanes (s : State) (x : Casc) : (setCasc s x).lanes = s.lanes := by unfold setCasc; rfl
@[simp] theorem setCasc_casc (s : State) (x : Casc) : (setCasc s x).casc = x := by unfold setCasc; rfl
@[simp] theorem setCasc_twin (s : State) (x : Casc) : (setCasc s x).twin = s.twin := by unfold setCasc; rfl
@[simp] theorem setCasc_ddr (s : State) (x : Casc) : (setCasc s x).ddr = s.ddr := by unfold setCasc; rfl
@[simp] theorem setCasc_dbg (s : State) (x : Casc) : (setCasc s x).dbg = s.dbg := by unfold setCasc; rfl
@[simp] theorem setCasc_mio (s : State) (x : Casc) : (setCasc s x).mio = s.mio := by unfold setCasc; rfl

/-! ### setTwin -/
@[simp] theorem setTwin_pending (s : State) (x : Twin) : (setTwin s x).pending = s.pending := by unfold setTwin; rfl
@[simp] theorem setTwin_freeCtr (s : State) (x : Twin) : (setTwin s x).freeCtr = s.freeCtr := by unfold setTwin; rfl
@[simp] theorem setTwin_obj (s : State) (x : Twin) : (setTwin s x).obj = s.obj := by unfold setTwin; rfl
@[simp] theorem setTwin_ans (s : State) (x : Twin) : (setTwin s x).ans = s.ans := by unfold setTwin; rfl
@[simp] theorem setTwin_pwr (s : State) (x : Twin) : (setTwin s x).pwr = s.pwr := by unfold setTwin; rfl
@[simp] theorem setTwin_vbat (s : State) (x : Twin) : (setTwin s x).vbat = s.vbat := by unfold setTwin; rfl
@[simp] theorem setTwin_clk (s : State) (x : Twin) : (setTwin s x).clk = s.clk := by unfold setTwin; rfl
@[simp] theorem setTwin_rst (s : State) (x : Twin) : (setTwin s x).rst = s.rst := by unfold setTwin; rfl
@[simp] theorem setTwin_fuse (s : State) (x : Twin) : (setTwin s x).fuse = s.fuse := by unfold setTwin; rfl
@[simp] theorem setTwin_ld (s : State) (x : Twin) : (setTwin s x).ld = s.ld := by unfold setTwin; rfl
@[simp] theorem setTwin_fab (s : State) (x : Twin) : (setTwin s x).fab = s.fab := by unfold setTwin; rfl
@[simp] theorem setTwin_mem (s : State) (x : Twin) : (setTwin s x).mem = s.mem := by unfold setTwin; rfl
@[simp] theorem setTwin_ten (s : State) (x : Twin) : (setTwin s x).ten = s.ten := by unfold setTwin; rfl
@[simp] theorem setTwin_fw (s : State) (x : Twin) : (setTwin s x).fw = s.fw := by unfold setTwin; rfl
@[simp] theorem setTwin_vent (s : State) (x : Twin) : (setTwin s x).vent = s.vent := by unfold setTwin; rfl
@[simp] theorem setTwin_hub (s : State) (x : Twin) : (setTwin s x).hub = s.hub := by unfold setTwin; rfl
@[simp] theorem setTwin_eng (s : State) (x : Twin) : (setTwin s x).eng = s.eng := by unfold setTwin; rfl
@[simp] theorem setTwin_lanes (s : State) (x : Twin) : (setTwin s x).lanes = s.lanes := by unfold setTwin; rfl
@[simp] theorem setTwin_casc (s : State) (x : Twin) : (setTwin s x).casc = s.casc := by unfold setTwin; rfl
@[simp] theorem setTwin_twin (s : State) (x : Twin) : (setTwin s x).twin = x := by unfold setTwin; rfl
@[simp] theorem setTwin_ddr (s : State) (x : Twin) : (setTwin s x).ddr = s.ddr := by unfold setTwin; rfl
@[simp] theorem setTwin_dbg (s : State) (x : Twin) : (setTwin s x).dbg = s.dbg := by unfold setTwin; rfl
@[simp] theorem setTwin_mio (s : State) (x : Twin) : (setTwin s x).mio = s.mio := by unfold setTwin; rfl

/-! ### setDdr -/
@[simp] theorem setDdr_pending (s : State) (x : Ddr) : (setDdr s x).pending = s.pending := by unfold setDdr; rfl
@[simp] theorem setDdr_freeCtr (s : State) (x : Ddr) : (setDdr s x).freeCtr = s.freeCtr := by unfold setDdr; rfl
@[simp] theorem setDdr_obj (s : State) (x : Ddr) : (setDdr s x).obj = s.obj := by unfold setDdr; rfl
@[simp] theorem setDdr_ans (s : State) (x : Ddr) : (setDdr s x).ans = s.ans := by unfold setDdr; rfl
@[simp] theorem setDdr_pwr (s : State) (x : Ddr) : (setDdr s x).pwr = s.pwr := by unfold setDdr; rfl
@[simp] theorem setDdr_vbat (s : State) (x : Ddr) : (setDdr s x).vbat = s.vbat := by unfold setDdr; rfl
@[simp] theorem setDdr_clk (s : State) (x : Ddr) : (setDdr s x).clk = s.clk := by unfold setDdr; rfl
@[simp] theorem setDdr_rst (s : State) (x : Ddr) : (setDdr s x).rst = s.rst := by unfold setDdr; rfl
@[simp] theorem setDdr_fuse (s : State) (x : Ddr) : (setDdr s x).fuse = s.fuse := by unfold setDdr; rfl
@[simp] theorem setDdr_ld (s : State) (x : Ddr) : (setDdr s x).ld = s.ld := by unfold setDdr; rfl
@[simp] theorem setDdr_fab (s : State) (x : Ddr) : (setDdr s x).fab = s.fab := by unfold setDdr; rfl
@[simp] theorem setDdr_mem (s : State) (x : Ddr) : (setDdr s x).mem = s.mem := by unfold setDdr; rfl
@[simp] theorem setDdr_ten (s : State) (x : Ddr) : (setDdr s x).ten = s.ten := by unfold setDdr; rfl
@[simp] theorem setDdr_fw (s : State) (x : Ddr) : (setDdr s x).fw = s.fw := by unfold setDdr; rfl
@[simp] theorem setDdr_vent (s : State) (x : Ddr) : (setDdr s x).vent = s.vent := by unfold setDdr; rfl
@[simp] theorem setDdr_hub (s : State) (x : Ddr) : (setDdr s x).hub = s.hub := by unfold setDdr; rfl
@[simp] theorem setDdr_eng (s : State) (x : Ddr) : (setDdr s x).eng = s.eng := by unfold setDdr; rfl
@[simp] theorem setDdr_lanes (s : State) (x : Ddr) : (setDdr s x).lanes = s.lanes := by unfold setDdr; rfl
@[simp] theorem setDdr_casc (s : State) (x : Ddr) : (setDdr s x).casc = s.casc := by unfold setDdr; rfl
@[simp] theorem setDdr_twin (s : State) (x : Ddr) : (setDdr s x).twin = s.twin := by unfold setDdr; rfl
@[simp] theorem setDdr_ddr (s : State) (x : Ddr) : (setDdr s x).ddr = x := by unfold setDdr; rfl
@[simp] theorem setDdr_dbg (s : State) (x : Ddr) : (setDdr s x).dbg = s.dbg := by unfold setDdr; rfl
@[simp] theorem setDdr_mio (s : State) (x : Ddr) : (setDdr s x).mio = s.mio := by unfold setDdr; rfl

/-! ### setDbg -/
@[simp] theorem setDbg_pending (s : State) (x : Debug) : (setDbg s x).pending = s.pending := by unfold setDbg; rfl
@[simp] theorem setDbg_freeCtr (s : State) (x : Debug) : (setDbg s x).freeCtr = s.freeCtr := by unfold setDbg; rfl
@[simp] theorem setDbg_obj (s : State) (x : Debug) : (setDbg s x).obj = s.obj := by unfold setDbg; rfl
@[simp] theorem setDbg_ans (s : State) (x : Debug) : (setDbg s x).ans = s.ans := by unfold setDbg; rfl
@[simp] theorem setDbg_pwr (s : State) (x : Debug) : (setDbg s x).pwr = s.pwr := by unfold setDbg; rfl
@[simp] theorem setDbg_vbat (s : State) (x : Debug) : (setDbg s x).vbat = s.vbat := by unfold setDbg; rfl
@[simp] theorem setDbg_clk (s : State) (x : Debug) : (setDbg s x).clk = s.clk := by unfold setDbg; rfl
@[simp] theorem setDbg_rst (s : State) (x : Debug) : (setDbg s x).rst = s.rst := by unfold setDbg; rfl
@[simp] theorem setDbg_fuse (s : State) (x : Debug) : (setDbg s x).fuse = s.fuse := by unfold setDbg; rfl
@[simp] theorem setDbg_ld (s : State) (x : Debug) : (setDbg s x).ld = s.ld := by unfold setDbg; rfl
@[simp] theorem setDbg_fab (s : State) (x : Debug) : (setDbg s x).fab = s.fab := by unfold setDbg; rfl
@[simp] theorem setDbg_mem (s : State) (x : Debug) : (setDbg s x).mem = s.mem := by unfold setDbg; rfl
@[simp] theorem setDbg_ten (s : State) (x : Debug) : (setDbg s x).ten = s.ten := by unfold setDbg; rfl
@[simp] theorem setDbg_fw (s : State) (x : Debug) : (setDbg s x).fw = s.fw := by unfold setDbg; rfl
@[simp] theorem setDbg_vent (s : State) (x : Debug) : (setDbg s x).vent = s.vent := by unfold setDbg; rfl
@[simp] theorem setDbg_hub (s : State) (x : Debug) : (setDbg s x).hub = s.hub := by unfold setDbg; rfl
@[simp] theorem setDbg_eng (s : State) (x : Debug) : (setDbg s x).eng = s.eng := by unfold setDbg; rfl
@[simp] theorem setDbg_lanes (s : State) (x : Debug) : (setDbg s x).lanes = s.lanes := by unfold setDbg; rfl
@[simp] theorem setDbg_casc (s : State) (x : Debug) : (setDbg s x).casc = s.casc := by unfold setDbg; rfl
@[simp] theorem setDbg_twin (s : State) (x : Debug) : (setDbg s x).twin = s.twin := by unfold setDbg; rfl
@[simp] theorem setDbg_ddr (s : State) (x : Debug) : (setDbg s x).ddr = s.ddr := by unfold setDbg; rfl
@[simp] theorem setDbg_dbg (s : State) (x : Debug) : (setDbg s x).dbg = x := by unfold setDbg; rfl
@[simp] theorem setDbg_mio (s : State) (x : Debug) : (setDbg s x).mio = s.mio := by unfold setDbg; rfl

/-! ### setMio -/
@[simp] theorem setMio_pending (s : State) (x : Mio) : (setMio s x).pending = s.pending := by unfold setMio; rfl
@[simp] theorem setMio_freeCtr (s : State) (x : Mio) : (setMio s x).freeCtr = s.freeCtr := by unfold setMio; rfl
@[simp] theorem setMio_obj (s : State) (x : Mio) : (setMio s x).obj = s.obj := by unfold setMio; rfl
@[simp] theorem setMio_ans (s : State) (x : Mio) : (setMio s x).ans = s.ans := by unfold setMio; rfl
@[simp] theorem setMio_pwr (s : State) (x : Mio) : (setMio s x).pwr = s.pwr := by unfold setMio; rfl
@[simp] theorem setMio_vbat (s : State) (x : Mio) : (setMio s x).vbat = s.vbat := by unfold setMio; rfl
@[simp] theorem setMio_clk (s : State) (x : Mio) : (setMio s x).clk = s.clk := by unfold setMio; rfl
@[simp] theorem setMio_rst (s : State) (x : Mio) : (setMio s x).rst = s.rst := by unfold setMio; rfl
@[simp] theorem setMio_fuse (s : State) (x : Mio) : (setMio s x).fuse = s.fuse := by unfold setMio; rfl
@[simp] theorem setMio_ld (s : State) (x : Mio) : (setMio s x).ld = s.ld := by unfold setMio; rfl
@[simp] theorem setMio_fab (s : State) (x : Mio) : (setMio s x).fab = s.fab := by unfold setMio; rfl
@[simp] theorem setMio_mem (s : State) (x : Mio) : (setMio s x).mem = s.mem := by unfold setMio; rfl
@[simp] theorem setMio_ten (s : State) (x : Mio) : (setMio s x).ten = s.ten := by unfold setMio; rfl
@[simp] theorem setMio_fw (s : State) (x : Mio) : (setMio s x).fw = s.fw := by unfold setMio; rfl
@[simp] theorem setMio_vent (s : State) (x : Mio) : (setMio s x).vent = s.vent := by unfold setMio; rfl
@[simp] theorem setMio_hub (s : State) (x : Mio) : (setMio s x).hub = s.hub := by unfold setMio; rfl
@[simp] theorem setMio_eng (s : State) (x : Mio) : (setMio s x).eng = s.eng := by unfold setMio; rfl
@[simp] theorem setMio_lanes (s : State) (x : Mio) : (setMio s x).lanes = s.lanes := by unfold setMio; rfl
@[simp] theorem setMio_casc (s : State) (x : Mio) : (setMio s x).casc = s.casc := by unfold setMio; rfl
@[simp] theorem setMio_twin (s : State) (x : Mio) : (setMio s x).twin = s.twin := by unfold setMio; rfl
@[simp] theorem setMio_ddr (s : State) (x : Mio) : (setMio s x).ddr = s.ddr := by unfold setMio; rfl
@[simp] theorem setMio_dbg (s : State) (x : Mio) : (setMio s x).dbg = s.dbg := by unfold setMio; rfl
@[simp] theorem setMio_mio (s : State) (x : Mio) : (setMio s x).mio = x := by unfold setMio; rfl

/-! ### setEng -/
@[simp] theorem setEng_pending (s : State) (e : Nat) (g : Engine) : (setEng s e g).pending = s.pending := by unfold setEng; rfl
@[simp] theorem setEng_freeCtr (s : State) (e : Nat) (g : Engine) : (setEng s e g).freeCtr = s.freeCtr := by unfold setEng; rfl
@[simp] theorem setEng_obj (s : State) (e : Nat) (g : Engine) : (setEng s e g).obj = s.obj := by unfold setEng; rfl
@[simp] theorem setEng_ans (s : State) (e : Nat) (g : Engine) : (setEng s e g).ans = s.ans := by unfold setEng; rfl
@[simp] theorem setEng_pwr (s : State) (e : Nat) (g : Engine) : (setEng s e g).pwr = s.pwr := by unfold setEng; rfl
@[simp] theorem setEng_vbat (s : State) (e : Nat) (g : Engine) : (setEng s e g).vbat = s.vbat := by unfold setEng; rfl
@[simp] theorem setEng_clk (s : State) (e : Nat) (g : Engine) : (setEng s e g).clk = s.clk := by unfold setEng; rfl
@[simp] theorem setEng_rst (s : State) (e : Nat) (g : Engine) : (setEng s e g).rst = s.rst := by unfold setEng; rfl
@[simp] theorem setEng_fuse (s : State) (e : Nat) (g : Engine) : (setEng s e g).fuse = s.fuse := by unfold setEng; rfl
@[simp] theorem setEng_ld (s : State) (e : Nat) (g : Engine) : (setEng s e g).ld = s.ld := by unfold setEng; rfl
@[simp] theorem setEng_fab (s : State) (e : Nat) (g : Engine) : (setEng s e g).fab = s.fab := by unfold setEng; rfl
@[simp] theorem setEng_mem (s : State) (e : Nat) (g : Engine) : (setEng s e g).mem = s.mem := by unfold setEng; rfl
@[simp] theorem setEng_ten (s : State) (e : Nat) (g : Engine) : (setEng s e g).ten = s.ten := by unfold setEng; rfl
@[simp] theorem setEng_fw (s : State) (e : Nat) (g : Engine) : (setEng s e g).fw = s.fw := by unfold setEng; rfl
@[simp] theorem setEng_vent (s : State) (e : Nat) (g : Engine) : (setEng s e g).vent = s.vent := by unfold setEng; rfl
@[simp] theorem setEng_hub (s : State) (e : Nat) (g : Engine) : (setEng s e g).hub = s.hub := by unfold setEng; rfl
@[simp] theorem setEng_eng (s : State) (e : Nat) (g : Engine) : (setEng s e g).eng = tabSet s.eng e g {} := by unfold setEng; rfl
@[simp] theorem setEng_lanes (s : State) (e : Nat) (g : Engine) : (setEng s e g).lanes = s.lanes := by unfold setEng; rfl
@[simp] theorem setEng_casc (s : State) (e : Nat) (g : Engine) : (setEng s e g).casc = s.casc := by unfold setEng; rfl
@[simp] theorem setEng_twin (s : State) (e : Nat) (g : Engine) : (setEng s e g).twin = s.twin := by unfold setEng; rfl
@[simp] theorem setEng_ddr (s : State) (e : Nat) (g : Engine) : (setEng s e g).ddr = s.ddr := by unfold setEng; rfl
@[simp] theorem setEng_dbg (s : State) (e : Nat) (g : Engine) : (setEng s e g).dbg = s.dbg := by unfold setEng; rfl
@[simp] theorem setEng_mio (s : State) (e : Nat) (g : Engine) : (setEng s e g).mio = s.mio := by unfold setEng; rfl

/-! ### oSet -/
@[simp] theorem oSet_pending (s : State) (k v : Nat) : (oSet s k v).pending = s.pending := by unfold oSet; rfl
@[simp] theorem oSet_freeCtr (s : State) (k v : Nat) : (oSet s k v).freeCtr = s.freeCtr := by unfold oSet; rfl
@[simp] theorem oSet_obj (s : State) (k v : Nat) : (oSet s k v).obj = tabPut s.obj k v := by unfold oSet; rfl
@[simp] theorem oSet_ans (s : State) (k v : Nat) : (oSet s k v).ans = s.ans := by unfold oSet; rfl
@[simp] theorem oSet_pwr (s : State) (k v : Nat) : (oSet s k v).pwr = s.pwr := by unfold oSet; rfl
@[simp] theorem oSet_vbat (s : State) (k v : Nat) : (oSet s k v).vbat = s.vbat := by unfold oSet; rfl
@[simp] theorem oSet_clk (s : State) (k v : Nat) : (oSet s k v).clk = s.clk := by unfold oSet; rfl
@[simp] theorem oSet_rst (s : State) (k v : Nat) : (oSet s k v).rst = s.rst := by unfold oSet; rfl
@[simp] theorem oSet_fuse (s : State) (k v : Nat) : (oSet s k v).fuse = s.fuse := by unfold oSet; rfl
@[simp] theorem oSet_ld (s : State) (k v : Nat) : (oSet s k v).ld = s.ld := by unfold oSet; rfl
@[simp] theorem oSet_fab (s : State) (k v : Nat) : (oSet s k v).fab = s.fab := by unfold oSet; rfl
@[simp] theorem oSet_mem (s : State) (k v : Nat) : (oSet s k v).mem = s.mem := by unfold oSet; rfl
@[simp] theorem oSet_ten (s : State) (k v : Nat) : (oSet s k v).ten = s.ten := by unfold oSet; rfl
@[simp] theorem oSet_fw (s : State) (k v : Nat) : (oSet s k v).fw = s.fw := by unfold oSet; rfl
@[simp] theorem oSet_vent (s : State) (k v : Nat) : (oSet s k v).vent = s.vent := by unfold oSet; rfl
@[simp] theorem oSet_hub (s : State) (k v : Nat) : (oSet s k v).hub = s.hub := by unfold oSet; rfl
@[simp] theorem oSet_eng (s : State) (k v : Nat) : (oSet s k v).eng = s.eng := by unfold oSet; rfl
@[simp] theorem oSet_lanes (s : State) (k v : Nat) : (oSet s k v).lanes = s.lanes := by unfold oSet; rfl
@[simp] theorem oSet_casc (s : State) (k v : Nat) : (oSet s k v).casc = s.casc := by unfold oSet; rfl
@[simp] theorem oSet_twin (s : State) (k v : Nat) : (oSet s k v).twin = s.twin := by unfold oSet; rfl
@[simp] theorem oSet_ddr (s : State) (k v : Nat) : (oSet s k v).ddr = s.ddr := by unfold oSet; rfl
@[simp] theorem oSet_dbg (s : State) (k v : Nat) : (oSet s k v).dbg = s.dbg := by unfold oSet; rfl
@[simp] theorem oSet_mio (s : State) (k v : Nat) : (oSet s k v).mio = s.mio := by unfold oSet; rfl

/-! ### freeStep -/
@[simp] theorem freeStep_pending (s : State) : (freeStep s).pending = s.pending := by unfold freeStep; rfl
@[simp] theorem freeStep_freeCtr (s : State) : (freeStep s).freeCtr = s.freeCtr + freeBlock := by unfold freeStep; rfl
@[simp] theorem freeStep_obj (s : State) : (freeStep s).obj = s.obj := by unfold freeStep; rfl
@[simp] theorem freeStep_ans (s : State) : (freeStep s).ans = s.ans := by unfold freeStep; rfl
@[simp] theorem freeStep_pwr (s : State) : (freeStep s).pwr = s.pwr := by unfold freeStep; rfl
@[simp] theorem freeStep_vbat (s : State) : (freeStep s).vbat = s.vbat := by unfold freeStep; rfl
@[simp] theorem freeStep_clk (s : State) : (freeStep s).clk = s.clk := by unfold freeStep; rfl
@[simp] theorem freeStep_rst (s : State) : (freeStep s).rst = s.rst := by unfold freeStep; rfl
@[simp] theorem freeStep_fuse (s : State) : (freeStep s).fuse = s.fuse := by unfold freeStep; rfl
@[simp] theorem freeStep_ld (s : State) : (freeStep s).ld = s.ld := by unfold freeStep; rfl
@[simp] theorem freeStep_fab (s : State) : (freeStep s).fab = s.fab := by unfold freeStep; rfl
@[simp] theorem freeStep_mem (s : State) : (freeStep s).mem = s.mem := by unfold freeStep; rfl
@[simp] theorem freeStep_ten (s : State) : (freeStep s).ten = s.ten := by unfold freeStep; rfl
@[simp] theorem freeStep_fw (s : State) : (freeStep s).fw = s.fw := by unfold freeStep; rfl
@[simp] theorem freeStep_vent (s : State) : (freeStep s).vent = s.vent := by unfold freeStep; rfl
@[simp] theorem freeStep_hub (s : State) : (freeStep s).hub = s.hub := by unfold freeStep; rfl
@[simp] theorem freeStep_eng (s : State) : (freeStep s).eng = s.eng := by unfold freeStep; rfl
@[simp] theorem freeStep_lanes (s : State) : (freeStep s).lanes = s.lanes := by unfold freeStep; rfl
@[simp] theorem freeStep_casc (s : State) : (freeStep s).casc = s.casc := by unfold freeStep; rfl
@[simp] theorem freeStep_twin (s : State) : (freeStep s).twin = s.twin := by unfold freeStep; rfl
@[simp] theorem freeStep_ddr (s : State) : (freeStep s).ddr = s.ddr := by unfold freeStep; rfl
@[simp] theorem freeStep_dbg (s : State) : (freeStep s).dbg = s.dbg := by unfold freeStep; rfl
@[simp] theorem freeStep_mio (s : State) : (freeStep s).mio = s.mio := by unfold freeStep; rfl

/-! ### logEvT -/
@[simp] theorem logEvT_pending (s : State) (code sev data ten unit : Nat) : (logEvT s code sev data ten unit).pending = s.pending := by unfold logEvT; rfl
@[simp] theorem logEvT_freeCtr (s : State) (code sev data ten unit : Nat) : (logEvT s code sev data ten unit).freeCtr = s.freeCtr := by unfold logEvT; rfl
@[simp] theorem logEvT_obj (s : State) (code sev data ten unit : Nat) : (logEvT s code sev data ten unit).obj = s.obj := by unfold logEvT; rfl
@[simp] theorem logEvT_ans (s : State) (code sev data ten unit : Nat) : (logEvT s code sev data ten unit).ans = s.ans := by unfold logEvT; rfl
@[simp] theorem logEvT_pwr (s : State) (code sev data ten unit : Nat) : (logEvT s code sev data ten unit).pwr = s.pwr := by unfold logEvT; rfl
@[simp] theorem logEvT_vbat (s : State) (code sev data ten unit : Nat) : (logEvT s code sev data ten unit).vbat = s.vbat := by unfold logEvT; rfl
@[simp] theorem logEvT_clk (s : State) (code sev data ten unit : Nat) : (logEvT s code sev data ten unit).clk = s.clk := by unfold logEvT; rfl
@[simp] theorem logEvT_rst (s : State) (code sev data ten unit : Nat) : (logEvT s code sev data ten unit).rst = s.rst := by unfold logEvT; rfl
@[simp] theorem logEvT_fuse (s : State) (code sev data ten unit : Nat) : (logEvT s code sev data ten unit).fuse = s.fuse := by unfold logEvT; rfl
@[simp] theorem logEvT_ld (s : State) (code sev data ten unit : Nat) : (logEvT s code sev data ten unit).ld = s.ld := by unfold logEvT; rfl
@[simp] theorem logEvT_fab (s : State) (code sev data ten unit : Nat) : (logEvT s code sev data ten unit).fab = s.fab := by unfold logEvT; rfl
@[simp] theorem logEvT_mem (s : State) (code sev data ten unit : Nat) : (logEvT s code sev data ten unit).mem = s.mem := by unfold logEvT; rfl
@[simp] theorem logEvT_ten (s : State) (code sev data ten unit : Nat) : (logEvT s code sev data ten unit).ten = s.ten := by unfold logEvT; rfl
@[simp] theorem logEvT_fw (s : State) (code sev data ten unit : Nat) : (logEvT s code sev data ten unit).fw = pushRec s.fw (mkRec s code sev data ten unit) := by unfold logEvT; rfl
@[simp] theorem logEvT_vent (s : State) (code sev data ten unit : Nat) : (logEvT s code sev data ten unit).vent = s.vent := by unfold logEvT; rfl
@[simp] theorem logEvT_hub (s : State) (code sev data ten unit : Nat) : (logEvT s code sev data ten unit).hub = s.hub := by unfold logEvT; rfl
@[simp] theorem logEvT_eng (s : State) (code sev data ten unit : Nat) : (logEvT s code sev data ten unit).eng = s.eng := by unfold logEvT; rfl
@[simp] theorem logEvT_lanes (s : State) (code sev data ten unit : Nat) : (logEvT s code sev data ten unit).lanes = s.lanes := by unfold logEvT; rfl
@[simp] theorem logEvT_casc (s : State) (code sev data ten unit : Nat) : (logEvT s code sev data ten unit).casc = s.casc := by unfold logEvT; rfl
@[simp] theorem logEvT_twin (s : State) (code sev data ten unit : Nat) : (logEvT s code sev data ten unit).twin = s.twin := by unfold logEvT; rfl
@[simp] theorem logEvT_ddr (s : State) (code sev data ten unit : Nat) : (logEvT s code sev data ten unit).ddr = s.ddr := by unfold logEvT; rfl
@[simp] theorem logEvT_dbg (s : State) (code sev data ten unit : Nat) : (logEvT s code sev data ten unit).dbg = s.dbg := by unfold logEvT; rfl
@[simp] theorem logEvT_mio (s : State) (code sev data ten unit : Nat) : (logEvT s code sev data ten unit).mio = s.mio := by unfold logEvT; rfl

/-! ### logEv -/
@[simp] theorem logEv_pending (s : State) (code sev data : Nat) : (logEv s code sev data).pending = s.pending := by unfold logEv; rfl
@[simp] theorem logEv_freeCtr (s : State) (code sev data : Nat) : (logEv s code sev data).freeCtr = s.freeCtr := by unfold logEv; rfl
@[simp] theorem logEv_obj (s : State) (code sev data : Nat) : (logEv s code sev data).obj = s.obj := by unfold logEv; rfl
@[simp] theorem logEv_ans (s : State) (code sev data : Nat) : (logEv s code sev data).ans = s.ans := by unfold logEv; rfl
@[simp] theorem logEv_pwr (s : State) (code sev data : Nat) : (logEv s code sev data).pwr = s.pwr := by unfold logEv; rfl
@[simp] theorem logEv_vbat (s : State) (code sev data : Nat) : (logEv s code sev data).vbat = s.vbat := by unfold logEv; rfl
@[simp] theorem logEv_clk (s : State) (code sev data : Nat) : (logEv s code sev data).clk = s.clk := by unfold logEv; rfl
@[simp] theorem logEv_rst (s : State) (code sev data : Nat) : (logEv s code sev data).rst = s.rst := by unfold logEv; rfl
@[simp] theorem logEv_fuse (s : State) (code sev data : Nat) : (logEv s code sev data).fuse = s.fuse := by unfold logEv; rfl
@[simp] theorem logEv_ld (s : State) (code sev data : Nat) : (logEv s code sev data).ld = s.ld := by unfold logEv; rfl
@[simp] theorem logEv_fab (s : State) (code sev data : Nat) : (logEv s code sev data).fab = s.fab := by unfold logEv; rfl
@[simp] theorem logEv_mem (s : State) (code sev data : Nat) : (logEv s code sev data).mem = s.mem := by unfold logEv; rfl
@[simp] theorem logEv_ten (s : State) (code sev data : Nat) : (logEv s code sev data).ten = s.ten := by unfold logEv; rfl
@[simp] theorem logEv_fw (s : State) (code sev data : Nat) : (logEv s code sev data).fw = pushRec s.fw (mkRec s code sev data 0 0xFFFF) := by unfold logEv; rfl
@[simp] theorem logEv_vent (s : State) (code sev data : Nat) : (logEv s code sev data).vent = s.vent := by unfold logEv; rfl
@[simp] theorem logEv_hub (s : State) (code sev data : Nat) : (logEv s code sev data).hub = s.hub := by unfold logEv; rfl
@[simp] theorem logEv_eng (s : State) (code sev data : Nat) : (logEv s code sev data).eng = s.eng := by unfold logEv; rfl
@[simp] theorem logEv_lanes (s : State) (code sev data : Nat) : (logEv s code sev data).lanes = s.lanes := by unfold logEv; rfl
@[simp] theorem logEv_casc (s : State) (code sev data : Nat) : (logEv s code sev data).casc = s.casc := by unfold logEv; rfl
@[simp] theorem logEv_twin (s : State) (code sev data : Nat) : (logEv s code sev data).twin = s.twin := by unfold logEv; rfl
@[simp] theorem logEv_ddr (s : State) (code sev data : Nat) : (logEv s code sev data).ddr = s.ddr := by unfold logEv; rfl
@[simp] theorem logEv_dbg (s : State) (code sev data : Nat) : (logEv s code sev data).dbg = s.dbg := by unfold logEv; rfl
@[simp] theorem logEv_mio (s : State) (code sev data : Nat) : (logEv s code sev data).mio = s.mio := by unfold logEv; rfl

/-! ### answer -/
@[simp] theorem answer_pending (s : State) (c : BitVec 32) : (answer s c).pending = s.pending := by unfold answer; rfl
@[simp] theorem answer_freeCtr (s : State) (c : BitVec 32) : (answer s c).freeCtr = s.freeCtr := by unfold answer; rfl
@[simp] theorem answer_obj (s : State) (c : BitVec 32) : (answer s c).obj = s.obj := by unfold answer; rfl
@[simp] theorem answer_ans (s : State) (c : BitVec 32) : (answer s c).ans = { answered := true, abort := c, value := 0, total := 0 } := by unfold answer; rfl
@[simp] theorem answer_pwr (s : State) (c : BitVec 32) : (answer s c).pwr = s.pwr := by unfold answer; rfl
@[simp] theorem answer_vbat (s : State) (c : BitVec 32) : (answer s c).vbat = s.vbat := by unfold answer; rfl
@[simp] theorem answer_clk (s : State) (c : BitVec 32) : (answer s c).clk = s.clk := by unfold answer; rfl
@[simp] theorem answer_rst (s : State) (c : BitVec 32) : (answer s c).rst = s.rst := by unfold answer; rfl
@[simp] theorem answer_fuse (s : State) (c : BitVec 32) : (answer s c).fuse = s.fuse := by unfold answer; rfl
@[simp] theorem answer_ld (s : State) (c : BitVec 32) : (answer s c).ld = s.ld := by unfold answer; rfl
@[simp] theorem answer_fab (s : State) (c : BitVec 32) : (answer s c).fab = s.fab := by unfold answer; rfl
@[simp] theorem answer_mem (s : State) (c : BitVec 32) : (answer s c).mem = s.mem := by unfold answer; rfl
@[simp] theorem answer_ten (s : State) (c : BitVec 32) : (answer s c).ten = s.ten := by unfold answer; rfl
@[simp] theorem answer_fw (s : State) (c : BitVec 32) : (answer s c).fw = s.fw := by unfold answer; rfl
@[simp] theorem answer_vent (s : State) (c : BitVec 32) : (answer s c).vent = s.vent := by unfold answer; rfl
@[simp] theorem answer_hub (s : State) (c : BitVec 32) : (answer s c).hub = s.hub := by unfold answer; rfl
@[simp] theorem answer_eng (s : State) (c : BitVec 32) : (answer s c).eng = s.eng := by unfold answer; rfl
@[simp] theorem answer_lanes (s : State) (c : BitVec 32) : (answer s c).lanes = s.lanes := by unfold answer; rfl
@[simp] theorem answer_casc (s : State) (c : BitVec 32) : (answer s c).casc = s.casc := by unfold answer; rfl
@[simp] theorem answer_twin (s : State) (c : BitVec 32) : (answer s c).twin = s.twin := by unfold answer; rfl
@[simp] theorem answer_ddr (s : State) (c : BitVec 32) : (answer s c).ddr = s.ddr := by unfold answer; rfl
@[simp] theorem answer_dbg (s : State) (c : BitVec 32) : (answer s c).dbg = s.dbg := by unfold answer; rfl
@[simp] theorem answer_mio (s : State) (c : BitVec 32) : (answer s c).mio = s.mio := by unfold answer; rfl

/-! ### unanswered -/
@[simp] theorem unanswered_pending (s : State) : (unanswered s).pending = s.pending := by unfold unanswered; rfl
@[simp] theorem unanswered_freeCtr (s : State) : (unanswered s).freeCtr = s.freeCtr := by unfold unanswered; rfl
@[simp] theorem unanswered_obj (s : State) : (unanswered s).obj = s.obj := by unfold unanswered; rfl
@[simp] theorem unanswered_ans (s : State) : (unanswered s).ans = {} := by unfold unanswered; rfl
@[simp] theorem unanswered_pwr (s : State) : (unanswered s).pwr = s.pwr := by unfold unanswered; rfl
@[simp] theorem unanswered_vbat (s : State) : (unanswered s).vbat = s.vbat := by unfold unanswered; rfl
@[simp] theorem unanswered_clk (s : State) : (unanswered s).clk = s.clk := by unfold unanswered; rfl
@[simp] theorem unanswered_rst (s : State) : (unanswered s).rst = s.rst := by unfold unanswered; rfl
@[simp] theorem unanswered_fuse (s : State) : (unanswered s).fuse = s.fuse := by unfold unanswered; rfl
@[simp] theorem unanswered_ld (s : State) : (unanswered s).ld = s.ld := by unfold unanswered; rfl
@[simp] theorem unanswered_fab (s : State) : (unanswered s).fab = s.fab := by unfold unanswered; rfl
@[simp] theorem unanswered_mem (s : State) : (unanswered s).mem = s.mem := by unfold unanswered; rfl
@[simp] theorem unanswered_ten (s : State) : (unanswered s).ten = s.ten := by unfold unanswered; rfl
@[simp] theorem unanswered_fw (s : State) : (unanswered s).fw = s.fw := by unfold unanswered; rfl
@[simp] theorem unanswered_vent (s : State) : (unanswered s).vent = s.vent := by unfold unanswered; rfl
@[simp] theorem unanswered_hub (s : State) : (unanswered s).hub = s.hub := by unfold unanswered; rfl
@[simp] theorem unanswered_eng (s : State) : (unanswered s).eng = s.eng := by unfold unanswered; rfl
@[simp] theorem unanswered_lanes (s : State) : (unanswered s).lanes = s.lanes := by unfold unanswered; rfl
@[simp] theorem unanswered_casc (s : State) : (unanswered s).casc = s.casc := by unfold unanswered; rfl
@[simp] theorem unanswered_twin (s : State) : (unanswered s).twin = s.twin := by unfold unanswered; rfl
@[simp] theorem unanswered_ddr (s : State) : (unanswered s).ddr = s.ddr := by unfold unanswered; rfl
@[simp] theorem unanswered_dbg (s : State) : (unanswered s).dbg = s.dbg := by unfold unanswered; rfl
@[simp] theorem unanswered_mio (s : State) : (unanswered s).mio = s.mio := by unfold unanswered; rfl

end Sys2Proof.Machine
end

