-- ==== Sys2Proof/Laws/Tab.lean ====
section
/-! SUPPORT. The laws of the sparse tables: what is read after a write, a deletion and a canonical write, and that these keep the
canonical form. -/
namespace Sys2Proof.Machine

variable {α : Type}

@[simp] theorem tabFind_nil (k : Nat) : tabFind ([] : Tab α) k = none := rfl
@[simp] theorem tabGet_nil (k : Nat) (d : α) : tabGet ([] : Tab α) k d = d := rfl
theorem tabFind_tabPut (t : Tab α) (k j : Nat) (v : α) : tabFind (tabPut t k v) j = if j = k then some v else tabFind t j := by
  induction t with
  | nil => simp only [tabPut, tabFind]; split <;> simp_all [eq_comm]
  | cons x r ih =>
    obtain ⟨a, w⟩ := x
    simp only [tabPut]
    split
    · simp only [tabFind]; split <;> simp_all [eq_comm]
    · split
      · subst_vars; simp only [tabFind]; split <;> simp_all [eq_comm]
      · simp only [tabFind, ih]; split
        · subst_vars; simp_all
        · rfl
@[simp] theorem tabFind_tabPut_self (t : Tab α) (k : Nat) (v : α) : tabFind (tabPut t k v) k = some v := by simp [tabFind_tabPut]
theorem tabFind_tabPut_other (t : Tab α) {k j : Nat} (v : α) (h : j ≠ k) : tabFind (tabPut t k v) j = tabFind t j := by
  simp [tabFind_tabPut, h]
theorem tabGet_tabPut (t : Tab α) (k j : Nat) (v d : α) : tabGet (tabPut t k v) j d = if j = k then v else tabGet t j d := by
  simp only [tabGet, tabFind_tabPut]; split <;> rfl
@[simp] theorem tabGet_tabPut_self (t : Tab α) (k : Nat) (v d : α) : tabGet (tabPut t k v) k d = v := by simp [tabGet_tabPut]
theorem tabGet_tabPut_other (t : Tab α) {k j : Nat} (v d : α) (h : j ≠ k) : tabGet (tabPut t k v) j d = tabGet t j d := by
  simp [tabGet_tabPut, h]
theorem tabFind_tabDel (t : Tab α) (k j : Nat) : tabFind (tabDel t k) j = if j = k then none else tabFind t j := by
  induction t with
  | nil => simp [tabDel]
  | cons x r ih =>
    obtain ⟨a, w⟩ := x
    simp only [tabDel, List.filter_cons] at ih ⊢
    split <;> rename_i h <;> simp at h
    · simp only [tabFind]; split
      · subst_vars; simp_all
      · exact ih
    · subst h; simp only [tabFind, ih]; split <;> simp_all [eq_comm]
theorem tabGet_tabDel (t : Tab α) (k j : Nat) (d : α) : tabGet (tabDel t k) j d = if j = k then d else tabGet t j d := by
  simp only [tabGet, tabFind_tabDel]; split <;> rfl
theorem tabGet_tabSet [DecidableEq α] (t : Tab α) (k j : Nat) (v d : α) : tabGet (tabSet t k v d) j d = if j = k then v else tabGet t j d := by
  unfold tabSet; split
  · subst_vars; rw [tabGet_tabDel]
  · rw [tabGet_tabPut]

/-- The key of any entry behind the first is above the first. -/
theorem rising_above (a : Nat) (w : α) (r : Tab α) (h : Tab.rising ((a, w) :: r) = true) : ∀ x ∈ r, a < x.1 := by
  induction r generalizing a w with
  | nil => simp
  | cons y q ih =>
    obtain ⟨b, u⟩ := y
    simp only [Tab.rising, Bool.and_eq_true, decide_eq_true_eq] at h
    have := ih b u (by simp only [Tab.rising, Bool.and_eq_true]; exact h.2)
    intro x hx
    simp only [List.mem_cons] at hx
    rcases hx with rfl | hx
    · exact h.1
    · exact Nat.lt_trans h.1 (this x hx)
/-- Rising, from its parts. -/
theorem rising_cons (a : Nat) (w : α) (r : Tab α) (h : ∀ x ∈ r, a < x.1) (hr : Tab.rising r = true) : Tab.rising ((a, w) :: r) = true := by
  simp only [Tab.rising, Bool.and_eq_true]
  refine ⟨?_, hr⟩
  cases r with
  | nil => rfl
  | cons y q => simpa using h y (by simp)
theorem rising_tail (x : Nat × α) (r : Tab α) (h : Tab.rising (x :: r) = true) : Tab.rising r = true := by
  obtain ⟨a, w⟩ := x; simp only [Tab.rising, Bool.and_eq_true] at h; exact h.2
theorem rising_filter (t : Tab α) (p : Nat × α → Bool) (h : Tab.rising t = true) : Tab.rising (t.filter p) = true := by
  induction t with
  | nil => rfl
  | cons x r ih =>
    obtain ⟨a, w⟩ := x
    have hr := ih (rising_tail _ _ h)
    rw [List.filter_cons]
    split
    · exact rising_cons a w _ (fun y hy => rising_above a w r h y (List.mem_filter.mp hy).1) hr
    · exact hr
theorem rising_tabDel (t : Tab α) (k : Nat) (h : Tab.rising t = true) : Tab.rising (tabDel t k) = true := rising_filter t _ h
theorem mem_tabPut (t : Tab α) (k : Nat) (v : α) (x : Nat × α) (h : x ∈ tabPut t k v) : x = (k, v) ∨ x ∈ t := by
  induction t with
  | nil => simpa [tabPut] using h
  | cons y r ih =>
    obtain ⟨a, w⟩ := y
    simp only [tabPut] at h
    split at h
    · simpa using h
    · split at h
      · simp only [List.mem_cons] at h ⊢; tauto
      · simp only [List.mem_cons] at h ⊢
        rcases h with h | h
        · tauto
        · rcases ih h with h | h <;> tauto
/-- A rising table keeps rising when an entry is put. -/
theorem rising_tabPut (t : Tab α) (k : Nat) (v : α) (h : Tab.rising t = true) : Tab.rising (tabPut t k v) = true := by
  induction t with
  | nil => rfl
  | cons x r ih =>
    obtain ⟨a, w⟩ := x
    have up := rising_above a w r h
    have hr := rising_tail _ _ h
    simp only [tabPut]
    split
    · exact rising_cons k v _ (fun y hy => by
        rcases List.mem_cons.mp hy with rfl | hy
        · assumption
        · exact Nat.lt_trans (by assumption) (up y hy)) h
    · split
      · subst_vars; exact rising_cons _ v _ up hr
      · refine rising_cons a w _ (fun y hy => ?_) (ih hr)
        rcases mem_tabPut r k v y hy with rfl | hy
        · show a < k; omega
        · exact up y hy
/-- A canonical write keeps the canonical form. -/
theorem wf_tabSet [DecidableEq α] (t : Tab α) (k : Nat) (v d : α) (h : Memory.wf t d = true) : Memory.wf (tabSet t k v d) d = true := by
  simp only [Memory.wf, Bool.and_eq_true, List.all_eq_true, decide_eq_true_eq] at h ⊢
  unfold tabSet
  split
  · exact ⟨rising_tabDel t k h.1, fun x hx => h.2 x (List.mem_filter.mp hx).1⟩
  · refine ⟨rising_tabPut t k v h.1, fun x hx => ?_⟩
    rcases mem_tabPut t k v x hx with rfl | hx
    · assumption
    · exact h.2 x hx

end Sys2Proof.Machine
end

