-- ==== Sys2Proof/Laws/Ops.lean ====
section
/-! SUPPORT. What each shared operation over the state can do, said once: object values, accesses, events, memories. -/
namespace Sys2Proof.Machine

/-! ### Object values -/

/-- An object's value depends on the table and the sampled straps alone. -/
theorem oGet_congr {s t : State} (k : Nat) (ho : t.obj = s.obj) (hp : t.pwr.straps = s.pwr.straps) : oGet t k = oGet s k := by
  have : objDefault t k = objDefault s k := by
    unfold objDefault strapRefSel strapRefFreq; rw [hp]
  unfold oGet; rw [ho, this]
theorem oGet_oSet (s : State) (k j v : Nat) : oGet (oSet s k v) j = if j = k then v else oGet s j := by
  by_cases h : j = k
  · subst h; simp [oGet, oSet]
  · have d : objDefault (oSet s k v) j = objDefault s j := rfl
    have f : tabFind (oSet s k v).obj j = tabFind s.obj j := tabFind_tabPut_other s.obj v h
    rw [if_neg h]; unfold oGet; rw [f, d]
@[simp] theorem oGet_oSet_self (s : State) (k v : Nat) : oGet (oSet s k v) k = v := by simp [oGet_oSet]
theorem oGet_oSet_other (s : State) {k j : Nat} (v : Nat) (h : j ≠ k) : oGet (oSet s k v) j = oGet s j := by simp [oGet_oSet, h]
@[simp] theorem oGet_logEv (s : State) (c v d k : Nat) : oGet (logEv s c v d) k = oGet s k := by unfold oGet logEv; rfl
@[simp] theorem oGet_answer (s : State) (c : BitVec 32) (k : Nat) : oGet (answer s c) k = oGet s k := by unfold oGet answer; rfl
@[simp] theorem oGet_setRst (s : State) (x : ResetUnit) (k : Nat) : oGet (setRst s x) k = oGet s k := by unfold oGet setRst; rfl
@[simp] theorem oGet_setClk (s : State) (x : Clocks) (k : Nat) : oGet (setClk s x) k = oGet s k := by unfold oGet setClk; rfl
@[simp] theorem oGet_setHub (s : State) (x : Hub) (k : Nat) : oGet (setHub s x) k = oGet s k := by unfold oGet setHub; rfl
@[simp] theorem oGet_setDdr (s : State) (x : Ddr) (k : Nat) : oGet (setDdr s x) k = oGet s k := by unfold oGet setDdr; rfl
@[simp] theorem oGet_setFw (s : State) (x : Firmware) (k : Nat) : oGet (setFw s x) k = oGet s k := by unfold oGet setFw; rfl
@[simp] theorem oGet_setVent (s : State) (x : Vent) (k : Nat) : oGet (setVent s x) k = oGet s k := by unfold oGet setVent; rfl
@[simp] theorem oGet_setFab (s : State) (x : Fabric) (k : Nat) : oGet (setFab s x) k = oGet s k := by unfold oGet setFab; rfl
@[simp] theorem oGet_setMem (s : State) (x : Memories) (k : Nat) : oGet (setMem s x) k = oGet s k := by unfold oGet setMem; rfl
@[simp] theorem oGet_setTen (s : State) (x : Tenants) (k : Nat) : oGet (setTen s x) k = oGet s k := by unfold oGet setTen; rfl
@[simp] theorem oGet_setLd (s : State) (x : LoadUnit) (k : Nat) : oGet (setLd s x) k = oGet s k := by unfold oGet setLd; rfl
@[simp] theorem oGet_setLanes (s : State) (x : Lanes) (k : Nat) : oGet (setLanes s x) k = oGet s k := by unfold oGet setLanes; rfl
@[simp] theorem oGet_setCasc (s : State) (x : Casc) (k : Nat) : oGet (setCasc s x) k = oGet s k := by unfold oGet setCasc; rfl
@[simp] theorem oGet_setTwin (s : State) (x : Twin) (k : Nat) : oGet (setTwin s x) k = oGet s k := by unfold oGet setTwin; rfl
@[simp] theorem oGet_setDbg (s : State) (x : Debug) (k : Nat) : oGet (setDbg s x) k = oGet s k := by unfold oGet setDbg; rfl
@[simp] theorem oGet_setMio (s : State) (x : Mio) (k : Nat) : oGet (setMio s x) k = oGet s k := by unfold oGet setMio; rfl
@[simp] theorem oGet_setEng (s : State) (e : Nat) (g : Engine) (k : Nat) : oGet (setEng s e g) k = oGet s k := by unfold oGet setEng; rfl
@[simp] theorem oGet_freeStep (s : State) (k : Nat) : oGet (freeStep s) k = oGet s k := by unfold oGet freeStep; rfl
@[simp] theorem oGet_unanswered (s : State) (k : Nat) : oGet (unanswered s) k = oGet s k := by unfold oGet unanswered; rfl

/-! ### Accesses of objects (15 R648) -/

/-- An accepted write is answered with success and has its effect. -/
theorem objWriteG_accepted {s : State} {r : Req} {k len val : Nat} {c : Conds} (rej : BitVec 32 → State → State) (eff : State → State)
    (h : Accepted s r k len val c) : objWriteG r k len val c rej eff s = eff (answer s 0#32) := by
  simp [objWriteG, h.1, h.2]
/-- An aborted write answers its code and does what the owning rule says of an abort. -/
theorem objWriteG_aborted {s : State} {r : Req} {k len val : Nat} {c : Conds} {code : BitVec 32} (rej : BitVec 32 → State → State)
    (eff : State → State) (h : Aborted s r k len val c code) : objWriteG r k len val c rej eff s = rej code (answer s code) := by
  simp [objWriteG, h.1, h.2.1, h.2.2]
/-- A write on a closed path is not answered. -/
theorem objWriteG_closed {s : State} {r : Req} (k len val : Nat) (c : Conds) (rej : BitVec 32 → State → State) (eff : State → State)
    (h : pathOpen s r = false) : objWriteG r k len val c rej eff s = unanswered s := by
  simp [objWriteG, h]
/-- A write has one of three outcomes. -/
theorem objWriteG_cases (s : State) (r : Req) (k len val : Nat) (c : Conds) (rej : BitVec 32 → State → State) (eff : State → State) :
    objWriteG r k len val c rej eff s = unanswered s ∨
    (∃ code, Aborted s r k len val c code ∧ objWriteG r k len val c rej eff s = rej code (answer s code)) ∨
    (Accepted s r k len val c ∧ objWriteG r k len val c rej eff s = eff (answer s 0#32)) := by
  cases hp : pathOpen s r
  · exact .inl (objWriteG_closed k len val c rej eff hp)
  · by_cases hc : checkWrite s r (k / 256) (k % 256) len val c = 0#32
    · exact .inr (.inr ⟨⟨hp, hc⟩, objWriteG_accepted rej eff ⟨hp, hc⟩⟩)
    · exact .inr (.inl ⟨_, ⟨hp, rfl, hc⟩, objWriteG_aborted rej eff ⟨hp, rfl, hc⟩⟩)
theorem objWriteP_accepted {s : State} {r : Req} {k len val : Nat} (eff : State → State) (h : Accepted s r k len val {}) :
    objWriteP r k len val eff s = eff (answer s 0#32) := objWriteG_accepted _ _ h
theorem objWriteP_aborted {s : State} {r : Req} {k len val : Nat} {code : BitVec 32} (eff : State → State) (h : Aborted s r k len val {} code) :
    objWriteP r k len val eff s = answer s code := objWriteG_aborted _ _ h
theorem objWriteP_closed {s : State} {r : Req} (k len val : Nat) (eff : State → State) (h : pathOpen s r = false) :
    objWriteP r k len val eff s = unanswered s := objWriteG_closed k len val _ _ _ h
/-- A read that no check stops. -/
theorem objReadG_readable {s : State} {r : Req} {k : Nat} (len val : Nat) (eff : State → State) (h : Readable s r k) :
    objReadG r k len val eff s = { eff s with ans := { answered := true, abort := 0#32, value := val, total := len } } := by
  simp [objReadG, h.1, h.2]
@[simp] theorem noRej_eq (c : BitVec 32) (s : State) : noRej c s = s := by unfold noRej; rfl

/-! ### Memories -/

/-- What a read of a data memory gives after a write. -/
theorem dataWord_setData (g : Engine) (y z : Bool) (i j : Nat) (v : BitVec 256) :
    dataWord (setData g y i v) z j = if z = y ∧ j = i then v else dataWord g z j := by
  cases y <;> cases z <;> simp [dataWord, setData, tabGet_tabSet]
/-- A write of a data memory or of program memory keeps the canonical form. -/
theorem setData_wf (g : Engine) (y : Bool) (i : Nat) (v : BitVec 256) (hx : Memory.wf g.xmem 0#256 = true) (hy : Memory.wf g.ymem 0#256 = true) :
    Memory.wf (setData g y i v).xmem 0#256 = true ∧ Memory.wf (setData g y i v).ymem 0#256 = true := by
  cases y
  · exact ⟨wf_tabSet _ _ _ _ hx, hy⟩
  · exact ⟨hx, wf_tabSet _ _ _ _ hy⟩
theorem setProg_wf (g : Engine) (i : Nat) (v : BitVec 256) (h : Memory.wf g.prog 0#256 = true) : Memory.wf (setProg g i v).prog 0#256 = true := by
  unfold setProg; split
  · exact h
  · exact wf_tabSet _ _ _ _ h
/-- Programming and erasing the flash keeps the canonical form. -/
theorem flashWrite_wf (f : FlashInfo) (i : Nat) (l : List (BitVec 8)) (h : Memory.wf f.cells 0xFF#8 = true) :
    Memory.wf (flashWrite f i l).cells 0xFF#8 = true := by
  induction l generalizing f i with
  | nil => exact h
  | cons b r ih => exact ih _ _ (wf_tabSet _ _ _ _ h)
theorem flashErase_wf (f : FlashInfo) (i n : Nat) (h : Memory.wf f.cells 0xFF#8 = true) : Memory.wf (flashErase f i n).cells 0xFF#8 = true := by
  simp only [Memory.wf, Bool.and_eq_true, List.all_eq_true, decide_eq_true_eq] at h ⊢
  exact ⟨rising_filter _ _ h.1, fun x hx => h.2 x (List.mem_filter.mp hx).1⟩
/-- A stored word of a block RAM keeps the canonical form. -/
theorem putWord_wf (m : Ram) (i : Nat) (w : RamWord) (h : Memory.wf m.words {} = true) : Memory.wf (putWord m i w).words {} = true :=
  wf_tabSet _ _ _ _ h
/-- The table of engines keeps it. -/
theorem setEng_wf (s : State) (e : Nat) (g : Engine) (h : Memory.wf s.eng {} = true) : Memory.wf (setEng s e g).eng {} = true :=
  wf_tabSet _ _ _ _ h
/-- Nothing is listed at reset. -/
theorem reset_memory_wf : Memory.wf State.reset.eng {} = true ∧ Tab.rising State.reset.mem.rams = true := ⟨rfl, rfl⟩
@[simp] theorem engOf_setEng (s : State) (e : Nat) (g : Engine) : engOf (setEng s e g) e = g := by
  simp [engOf, setEng, tabGet_tabSet]
theorem engOf_setEng_other (s : State) {e f : Nat} (g : Engine) (h : f ≠ e) : engOf (setEng s e g) f = engOf s f := by
  simp [engOf, setEng, tabGet_tabSet, h]

/-- The means of a window in the power objects (02 R90). -/
theorem oGet_storeMeans (s : State) : oGet (storeMeans s) O_PKG_POWER = s.pwr.sumPkg / max 1 s.pwr.samples ∧
    oGet (storeMeans s) O_PKG_POWER_PEAK = max (s.pwr.sumPkg / max 1 s.pwr.samples) (oGet s O_PKG_POWER_PEAK) := by
  simp [storeMeans, List.range, List.range.loop, oGet_oSet, O_PKG_POWER, O_PKG_POWER_PEAK, O_DIE_POWER, O_RAIL_POWER]
/-- Supplies other than the sampled straps have no part in an object's value. -/
theorem oGet_setPwr (s : State) (p : Power) (k : Nat) (h : p.straps = s.pwr.straps) : oGet (setPwr s p) k = oGet s k := oGet_congr k rfl h
/-- The scrambler loses nothing: under one key and tweak no two lines are mixed alike (12 R543). -/
theorem mixLine_injective (key : BitVec 256) (tweak : BitVec 64) : Function.Injective (Config.mixLine key tweak) := (Config.mixer key tweak).injective

end Sys2Proof.Machine
end

