-- ==== Sys2Proof/Laws/Bundle.lean ====
section
/-! SUPPORT. Issue of a bundle: what a row of the instruction set does when its bundle issues, and the decoding of the words that the rows build. -/
namespace Sys2Proof.Machine

/-- A bundle in which no exception applies decodes. -/
theorem decBundle_of_noFault {s : State} {e : Nat} {w : BitVec 64} (h : bundleFault s e w = none) : ∃ b, decBundle w = some b := by
  cases hd : decBundle w with
  | some b => exact ⟨b, rfl⟩
  | none => exfalso; unfold bundleFault at h; rw [hd] at h; simp at h; split at h <;> cases h
theorem toEng_self (s : State) (e : Nat) : toEng s e (engOf s e) = s := by simp [toEng]
@[simp] theorem engOf_toEng (s : State) (e : Nat) (g : Engine) : engOf (toEng s e g) e = g := by
  unfold toEng; split <;> simp_all
theorem passWait_ready {g : Engine} (h : g.wait = 0) : passWait g = g := by
  unfold passWait; rw [h]; simp only [cyclesPass, Nat.sub_zero]; rw [← h]
/-- The row of a bundle that issues has the effect of its bundle. -/
theorem issueRow_issues {s : State} {e : Nat} {w : BitVec 64} (h : Issues s e w) :
    ∃ b, decBundle w = some b ∧ issueRow e w s = applyBundle s e b := by
  obtain ⟨h1, h2, h3, ⟨h4, h5, h6⟩, h7, h8, h9, h10, h11⟩ := h
  obtain ⟨b, hb⟩ := decBundle_of_noFault h9
  refine ⟨b, hb, ?_⟩
  have hg := passWait_ready h4
  have hs : streamBlocked s e b = false := by simpa [hb] using h11
  unfold issueRow
  simp only [h1, h2, h3, Option.isNone_none, Bool.and_self, if_true]
  simp only [hg, toEng_self, h7, h8, h9, Option.isNone_none, Bool.not_false, Bool.true_and, Bool.not_true, Bool.false_eq_true, if_false]
  have hq : (hasCld w && !fromCache (engOf s e) && !(engOf s e).cldPaid) = false := by
    rcases h10 with h | h | h <;> simp [h]
  simp only [hq, hb, Option.bind_some, Bool.false_eq_true, if_false, if_true, h5, h6]
  rcases streamOp b with _ | _ | _ <;> simp only [List.range_zero, List.foldl_nil, toEng_self] <;>
    simp [boundary, h7, h8, issueWord, h9, hb, hs]

/-! ### Words -/

theorem fld_ofNat (n x lo k : Nat) (h : x < 2 ^ n) : fld (BitVec.ofNat n x) lo k = x / 2 ^ lo % 2 ^ k := by
  simp [fld, Nat.mod_eq_of_lt h]
/-- A parallel word with a given M field decodes to a bundle with that operation. -/
theorem decBundle_withM {rest : BitVec 64} {cls m : Nat} {b : Bundle} (hc : cls < 6) (hm : m < 2 ^ 23) (h : decBundle (withM rest cls m) = some b) :
    ∃ p o x y, b = .par p o x y ∧ decM cls (BitVec.ofNat 23 m) = some o := by
  have h1 : fld rest 55 5 < 2 ^ 5 := by unfold fld; omega
  have h2 : fld rest 0 32 < 2 ^ 32 := by unfold fld; omega
  have hw : cls * 2 ^ 60 + fld rest 55 5 * 2 ^ 55 + m * 2 ^ 32 + fld rest 0 32 < 2 ^ 64 := by omega
  have e1 : fld (withM rest cls m) 60 4 = cls := by unfold withM; rw [fld_ofNat _ _ _ _ hw]; omega
  have e2 : fld (withM rest cls m) 32 23 = m := by unfold withM; rw [fld_ofNat _ _ _ _ hw]; omega
  unfold decBundle at h
  simp only [e1, e2, hc, if_true] at h
  split at h
  · rename_i p o x y _ ho _ _
    exact ⟨p, o, x, y, (Option.some.inj h).symm, ho⟩
  · cases h

theorem fmtV_lt {op d a b f : Nat} (ho : op < 128) (hd : d < 32) (ha : a < 32) (hb : b < 32) (hf : f < 2) : fmtV op d a b f < 2 ^ 23 := by
  unfold fmtV; omega
theorem fmtS_lt {op d a sb : Nat} (ho : op < 128) (hd : d < 16) (ha : a < 16) (hb : sb < 256) : fmtS op d a sb < 2 ^ 23 := by
  unfold fmtS; omega
/-- The fields of an M field of format V. -/
theorem fmtV_fields {op d a b f : Nat} (ho : op < 128) (hd : d < 32) (ha : a < 32) (hb : b < 32) (hf : f < 2) :
    fld (BitVec.ofNat 23 (fmtV op d a b f)) 16 7 = op ∧ fld (BitVec.ofNat 23 (fmtV op d a b f)) 18 5 = op / 4 ∧
      fld (BitVec.ofNat 23 (fmtV op d a b f)) 16 2 = op % 4 ∧ fld (BitVec.ofNat 23 (fmtV op d a b f)) 11 5 = d ∧
      fld (BitVec.ofNat 23 (fmtV op d a b f)) 6 5 = a ∧ fld (BitVec.ofNat 23 (fmtV op d a b f)) 1 5 = b ∧
      (BitVec.ofNat 23 (fmtV op d a b f)).getLsbD 0 = (f == 1) ∧ (op ≠ 0 → BitVec.ofNat 23 (fmtV op d a b f) ≠ 0#23) := by
  have h := fmtV_lt ho hd ha hb hf
  refine ⟨?_, ?_, ?_, ?_, ?_, ?_, ?_, ?_⟩
  all_goals try (rw [fld_ofNat _ _ _ _ h]; unfold fmtV; omega)
  · rw [BitVec.getLsbD_ofNat, Nat.testBit_zero]
    have : fmtV op d a b f % 2 = f := by unfold fmtV; omega
    rw [this]; have : f = 0 ∨ f = 1 := by omega
    rcases this with rfl | rfl <;> rfl
  · intro h0 he
    have := congrArg BitVec.toNat he
    rw [BitVec.toNat_ofNat, Nat.mod_eq_of_lt h] at this
    unfold fmtV at this
    have z : (0#23).toNat = 0 := rfl
    omega
/-- The fields of an M field of format S. -/
theorem fmtS_fields {op d a sb : Nat} (ho : op < 128) (hd : d < 16) (ha : a < 16) (hb : sb < 256) :
    fld (BitVec.ofNat 23 (fmtS op d a sb)) 16 7 = op ∧ fld (BitVec.ofNat 23 (fmtS op d a sb)) 12 4 = d ∧
      fld (BitVec.ofNat 23 (fmtS op d a sb)) 8 4 = a ∧ fld (BitVec.ofNat 23 (fmtS op d a sb)) 0 8 = sb ∧
      (op ≠ 0 → BitVec.ofNat 23 (fmtS op d a sb) ≠ 0#23) := by
  have h := fmtS_lt ho hd ha hb
  refine ⟨?_, ?_, ?_, ?_, ?_⟩
  all_goals try (rw [fld_ofNat _ _ _ _ h]; unfold fmtS; omega)
  intro h0 he
  have := congrArg BitVec.toNat he
  rw [BitVec.toNat_ofNat, Nat.mod_eq_of_lt h] at this
  unfold fmtS at this
  have z : (0#23).toNat = 0 := rfl
  omega

section
variable {op k w d a b f : Nat} {o : MOp}
theorem decM_mac (ho : op < 128) (hd : d < 32) (ha : a < 32) (hb : b < 32) (hf : f < 2) (h0 : op ≠ 0)
    (h : decM 0 (BitVec.ofNat 23 (fmtV op d a b f)) = some o) : decMac op d a b (f == 1) = some o := by
  obtain ⟨e1, -, -, e4, e5, e6, e7, e8⟩ := fmtV_fields ho hd ha hb hf
  simpa only [decM, e1, e4, e5, e6, e7, e8 h0, if_false, if_true] using h
theorem decM_valu (hk : k < 32) (hw : w < 4) (hd : d < 32) (ha : a < 32) (hb : b < 32) (hf : f < 2) (h0 : k ≠ 0)
    (h : decM 1 (BitVec.ofNat 23 (fmtV (4 * k + w) d a b f)) = some o) : w ≠ 3 ∧ decValu k w d a b (f == 1) = some o := by
  obtain ⟨e1, e2, e3, e4, e5, e6, e7, e8⟩ := fmtV_fields (by omega : 4 * k + w < 128) hd ha hb hf
  have g2 : (4 * k + w) / 4 = k := by omega
  have g3 : (4 * k + w) % 4 = w := by omega
  simp only [decM, e2, e3, e4, e5, e6, e7, e8 (by omega), g2, g3, if_false, if_true, Nat.one_ne_zero] at h
  split at h
  · cases h
  · exact ⟨by assumption, h⟩
theorem decM_vperm (hk : k < 32) (hw : w < 4) (hd : d < 32) (ha : a < 32) (hb : b < 32) (h0 : k ≠ 0)
    (h : decM 2 (BitVec.ofNat 23 (fmtV (4 * k + w) d a b 0)) = some o) : w ≠ 3 ∧ decVperm k w d a b = some o := by
  obtain ⟨e1, e2, e3, e4, e5, e6, e7, e8⟩ := fmtV_fields (by omega : 4 * k + w < 128) hd ha hb (by omega : 0 < 2)
  have g2 : (4 * k + w) / 4 = k := by omega
  have g3 : (4 * k + w) % 4 = w := by omega
  simp only [decM, e2, e3, e4, e5, e6, e7, e8 (by omega), g2, g3, if_false, if_true, OfNat.ofNat_ne_zero, OfNat.ofNat_ne_one] at h
  split at h
  · cases h
  · rename_i hn; exact ⟨fun e => hn (.inl e), h⟩
theorem decM_vfp (ho : op < 128) (hd : d < 32) (ha : a < 32) (hb : b < 32) (hf : f < 2) (h0 : op ≠ 0)
    (h : decM 3 (BitVec.ofNat 23 (fmtV op d a b f)) = some o) : decVfp op d a b (f == 1) = some o := by
  obtain ⟨e1, -, -, e4, e5, e6, e7, e8⟩ := fmtV_fields ho hd ha hb hf
  simpa [decM, e1, e4, e5, e6, e7, e8 h0, -BitVec.getLsbD_eq_getElem] using h
theorem decM_salu {sb : Nat} (ho : op < 128) (hd : d < 16) (ha : a < 16) (hb : sb < 256) (h0 : op ≠ 0)
    (h : decM 4 (BitVec.ofNat 23 (fmtS op d a sb)) = some o) : decSalu op d a sb = some o := by
  obtain ⟨e1, e2, e3, e4, e5⟩ := fmtS_fields ho hd ha hb
  simpa [decM, e1, e2, e3, e4, e5 h0] using h
theorem decM_move (ho : op < 128) (hd : d < 32) (ha : a < 32) (hb : b < 32) (h0 : op ≠ 0)
    (h : decM 5 (BitVec.ofNat 23 (fmtV op d a b 0)) = some o) : decMove op d a b = some o := by
  obtain ⟨e1, -, -, e4, e5, e6, e7, e8⟩ := fmtV_fields ho hd ha hb (by omega : 0 < 2)
  simpa [decM, e1, e4, e5, e6, e7, e8 h0, -BitVec.getLsbD_eq_getElem] using h
end

end Sys2Proof.Machine
end

