-- ==== Sys2Proof/Laws/Frames.lean ====
section
/-! SUPPORT. Frames of the shared operations: which fields of State each leaves as they are. -/
namespace Sys2Proof.Machine

/-- What every step of a fold keeps, the fold keeps. -/
theorem foldl_keeps {β γ : Type} (g : State → γ) (f : State → β → State) (h : ∀ a b, g (f a b) = g a) (l : List β) (s : State) :
    g (l.foldl f s) = g s := by
  induction l generalizing s with
  | nil => rfl
  | cons x r ih => exact (ih _).trans (h s x)

/-- What none of resets, tenants' rows and loads' aborts changes: the parts of the state that supplies, fuses, hub and links hold. -/
structure SameCore (s t : State) : Prop where
  pending : t.pending = s.pending
  ans : t.ans = s.ans
  pwr : t.pwr = s.pwr
  vbat : t.vbat = s.vbat
  clk : t.clk = s.clk
  rst : t.rst = s.rst
  fuse : t.fuse = s.fuse
  ten : t.ten = s.ten
  hub : t.hub = s.hub
  eng : t.eng = s.eng
  lanes : t.lanes = s.lanes
  casc : t.casc = s.casc
  twin : t.twin = s.twin
  ddr : t.ddr = s.ddr
  dbg : t.dbg = s.dbg
  mio : t.mio = s.mio

theorem SameCore.refl (s : State) : SameCore s s := ⟨rfl, rfl, rfl, rfl, rfl, rfl, rfl, rfl, rfl, rfl, rfl, rfl, rfl, rfl, rfl, rfl⟩
theorem SameCore.trans {s t u : State} (a : SameCore s t) (b : SameCore t u) : SameCore s u :=
  ⟨b.pending.trans a.pending, b.ans.trans a.ans, b.pwr.trans a.pwr, b.vbat.trans a.vbat, b.clk.trans a.clk, b.rst.trans a.rst, b.fuse.trans a.fuse,
    b.ten.trans a.ten, b.hub.trans a.hub, b.eng.trans a.eng, b.lanes.trans a.lanes, b.casc.trans a.casc, b.twin.trans a.twin,
    b.ddr.trans a.ddr, b.dbg.trans a.dbg, b.mio.trans a.mio⟩
theorem SameCore.foldl {β : Type} (f : State → β → State) (h : ∀ a b, SameCore a (f a b)) (l : List β) (s : State) : SameCore s (l.foldl f s) := by
  induction l generalizing s with
  | nil => exact .refl s
  | cons x r ih => exact (h s x).trans (ih _)

theorem sameCore_oSet (s : State) (k v : Nat) : SameCore s (oSet s k v) := ⟨rfl, rfl, rfl, rfl, rfl, rfl, rfl, rfl, rfl, rfl, rfl, rfl, rfl, rfl, rfl, rfl⟩
theorem sameCore_logEvT (s : State) (c v d e u : Nat) : SameCore s (logEvT s c v d e u) :=
  ⟨rfl, rfl, rfl, rfl, rfl, rfl, rfl, rfl, rfl, rfl, rfl, rfl, rfl, rfl, rfl, rfl⟩
theorem sameCore_logEv (s : State) (c v d : Nat) : SameCore s (logEv s c v d) := sameCore_logEvT s c v d 0 0xFFFF
theorem sameCore_setPart (s : State) (p st : Nat) : SameCore s (setPart s p st) :=
  ⟨rfl, rfl, rfl, rfl, rfl, rfl, rfl, rfl, rfl, rfl, rfl, rfl, rfl, rfl, rfl, rfl⟩
theorem sameCore_advanceEpochs (s : State) (ps es : List Nat) : SameCore s (advanceEpochs s ps es) :=
  ⟨rfl, rfl, rfl, rfl, rfl, rfl, rfl, rfl, rfl, rfl, rfl, rfl, rfl, rfl, rfl, rfl⟩
theorem sameCore_wipePart (s : State) (p : Nat) : SameCore s (wipePart s p) :=
  ⟨rfl, rfl, rfl, rfl, rfl, rfl, rfl, rfl, rfl, rfl, rfl, rfl, rfl, rfl, rfl, rfl⟩
theorem sameCore_drainTxs (s : State) (ps es : List Nat) (c : Nat) : SameCore s (drainTxs s ps es c) :=
  ⟨rfl, rfl, rfl, rfl, rfl, rfl, rfl, rfl, rfl, rfl, rfl, rfl, rfl, rfl, rfl, rfl⟩
/-- What an abort undoes lies in the fabric, the engines of a boot load, the objects and the network's buffers. -/
structure SameLinks (s t : State) : Prop where
  pending : t.pending = s.pending
  ans : t.ans = s.ans
  pwr : t.pwr = s.pwr
  vbat : t.vbat = s.vbat
  clk : t.clk = s.clk
  rst : t.rst = s.rst
  fuse : t.fuse = s.fuse
  ten : t.ten = s.ten
  hub : t.hub = s.hub
  lanes : t.lanes = s.lanes
  casc : t.casc = s.casc
  twin : t.twin = s.twin
  ddr : t.ddr = s.ddr
  dbg : t.dbg = s.dbg
  mio : t.mio = s.mio

theorem SameCore.links {s t : State} (a : SameCore s t) : SameLinks s t :=
  ⟨a.pending, a.ans, a.pwr, a.vbat, a.clk, a.rst, a.fuse, a.ten, a.hub, a.lanes, a.casc, a.twin, a.ddr, a.dbg, a.mio⟩
/-- The undoing of an aborted load. -/
theorem sameLinks_abortWipe (s : State) (l : Load) : SameLinks s (abortWipe s l) := by
  have h (x : List Nat) : SameLinks s (x.foldl wipePart s) := (SameCore.foldl _ sameCore_wipePart x s).links
  have g (x : List Nat) : SameLinks s { x.foldl wipePart s with eng := [] } :=
    ⟨(h x).pending, (h x).ans, (h x).pwr, (h x).vbat, (h x).clk, (h x).rst, (h x).fuse, (h x).ten, (h x).hub, (h x).lanes, (h x).casc,
      (h x).twin, (h x).ddr, (h x).dbg, (h x).mio⟩
  unfold abortWipe
  generalize List.range 128 = x
  split
  · exact (SameCore.refl s).links
  · split
    · exact g x
    · exact h _
/-- The abort of a load changes the load unit, the fabric of the partitions it was writing, a boot load's engines and the event log. -/
theorem sameLinks_abortLoad (s : State) (reason : Nat) : SameLinks s (abortLoad s reason) := by
  unfold abortLoad
  split
  · exact (SameCore.refl s).links
  · split
    · exact (SameCore.refl s).links
    · rename_i l _ _
      have c := sameLinks_abortWipe s l
      cases l.follow <;>
        exact ⟨c.pending, c.ans, c.pwr, c.vbat, c.clk, c.rst, c.fuse, c.ten, c.hub, c.lanes, c.casc, c.twin, c.ddr, c.dbg, c.mio⟩

end Sys2Proof.Machine
end

