-- ==== Sys2Proof/Laws/FuseFrames.lean ====
section
/-! SUPPORT. Every operation that no key write, life-cycle transition or boot enters leaves the fuses as they are: one lemma for each. -/
namespace Sys2Proof.Machine
@[simp] theorem foldl_fuse {β : Type} (g : State → β → State) (l : List β) (s : State) (h : ∀ a b, (g a b).fuse = a.fuse) : (l.foldl g s).fuse = s.fuse := by
  induction l generalizing s with
  | nil => rfl
  | cons x r ih => rw [List.foldl_cons, ih, h]
@[simp] theorem ite_fuse (c : Prop) [Decidable c] (a b : State) : (if c then a else b).fuse = if c then a.fuse else b.fuse := by split <;> rfl
@[simp] theorem noRej_fuse (x : BitVec 32) (s : State) : (noRej x s).fuse = s.fuse := by
  unfold noRej
  with_reducible rfl
@[simp] theorem oBump_fuse (s : State) (k n top : Nat) : (oBump s k n top).fuse = s.fuse := by
  unfold oBump; rfl
@[simp] theorem tokenEvent_fuse (s : State) (t : Token) (code data : Nat) : (tokenEvent s t code data).fuse = s.fuse := by
  unfold tokenEvent; simp
@[simp] theorem stepDtime_fuse (s : State) (v : Nat) : (stepDtime s v).fuse = s.fuse := by
  unfold stepDtime; rfl
@[simp] theorem objWriteG_fuse (r : Req) (k len val : Nat) (c : Conds) (rej : BitVec 32 → State → State) (eff : State → State) (s : State) (hrej : ∀ b a, (rej b a).fuse = a.fuse) (heff : ∀ a, (eff a).fuse = a.fuse) : (objWriteG r k len val c rej eff s).fuse = s.fuse := by
  unfold objWriteG; simp [hrej, heff]
@[simp] theorem objWriteP_fuse (r : Req) (k len val : Nat) (eff : State → State) (s : State) (heff : ∀ a, (eff a).fuse = a.fuse) : (objWriteP r k len val eff s).fuse = s.fuse := by
  unfold objWriteP; simp [heff]
@[simp] theorem objReadG_fuse (r : Req) (k len val : Nat) (eff : State → State) (s : State) (heff : ∀ a, (eff a).fuse = a.fuse) : (objReadG r k len val eff s).fuse = s.fuse := by
  unfold objReadG; simp [heff]
@[simp] theorem advanceEpochs_fuse (s : State) (ps es : List Nat) : (advanceEpochs s ps es).fuse = s.fuse := by
  unfold advanceEpochs; rfl
@[simp] theorem setPart_fuse (s : State) (p st : Nat) : (setPart s p st).fuse = s.fuse := by
  unfold setPart; rfl
@[simp] theorem wipePart_fuse (s : State) (p : Nat) : (wipePart s p).fuse = s.fuse := by
  unfold wipePart; rfl
@[simp] theorem abortWipe_fuse (s : State) (l : Load) : (abortWipe s l).fuse = s.fuse := by
  unfold abortWipe; simp
@[simp] theorem abortLoad_fuse (s : State) (reason : Nat) : (abortLoad s reason).fuse = s.fuse := by
  unfold abortLoad; (repeat' split) <;> simp
@[simp] theorem startReset_fuse (s : State) (t source : Nat) : (startReset s t source).fuse = s.fuse := by
  unfold startReset; (repeat' split) <;> simp
@[simp] theorem recordFault_fuse (s : State) (t bit data : Nat) : (recordFault s t bit data).fuse = s.fuse := by
  unfold recordFault; simp
@[simp] theorem coldReset_fuse (s : State) (cause : Nat) : (coldReset s cause).fuse = s.fuse := by
  unfold coldReset; rfl
@[simp] theorem tripHold_fuse (s : State) (site : Nat) : (tripHold s site).fuse = s.fuse := by
  unfold tripHold; simp
@[simp] theorem warmCore_fuse (s : State) : (warmCore s).fuse = s.fuse := by
  unfold warmCore; rfl
@[simp] theorem resetDebug_fuse (s : State) : (resetDebug s).fuse = s.fuse := by
  unfold resetDebug; (repeat' split) <;> simp
@[simp] theorem warmGo_fuse (s : State) (cause : Nat) : (warmGo s cause).fuse = s.fuse := by
  unfold warmGo; simp
@[simp] theorem warmReset_fuse (s : State) (cause : Nat) : (warmReset s cause).fuse = s.fuse := by
  unfold warmReset; simp
@[simp] theorem standbySleep_fuse (s : State) : (standbySleep s).fuse = s.fuse := by
  unfold standbySleep; rfl
@[simp] theorem rcCheck_fuse (s : State) (count : Nat) : (rcCheck s count).fuse = s.fuse := by
  unfold rcCheck; simp
@[simp] theorem syncFrame_fuse (s : State) (code : BitVec 16) : (syncFrame s code).fuse = s.fuse := by
  unfold syncFrame; simp
@[simp] theorem wrRefStatus_fuse (r : Req) (len val : Nat) (s : State) : (wrRefStatus r len val s).fuse = s.fuse := by
  unfold wrRefStatus; simp
@[simp] theorem wrRefReselect_fuse (r : Req) (len val : Nat) (s : State) : (wrRefReselect r len val s).fuse = s.fuse := by
  unfold wrRefReselect; simp
@[simp] theorem chanSleep_fuse (s : State) (u old new : Nat) : (chanSleep s u old new).fuse = s.fuse := by
  unfold chanSleep; simp
@[simp] theorem setEnable_fuse (s0 : State) (u : Nat) : (setEnable s0 u).fuse = s0.fuse := by
  unfold setEnable; simp
@[simp] theorem clearEnable_fuse (s : State) (u : Nat) : (clearEnable s u).fuse = s.fuse := by
  unfold clearEnable; simp
@[simp] theorem answerGated_fuse (s : State) (u : Nat) : (answerGated s u).fuse = s.fuse := by
  unfold answerGated; simp
@[simp] theorem setSynth_fuse (s : State) (i : Nat) (y : Synth) : (setSynth s i y).fuse = s.fuse := by
  unfold setSynth; rfl
@[simp] theorem wrSynthApply_fuse (r : Req) (i len val : Nat) (s : State) : (wrSynthApply r i len val s).fuse = s.fuse := by
  unfold wrSynthApply; simp
@[simp] theorem synthsStop_fuse (s : State) (d : Nat) : (synthsStop s d).fuse = s.fuse := by
  unfold synthsStop; simp
@[simp] theorem synthsRestart_fuse (s : State) (d : Nat) : (synthsRestart s d).fuse = s.fuse := by
  unfold synthsRestart; simp
@[simp] theorem dieReal_fuse (s : State) (d : Nat) : (dieReal s d).fuse = s.fuse := by
  unfold dieReal; simp
@[simp] theorem endAttach_fuse (s : State) : (endAttach s).fuse = s.fuse := by
  unfold endAttach; simp
@[simp] theorem endToken_fuse (s : State) (why : Nat) : (endToken s why).fuse = s.fuse := by
  unfold endToken; split <;> simp
@[simp] theorem powerUp_fuse (s : State) (vaux : Bool) (straps : BitVec 16) : (powerUp s vaux straps).fuse = s.fuse := by
  unfold powerUp; simp
@[simp] theorem effectiveResetEnd_fuse (s : State) (straps : BitVec 16) (rails : BitVec 28) : (effectiveResetEnd s straps rails).fuse = s.fuse := by
  unfold effectiveResetEnd; simp
@[simp] theorem storeMeans_fuse (s : State) : (storeMeans s).fuse = s.fuse := by
  unfold storeMeans; simp
@[simp] theorem powerWindowEnd_fuse (s : State) : (powerWindowEnd s).fuse = s.fuse := by
  unfold powerWindowEnd; simp
@[simp] theorem tamperLoad_fuse (s : State) : (tamperLoad s).fuse = s.fuse := by
  unfold tamperLoad; split <;> simp
@[simp] theorem tamperSets_fuse (s : State) : (tamperSets s).fuse = s.fuse := by
  unfold tamperSets; simp
@[simp] theorem wrVbatLatchClear_fuse (r : Req) (len val : Nat) (tamperHeld : Bool) (s : State) : (wrVbatLatchClear r len val tamperHeld s).fuse = s.fuse := by
  unfold wrVbatLatchClear; simp
@[simp] theorem setLogic_fuse (s : State) (l : Logic) : (setLogic s l).fuse = s.fuse := by
  unfold setLogic; simp
@[simp] theorem settle_fuse (s : State) : (settle s).fuse = s.fuse := by
  unfold settle; simp
@[simp] theorem wrGrstPulse_fuse (r : Req) (len val : Nat) (s : State) : (wrGrstPulse r len val s).fuse = s.fuse := by
  unfold wrGrstPulse; simp
@[simp] theorem holdBack_fuse (s : State) (g : Nat) (l : List Nat) : (holdBack s g l).fuse = s.fuse := by
  induction l generalizing s with
  | nil => rfl
  | cons p r ih => rw [holdBack]; split <;> simp [ih]
@[simp] theorem holdCheck_fuse (s : State) : (holdCheck s).fuse = s.fuse := by
  unfold holdCheck; simp
@[simp] theorem setUser_fuse (s : State) (g : Nat) (t : RTree) (up : Bool) : (setUser s g t up).fuse = s.fuse := by
  unfold setUser; simp
@[simp] theorem treeTick_fuse (s0 s : State) : (treeTick s0 s).fuse = s.fuse := by
  unfold treeTick; simp only [settle_fuse, holdCheck_fuse]
  rw [foldl_fuse]
  · rfl
  · intro a b; split <;> simp
@[simp] theorem scrubCorrect_fuse (s : State) (p frame word : Nat) : (scrubCorrect s p frame word).fuse = s.fuse := by
  unfold scrubCorrect; simp
@[simp] theorem scrubBad_fuse (s : State) (p frame word : Nat) (bad : BitVec 64) : (scrubBad s p frame word bad).fuse = s.fuse := by
  unfold scrubBad; simp
@[simp] theorem scrubCheck_fuse (s : State) (frame word : Nat) (bad : BitVec 64) (passMs : Option (BitVec 32)) : (scrubCheck s frame word bad passMs).fuse = s.fuse := by
  unfold scrubCheck; (repeat' split) <;> simp
@[simp] theorem wrProbeSel_fuse (r : Req) (ch len val : Nat) (s : State) : (wrProbeSel r ch len val s).fuse = s.fuse := by
  unfold wrProbeSel; simp
@[simp] theorem wrProbeRoute_fuse (r : Req) (ch len val : Nat) (s : State) : (wrProbeRoute r ch len val s).fuse = s.fuse := by
  unfold wrProbeRoute; simp
@[simp] theorem wrCapControl_fuse (r : Req) (len val : Nat) (s : State) : (wrCapControl r len val s).fuse = s.fuse := by
  unfold wrCapControl; simp
@[simp] theorem capPush_fuse (s : State) (x : BitVec 64) : (capPush s x).fuse = s.fuse := by
  unfold capPush; simp
@[simp] theorem capEnd_fuse (s : State) : (capEnd s).fuse = s.fuse := by
  unfold capEnd; simp
@[simp] theorem capSample_fuse (s : State) (x : BitVec 64) : (capSample s x).fuse = s.fuse := by
  unfold capSample; simp
@[simp] theorem capFeed_fuse (s : State) (l : List (BitVec 64)) : (capFeed s l).fuse = s.fuse := by
  unfold capFeed; simp
@[simp] theorem onCross_fuse (s : State) (x : XId) (f : XCell → XState) : (onCross s x f).fuse = s.fuse := by
  unfold onCross; (repeat' split) <;> simp
@[simp] theorem setRam_fuse (s : State) (r : RamId) (m : Ram) : (setRam s r m).fuse = s.fuse := by
  unfold setRam; rfl
@[simp] theorem ramCorrected_fuse (s : State) (r : RamId) : (ramCorrected s r).fuse = s.fuse := by
  unfold ramCorrected; simp
@[simp] theorem ramUncorrectable_fuse (s : State) (r : RamId) (a : Nat) : (ramUncorrectable s r a).fuse = s.fuse := by
  unfold ramUncorrectable; simp
@[simp] theorem ramReport_fuse (s : State) (r : RamId) (k a : Nat) : (ramReport s r k a).fuse = s.fuse := by
  unfold ramReport; simp
@[simp] theorem ramRead_fuse (s : State) (r : RamId) (p : Port) (addr reach : Nat) (upset : BitVec 72) : (ramRead s r p addr reach upset).fuse = s.fuse := by
  unfold ramRead; simp
@[simp] theorem ramMerge_fuse (s : State) (r : RamId) (p : Port) (addr reach : Nat) (w : BitVec 64) (en : Nat) (upset inj : BitVec 72) (reads : Bool) : (ramMerge s r p addr reach w en upset inj reads).fuse = s.fuse := by
  unfold ramMerge; simp
@[simp] theorem ramFull_fuse (s : State) (r : RamId) (p : Port) (addr reach : Nat) (w inj : BitVec 72) (reads : Bool) : (ramFull s r p addr reach w inj reads).fuse = s.fuse := by
  unfold ramFull; simp
@[simp] theorem ramPlain_fuse (s : State) (r : RamId) (p : Port) (reach : Nat) (w : BitVec 72) (en : Nat) (reads : Bool) : (ramPlain s r p reach w en reads).fuse = s.fuse := by
  unfold ramPlain; simp
@[simp] theorem ramWrite_fuse (s : State) (r : RamId) (p : Port) (addr reach : Nat) (w : BitVec 72) (en : Nat) (upset inj : BitVec 72) (reads : Bool) : (ramWrite s r p addr reach w en upset inj reads).fuse = s.fuse := by
  unfold ramWrite; simp
@[simp] theorem ramScrub_fuse (s : State) (r : RamId) (upset : BitVec 72) : (ramScrub s r upset).fuse = s.fuse := by
  unfold ramScrub; simp
@[simp] theorem clearRamCounts_fuse (s : State) (p : Nat) : (clearRamCounts s p).fuse = s.fuse := by
  unfold clearRamCounts; rfl
@[simp] theorem wrRamCntClear_fuse (r : Req) (len val : Nat) (s : State) : (wrRamCntClear r len val s).fuse = s.fuse := by
  unfold wrRamCntClear; simp
@[simp] theorem setQb_fuse (s : State) (b : Nat) (q : Qb) : (setQb s b q).fuse = s.fuse := by
  unfold setQb; rfl
@[simp] theorem qbPut_fuse (s : State) (b : Nat) (q : Qb) : (qbPut s b q).fuse = s.fuse := by
  unfold qbPut; simp
@[simp] theorem qbReport_fuse (s : State) (b k : Nat) : (qbReport s b k).fuse = s.fuse := by
  unfold qbReport; simp
@[simp] theorem qbRead_fuse (s : State) (b : Nat) (upset : BitVec 142) (ends : BitVec 3) (adr : BitVec 10) : (qbRead s b upset ends adr).fuse = s.fuse := by
  unfold qbRead; (repeat' split) <;> simp
@[simp] theorem clearQbCounts_fuse (s : State) (b : Nat) : (clearQbCounts s b).fuse = s.fuse := by
  unfold clearQbCounts; rfl
@[simp] theorem wrQbCntClear_fuse (r : Req) (len val : Nat) (s : State) : (wrQbCntClear r len val s).fuse = s.fuse := by
  unfold wrQbCntClear; simp
@[simp] theorem tickQbs_fuse (s : State) : (tickQbs s).fuse = s.fuse := by
  unfold tickQbs; simp
@[simp] theorem qbAttach_fuse (s : State) (b : Nat) (prod cons : QbSide) : (qbAttach s b prod cons).fuse = s.fuse := by
  unfold qbAttach; (repeat' split) <;> simp
@[simp] theorem applyItem_fuse (s : State) (i : DesignItem) : (applyItem s i).fuse = s.fuse := by
  unfold applyItem; (repeat' split) <;> simp
@[simp] theorem engEvent_fuse (s : State) (e code sev data : Nat) : (engEvent s e code sev data).fuse = s.fuse := by
  unfold engEvent; rfl
@[simp] theorem debugEntry_fuse (s : State) (e cause idx : Nat) : (debugEntry s e cause idx).fuse = s.fuse := by
  unfold debugEntry; simp
@[simp] theorem engException_fuse (s : State) (e code : Nat) : (engException s e code).fuse = s.fuse := by
  unfold engException; simp
@[simp] theorem streamMove_fuse (s : State) (e : Nat) (b : Bundle) : (streamMove s e b).1.fuse = s.fuse := by
  unfold streamMove; (repeat' split) <;> simp
@[simp] theorem applyBundle_fuse (s : State) (e : Nat) (b : Bundle) : (applyBundle s e b).fuse = s.fuse := by
  unfold applyBundle; simp
@[simp] theorem linkRefusal_fuse (s : State) (e : Nat) (b : Bundle) : (linkRefusal s e b).fuse = s.fuse := by
  unfold linkRefusal; split <;> simp
@[simp] theorem issueWord_fuse (s : State) (e : Nat) (w : BitVec 64) : (issueWord s e w).fuse = s.fuse := by
  unfold issueWord; split <;> simp
@[simp] theorem boundary_fuse (s : State) (e : Nat) (w : BitVec 64) : (boundary s e w).fuse = s.fuse := by
  unfold boundary; dsimp only; split <;> simp
@[simp] theorem engWake_fuse (s : State) (e : Nat) : (engWake s e).fuse = s.fuse := by
  unfold engWake; dsimp only; split <;> simp
@[simp] theorem freshCycle_fuse (s : State) (e : Nat) : (freshCycle s e).fuse = s.fuse := by
  unfold freshCycle; simp
@[simp] theorem engCycle_fuse (s0 : State) (e : Nat) (held : Bool) : (engCycle s0 e held).fuse = s0.fuse := by
  unfold engCycle
  repeat' first | with_reducible rfl | (simp; done) | split | (dsimp only; split)
@[simp] theorem toEng_fuse (s : State) (e : Nat) (g : Engine) : (toEng s e g).fuse = s.fuse := by
  unfold toEng; simp
@[simp] theorem issueRow_fuse (e : Nat) (w : BitVec 64) (s : State) : (issueRow e w s).fuse = s.fuse := by
  unfold issueRow; simp
@[simp] theorem engHalt_fuse (s : State) (e : Nat) : (engHalt s e).fuse = s.fuse := by
  unfold engHalt
  repeat' first | with_reducible rfl | (simp; done) | split | (dsimp only; split)
@[simp] theorem engCommand_fuse (s : State) (e code : Nat) : (engCommand s e code).fuse = s.fuse := by
  unfold engCommand; split <;> simp
@[simp] theorem wrEngCommand_fuse (r : Req) (e len val : Nat) (s : State) : (wrEngCommand r e len val s).fuse = s.fuse := by
  unfold wrEngCommand; simp
@[simp] theorem wipeEng_fuse (s : State) (e : Nat) : (wipeEng s e).fuse = s.fuse := by
  unfold wipeEng; simp
@[simp] theorem engNotReady_fuse (s : State) (e : Nat) : (engNotReady s e).fuse = s.fuse := by
  unfold engNotReady; simp
@[simp] theorem setDma_fuse (s : State) (e c : Nat) (d : Dma) : (setDma s e c d).fuse = s.fuse := by
  unfold setDma; rfl
@[simp] theorem dmaEvent_fuse (s : State) (e c resp : Nat) : (dmaEvent s e c resp).fuse = s.fuse := by
  unfold dmaEvent; rfl
@[simp] theorem dmaSettle_fuse (s : State) (e c : Nat) : (dmaSettle s e c).fuse = s.fuse := by
  unfold dmaSettle; simp
@[simp] theorem dmaStart_fuse (s : State) (e c : Nat) : (dmaStart s e c).fuse = s.fuse := by
  unfold dmaStart; simp
@[simp] theorem dmaCtrlWrite_fuse (s : State) (e c val mask : Nat) : (dmaCtrlWrite s e c val mask).1.fuse = s.fuse := by
  unfold dmaCtrlWrite; dsimp only; split <;> simp
@[simp] theorem engSlotWrite_fuse (s : State) (e o val mask : Nat) : (engSlotWrite s e o val mask).1.fuse = s.fuse := by
  unfold engSlotWrite
  dsimp only
  by_cases h : 256 ≤ o ∧ o < 512
  · rw [if_pos h]
    split <;> simp
  · rw [if_neg h]
    repeat' (first | with_reducible rfl | (simp; done) | split | rw [apply_ite Prod.fst, apply_ite State.fuse])
@[simp] theorem winClosed_fuse (s : State) (e : Nat) (write : Bool) (off be : Nat) (data : BitVec 512) : (winClosed s e write off be data).1.fuse = s.fuse := by
  unfold winClosed
  repeat' first | with_reducible rfl | (simp; done) | split | (dsimp only; split)
theorem slots_fuse (s : State) (e be : Nat) (data : BitVec 512) (b : Bool) (l : List Nat) :
    (l.foldl (fun (a : State × Bool) o =>
      ((engSlotWrite a.1 e o (fld data (8 * (o % 64)) 64) (byteMask 8 (be / 2 ^ (o % 64) % 256))).1,
        a.2 && (engSlotWrite a.1 e o (fld data (8 * (o % 64)) 64) (byteMask 8 (be / 2 ^ (o % 64) % 256))).2)) (s, b)).1.fuse = s.fuse := by
  induction l generalizing s b with
  | nil => rfl
  | cons x r ih => rw [List.foldl_cons, ih]; simp
@[simp] theorem winWrite_fuse (s : State) (e off be : Nat) (data : BitVec 512) : (winWrite s e off be data).1.fuse = s.fuse := by
  unfold winWrite
  dsimp only
  repeat' split
  all_goals first | rfl | (simp; done) | exact slots_fuse s e be data true _
@[simp] theorem winRead_fuse (s : State) (e off be : Nat) : (winRead s e off be).1.fuse = s.fuse := by
  unfold winRead
  repeat' first | with_reducible rfl | (simp; done) | split | (dsimp only; split)
@[simp] theorem winReg_fuse (s : State) (e o : Nat) (wide write : Bool) (v : Nat) : (winReg s e o wide write v).fuse = s.fuse := by
  unfold winReg; simp
@[simp] theorem inboxWrite_fuse (s : State) (e line : Nat) (data : BitVec 512) : (inboxWrite s e line data).1.fuse = s.fuse := by
  unfold inboxWrite
  repeat' first | with_reducible rfl | (simp; done) | split | (dsimp only; split)
@[simp] theorem headerBad_fuse (s : State) (p : Pkt) (vn src at_ : Nat) : (headerBad s p vn src at_).fuse = s.fuse := by
  unfold headerBad; simp
@[simp] theorem headerOk_fuse (s : State) (p : Pkt) : (headerOk s p).fuse = s.fuse := by
  unfold headerOk; simp
@[simp] theorem packetOdd_fuse (s : State) (cmd vn at_ : Nat) : (packetOdd s cmd vn at_).fuse = s.fuse := by
  unfold packetOdd; simp
@[simp] theorem packet_fuse (s : State) (p : Pkt) (vn cmd src at_ : Nat) (lose : Bool → State → State) (take : State → State) (hlose : ∀ b a, (lose b a).fuse = a.fuse) (htake : ∀ a, (take a).fuse = a.fuse) : (packet s p vn cmd src at_ lose take).fuse = s.fuse := by
  unfold packet; (repeat' split) <;> simp [hlose, htake]
@[simp] theorem putTx_fuse (s : State) (k : Nat) (t : Tx) : (putTx s k t).fuse = s.fuse := by
  unfold putTx; rfl
@[simp] theorem dropTx_fuse (s : State) (k : Nat) : (dropTx s k).fuse = s.fuse := by
  unfold dropTx; rfl
@[simp] theorem setChan_fuse (s : State) (c : Nat) (x : Chan) : (setChan s c x).fuse = s.fuse := by
  unfold setChan; rfl
@[simp] theorem ddrEv_fuse (s : State) (code sev data c : Nat) : (ddrEv s code sev data c).fuse = s.fuse := by
  unfold ddrEv; rfl
@[simp] theorem chanFail_fuse (s : State) (c code : Nat) : (chanFail s c code).fuse = s.fuse := by
  unfold chanFail; simp
@[simp] theorem fullTraining_fuse (s : State) (c : Nat) : (fullTraining s c).fuse = s.fuse := by
  unfold fullTraining; rfl
@[simp] theorem sizingDone_fuse (s : State) (c z : Nat) : (sizingDone s c z).fuse = s.fuse := by
  unfold sizingDone
  repeat' first | with_reducible rfl | (simp; done) | split | (dsimp only; split)
@[simp] theorem attemptDone_fuse (s : State) (c : Nat) (result : DdrTry) : (attemptDone s c result).fuse = s.fuse := by
  unfold attemptDone; split <;> simp
@[simp] theorem storeRec_fuse (s : State) (c r : Nat) : (storeRec s c r).fuse = s.fuse := by
  unfold storeRec; simp
@[simp] theorem storeRecs_fuse (s : State) (c : Nat) : (storeRecs s c).fuse = s.fuse := by
  unfold storeRecs; simp
@[simp] theorem startWalk_fuse (s : State) (c r : Nat) : (startWalk s c r).fuse = s.fuse := by
  unfold startWalk; rfl
@[simp] theorem nextWalk_fuse (s : State) (c : Nat) : (nextWalk s c).fuse = s.fuse := by
  unfold nextWalk; (repeat' split) <;> simp
@[simp] theorem channelReady_fuse (s : State) (c : Nat) (bad : List (Fin 512)) : (channelReady s c bad).fuse = s.fuse := by
  unfold channelReady; simp
@[simp] theorem noteBeyond_fuse (s : State) (c ca : Nat) : (noteBeyond s c ca).fuse = s.fuse := by
  unfold noteBeyond; simp
@[simp] theorem touchBank_fuse (s : State) (c n hint : Nat) : (touchBank s c n hint).fuse = s.fuse := by
  unfold touchBank; rfl
@[simp] theorem eccDetected_fuse (s : State) (c n : Nat) : (eccDetected s c n).fuse = s.fuse := by
  unfold eccDetected; rfl
@[simp] theorem eccCorrected_fuse (s : State) (c : Nat) : (eccCorrected s c).fuse = s.fuse := by
  unfold eccCorrected; simp
@[simp] theorem ddrRead_fuse (s : State) (c n up hint : Nat) : (ddrRead s c n up hint).1.fuse = s.fuse := by
  unfold ddrRead
  repeat' first | with_reducible rfl | (simp; done) | split | (dsimp only; split)
@[simp] theorem requestAdvance_fuse (s : State) (c r : Nat) : (requestAdvance s c r).fuse = s.fuse := by
  unfold requestAdvance
  repeat' first | with_reducible rfl | (simp; done) | split | (dsimp only; split)
@[simp] theorem tweakReuse_fuse (s : State) (c r : Nat) : (tweakReuse s c r).fuse = s.fuse := by
  unfold tweakReuse; simp
@[simp] theorem counterLost_fuse (s : State) (c i : Nat) : (counterLost s c i).fuse = s.fuse := by
  unfold counterLost; simp
@[simp] theorem counterRead_fuse (s : State) (c i up : Nat) : (counterRead s c i up).fuse = s.fuse := by
  unfold counterRead; (repeat' split) <;> simp
@[simp] theorem counterTouch_fuse (s : State) (c i : Nat) (dirty : Bool) (up : Nat) : (counterTouch s c i dirty up).fuse = s.fuse := by
  unfold counterTouch; simp
@[simp] theorem countWrite_fuse (s : State) (c n up : Nat) : (countWrite s c n up).fuse = s.fuse := by
  unfold countWrite; simp
@[simp] theorem ddrWrite_fuse (s : State) (c n : Nat) (data : BitVec 512) (poison : Bool) (up hint : Nat) : (ddrWrite s c n data poison up hint).fuse = s.fuse := by
  unfold ddrWrite; simp
@[simp] theorem ddrServe_fuse (s : State) (c n up hint : Nat) : (ddrServe s c n up hint).1.fuse = s.fuse := by
  unfold ddrServe; simp
@[simp] theorem ddrNarrow_fuse (s : State) (c n : Nat) (data mask : BitVec 512) (poison : Bool) (up hint : Nat) : (ddrNarrow s c n data mask poison up hint).1.fuse = s.fuse := by
  unfold ddrNarrow; dsimp only; split <;> simp
@[simp] theorem convertLine_fuse (s : State) (c n up : Nat) : (convertLine s c n up).fuse = s.fuse := by
  unfold convertLine; dsimp only; split <;> simp
@[simp] theorem walkEnd_fuse (s : State) (c r : Nat) : (walkEnd s c r).fuse = s.fuse := by
  unfold walkEnd; dsimp only; split <;> simp
@[simp] theorem walkUnit_fuse (s : State) (c r line up : Nat) : (walkUnit s c r line up).fuse = s.fuse := by
  unfold walkUnit; simp
@[simp] theorem patrolRead_fuse (s : State) (c up : Nat) : (patrolRead s c up).fuse = s.fuse := by
  unfold patrolRead; simp
@[simp] theorem forcedRefab_fuse (s : State) (c rank : Nat) : (forcedRefab s c rank).fuse = s.fuse := by
  unfold forcedRefab; simp
@[simp] theorem refreshDue_fuse (s : State) (c rank : Nat) (issued : List (Fin 4)) : (refreshDue s c rank issued).fuse = s.fuse := by
  unfold refreshDue; simp
@[simp] theorem clearEcc_fuse (s : State) (c : Nat) : (clearEcc s c).fuse = s.fuse := by
  unfold clearEcc; rfl
@[simp] theorem wrEccCntClear_fuse (r : Req) (len val : Nat) (s : State) : (wrEccCntClear r len val s).fuse = s.fuse := by
  unfold wrEccCntClear; simp
@[simp] theorem setCport_fuse (s : State) (p : Nat) (x : CascPort) : (setCport s p x).fuse = s.fuse := by
  unfold setCport; rfl
@[simp] theorem pushPkt_fuse (s : State) (p : Nat) (credit : Option Nat) (flits : List (BitVec 514)) (poison : Bool) : (pushPkt s p credit flits poison).fuse = s.fuse := by
  unfold pushPkt; simp
@[simp] theorem pushMsg_fuse (s : State) (p type payload : Nat) : (pushMsg s p type payload).fuse = s.fuse := by
  unfold pushMsg; simp
@[simp] theorem linkGot_fuse (s : State) (p vn : Nat) (dvc : Bool) (n : Nat) : (linkGot s p vn dvc n).fuse = s.fuse := by
  unfold linkGot; simp
@[simp] theorem gwEvent_fuse (s : State) (ten code : Nat) : (gwEvent s ten code).fuse = s.fuse := by
  unfold gwEvent; simp
@[simp] theorem sendRecord_fuse (s : State) (line : Nat) (data : BitVec 512) (sync : Bool) : (sendRecord s line data sync).fuse = s.fuse := by
  unfold sendRecord; simp
@[simp] theorem mirrorWrite_fuse (s : State) (line : Nat) (data : BitVec 512) : (mirrorWrite s line data).1.fuse = s.fuse := by
  unfold mirrorWrite
  repeat' first | with_reducible rfl | (simp; done) | split | (dsimp only; split)
@[simp] theorem setCxl_fuse (s : State) (p : Nat) (x : CxlPort) : (setCxl s p x).fuse = s.fuse := by
  unfold setCxl; rfl
@[simp] theorem setGate_fuse (s : State) (g : Nat) (x : Gate) : (setGate s g x).fuse = s.fuse := by
  unfold setGate; rfl
@[simp] theorem sliceEvict_fuse (s : State) (line : Nat) : (sliceEvict s line).fuse = s.fuse := by
  unfold sliceEvict; split <;> simp
@[simp] theorem slicePut_fuse (s : State) (line : Nat) (l : SliceLine) : (slicePut s line l).fuse = s.fuse := by
  unfold slicePut; dsimp only; split <;> simp
@[simp] theorem memRead_fuse (s : State) (m : MemRef) (up hint : Nat) : (memRead s m up hint).1.fuse = s.fuse := by
  unfold memRead; (repeat' split) <;> simp
@[simp] theorem memWrite_fuse (s : State) (m : MemRef) (data : BitVec 512) (poison : Bool) (up hint : Nat) : (memWrite s m data poison up hint).fuse = s.fuse := by
  unfold memWrite; simp
@[simp] theorem memFull_fuse (s : State) (m : MemRef) (data : BitVec 512) (poison : Bool) (up hint : Nat) : (memFull s m data poison up hint).1.fuse = s.fuse := by
  unfold memFull; (repeat' split) <;> simp
@[simp] theorem memNarrow_fuse (s : State) (m : MemRef) (data mask : BitVec 512) (poison : Bool) (up hint : Nat) : (memNarrow s m data mask poison up hint).1.fuse = s.fuse := by
  unfold memNarrow
  repeat' first | with_reducible rfl | (simp; done) | split | (dsimp only; split)
@[simp] theorem poisonLine_fuse (s : State) (line data : Nat) : (poisonLine s line data).fuse = s.fuse := by
  unfold poisonLine; split <;> simp
@[simp] theorem sfPut_fuse (s : State) (line : Nat) (owned : Bool) (pres : BitVec 6) : (sfPut s line owned pres).fuse = s.fuse := by
  unfold sfPut; rfl
@[simp] theorem answerHost_fuse (s : State) (p : Nat) (a : HostAns) : (answerHost s p a).fuse = s.fuse := by
  unfold answerHost; simp
@[simp] theorem answerGuest_fuse (s : State) (g : Nat) (a : HostAns) : (answerGuest s g a).fuse = s.fuse := by
  unfold answerGuest; simp
@[simp] theorem answerHalf_fuse (s : State) (g : Nat) (a : HostAns) : (answerHalf s g a).fuse = s.fuse := by
  unfold answerHalf; dsimp only; split <;> simp
@[simp] theorem complete_fuse (s : State) (w : Who) (resp : Nat) (data : BitVec 512) : (complete s w resp data).fuse = s.fuse := by
  unfold complete; (repeat' split) <;> simp
@[simp] theorem completeWrite_fuse (s : State) (w : Who) (resp : Nat) (wait : Option Nat) : (completeWrite s w resp wait).fuse = s.fuse := by
  unfold completeWrite; split <;> simp
@[simp] theorem flowStore_fuse (s : State) (f : Flow) : (flowStore s f).1.fuse = s.fuse := by
  unfold flowStore
  repeat' first | with_reducible rfl | (simp; done) | split | (dsimp only; split)
@[simp] theorem flowData_fuse (s : State) (f : Flow) : (flowData s f).fuse = s.fuse := by
  unfold flowData
  repeat' first | with_reducible rfl | (simp; done) | split | (dsimp only; split)
@[simp] theorem setFlow_fuse (s : State) (line : Nat) (f : Flow) : (setFlow s line f).fuse = s.fuse := by
  unfold setFlow; rfl
@[simp] theorem dropFlow_fuse (s : State) (line : Nat) : (dropFlow s line).fuse = s.fuse := by
  unfold dropFlow; rfl
@[simp] theorem ownerLost_fuse (s : State) (a line : Nat) : (ownerLost s a line).fuse = s.fuse := by
  unfold ownerLost; simp
@[simp] theorem loseOwned_fuse (s : State) (line : Nat) (owned : Bool) (mask : BitVec 6) : (loseOwned s line owned mask).fuse = s.fuse := by
  unfold loseOwned; (repeat' split) <;> simp
@[simp] theorem sfBadEvent_fuse (s : State) (line : Nat) : (sfBadEvent s line).fuse = s.fuse := by
  unfold sfBadEvent; rfl
@[simp] theorem takeTrk_fuse (s : State) (line : Nat) (f : Flow) : (takeTrk s line f).fuse = s.fuse := by
  unfold takeTrk; simp
@[simp] theorem takeVictim_fuse (s : State) (line : Nat) (v : SfEntry) : (takeVictim s line v).1.fuse = s.fuse := by
  unfold takeVictim
  repeat' first | with_reducible rfl | (simp; done) | split | (dsimp only; split)
@[simp] theorem finishFlow_fuse (s : State) (f : Flow) : (finishFlow s f).fuse = s.fuse := by
  unfold finishFlow
  repeat' first | with_reducible rfl | (simp; done) | split | (dsimp only; split)
@[simp] theorem beginFlow_fuse (s : State) (r : FlowReq) : (beginFlow s r).fuse = s.fuse := by
  unfold beginFlow; simp
@[simp] theorem startFlow_fuse (s : State) (r : FlowReq) : (startFlow s r).fuse = s.fuse := by
  unfold startFlow; simp
@[simp] theorem lineResume_fuse (s : State) (line : Nat) : (lineResume s line).fuse = s.fuse := by
  unfold lineResume; (repeat' split) <;> simp
@[simp] theorem snoopSend_fuse (s : State) (agent line : Nat) (inv : Bool) (pk : Pkt) : (snoopSend s agent line inv pk).fuse = s.fuse := by
  unfold snoopSend; (repeat' split) <;> simp
@[simp] theorem snoopAnswer_fuse (s : State) (agent line : Nat) (shared : Bool) (dirty : Option (BitVec 512)) : (snoopAnswer s agent line shared dirty).fuse = s.fuse := by
  unfold snoopAnswer; split <;> simp
@[simp] theorem snoopResponse_fuse (s : State) (agent line : Nat) (txn : BitVec 16) (shared : Bool) (dirty : Option (BitVec 512)) : (snoopResponse s agent line txn shared dirty).fuse = s.fuse := by
  unfold snoopResponse; (repeat' split) <;> simp
@[simp] theorem srsp_fuse (s : State) (pk : Pkt) (cmd agent line : Nat) (txn : BitVec 16) (shared : Bool) (dirty : Option (BitVec 512)) : (srsp s pk cmd agent line txn shared dirty).fuse = s.fuse := by
  unfold srsp; simp
@[simp] theorem hostBirsp_fuse (s : State) (p line : Nat) (txn : BitVec 16) (shared : Bool) (data : Option (BitVec 512)) : (hostBirsp s p line txn shared data).fuse = s.fuse := by
  unfold hostBirsp; simp
@[simp] theorem snoopTimeout_fuse (s : State) (agent line : Nat) : (snoopTimeout s agent line).fuse = s.fuse := by
  unfold snoopTimeout; split <;> simp
@[simp] theorem dropAgent_fuse (s : State) (agent : Nat) : (dropAgent s agent).1.fuse = s.fuse := by
  unfold dropAgent; simp
@[simp] theorem hostDisplace_fuse (s : State) (h : HostLine) : (hostDisplace s h).fuse = s.fuse := by
  unfold hostDisplace; rfl
@[simp] theorem hostTrimSlice_fuse (s : State) (quota slice : Nat) : (hostTrimSlice s quota slice).fuse = s.fuse := by
  unfold hostTrimSlice; (repeat' split) <;> simp
@[simp] theorem hostTrim_fuse (s : State) (quota fuel : Nat) : (hostTrim s quota fuel).fuse = s.fuse := by
  induction fuel generalizing s with
  | zero => rfl
  | succ k ih => rw [hostTrim]; split <;> simp [ih]
@[simp] theorem sliceTrim_fuse (s : State) (slice : Nat) : (sliceTrim s slice).fuse = s.fuse := by
  unfold sliceTrim
  repeat' first | with_reducible rfl | (simp; done) | split | (dsimp only; split)
@[simp] theorem hostPut_fuse (s : State) (h : HostLine) : (hostPut s h).fuse = s.fuse := by
  unfold hostPut; simp
@[simp] theorem hostSnoop_fuse (s : State) (p line kind : Nat) : (hostSnoop s p line kind).fuse = s.fuse := by
  unfold hostSnoop; split <;> simp
@[simp] theorem hsnp_fuse (s : State) (pk : Pkt) (cmd p line kind : Nat) : (hsnp s pk cmd p line kind).fuse = s.fuse := by
  unfold hsnp; simp
@[simp] theorem wrHostQuotaMib_fuse (r : Req) (len val : Nat) (s : State) : (wrHostQuotaMib r len val s).fuse = s.fuse := by
  unfold wrHostQuotaMib; simp
@[simp] theorem gwRefuse_fuse (s : State) (i : Init) (code : Nat) : (gwRefuse s i code).fuse = s.fuse := by
  unfold gwRefuse; simp
@[simp] theorem tokenRefill_fuse (s : State) : (tokenRefill s).fuse = s.fuse := by
  unfold tokenRefill
  repeat' first | with_reducible rfl | (simp; done) | split | (dsimp only; split) | (refine (foldl_fuse _ _ _ ?_).trans ?_; intro _ _) | rfl
@[simp] theorem tbBurst_fuse (s : State) (t val : Nat) : (tbBurst s t val).fuse = s.fuse := by
  unfold tbBurst; simp
@[simp] theorem ggBurst_fuse (s : State) (g val : Nat) : (ggBurst s g val).fuse = s.fuse := by
  unfold ggBurst; simp
@[simp] theorem lookupAt_fuse (s : State) (pt t a : Nat) : (lookupAt s pt t a).1.fuse = s.fuse := by
  unfold lookupAt
  repeat' first | with_reducible rfl | (simp; done) | split | (dsimp only; split)
@[simp] theorem fetchReturn_fuse (s : State) (pt t a : Nat) : (fetchReturn s pt t a).fuse = s.fuse := by
  unfold fetchReturn; (repeat' split) <;> simp
@[simp] theorem deliverIn_fuse (s : State) (k : Nat) (t : Tx) (p sub : Nat) : (deliverIn s k t p sub).fuse = s.fuse := by
  unfold deliverIn; split <;> simp
@[simp] theorem deliverMsg_fuse (s : State) (k : Nat) (t : Tx) (p sub : Nat) : (deliverMsg s k t p sub).fuse = s.fuse := by
  unfold deliverMsg; rfl
@[simp] theorem sendTo_fuse (s : State) (dev vn : Nat) (flits : List (BitVec 514)) (poison : Bool) : (sendTo s dev vn flits poison).fuse = s.fuse := by
  unfold sendTo; (repeat' split) <;> simp
@[simp] theorem sendRequest_fuse (s : State) (t : Tx) (dev addr : Nat) : (sendRequest s t dev addr).fuse = s.fuse := by
  unfold sendRequest; (repeat' split) <;> simp
@[simp] theorem sendData_fuse (s : State) (t : Tx) (dev addr : Nat) (data : List (BitVec 512)) : (sendData s t dev addr data).fuse = s.fuse := by
  unfold sendData; (repeat' split) <;> simp
@[simp] theorem sendBack_fuse (s : State) (t : Tx) (cmd vn resp : Nat) (data : List (BitVec 512)) : (sendBack s t cmd vn resp data).fuse = s.fuse := by
  unfold sendBack; (repeat' split) <;> simp
@[simp] theorem fromLink_fuse (s : State) (i : Init) (vn : Nat) (pk : Pkt) (n : Nat) : (fromLink s i vn pk n).fuse = s.fuse := by
  unfold fromLink; (repeat' split) <;> simp
@[simp] theorem fromRemote_fuse (s : State) (target : Target) (vn : Nat) (pk : Pkt) (n : Nat) : (fromRemote s target vn pk n).fuse = s.fuse := by
  unfold fromRemote; (repeat' split) <;> simp
@[simp] theorem loseTx_fuse (k : Nat) (t : Tx) (vn0 : Bool) (s : State) : (loseTx k t vn0 s).fuse = s.fuse := by
  unfold loseTx; (repeat' split) <;> simp
@[simp] theorem txAnswer_fuse (s : State) (k : Nat) (t : Tx) (resp : Nat) (data : List (BitVec 512)) : (txAnswer s k t resp data).fuse = s.fuse := by
  unfold txAnswer; rfl
@[simp] theorem readAt_fuse (s : State) (k : Nat) (t : Tx) (up : Nat) : (readAt s k t up).fuse = s.fuse := by
  unfold readAt; (repeat' split) <;> simp
@[simp] theorem hostWriteAt_fuse (s : State) (k : Nat) (t : Tx) (p hpa : Nat) (d : BitVec 512) : (hostWriteAt s k t p hpa d).fuse = s.fuse := by
  unfold hostWriteAt; (repeat' split) <;> simp
@[simp] theorem writeAt_fuse (s : State) (k : Nat) (t : Tx) (data : List (BitVec 512)) (poison : Bool) (up : Nat) : (writeAt s k t data poison up).fuse = s.fuse := by
  unfold writeAt; (repeat' split) <;> simp
@[simp] theorem refusalNote_fuse (s : State) (a : Nat) (code : Nat) (r : Route) : (refusalNote s a code r).fuse = s.fuse := by
  unfold refusalNote; (repeat' split) <;> simp
theorem grant_fuse (s t : State) (i : Init) (go : State → State) (hs : s.fuse = t.fuse) (hgo : ∀ a, a.fuse = t.fuse → (go a).fuse = t.fuse) : (grant s i go).fuse = t.fuse := by
  unfold grant; dsimp only
  split
  · exact hs
  · split
    · exact hgo _ hs
    · exact hs
@[simp] theorem noInject_fuse (s : State) (h : Hdr) (code : Nat) : (noInject s h code).fuse = s.fuse := by
  unfold noInject; rfl
@[simp] theorem refused_fuse (s : State) (h : Hdr) (at_ code : Nat) : (refused s h at_ code).fuse = s.fuse := by
  unfold refused; simp
@[simp] theorem denyWrite_fuse (s : State) (target : Target) (be : Nat) : (denyWrite s target be).1.fuse = s.fuse := by
  unfold denyWrite
  repeat' first | with_reducible rfl | (simp; done) | split | (dsimp only; split)
@[simp] theorem arrive_fuse (s : State) (h : Hdr) (r : Route) (v : Verdict) (up : Nat) : (arrive s h r v up).fuse = s.fuse := by
  unfold arrive
  repeat' first | with_reducible rfl | (simp; done) | split | (dsimp only; split)
@[simp] theorem headerLost_fuse (s : State) (h : Hdr) (at_ : Nat) : (headerLost s h at_).fuse = s.fuse := by
  unfold headerLost; simp
@[simp] theorem travel_fuse (s : State) (h : Hdr) (r : Route) (p : Pkt) (up : Nat) : (travel s h r p up).fuse = s.fuse := by
  unfold travel; (repeat' split) <;> simp
theorem takeTokens_fuse {s t : State} {i : Init} {n : Nat} (h : takeTokens s i n = some t) : t.fuse = s.fuse := by
  unfold takeTokens at h
  split at h
  · cases h; rfl
  · dsimp only at h
    split at h
    · cases h; rfl
    · split at h
      · cases h
      · cases h; rfl
@[simp] theorem answerHere_fuse (s s1 : State) (h : Hdr) (r : Option Route) (code : Nat) (h1 : s1.fuse = s.fuse) : (answerHere s s1 h r code).fuse = s.fuse := by
  unfold answerHere; split <;> simp [h1]
@[simp] theorem injectPoint_fuse (s : State) (pt : Nat) (h : Hdr) (p : Pkt) (up : Nat) : (injectPoint s pt h p up).fuse = s.fuse := by
  unfold injectPoint
  dsimp only
  repeat' split
  all_goals first
    | (simp; done)
    | (refine grant_fuse _ _ _ _ (by simp) fun a ha => ?_
       split
       · rfl
       · rename_i h; simp [takeTokens_fuse h, ha])
@[simp] theorem injectGate_fuse (s : State) (code : Nat) (h : Hdr) (p : Pkt) (up : Nat) : (injectGate s code h p up).fuse = s.fuse := by
  unfold injectGate
  repeat' split
  all_goals first
    | (simp; done)
    | exact grant_fuse _ _ _ _ rfl fun a ha => by simp [ha]
@[simp] theorem inject_fuse (s : State) (h : Hdr) (p : Pkt) (up : Nat) : (inject s h p up).fuse = s.fuse := by
  unfold inject
  repeat' split
  all_goals first
    | (simp; done)
    | exact grant_fuse _ _ _ _ rfl fun a ha => by simp [ha]
@[simp] theorem apGive_fuse (s : State) (p tag resp : Nat) (data : BitVec 512) : (apGive s p tag resp data).fuse = s.fuse := by
  unfold apGive; rfl
@[simp] theorem apFlush_fuse (s : State) (p : Nat) : (apFlush s p).fuse = s.fuse := by
  unfold apFlush
  generalize (tabGet s.vent.apq p []).length = n
  induction n generalizing s with
  | zero => rfl
  | succ k ih => rw [apDrain]; (repeat' split) <;> simp [ih]
@[simp] theorem ventRow_fuse (s : State) (h : VHdr) (cmd up : Nat) : (ventRow s h cmd up).fuse = s.fuse := by
  unfold ventRow; (repeat' split) <;> simp
@[simp] theorem apRequest_fuse (s : State) (p : Nat) (q : ApReq) : (apRequest s p q).fuse = s.fuse := by
  unfold apRequest; simp
@[simp] theorem dropHeld_fuse (s : State) (t : Tx) : (dropHeld s t).fuse = s.fuse := by
  unfold dropHeld; split <;> simp
@[simp] theorem pull_fuse (s : State) (k : Nat) (t : Tx) : (pull s k t).fuse = s.fuse := by
  unfold pull
  split
  · simp
  · split
    · rfl
    · split
      · rfl
      · rename_i h; simp [takeTokens_fuse h]
@[simp] theorem deliver_fuse (s : State) (k : Nat) (t : Tx) (resp : Nat) (data : BitVec 512) : (deliver s k t resp data).fuse = s.fuse := by
  have a : ({ dropTx s k with ans := { answered := true, resp := resp, value := data.toNat } } : State).fuse = s.fuse := dropTx_fuse s k
  unfold deliver
  generalize t.init = i
  cases i with
  | ap p => dsimp only; split <;> simp
  | eng _ _ => rfl
  | dbg _ => dsimp only; split <;> simp
  | mgmt => exact a
  | cfg _ => exact a
  | crypto => exact a
  | mirror => exact a
  | casc _ _ _ => dsimp only; split <;> simp
  | _ => simp
@[simp] theorem refreshEpoch_fuse (s : State) (t : Tx) : (refreshEpoch s t).fuse = s.fuse := by
  unfold refreshEpoch; split <;> simp
@[simp] theorem respond_fuse (s : State) (k : Nat) (t : Tx) : (respond s k t).fuse = s.fuse := by
  unfold respond; (repeat' split) <;> simp
@[simp] theorem outsideAnswer_fuse (s : State) (k : Nat) (t : Tx) (code : Nat) (line : BitVec 512) : (outsideAnswer s k t code line).fuse = s.fuse := by
  unfold outsideAnswer; dsimp only; split <;> simp
@[simp] theorem muteTx_fuse (s : State) (k : Nat) : (muteTx s k).fuse = s.fuse := by
  unfold muteTx; simp
@[simp] theorem reqTimeout_fuse (s : State) (k : Nat) (t : Tx) : (reqTimeout s k t).fuse = s.fuse := by
  unfold reqTimeout; simp
@[simp] theorem dmaLine_fuse (s : State) (e c k : Nat) (t : Tx) : (dmaLine s e c k t).fuse = s.fuse := by
  unfold dmaLine; simp
@[simp] theorem samStore_fuse (s : State) (e v : Nat) : (samStore s e v).fuse = s.fuse := by
  unfold samStore; rfl
@[simp] theorem wrSamEntry_fuse (r : Req) (e len val : Nat) (s : State) : (wrSamEntry r e len val s).fuse = s.fuse := by
  unfold wrSamEntry; simp
@[simp] theorem beginInval_fuse (s : State) (e : Option Nat) : (beginInval s e).fuse = s.fuse := by
  unfold beginInval; simp
@[simp] theorem wrSamInvalidate_fuse (r : Req) (len val : Nat) (s : State) : (wrSamInvalidate r len val s).fuse = s.fuse := by
  unfold wrSamInvalidate; simp
@[simp] theorem invalDone_fuse (s : State) (i : Inval) : (invalDone s i).fuse = s.fuse := by
  unfold invalDone; rfl
@[simp] theorem wrEpBind_fuse (r : Req) (len val : Nat) (s : State) : (wrEpBind r len val s).fuse = s.fuse := by
  unfold wrEpBind; simp
@[simp] theorem hostRefused_fuse (s : State) (q : HostReq) : (hostRefused s q).fuse = s.fuse := by
  unfold hostRefused; simp
@[simp] theorem hostStart_fuse (s : State) (q : HostReq) (bad : Bool) : (hostStart s q bad).fuse = s.fuse := by
  unfold hostStart
  repeat' first | with_reducible rfl | (simp; done) | split | (dsimp only; split)
@[simp] theorem hostRequest_fuse (s : State) (q : HostReq) (bad : Bool) : (hostRequest s q bad).fuse = s.fuse := by
  unfold hostRequest; simp
@[simp] theorem releaseHeld_fuse (s : State) : (releaseHeld s).fuse = s.fuse := by
  unfold releaseHeld; simp
@[simp] theorem mailbox_fuse (s : State) (p cmd : Nat) : (mailbox s p cmd).fuse = s.fuse := by
  unfold mailbox; simp
@[simp] theorem cxlEv_fuse (s : State) (code sev data p : Nat) : (cxlEv s code sev data p).fuse = s.fuse := by
  unfold cxlEv; rfl
@[simp] theorem failHostTxs_fuse (s : State) (p : Nat) : (failHostTxs s p).fuse = s.fuse := by
  unfold failHostTxs; simp
@[simp] theorem cxlDown_fuse (s : State) (p : Nat) : (cxlDown s p).fuse = s.fuse := by
  unfold cxlDown; simp
@[simp] theorem mapFlows_fuse (s : State) (f : FlowReq → FlowReq) : (mapFlows s f).fuse = s.fuse := by
  unfold mapFlows; simp
@[simp] theorem poisonReads_fuse (s : State) (p : Nat) : (poisonReads s p).fuse = s.fuse := by
  unfold poisonReads; simp
@[simp] theorem poisonWrites_fuse (s : State) (p : Nat) (lines : List (BitVec 46)) : (poisonWrites s p lines).fuse = s.fuse := by
  unfold poisonWrites; simp
@[simp] theorem wrGgWindow_fuse (r : Req) (g w len val : Nat) (s : State) : (wrGgWindow r g w len val s).fuse = s.fuse := by
  unfold wrGgWindow; simp
@[simp] theorem muteGuest_fuse (s : State) (g : Nat) : (muteGuest s g).fuse = s.fuse := by
  unfold muteGuest; simp
@[simp] theorem quarantine_fuse (s : State) (g : Nat) : (quarantine s g).fuse = s.fuse := by
  unfold quarantine
  repeat' first | with_reducible rfl | (simp; done) | split | (dsimp only; split) | (refine (foldl_fuse _ _ _ ?_).trans ?_; intro _ _) | rfl
@[simp] theorem violation_fuse (s : State) (g tag cls win reason : Nat) : (violation s g tag cls win reason).fuse = s.fuse := by
  unfold violation; simp
@[simp] theorem guestRun_fuse (s : State) (g t : Nat) (w : Who) (q : GuestReq) : (guestRun s g t w q).fuse = s.fuse := by
  unfold guestRun
  repeat' first | with_reducible rfl | (simp; done) | split | (dsimp only; split)
@[simp] theorem guestRequest_fuse (s : State) (g tag : Nat) (q : GuestReq) : (guestRequest s g tag q).fuse = s.fuse := by
  unfold guestRequest; (repeat' split) <;> simp
@[simp] theorem wrGgControl_fuse (r : Req) (g len val : Nat) (s : State) : (wrGgControl r g len val s).fuse = s.fuse := by
  unfold wrGgControl; split <;> simp
@[simp] theorem wrTenantReset_fuse (r : Req) (len val : Nat) (s : State) : (wrTenantReset r len val s).fuse = s.fuse := by
  unfold wrTenantReset; simp
@[simp] theorem drainTxs_fuse (s : State) (ps es : List Nat) (code : Nat) : (drainTxs s ps es code).fuse = s.fuse := by
  unfold drainTxs; rfl
@[simp] theorem drainWipe_fuse (s : State) (ps es : List Nat) : (drainWipe s ps es).fuse = s.fuse := by
  unfold drainWipe; simp
@[simp] theorem reassignStart_fuse (s : State) (k owner : Nat) : (reassignStart s k owner).fuse = s.fuse := by
  unfold reassignStart; simp
@[simp] theorem reassignWipe_fuse (s : State) (k : Nat) (x : Reassign) : (reassignWipe s k x).fuse = s.fuse := by
  unfold reassignWipe; simp
@[simp] theorem reassignTick_fuse (s : State) : (reassignTick s).fuse = s.fuse := by
  unfold reassignTick; simp
@[simp] theorem wrOwner_fuse (r : Req) (k len val : Nat) (s : State) : (wrOwner r k len val s).fuse = s.fuse := by
  unfold wrOwner; simp
@[simp] theorem wrFaultClear_fuse (r : Req) (t len val : Nat) (s : State) : (wrFaultClear r t len val s).fuse = s.fuse := by
  unfold wrFaultClear; simp
@[simp] theorem setBup_fuse (s : State) (p : Nat) (x : Bringup) : (setBup s p x).fuse = s.fuse := by
  unfold setBup; rfl
@[simp] theorem cascEv_fuse (s : State) (code sev data p : Nat) : (cascEv s code sev data p).fuse = s.fuse := by
  unfold cascEv; rfl
@[simp] theorem setTwinState_fuse (s : State) (v : Nat) : (setTwinState s v).fuse = s.fuse := by
  unfold setTwinState; rfl
@[simp] theorem becomeActive_fuse (s : State) (why : Nat) : (becomeActive s why).fuse = s.fuse := by
  unfold becomeActive; simp
@[simp] theorem fenceDevice_fuse (s : State) (why : Nat) : (fenceDevice s why).fuse = s.fuse := by
  unfold fenceDevice; rfl
@[simp] theorem splitResolve_fuse (s : State) : (splitResolve s).fuse = s.fuse := by
  unfold splitResolve; split <;> simp
@[simp] theorem releaseWaits_fuse (s : State) (upTo : Nat) : (releaseWaits s upTo).fuse = s.fuse := by
  unfold releaseWaits; simp
@[simp] theorem goStale_fuse (s : State) : (goStale s).fuse = s.fuse := by
  unfold goStale; simp
@[simp] theorem twinLinkLost_fuse (s : State) : (twinLinkLost s).fuse = s.fuse := by
  unfold twinLinkLost; simp
@[simp] theorem twinLinkPassed_fuse (s0 : State) : (twinLinkPassed s0).fuse = s0.fuse := by
  unfold twinLinkPassed; simp
@[simp] theorem linkGone_fuse (s : State) (p st : Nat) : (linkGone s p st).fuse = s.fuse := by
  unfold linkGone; simp
@[simp] theorem portDown_fuse (s : State) (p reason : Nat) : (portDown s p reason).fuse = s.fuse := by
  unfold portDown; simp
@[simp] theorem refusedDown_fuse (s : State) (p : Nat) : (refusedDown s p).fuse = s.fuse := by
  unfold refusedDown; split <;> simp
@[simp] theorem linkRefused_fuse (s : State) (p code data : Nat) : (linkRefused s p code data).fuse = s.fuse := by
  unfold linkRefused; simp
@[simp] theorem linkUp_fuse (s : State) (p : Nat) : (linkUp s p).fuse = s.fuse := by
  unfold linkUp; simp
@[simp] theorem nextSession_fuse (s : State) (p idx : Nat) : (nextSession s p idx).fuse = s.fuse := by
  unfold nextSession; rfl
@[simp] theorem linkSend_fuse (s : State) (p : Nat) : (linkSend s p).fuse = s.fuse := by
  unfold linkSend; dsimp only; split <;> simp
@[simp] theorem linkReplay_fuse (s : State) (p : Nat) : (linkReplay s p).fuse = s.fuse := by
  unfold linkReplay; rfl
@[simp] theorem codeword_fuse (s : State) (p fec : Nat) (crcOk : Bool) (seq : Nat) (ackv : Bool) (ack : Nat) (nak : Bool) (back : BitVec 80) : (codeword s p fec crcOk seq ackv ack nak back).fuse = s.fuse := by
  unfold codeword; simp
@[simp] theorem setSourceCounts_fuse (s : State) : (setSourceCounts s).fuse = s.fuse := by
  unfold setSourceCounts; rfl
@[simp] theorem setMembers_fuse (s : State) (m : Nat) : (setMembers s m).fuse = s.fuse := by
  unfold setMembers; rfl
@[simp] theorem cascLeave_fuse (s : State) : (cascLeave s).fuse = s.fuse := by
  unfold cascLeave; rfl
@[simp] theorem cascBoot_fuse (s : State) : (cascBoot s).fuse = s.fuse := by
  unfold cascBoot; split <;> simp
@[simp] theorem cascTick_fuse (s : State) : (cascTick s).fuse = s.fuse := by
  unfold cascTick; split <;> simp
@[simp] theorem hbTick_fuse (s : State) : (hbTick s).fuse = s.fuse := by
  unfold hbTick; simp
@[simp] theorem linkTick_fuse (s : State) : (linkTick s).fuse = s.fuse := by
  unfold linkTick; simp
@[simp] theorem masterBack_fuse (s : State) : (masterBack s).fuse = s.fuse := by
  unfold masterBack; split <;> simp
@[simp] theorem raiseDtime_fuse (s : State) (dev t : Nat) : (raiseDtime s dev t).fuse = s.fuse := by
  unfold raiseDtime; rfl
@[simp] theorem steerTime_fuse (s : State) (off : Int) : (steerTime s off).fuse = s.fuse := by
  unfold steerTime; simp
@[simp] theorem stepTime_fuse (s : State) (off : Int) : (stepTime s off).fuse = s.fuse := by
  unfold stepTime; rfl
@[simp] theorem copyTick_fuse (s : State) : (copyTick s).fuse = s.fuse := by
  unfold copyTick
  repeat' first | with_reducible rfl | (simp; done) | split | (dsimp only; split)
@[simp] theorem wrTwinForce_fuse (r : Req) (len val : Nat) (granted : Bool) (s : State) : (wrTwinForce r len val granted s).fuse = s.fuse := by
  unfold wrTwinForce; simp
@[simp] theorem wrTwinRelease_fuse (r : Req) (len val : Nat) (s : State) : (wrTwinRelease r len val s).fuse = s.fuse := by
  unfold wrTwinRelease; simp
@[simp] theorem wrTwinWindow_fuse (r : Req) (i len val : Nat) (s : State) : (wrTwinWindow r i len val s).fuse = s.fuse := by
  unfold wrTwinWindow; simp
@[simp] theorem wrCascSecret_fuse (r : Req) (len val : Nat) (s : State) : (wrCascSecret r len val s).fuse = s.fuse := by
  unfold wrCascSecret; simp
@[simp] theorem setLane_fuse (s : State) (l : Nat) (x : Lane) : (setLane s l x).fuse = s.fuse := by
  unfold setLane; rfl
@[simp] theorem setStat_fuse (s : State) (l : Nat) (v : BitVec 16) : (setStat s l v).fuse = s.fuse := by
  unfold setStat; rfl
@[simp] theorem laneSet_fuse (s : State) (l st : Nat) : (laneSet s l st).fuse = s.fuse := by
  unfold laneSet; simp
@[simp] theorem wrLaneStateReq_fuse (r : Req) (l len val : Nat) (s : State) : (wrLaneStateReq r l len val s).fuse = s.fuse := by
  unfold wrLaneStateReq; simp
@[simp] theorem pllUnlock_fuse (s : State) (l : Nat) : (pllUnlock s l).fuse = s.fuse := by
  unfold pllUnlock; split <;> simp
@[simp] theorem lanesLoseRef_fuse (s : State) : (lanesLoseRef s).fuse = s.fuse := by
  unfold lanesLoseRef; simp
@[simp] theorem laneSend_fuse (s : State) (l : Nat) (w : BitVec 256) : (laneSend s l w).fuse = s.fuse := by
  unfold laneSend; simp
@[simp] theorem rdPrbsBits_fuse (r : Req) (l : Nat) (s : State) : (rdPrbsBits r l s).fuse = s.fuse := by
  unfold rdPrbsBits; simp
@[simp] theorem rdPrbsErrors_fuse (r : Req) (l : Nat) (s : State) : (rdPrbsErrors r l s).fuse = s.fuse := by
  unfold rdPrbsErrors; simp
@[simp] theorem wrPrbsClear_fuse (r : Req) (len val : Nat) (s : State) : (wrPrbsClear r len val s).fuse = s.fuse := by
  unfold wrPrbsClear; simp
@[simp] theorem wrErrInject_fuse (r : Req) (l len val : Nat) (s : State) : (wrErrInject r l len val s).fuse = s.fuse := by
  unfold wrErrInject; simp
@[simp] theorem wrLaneRate_fuse (r : Req) (l len val : Nat) (s : State) : (wrLaneRate r l len val s).fuse = s.fuse := by
  unfold wrLaneRate; simp
@[simp] theorem wrLaneWidth_fuse (r : Req) (l len val : Nat) (s : State) : (wrLaneWidth r l len val s).fuse = s.fuse := by
  unfold wrLaneWidth; simp
@[simp] theorem wrLaneTxeq_fuse (r : Req) (l len val : Nat) (s : State) : (wrLaneTxeq r l len val s).fuse = s.fuse := by
  unfold wrLaneTxeq; simp
@[simp] theorem wrLaneCtrl_fuse (r : Req) (l len val : Nat) (s : State) : (wrLaneCtrl r l len val s).fuse = s.fuse := by
  unfold wrLaneCtrl; simp
@[simp] theorem wrLaneStatus_fuse (r : Req) (l len val : Nat) (s : State) : (wrLaneStatus r l len val s).fuse = s.fuse := by
  unfold wrLaneStatus; simp
@[simp] theorem wrPrbsCtrl_fuse (r : Req) (l len val : Nat) (s : State) : (wrPrbsCtrl r l len val s).fuse = s.fuse := by
  unfold wrPrbsCtrl; simp
@[simp] theorem cxlRefHold_fuse (s : State) : (cxlRefHold s).fuse = s.fuse := by
  unfold cxlRefHold; simp
@[simp] theorem wrQuadRefsel_fuse (r : Req) (q len val : Nat) (s : State) : (wrQuadRefsel r q len val s).fuse = s.fuse := by
  unfold wrQuadRefsel; simp
@[simp] theorem wrRefclkFreq_fuse (r : Req) (pin len val : Nat) (s : State) : (wrRefclkFreq r pin len val s).fuse = s.fuse := by
  unfold wrRefclkFreq; simp
@[simp] theorem stopPort_fuse (s : State) (p : Nat) : (stopPort s p).fuse = s.fuse := by
  unfold stopPort; simp
@[simp] theorem portsSettle_fuse (s : State) : (portsSettle s).fuse = s.fuse := by
  unfold portsSettle; simp
@[simp] theorem startPort_fuse (s : State) (p : Nat) : (startPort s p).fuse = s.fuse := by
  unfold startPort; simp
@[simp] theorem portUp_fuse (s : State) (p : Nat) : (portUp s p).fuse = s.fuse := by
  unfold portUp; dsimp only; split <;> simp
@[simp] theorem portStep_fuse (s : State) (p : Nat) : (portStep s p).fuse = s.fuse := by
  unfold portStep; dsimp only; split <;> simp
@[simp] theorem portHeld_fuse (s : State) (p why : Nat) : (portHeld s p why).fuse = s.fuse := by
  unfold portHeld; simp
@[simp] theorem capsFrame_fuse (s : State) (p i x : Nat) : (capsFrame s p i x).fuse = s.fuse := by
  unfold capsFrame; simp
@[simp] theorem setRxInvert_fuse (s : State) (l : Nat) : (setRxInvert s l).fuse = s.fuse := by
  unfold setRxInvert; simp
@[simp] theorem fallBack_fuse (s : State) (p : Nat) : (fallBack s p).fuse = s.fuse := by
  unfold fallBack; rfl
@[simp] theorem eqFrame_fuse (s : State) (p i x : Nat) : (eqFrame s p i x).fuse = s.fuse := by
  unfold eqFrame; simp
@[simp] theorem bringLane_fuse (s : State) (p i : Nat) : (bringLane s p i).fuse = s.fuse := by
  unfold bringLane; simp
@[simp] theorem bringStep_fuse (s : State) (p : Nat) : (bringStep s p).fuse = s.fuse := by
  unfold bringStep; simp
@[simp] theorem bringTick_fuse (s : State) : (bringTick s).fuse = s.fuse := by
  unfold bringTick; simp
@[simp] theorem wrCascLinkEn_fuse (r : Req) (p len val : Nat) (s : State) : (wrCascLinkEn r p len val s).fuse = s.fuse := by
  unfold wrCascLinkEn; simp
@[simp] theorem wrCascDim_fuse (r : Req) (len val : Nat) (s : State) : (wrCascDim r len val s).fuse = s.fuse := by
  unfold wrCascDim; simp
@[simp] theorem codeStep_fuse (s : State) (p : Nat) : (codeStep s p).fuse = s.fuse := by
  unfold codeStep; (repeat' split) <;> simp
@[simp] theorem codeTick_fuse (s : State) : (codeTick s).fuse = s.fuse := by
  unfold codeTick; simp
@[simp] theorem lanesDieDormant_fuse (s : State) (d : Nat) : (lanesDieDormant s d).fuse = s.fuse := by
  unfold lanesDieDormant; simp
@[simp] theorem lanesAllDormant_fuse (s : State) : (lanesAllDormant s).fuse = s.fuse := by
  unfold lanesAllDormant; simp
@[simp] theorem laneStep_fuse (s : State) (l : Nat) : (laneStep s l).fuse = s.fuse := by
  unfold laneStep
  repeat' first | with_reducible rfl | (simp; done) | split | (dsimp only; split)
@[simp] theorem laneTick_fuse (s : State) : (laneTick s).fuse = s.fuse := by
  unfold laneTick
  repeat' first | with_reducible rfl | (simp; done) | split | (dsimp only; split) | (refine (foldl_fuse _ _ _ ?_).trans ?_; intro _ _) | rfl
@[simp] theorem refFailure_fuse (s : State) (count : Nat) : (refFailure s count).fuse = s.fuse := by
  unfold refFailure; simp
@[simp] theorem windowEnd_fuse (s : State) (count : Nat) : (windowEnd s count).fuse = s.fuse := by
  unfold windowEnd; simp
@[simp] theorem wrClkEn_fuse (r : Req) (u len val : Nat) (s : State) : (wrClkEn r u len val s).fuse = s.fuse := by
  unfold wrClkEn; simp
@[simp] theorem keepAns_fuse (s t : State) : (keepAns s t).fuse = t.fuse := by
  unfold keepAns; rfl
@[simp] theorem startBoot_fuse (s : State) : (startBoot s).fuse = s.fuse := by
  unfold startBoot; simp
@[simp] theorem wrResetRequest_fuse (r : Req) (len val : Nat) (s : State) : (wrResetRequest r len val s).fuse = s.fuse := by
  unfold wrResetRequest; simp
@[simp] theorem flushSlices_fuse (s : State) : (flushSlices s).fuse = s.fuse := by
  unfold flushSlices; simp
@[simp] theorem flushHosts_fuse (s : State) : (flushHosts s).fuse = s.fuse := by
  unfold flushHosts; simp
@[simp] theorem flushTick_fuse (s : State) : (flushTick s).fuse = s.fuse := by
  unfold flushTick; simp
@[simp] theorem flushEnd_fuse (s : State) (kept : Bool) (us : Option Nat) : (flushEnd s kept us).fuse = s.fuse := by
  unfold flushEnd; rfl
@[simp] theorem logIf_fuse (c : Bool) (s : State) (code sev data : Nat) : (logIf c s code sev data).fuse = s.fuse := by
  unfold logIf; simp
@[simp] theorem bootLatches_fuse (s : State) : (bootLatches s).fuse = s.fuse := by
  unfold bootLatches; simp
@[simp] theorem bootEvents_fuse (s : State) (destroyed : Nat) : (bootEvents s destroyed).fuse = s.fuse := by
  unfold bootEvents; (repeat' split) <;> simp
@[simp] theorem bootHalt_fuse (s : State) : (bootHalt s).fuse = s.fuse := by
  unfold bootHalt; rfl
@[simp] theorem wakeChan_fuse (s : State) (c : Nat) : (wakeChan s c).fuse = s.fuse := by
  unfold wakeChan; simp
@[simp] theorem enterStep6_fuse (s : State) : (enterStep6 s).fuse = s.fuse := by
  unfold enterStep6; simp
@[simp] theorem bootNext_fuse (s : State) : (bootNext s).fuse = s.fuse := by
  unfold bootNext; simp
@[simp] theorem setDie_fuse (s : State) (d : Nat) (x : DieState) : (setDie s d x).fuse = s.fuse := by
  unfold setDie; rfl
@[simp] theorem wrDieRequest_fuse (r : Req) (d len val : Nat) (s : State) : (wrDieRequest r d len val s).fuse = s.fuse := by
  unfold wrDieRequest; simp
@[simp] theorem wrStandbyEnter_fuse (r : Req) (len val : Nat) (s : State) : (wrStandbyEnter r len val s).fuse = s.fuse := by
  unfold wrStandbyEnter; simp
@[simp] theorem wakeUp_fuse (s : State) (cause : BitVec 8) : (wakeUp s cause).fuse = s.fuse := by
  unfold wakeUp; rfl
@[simp] theorem wake_fuse (s : State) (b : Nat) (c : BitVec 8) : (wake s b c).fuse = s.fuse := by
  unfold wake; simp
@[simp] theorem wakeBoot_fuse (s : State) (rails : BitVec 28) (periods : Nat) : (wakeBoot s rails periods).fuse = s.fuse := by
  unfold wakeBoot; rfl
@[simp] theorem wrLcRequest_fuse (r : Req) (len val : Nat) (s : State) : (wrLcRequest r len val s).fuse = s.fuse := by
  unfold wrLcRequest; simp
@[simp] theorem rdLcChallenge_fuse (r : Req) (s : State) : (rdLcChallenge r s).fuse = s.fuse := by
  unfold rdLcChallenge; simp
@[simp] theorem setLoad_fuse (s : State) (l : Load) : (setLoad s l).fuse = s.fuse := by
  unfold setLoad; rfl
@[simp] theorem trySlot_fuse (s : State) (k : Nat) : (trySlot s k).fuse = s.fuse := by
  unfold trySlot; simp
@[simp] theorem acceptHeader_fuse (s : State) (l : Load) (b : List Byte) : (acceptHeader s l b).fuse = s.fuse := by
  unfold acceptHeader; simp
@[simp] theorem relayReady_fuse (s : State) (n : Nat) (at_ : Option Nat) : (relayReady s n at_).fuse = s.fuse := by
  unfold relayReady; simp
@[simp] theorem consumeRest_fuse (s : State) (n : Nat) : (consumeRest s n).fuse = s.fuse := by
  unfold consumeRest; simp
@[simp] theorem relayAfterFail_fuse (s : State) (n : Nat) : (relayAfterFail s n).fuse = s.fuse := by
  unfold relayAfterFail; (repeat' split) <;> simp
@[simp] theorem reamIn_fuse (s : State) (planOk : List PlanEntry → PlanEntry → Bool) (l : Load) (given : List Byte) : (reamIn s planOk l given).fuse = s.fuse := by
  unfold reamIn
  repeat' first | with_reducible rfl | (simp; done) | split | (dsimp only; split)
@[simp] theorem bootHubs_fuse (s : State) (l : Load) : (bootHubs s l).fuse = s.fuse := by
  unfold bootHubs; simp
@[simp] theorem sealPassed_fuse (s : State) (l : Load) : (sealPassed s l).fuse = s.fuse := by
  unfold sealPassed; simp
@[simp] theorem writeEngs_fuse (s : State) (l : Load) : (writeEngs s l).fuse = s.fuse := by
  unfold writeEngs; simp
@[simp] theorem writeLoad_fuse (s : State) (l : Load) (design : List DesignItem) : (writeLoad s l design).fuse = s.fuse := by
  unfold writeLoad; simp
@[simp] theorem toWipe_fuse (s : State) (l : Load) : (toWipe s l).fuse = s.fuse := by
  unfold toWipe; rfl
@[simp] theorem trimSlices_fuse (s : State) (fuel : Nat) : (trimSlices s fuel).fuse = s.fuse := by
  induction fuel generalizing s with
  | zero => unfold trimSlices; rfl
  | succ k ih =>
    have h : ((List.range 64).foldl sliceTrim s).fuse = s.fuse := foldl_fuse sliceTrim (List.range 64) s sliceTrim_fuse
    unfold trimSlices
    exact (ih _).trans h
@[simp] theorem stageDisplace_fuse (s : State) (val : Nat) : (stageDisplace s val).fuse = s.fuse := by
  unfold stageDisplace; simp
@[simp] theorem wrPrStage_fuse (r : Req) (len val : Nat) (s : State) : (wrPrStage r len val s).fuse = s.fuse := by
  unfold wrPrStage; simp
@[simp] theorem wrLoadRequest_fuse (r : Req) (len val : Nat) (s : State) : (wrLoadRequest r len val s).fuse = s.fuse := by
  unfold wrLoadRequest; simp
@[simp] theorem relayGo_fuse (s : State) : (relayGo s).fuse = s.fuse := by
  unfold relayGo; simp
@[simp] theorem putBbk_fuse (s : State) (k : BitVec 256) : (putBbk s k).fuse = s.fuse := by
  unfold putBbk; rfl
@[simp] theorem wrBbk_fuse (r : Req) (len val : Nat) (s : State) : (wrBbk r len val s).fuse = s.fuse := by
  unfold wrBbk; simp
@[simp] theorem slotInUse_fuse (used : Bool) (slot : Nat) (code : BitVec 32) (s : State) : (slotInUse used slot code s).fuse = s.fuse := by
  unfold slotInUse; simp
@[simp] theorem wrFuStart_fuse (r : Req) (len val : Nat) (s : State) : (wrFuStart r len val s).fuse = s.fuse := by
  unfold wrFuStart
  refine objWriteG_fuse _ _ _ _ _ _ _ _ (by simp) ?_
  intro a
  (try dsimp only)
  split <;> simp
@[simp] theorem fuTick_fuse (s : State) : (fuTick s).fuse = s.fuse := by
  unfold fuTick; simp
@[simp] theorem setBankState_fuse (s : State) (b v : Nat) : (setBankState s b v).fuse = s.fuse := by
  unfold setBankState; rfl
@[simp] theorem wrMioStatus_fuse (r : Req) (p len val : Nat) (s : State) : (wrMioStatus r p len val s).fuse = s.fuse := by
  unfold wrMioStatus; simp
@[simp] theorem wrMioFunc_fuse (r : Req) (p len val : Nat) (s : State) : (wrMioFunc r p len val s).fuse = s.fuse := by
  unfold wrMioFunc; simp
@[simp] theorem wrMioCfg_fuse (r : Req) (p len val : Nat) (s : State) : (wrMioCfg r p len val s).fuse = s.fuse := by
  unfold wrMioCfg; simp
@[simp] theorem wrClkoutDiv_fuse (r : Req) (len val : Nat) (s : State) : (wrClkoutDiv r len val s).fuse = s.fuse := by
  unfold wrClkoutDiv; simp
@[simp] theorem smFlags_fuse (s : State) (c : Nat) (valid ranged beyond : Bool) : (smFlags s c valid ranged beyond).fuse = s.fuse := by
  unfold smFlags; rfl
@[simp] theorem smChange_fuse (s : State) (c : Nat) (on : Bool) (v : Int) : (smChange s c on v).fuse = s.fuse := by
  unfold smChange; rfl
@[simp] theorem smCount_fuse (s : State) (c side : Nat) (band : Bool) (v : Int) : (smCount s c side band v).fuse = s.fuse := by
  unfold smCount; simp
@[simp] theorem aninSwitch_fuse (s : State) (i k : Nat) : (aninSwitch s i k).fuse = s.fuse := by
  unfold aninSwitch; simp
@[simp] theorem aninAuto_fuse (s : State) (i : Nat) (code v : Int) (sat : Bool) : (aninAuto s i code v sat).fuse = s.fuse := by
  unfold aninAuto; simp
@[simp] theorem roundEnd_fuse (s : State) (c : Nat) : (roundEnd s c).fuse = s.fuse := by
  unfold roundEnd; (repeat' split) <;> simp
@[simp] theorem smPlain_fuse (s : State) (c : Nat) (v : Int) : (smPlain s c v).fuse = s.fuse := by
  unfold smPlain; simp
@[simp] theorem smAnin_fuse (s : State) (i : Nat) (raw : Nat) : (smAnin s i raw).fuse = s.fuse := by
  unfold smAnin; simp
@[simp] theorem smRailSeen_fuse (s : State) (c : Nat) (v : Int) : (smRailSeen s c v).fuse = s.fuse := by
  unfold smRailSeen; (repeat' split) <;> simp
@[simp] theorem wrAninRange_fuse (r : Req) (i len val : Nat) (s : State) : (wrAninRange r i len val s).fuse = s.fuse := by
  unfold wrAninRange; simp
@[simp] theorem wrSmThreshold_fuse (r : Req) (k c len val : Nat) (s : State) : (wrSmThreshold r k c len val s).fuse = s.fuse := by
  unfold wrSmThreshold; simp
@[simp] theorem rdDbgChallenge_fuse (r : Req) (s : State) : (rdDbgChallenge r s).fuse = s.fuse := by
  unfold rdDbgChallenge; simp
@[simp] theorem wrDbgToken_fuse (r : Req) (len val : Nat) (s : State) : (wrDbgToken r len val s).fuse = s.fuse := by
  unfold wrDbgToken; simp
@[simp] theorem wrDbgEnd_fuse (r : Req) (len val : Nat) (s : State) : (wrDbgEnd r len val s).fuse = s.fuse := by
  unfold wrDbgEnd; simp
@[simp] theorem canRestart_fuse (s : State) : (canRestart s).fuse = s.fuse := by
  unfold canRestart; rfl
@[simp] theorem wrCanApply_fuse (r : Req) (len val : Nat) (s : State) : (wrCanApply r len val s).fuse = s.fuse := by
  unfold wrCanApply; simp
@[simp] theorem wrAccessMap_fuse (r : Req) (i len val : Nat) (s : State) : (wrAccessMap r i len val s).fuse = s.fuse := by
  unfold wrAccessMap; simp
@[simp] theorem wrDefaultRole_fuse (r : Req) (len val : Nat) (s : State) : (wrDefaultRole r len val s).fuse = s.fuse := by
  unfold wrDefaultRole; simp
@[simp] theorem wrCertChain_fuse (r : Req) (len val : Nat) (s : State) : (wrCertChain r len val s).fuse = s.fuse := by
  unfold wrCertChain; simp
@[simp] theorem rdEvent_fuse (r : Req) (s : State) : (rdEvent r s).fuse = s.fuse := by
  unfold rdEvent; dsimp only; split <;> simp
@[simp] theorem rdEventLost_fuse (r : Req) (s : State) : (rdEventLost r s).fuse = s.fuse := by
  unfold rdEventLost; simp
@[simp] theorem wrDtimeSet_fuse (r : Req) (len val : Nat) (s : State) : (wrDtimeSet r len val s).fuse = s.fuse := by
  unfold wrDtimeSet; simp
@[simp] theorem schedPut_fuse (s : State) (i x : Nat) : (schedPut s i x).fuse = s.fuse := by
  unfold schedPut; rfl
@[simp] theorem wrSchedEntry_fuse (r : Req) (i len val : Nat) (s : State) : (wrSchedEntry r i len val s).fuse = s.fuse := by
  unfold wrSchedEntry; simp
@[simp] theorem wrSchedAdd_fuse (r : Req) (len val : Nat) (s : State) : (wrSchedAdd r len val s).fuse = s.fuse := by
  unfold wrSchedAdd
  refine objWriteG_fuse _ _ _ _ _ _ _ _ (by simp) ?_
  intro a
  (try dsimp only)
  split <;> simp
@[simp] theorem wrStoreOp_fuse (r : Req) (k want len val : Nat) (eff : State → State) (s : State) (heff : ∀ a, (eff a).fuse = a.fuse) : (wrStoreOp r k want len val eff s).fuse = s.fuse := by
  unfold wrStoreOp; simp [heff]
@[simp] theorem eraseIdle_fuse (s : State) : (eraseIdle s).fuse = s.fuse := by
  unfold eraseIdle; (repeat' split) <;> simp
@[simp] theorem wrStoreAll_fuse (r : Req) (len val : Nat) (s : State) : (wrStoreAll r len val s).fuse = s.fuse := by
  unfold wrStoreAll; simp
@[simp] theorem wrRestore_fuse (r : Req) (len val : Nat) (s : State) : (wrRestore r len val s).fuse = s.fuse := by
  unfold wrRestore; simp
@[simp] theorem wrPlain_fuse (r : Req) (k len val : Nat) (s : State) : (wrPlain r k len val s).fuse = s.fuse := by
  unfold wrPlain; simp
@[simp] theorem wrPortSet_fuse (r : Req) (k p len val : Nat) (ok : Bool) (s : State) : (wrPortSet r k p len val ok s).fuse = s.fuse := by
  unfold wrPortSet; simp
@[simp] theorem wrGgLink_fuse (r : Req) (g len val : Nat) (s : State) : (wrGgLink r g len val s).fuse = s.fuse := by
  unfold wrGgLink; simp
@[simp] theorem wrIsetMask_fuse (r : Req) (i len val : Nat) (s : State) : (wrIsetMask r i len val s).fuse = s.fuse := by
  unfold wrIsetMask; simp
@[simp] theorem wrRateLimit_fuse (r : Req) (c len val : Nat) (s : State) : (wrRateLimit r c len val s).fuse = s.fuse := by
  unfold wrRateLimit; simp
@[simp] theorem wrTrainFull_fuse (r : Req) (len val : Nat) (s : State) : (wrTrainFull r len val s).fuse = s.fuse := by
  unfold wrTrainFull; simp
@[simp] theorem wrNextProfile_fuse (r : Req) (len val : Nat) (s : State) : (wrNextProfile r len val s).fuse = s.fuse := by
  unfold wrNextProfile; simp
@[simp] theorem wrTbBurst_fuse (r : Req) (t len val : Nat) (s : State) : (wrTbBurst r t len val s).fuse = s.fuse := by
  unfold wrTbBurst; simp
@[simp] theorem wrGgBurst_fuse (r : Req) (g len val : Nat) (s : State) : (wrGgBurst r g len val s).fuse = s.fuse := by
  unfold wrGgBurst; simp
@[simp] theorem writeA_fuse (r : Req) (ix sub len val : Nat) (s : State) : (writeA r ix sub len val s).fuse = s.fuse := by
  unfold writeA; simp
@[simp] theorem writeC_fuse (r : Req) (ix sub len val : Nat) (s : State) : (writeC r ix sub len val s).fuse = s.fuse := by
  unfold writeC; simp
@[simp] theorem writeD_fuse (r : Req) (ix sub len val : Nat) (s : State) : (writeD r ix sub len val s).fuse = s.fuse := by
  unfold writeD; simp
@[simp] theorem giveValue_fuse (s : State) (len val : Nat) : (giveValue s len val).fuse = s.fuse := by
  unfold giveValue; rfl
@[simp] theorem viewId_fuse (s : State) (r : Req) (n : Fin 16) (sub : Nat) (write : Bool) : (viewId s r n sub write).fuse = s.fuse := by
  unfold viewId; simp
@[simp] theorem subCount_fuse (s : State) (r : Req) (ix : Nat) (write : Bool) : (subCount s r ix write).fuse = s.fuse := by
  unfold subCount; simp
@[simp] theorem noIndex_fuse (s : State) (r : Req) : (noIndex s r).fuse = s.fuse := by
  unfold noIndex; simp
@[simp] theorem rdCapData_fuse (r : Req) (s : State) : (rdCapData r s).fuse = s.fuse := by
  unfold rdCapData; simp
@[simp] theorem readDev_fuse (r : Req) (ix sub : Nat) (s : State) : (readDev r ix sub s).fuse = s.fuse := by
  unfold readDev; simp
@[simp] theorem readObj_fuse (r : Req) (ix sub : Nat) (s : State) : (readObj r ix sub s).fuse = s.fuse := by
  unfold readObj; (repeat' split) <;> simp
@[simp] theorem segRead_fuse (r : Req) (ix sub off len : Nat) (s : State) : (segRead r ix sub off len s).fuse = s.fuse := by
  unfold segRead; (repeat' split) <;> simp
@[simp] theorem endLoad_fuse (s : State) : (endLoad s).fuse = s.fuse := by
  unfold endLoad; split <;> simp
@[simp] theorem bootFallback_fuse (s : State) (l : Load) : (bootFallback s l).fuse = s.fuse := by
  unfold bootFallback; split <;> simp
@[simp] theorem clearUnnamed_fuse (s : State) (plan : List PlanEntry) : (clearUnnamed s plan).fuse = s.fuse := by
  unfold clearUnnamed; simp
@[simp] theorem noteBoot_fuse (s : State) (l : Load) : (noteBoot s l).fuse = s.fuse := by
  unfold noteBoot; rfl
@[simp] theorem releaseTrees_fuse (s : State) : (releaseTrees s).fuse = s.fuse := by
  unfold releaseTrees; simp
@[simp] theorem mctpIn_fuse (m : Mctp) (len : Nat) (go : State → State) (s : State) (hgo : ∀ a, (go a).fuse = a.fuse) : (mctpIn m len go s).fuse = s.fuse := by
  unfold mctpIn; simp [hgo]
@[simp] theorem mctpSend_fuse (m : Mctp) (cmd off len : Nat) (s : State) : (mctpSend m cmd off len s).fuse = s.fuse := by
  unfold mctpSend; simp
@[simp] theorem writtenTotal_fuse (r : Req) (ix sub : Nat) (s : State) : (writtenTotal r ix sub s).fuse = s.fuse := by
  unfold writtenTotal; (repeat' split) <;> simp
@[simp] theorem pushSend_fuse (s : State) (upTo tries : Nat) : (pushSend s upTo tries).fuse = s.fuse := by
  unfold pushSend; simp
@[simp] theorem pushFirst_fuse (s : State) : (pushFirst s).fuse = s.fuse := by
  unfold pushFirst; (repeat' split) <;> simp
@[simp] theorem reply_fuse (s : State) (resp val len : Nat) : (reply s resp val len).fuse = s.fuse := by
  unfold reply; rfl
@[simp] theorem onBinding_fuse (vdm : Bool) (go : State → State) (s : State) (hgo : ∀ a, (go a).fuse = a.fuse) : (onBinding vdm go s).fuse = s.fuse := by
  unfold onBinding; simp [hgo]
@[simp] theorem setSpdm_fuse (s : State) (x : Spdm) : (setSpdm s x).fuse = s.fuse := by
  unfold setSpdm; rfl
@[simp] theorem spdm_fuse (v : Via) (n : Nat) (go : State → State) (s : State) (hgo : ∀ a, (go a).fuse = a.fuse) : (spdm v n go s).fuse = s.fuse := by
  unfold spdm; simp [hgo]
@[simp] theorem spdmKey_fuse (v : Via) (k : BitVec 8) (go : State → State) (s : State) (hgo : ∀ a, (go a).fuse = a.fuse) : (spdmKey v k go s).fuse = s.fuse := by
  unfold spdmKey; simp [hgo]
@[simp] theorem inSession_fuse (v : Via) (go : State → State) (s : State) (hgo : ∀ a, (go a).fuse = a.fuse) : (inSession v go s).fuse = s.fuse := by
  unfold inSession; simp [hgo]
@[simp] theorem uartTick_fuse (s : State) : (uartTick s).fuse = s.fuse := by
  unfold uartTick; (repeat' split) <;> simp
@[simp] theorem schedAfter_fuse (s : State) (i : Nat) : (schedAfter s i).fuse = s.fuse := by
  unfold schedAfter; rfl
@[simp] theorem ackWith_fuse (s : State) (a : GAck) : (ackWith s a).fuse = s.fuse := by
  unfold ackWith; rfl
@[simp] theorem accFault_fuse (s : State) : (accFault s).fuse = s.fuse := by
  unfold accFault; rfl
@[simp] theorem accDenied_fuse (s : State) : (accDenied s).fuse = s.fuse := by
  unfold accDenied; rfl
@[simp] theorem accData_fuse (s : State) (v : BitVec 32) : (accData s v).fuse = s.fuse := by
  unfold accData; rfl
@[simp] theorem accResp_fuse (s : State) (resp : Nat) : (accResp s resp).fuse = s.fuse := by
  unfold accResp; rfl
@[simp] theorem portAttach_fuse (s : State) : (portAttach s).fuse = s.fuse := by
  unfold portAttach; simp
@[simp] theorem engSelect_fuse (s : State) (v : BitVec 32) : (engSelect s v).fuse = s.fuse := by
  unfold engSelect; simp
@[simp] theorem engData_fuse (s : State) (rnw : Bool) (v : BitVec 32) : (engData s rnw v).fuse = s.fuse := by
  unfold engData
  repeat' first | with_reducible rfl | (simp; done) | split | (dsimp only; split)
@[simp] theorem asDebug_fuse (go : State → State) (s : State) (hgo : ∀ a, (go a).fuse = a.fuse) : (asDebug go s).fuse = s.fuse := by
  unfold asDebug; simp [hgo]
@[simp] theorem memIssue_fuse (s : State) (op : GMemOp) : (memIssue s op).fuse = s.fuse := by
  unfold memIssue
  repeat' first | with_reducible rfl | (simp; done) | split | (dsimp only; split)
@[simp] theorem memStart_fuse (s : State) (op : GMemOp) : (memStart s op).fuse = s.fuse := by
  unfold memStart; simp
@[simp] theorem memCmd_fuse (s : State) (v : BitVec 32) : (memCmd s v).fuse = s.fuse := by
  unfold memCmd; split <;> simp
@[simp] theorem memPush_fuse (s : State) : (memPush s).fuse = s.fuse := by
  unfold memPush; split <;> simp
@[simp] theorem memEnd_fuse (s : State) (op : GMemOp) (t : Tx) : (memEnd s op t).fuse = s.fuse := by
  unfold memEnd; rfl
@[simp] theorem memDrop_fuse (s : State) : (memDrop s).fuse = s.fuse := by
  unfold memDrop; rfl
@[simp] theorem memDone_fuse (s : State) : (memDone s).fuse = s.fuse := by
  unfold memDone
  repeat' first | with_reducible rfl | (simp; done) | split | (dsimp only; split)
@[simp] theorem rbDone_fuse (s : State) : (rbDone s).fuse = s.fuse := by
  unfold rbDone; split <;> simp
@[simp] theorem monRow_fuse (s : State) (e code : Nat) (act : Engine → Engine) : (monRow s e code act).fuse = s.fuse := by
  unfold monRow; simp
@[simp] theorem tapSelect_fuse (s : State) (i : TapInstr) : (tapSelect s i).fuse = s.fuse := by
  unfold tapSelect; simp
@[simp] theorem tapHeld_fuse (s : State) (i : TapInstr) : (tapHeld s i).fuse = s.fuse := by
  unfold tapHeld; simp
@[simp] theorem tickTime_fuse (s : State) : (tickTime s).fuse = s.fuse := by
  unfold tickTime; simp
@[simp] theorem tickEngines_fuse (s : State) : (tickEngines s).fuse = s.fuse := by
  unfold tickEngines; simp
@[simp] theorem tickFabric_fuse (s : State) : (tickFabric s).fuse = s.fuse := by
  unfold tickFabric; simp
@[simp] theorem tickProbes_fuse (s : State) : (tickProbes s).fuse = s.fuse := by
  unfold tickProbes; rfl
@[simp] theorem idleTick_fuse (s : State) : (idleTick s).fuse = s.fuse := by
  unfold idleTick; simp
end Sys2Proof.Machine
end

