-- ==== Sys2Proof/Laws/Fuses.lean ====
section
/-! SUPPORT. Fuses go one way (04 R186, R189 to R191; 05 R236): the relation that every operation keeps, for each operation that may blow a fuse. -/
namespace Sys2Proof.Machine

/-- One key slot after another: as it was, or further on its one way. -/
theorem SlotLe.refl (x : KeySlot) : SlotLe x x := ⟨id, id, id, fun _ _ => rfl⟩
theorem SlotLe.trans {x y z : KeySlot} (a : SlotLe x y) (b : SlotLe y z) : SlotLe x z :=
  ⟨b.1 ∘ a.1, b.2.1 ∘ a.2.1, b.2.2.1 ∘ a.2.2.1, fun h hz => by
    have hy : y.destroyed = false := by
      cases hy : y.destroyed with
      | false => rfl
      | true => rw [b.2.1 hy] at hz; cases hz
    rw [b.2.2.2 (a.1 h) hz, a.2.2.2 h hy]⟩
theorem FuseLe.refl (s : State) : FuseLe s s := ⟨fun _ => BitVec.and_self, fun _ _ => SlotLe.refl _⟩
theorem FuseLe.trans {s t u : State} (a : FuseLe s t) (b : FuseLe t u) : FuseLe s u :=
  ⟨fun i => by
    have h := congrArg (· &&& tabGet u.fuse.lg i 0#8) (a.1 i)
    simp only [BitVec.and_assoc] at h
    rw [b.1 i, a.1 i] at h
    exact h.symm, fun k hk => (a.2 k hk).trans (b.2 k hk)⟩
theorem fuseSlot_congr {s t : State} (h : t.fuse = s.fuse) (k : Nat) : fuseSlot t k = fuseSlot s k := by unfold fuseSlot; rw [h]

/-- What every operation does to the fuses: they go one way, and a destroyed slot stays all ones. -/
structure FuseStep (s t : State) : Prop where
  le : FuseLe s t
  ok : SlotsOk s → SlotsOk t
theorem FuseStep.refl (s : State) : FuseStep s s := ⟨.refl s, id⟩
theorem FuseStep.trans {s t u : State} (a : FuseStep s t) (b : FuseStep t u) : FuseStep s u := ⟨a.le.trans b.le, b.ok ∘ a.ok⟩
theorem FuseStep.of_eq {s t : State} (h : t.fuse = s.fuse) : FuseStep s t :=
  ⟨⟨fun i => by rw [h]; exact BitVec.and_self, fun k _ => by rw [fuseSlot_congr h]; exact .refl _⟩,
    fun g k hk => by rw [fuseSlot_congr h]; exact g k hk⟩
theorem FuseStep.ite {c : Prop} [Decidable c] {s t u : State} (a : FuseStep s t) (b : FuseStep s u) : FuseStep s (if c then t else u) := by
  split
  · exact a
  · exact b
theorem FuseStep.foldl {β : Type} (f : State → β → State) (h : ∀ a b, FuseStep a (f a b)) (l : List β) (s : State) : FuseStep s (l.foldl f s) := by
  induction l generalizing s with
  | nil => exact .refl s
  | cons x r ih => exact (h s x).trans (ih _)

theorem fuseSlot_setSlot (s : State) (k j : Nat) (x : KeySlot) : fuseSlot (setSlot s k x) j = if j = k then x else fuseSlot s j := by
  unfold fuseSlot setSlot
  exact tabGet_tabPut _ _ _ _ _
/-- A slot is replaced by one that SlotLe allows. -/
theorem fuseStep_setSlot (s : State) (k : Nat) (x : KeySlot) (h : SlotLe (fuseSlot s k) x) (o : (∀ k < 7, (fuseSlot s k).destroyed = true → (fuseSlot s k).val = slotOnes k) → k < 7 → x.destroyed = true → x.val = slotOnes k) :
    FuseStep s (setSlot s k x) :=
  ⟨⟨fun _ => BitVec.and_self, fun j _ => by
    rw [fuseSlot_setSlot]; split
    · subst_vars; exact h
    · exact .refl _⟩,
  fun g j hj => by
    rw [fuseSlot_setSlot]; split
    · subst_vars; exact o g hj
    · exact g j hj⟩

theorem fuseStep_destroyForbidden (s : State) (lc : Nat) : FuseStep s (destroyForbidden s lc).1 := by
  have h : ∀ (l : List Nat) (n : Nat) (a : State), FuseStep a (l.foldl (fun (a : State × Nat) k =>
      if slotForbidden lc k && !(fuseSlot a.1 k).destroyed
      then (setSlot a.1 k { fuseSlot a.1 k with val := slotOnes k, destroyed := true }, a.2 + 2 ^ k) else a) (a, n)).1 := by
    intro l
    induction l with
    | nil => intro n a; exact .refl a
    | cons x r ih =>
      intro n a; rw [List.foldl_cons]; split
      · exact (fuseStep_setSlot a x { fuseSlot a x with val := slotOnes x, destroyed := true }
          ⟨id, fun _ => rfl, id, fun _ h => Bool.noConfusion h⟩ (fun _ _ _ => rfl)).trans (ih _ _)
      · exact ih _ _
  unfold destroyForbidden
  dsimp only
  split
  · exact (h _ _ _).trans (.of_eq rfl)
  · exact h _ _ _
theorem fuseStep_bootStep5 (s : State) (us : BitVec 32) (status : BitVec 7) : FuseStep s (bootStep5 s us status) := by
  unfold bootStep5
  dsimp only
  refine FuseStep.trans (t := (destroyForbidden (setRst s { s.rst with lc := BitVec.ofNat 3 (lcOf s), wipeTime := us, wipeStatus := status }) (lcOf s)).1) ?_ (.of_eq ?_)
  · exact FuseStep.trans (.of_eq (setRst_fuse _ _)) (fuseStep_destroyForbidden _ _)
  · rw [bootEvents_fuse, freeStep_fuse]
    split <;> rfl

/-- A write that is aborted by its conditions has no effect; an accepted one meets them. -/
theorem checkWrite_state {s : State} {r : Req} {ix sub len val : Nat} {c : Conds} (h : checkWrite s r ix sub len val c = 0#32) :
    c.value = true ∧ c.state = true := by
  unfold checkWrite at h
  dsimp only at h
  cases hv : c.value <;> cases hs : c.state <;> simp only [hv, hs] at h <;> (repeat' split at h) <;>
    first | exact absurd h (by decide) | contradiction | simp_all
theorem fuseStep_objWriteG (r : Req) (k len val : Nat) (c : Conds) (rej : BitVec 32 → State → State) (eff : State → State) (s : State)
    (hrej : ∀ b a, (rej b a).fuse = a.fuse) (heff : c.value = true → c.state = true → FuseStep s (eff (answer s 0#32))) :
    FuseStep s (objWriteG r k len val c rej eff s) := by
  unfold objWriteG
  split
  · dsimp only
    split
    · rename_i h; have g := checkWrite_state h; exact heff g.1 g.2
    · exact .of_eq (by rw [hrej]; rfl)
  · exact .of_eq rfl
theorem fuseStep_wrKeyProgram (r : Req) (len val : Nat) (s : State) : FuseStep s (wrKeyProgram r len val s) := by
  unfold wrKeyProgram
  refine fuseStep_objWriteG _ _ _ _ _ _ _ _ (by simp) ?_
  intro hv hs
  simp only [Bool.and_eq_true, Bool.not_eq_true'] at hs
  refine FuseStep.trans (.of_eq (answer_fuse s 0#32)) (fuseStep_setSlot _ _ _ ⟨fun _ => rfl, ?_, id, ?_⟩ ?_)
  · intro h
    rw [fuseSlot_congr (answer_fuse s 0#32), hs.2] at h; cases h
  · intro h
    rw [fuseSlot_congr (answer_fuse s 0#32), hs.1.2] at h; cases h
  · intro _ _ h
    simpa using h
theorem fuseStep_wrKeyRevoke (r : Req) (len val : Nat) (s : State) : FuseStep s (wrKeyRevoke r len val s) := by
  unfold wrKeyRevoke
  refine fuseStep_objWriteG _ _ _ _ _ _ _ _ (by simp) ?_
  intro hv hs
  have h1 : FuseStep s (setSlot (answer s 0#32) (val % 4) { fuseSlot s (val % 4) with revoked := true }) :=
    FuseStep.trans (.of_eq (answer_fuse s 0#32)) (fuseStep_setSlot _ _ _
      (by rw [fuseSlot_congr (answer_fuse s 0#32)]; exact ⟨id, id, fun _ => rfl, fun _ _ => rfl⟩)
      (by intro g hk; have := g _ hk; rw [fuseSlot_congr (answer_fuse s 0#32)] at this; exact this))
  dsimp only
  split
  · split
    · exact h1.trans (.of_eq (endToken_fuse _ _))
    · exact h1
  · exact h1

theorem fuseStep_writeB (r : Req) (ix sub len val : Nat) (s : State) : FuseStep s (writeB r ix sub len val s) := by
  unfold writeB
  dsimp only
  repeat' first
    | with_reducible exact fuseStep_wrKeyProgram _ _ _ _
    | with_reducible exact fuseStep_wrKeyRevoke _ _ _ _
    | with_reducible refine FuseStep.ite ?_ ?_
    | split
    | (dsimp only; split)
    | (refine FuseStep.of_eq ?_; simp; done)
theorem fuseStep_writeDev (r : Req) (ix sub len val : Nat) (s : State) : FuseStep s (writeDev r ix sub len val s) := by
  unfold writeDev
  repeat' first
    | with_reducible exact fuseStep_writeB _ _ _ _ _ _
    | with_reducible refine FuseStep.ite ?_ ?_
    | split
    | (refine FuseStep.of_eq ?_; simp; done)
theorem fuseStep_writeObj (r : Req) (ix sub len val : Nat) (s : State) : FuseStep s (writeObj r ix sub len val s) := by
  unfold writeObj
  repeat' first
    | with_reducible exact fuseStep_writeDev _ _ _ _ _ _
    | with_reducible refine FuseStep.ite ?_ ?_
    | split
    | (dsimp only; split)
    | (refine FuseStep.of_eq ?_; simp; done)
theorem fuseStep_writeIn (s : State) (ix sub len val : Nat) : FuseStep s (writeIn s ix sub len val) := by
  unfold writeIn
  exact (fuseStep_writeObj internalReq ix sub len val s).trans (.of_eq (by simp))
theorem fuseStep_bootApply (s : State) (l : Load) : FuseStep s (bootApply s l) := by
  have hp : ∀ a p, FuseStep a (applyPlan a p) := fun a p => by
    unfold applyPlan
    exact FuseStep.trans (.of_eq (clearUnnamed_fuse a p)) (FuseStep.foldl _ (fun a e => fuseStep_writeIn _ _ _ _ _) _ _)
  have hq : ∀ a, FuseStep a (applyParams a) := fun a => by
    unfold applyParams
    split
    · exact .refl a
    · split
      · exact .of_eq (by simp)
      · refine FuseStep.foldl _ (fun a e => ?_) _ _
        split
        · exact fuseStep_writeIn _ _ _ _ _
        · exact .of_eq (logEv_fuse _ _ _ _)
  unfold bootApply
  dsimp only
  have h1 : FuseStep s (setRst (endLoad (logEv (noteBoot s l) 0x2301 sevInfo (l.src.toNat * 256 + l.kind)))
      { (endLoad (logEv (noteBoot s l) 0x2301 sevInfo (l.src.toNat * 256 + l.kind))).rst with phase := .planning }) := .of_eq (by simp)
  refine (h1.trans ((hp _ l.plan).trans (hq _))).trans (.of_eq ?_)
  rw [setRst_fuse]
theorem fuseStep_segWrite (r : Req) (ix sub off : Nat) (last : Bool) (data : List Byte) (s : State) : FuseStep s (segWrite r ix sub off last data s) := by
  unfold segWrite segDomain
  repeat' first
    | with_reducible exact fuseStep_writeObj _ _ _ _ _ _
    | (refine FuseStep.of_eq ?_; simp; done)
    | with_reducible exact FuseStep.trans (.of_eq (setFw_fuse _ _)) (fuseStep_writeObj _ _ _ _ _ _)
    | with_reducible refine FuseStep.ite ?_ ?_
    | split
    | (dsimp only; split)
theorem fuseStep_schedRun (s : State) (i : Nat) : FuseStep s (schedRun s i) := by
  have h := (FuseStep.of_eq (schedAfter_fuse s i)).trans (fuseStep_writeIn (schedAfter s i) (bitsAt (schedEntry s i) 96 16)
    (bitsAt (schedEntry s i) 112 8) (bitsAt (schedEntry s i) 120 8) (bitsAt (schedEntry s i) 128 (8 * bitsAt (schedEntry s i) 120 8)))
  unfold schedRun
  dsimp only
  split
  · exact h
  · exact h.trans (.of_eq (by simp))
theorem fuseStep_prbData (s : State) (rnw : Bool) (v : BitVec 32) : FuseStep s (prbData s rnw v) := by
  have h : ∀ go : State → State, (∀ a, FuseStep a (go a)) → FuseStep s (asDebug go s) := fun go hg => by
    unfold asDebug
    exact FuseStep.trans (.of_eq (setDbg_fuse _ _)) ((hg _).trans (.of_eq (setDbg_fuse _ _)))
  have hr (ix n : Nat) := h (fun a => readObj goithReq ix n a) fun a => .of_eq (readObj_fuse _ _ _ _)
  have hw (ix n : Nat) := h (fun a => writeObj goithReq ix n 2 (v.toNat % 65536) a) fun a => fuseStep_writeObj _ _ _ _ _ _
  unfold prbData
  dsimp only
  split
  · exact .of_eq (accDenied_fuse _)
  · cases rnw
    · simp only [Bool.false_eq_true, if_false]
      exact .ite ((hw _ _).trans (.of_eq (accFault_fuse _))) (hw _ _)
    · simp only [if_true]
      exact .ite ((hr _ _).trans (.of_eq (accFault_fuse _))) ((hr _ _).trans (.of_eq (accData_fuse _ _)))
theorem fuseStep_tunRun (s : State) (write : Bool) : FuseStep s (tunRun s write) := by
  unfold tunRun
  dsimp only
  repeat' first
    | exact (fuseStep_segWrite _ _ _ _ _ _ _).trans (.of_eq (writtenTotal_fuse _ _ _ _))
    | with_reducible refine FuseStep.ite ?_ ?_
    | split
    | (refine FuseStep.of_eq ?_; simp; done)
theorem fuseStep_tunDone (s : State) : FuseStep s (tunDone s) := by
  unfold tunDone
  split
  · exact .refl s
  · split
    · exact .refl s
    · exact (fuseStep_tunRun _ _).trans (.of_eq (setDbg_fuse _ _))
theorem fuseStep_portAbort (s : State) : FuseStep s (portAbort s) := by
  unfold portAbort
  dsimp only
  split
  · exact FuseStep.trans (.of_eq (memPush_fuse s)) ((fuseStep_tunRun (memPush s) true).trans (.of_eq (by simp)))
  · exact .of_eq (by simp)
theorem fuseStep_portCmd (s : State) (v : BitVec 32) : FuseStep s (portCmd s v) := by
  unfold portCmd
  split
  case h_4 => exact fuseStep_portAbort s
  all_goals exact .of_eq (by simp)
theorem fuseStep_portRead (s : State) (cls rs : Nat) : FuseStep s (portRead s cls rs) := by
  unfold portRead
  repeat' first
    | with_reducible exact fuseStep_prbData _ _ _
    | with_reducible refine FuseStep.ite ?_ ?_
    | split
    | (refine FuseStep.of_eq ?_; simp; done)
theorem fuseStep_portWrite (s : State) (cls rs : Nat) (v : BitVec 32) : FuseStep s (portWrite s cls rs v) := by
  unfold portWrite
  dsimp only
  repeat' first
    | with_reducible exact fuseStep_prbData _ _ _
    | with_reducible exact fuseStep_portCmd _ _
    | with_reducible refine FuseStep.ite ?_ ?_
    | split
    | (refine FuseStep.of_eq ?_; simp; done)
/-- An access of the Goith port. -/
theorem fuseStep_goith (g : GAcc) (cls rs : Nat) (rnw : Bool) (v : BitVec 32) (s : State) : FuseStep s (goith g cls rs rnw v s) := by
  unfold goith
  repeat' first
    | exact FuseStep.trans (.of_eq (ackWith_fuse _ _)) (fuseStep_portRead _ _ _)
    | exact FuseStep.trans (.of_eq (ackWith_fuse _ _)) (fuseStep_portWrite _ _ _ _)
    | with_reducible refine FuseStep.ite ?_ ?_
    | split
    | (dsimp only; split)
    | (refine FuseStep.of_eq ?_; simp; done)
/-- The blowing of life-cycle groups. -/
theorem blowGroups_keeps (fuel : Nat) (lg : Tab (BitVec 8)) (reads : BitVec 32) (g t i : Nat) :
    tabGet lg i 0#8 &&& tabGet (blowGroups lg reads g t fuel).1 i 0#8 = tabGet lg i 0#8 := by
  induction fuel generalizing lg g with
  | zero => exact BitVec.and_self
  | succ n ih =>
    have h : ∀ x : BitVec 8, tabGet lg i 0#8 &&& tabGet (tabPut lg g (tabGet lg g 0#8 ||| x)) i 0#8 = tabGet lg i 0#8 := by
      intro x
      rw [tabGet_tabPut]
      split
      · subst_vars; ext j hj; simp; tauto
      · exact BitVec.and_self
    rw [blowGroups]
    split
    · exact BitVec.and_self
    · dsimp only
      split
      · have k := h (BitVec.ofNat 8 (reads.toNat / 2 ^ (8 * (g - 1))))
        have m := congrArg (tabGet lg i 0#8 &&& ·) (ih (tabPut lg g (tabGet lg g 0#8 ||| BitVec.ofNat 8 (reads.toNat / 2 ^ (8 * (g - 1))))) (g + 1))
        simp only [← BitVec.and_assoc, k] at m
        exact m
      · exact h _
end Sys2Proof.Machine
end

