-- ==== Sys2Proof/Laws/QueueFrames.lean ====
section
/-! SUPPORT. Every operation leaves the queue of waiting commands as it is: one lemma for each. -/
namespace Sys2Proof.Machine
@[simp] theorem foldl_pending {β : Type} (g : State → β → State) (l : List β) (s : State) (h : ∀ a b, (g a b).pending = a.pending) : (l.foldl g s).pending = s.pending := by
  induction l generalizing s with
  | nil => rfl
  | cons x r ih => rw [List.foldl_cons, ih, h]
@[simp] theorem ite_pending (c : Prop) [Decidable c] (a b : State) : (if c then a else b).pending = if c then a.pending else b.pending := by split <;> rfl
@[simp] theorem noRej_pending (x : BitVec 32) (s : State) : (noRej x s).pending = s.pending := by
  unfold noRej
  with_reducible rfl
@[simp] theorem oBump_pending (s : State) (k n top : Nat) : (oBump s k n top).pending = s.pending := by
  unfold oBump; rfl
@[simp] theorem tokenEvent_pending (s : State) (t : Token) (code data : Nat) : (tokenEvent s t code data).pending = s.pending := by
  unfold tokenEvent; simp
@[simp] theorem stepDtime_pending (s : State) (v : Nat) : (stepDtime s v).pending = s.pending := by
  unfold stepDtime; rfl
@[simp] theorem objWriteG_pending (r : Req) (k len val : Nat) (c : Conds) (rej : BitVec 32 → State → State) (eff : State → State) (s : State) (hrej : ∀ b a, (rej b a).pending = a.pending) (heff : ∀ a, (eff a).pending = a.pending) : (objWriteG r k len val c rej eff s).pending = s.pending := by
  unfold objWriteG; simp [hrej, heff]
@[simp] theorem objWriteP_pending (r : Req) (k len val : Nat) (eff : State → State) (s : State) (heff : ∀ a, (eff a).pending = a.pending) : (objWriteP r k len val eff s).pending = s.pending := by
  unfold objWriteP; simp [heff]
@[simp] theorem objReadG_pending (r : Req) (k len val : Nat) (eff : State → State) (s : State) (heff : ∀ a, (eff a).pending = a.pending) : (objReadG r k len val eff s).pending = s.pending := by
  unfold objReadG; simp [heff]
@[simp] theorem advanceEpochs_pending (s : State) (ps es : List Nat) : (advanceEpochs s ps es).pending = s.pending := by
  unfold advanceEpochs; rfl
@[simp] theorem setPart_pending (s : State) (p st : Nat) : (setPart s p st).pending = s.pending := by
  unfold setPart; rfl
@[simp] theorem wipePart_pending (s : State) (p : Nat) : (wipePart s p).pending = s.pending := by
  unfold wipePart; rfl
@[simp] theorem abortWipe_pending (s : State) (l : Load) : (abortWipe s l).pending = s.pending := by
  unfold abortWipe; simp
@[simp] theorem abortLoad_pending (s : State) (reason : Nat) : (abortLoad s reason).pending = s.pending := by
  unfold abortLoad; (repeat' split) <;> simp
@[simp] theorem startReset_pending (s : State) (t source : Nat) : (startReset s t source).pending = s.pending := by
  unfold startReset; (repeat' split) <;> simp
@[simp] theorem recordFault_pending (s : State) (t bit data : Nat) : (recordFault s t bit data).pending = s.pending := by
  unfold recordFault; simp
@[simp] theorem coldReset_pending (s : State) (cause : Nat) : (coldReset s cause).pending = s.pending := by
  unfold coldReset; rfl
@[simp] theorem tripHold_pending (s : State) (site : Nat) : (tripHold s site).pending = s.pending := by
  unfold tripHold; simp
@[simp] theorem warmCore_pending (s : State) : (warmCore s).pending = s.pending := by
  unfold warmCore; rfl
@[simp] theorem resetDebug_pending (s : State) : (resetDebug s).pending = s.pending := by
  unfold resetDebug; (repeat' split) <;> simp
@[simp] theorem warmGo_pending (s : State) (cause : Nat) : (warmGo s cause).pending = s.pending := by
  unfold warmGo; simp
@[simp] theorem warmReset_pending (s : State) (cause : Nat) : (warmReset s cause).pending = s.pending := by
  unfold warmReset; simp
@[simp] theorem standbySleep_pending (s : State) : (standbySleep s).pending = s.pending := by
  unfold standbySleep; rfl
@[simp] theorem rcCheck_pending (s : State) (count : Nat) : (rcCheck s count).pending = s.pending := by
  unfold rcCheck; simp
@[simp] theorem syncFrame_pending (s : State) (code : BitVec 16) : (syncFrame s code).pending = s.pending := by
  unfold syncFrame; simp
@[simp] theorem wrRefStatus_pending (r : Req) (len val : Nat) (s : State) : (wrRefStatus r len val s).pending = s.pending := by
  unfold wrRefStatus; simp
@[simp] theorem wrRefReselect_pending (r : Req) (len val : Nat) (s : State) : (wrRefReselect r len val s).pending = s.pending := by
  unfold wrRefReselect; simp
@[simp] theorem chanSleep_pending (s : State) (u old new : Nat) : (chanSleep s u old new).pending = s.pending := by
  unfold chanSleep; simp
@[simp] theorem setEnable_pending (s0 : State) (u : Nat) : (setEnable s0 u).pending = s0.pending := by
  unfold setEnable; simp
@[simp] theorem clearEnable_pending (s : State) (u : Nat) : (clearEnable s u).pending = s.pending := by
  unfold clearEnable; simp
@[simp] theorem answerGated_pending (s : State) (u : Nat) : (answerGated s u).pending = s.pending := by
  unfold answerGated; simp
@[simp] theorem setSynth_pending (s : State) (i : Nat) (y : Synth) : (setSynth s i y).pending = s.pending := by
  unfold setSynth; rfl
@[simp] theorem wrSynthApply_pending (r : Req) (i len val : Nat) (s : State) : (wrSynthApply r i len val s).pending = s.pending := by
  unfold wrSynthApply; simp
@[simp] theorem synthsStop_pending (s : State) (d : Nat) : (synthsStop s d).pending = s.pending := by
  unfold synthsStop; simp
@[simp] theorem synthsRestart_pending (s : State) (d : Nat) : (synthsRestart s d).pending = s.pending := by
  unfold synthsRestart; simp
@[simp] theorem dieReal_pending (s : State) (d : Nat) : (dieReal s d).pending = s.pending := by
  unfold dieReal; simp
@[simp] theorem endAttach_pending (s : State) : (endAttach s).pending = s.pending := by
  unfold endAttach; simp
@[simp] theorem endToken_pending (s : State) (why : Nat) : (endToken s why).pending = s.pending := by
  unfold endToken; split <;> simp
@[simp] theorem powerUp_pending (s : State) (vaux : Bool) (straps : BitVec 16) : (powerUp s vaux straps).pending = s.pending := by
  unfold powerUp; simp
@[simp] theorem effectiveResetEnd_pending (s : State) (straps : BitVec 16) (rails : BitVec 28) : (effectiveResetEnd s straps rails).pending = s.pending := by
  unfold effectiveResetEnd; simp
@[simp] theorem storeMeans_pending (s : State) : (storeMeans s).pending = s.pending := by
  unfold storeMeans; simp
@[simp] theorem powerWindowEnd_pending (s : State) : (powerWindowEnd s).pending = s.pending := by
  unfold powerWindowEnd; simp
@[simp] theorem tamperLoad_pending (s : State) : (tamperLoad s).pending = s.pending := by
  unfold tamperLoad; split <;> simp
@[simp] theorem tamperSets_pending (s : State) : (tamperSets s).pending = s.pending := by
  unfold tamperSets; simp
@[simp] theorem wrVbatLatchClear_pending (r : Req) (len val : Nat) (tamperHeld : Bool) (s : State) : (wrVbatLatchClear r len val tamperHeld s).pending = s.pending := by
  unfold wrVbatLatchClear; simp
@[simp] theorem setLogic_pending (s : State) (l : Logic) : (setLogic s l).pending = s.pending := by
  unfold setLogic; simp
@[simp] theorem settle_pending (s : State) : (settle s).pending = s.pending := by
  unfold settle; simp
@[simp] theorem wrGrstPulse_pending (r : Req) (len val : Nat) (s : State) : (wrGrstPulse r len val s).pending = s.pending := by
  unfold wrGrstPulse; simp
@[simp] theorem holdBack_pending (s : State) (g : Nat) (l : List Nat) : (holdBack s g l).pending = s.pending := by
  induction l generalizing s with
  | nil => rfl
  | cons p r ih => rw [holdBack]; split <;> simp [ih]
@[simp] theorem holdCheck_pending (s : State) : (holdCheck s).pending = s.pending := by
  unfold holdCheck; simp
@[simp] theorem setUser_pending (s : State) (g : Nat) (t : RTree) (up : Bool) : (setUser s g t up).pending = s.pending := by
  unfold setUser; simp
@[simp] theorem treeTick_pending (s0 s : State) : (treeTick s0 s).pending = s.pending := by
  unfold treeTick; simp only [settle_pending, holdCheck_pending]
  rw [foldl_pending]
  · rfl
  · intro a b; split <;> simp
@[simp] theorem scrubCorrect_pending (s : State) (p frame word : Nat) : (scrubCorrect s p frame word).pending = s.pending := by
  unfold scrubCorrect; simp
@[simp] theorem scrubBad_pending (s : State) (p frame word : Nat) (bad : BitVec 64) : (scrubBad s p frame word bad).pending = s.pending := by
  unfold scrubBad; simp
@[simp] theorem scrubCheck_pending (s : State) (frame word : Nat) (bad : BitVec 64) (passMs : Option (BitVec 32)) : (scrubCheck s frame word bad passMs).pending = s.pending := by
  unfold scrubCheck; (repeat' split) <;> simp
@[simp] theorem wrProbeSel_pending (r : Req) (ch len val : Nat) (s : State) : (wrProbeSel r ch len val s).pending = s.pending := by
  unfold wrProbeSel; simp
@[simp] theorem wrProbeRoute_pending (r : Req) (ch len val : Nat) (s : State) : (wrProbeRoute r ch len val s).pending = s.pending := by
  unfold wrProbeRoute; simp
@[simp] theorem wrCapControl_pending (r : Req) (len val : Nat) (s : State) : (wrCapControl r len val s).pending = s.pending := by
  unfold wrCapControl; simp
@[simp] theorem capPush_pending (s : State) (x : BitVec 64) : (capPush s x).pending = s.pending := by
  unfold capPush; simp
@[simp] theorem capEnd_pending (s : State) : (capEnd s).pending = s.pending := by
  unfold capEnd; simp
@[simp] theorem capSample_pending (s : State) (x : BitVec 64) : (capSample s x).pending = s.pending := by
  unfold capSample; simp
@[simp] theorem capFeed_pending (s : State) (l : List (BitVec 64)) : (capFeed s l).pending = s.pending := by
  unfold capFeed; simp
@[simp] theorem onCross_pending (s : State) (x : XId) (f : XCell → XState) : (onCross s x f).pending = s.pending := by
  unfold onCross; (repeat' split) <;> simp
@[simp] theorem setRam_pending (s : State) (r : RamId) (m : Ram) : (setRam s r m).pending = s.pending := by
  unfold setRam; rfl
@[simp] theorem ramCorrected_pending (s : State) (r : RamId) : (ramCorrected s r).pending = s.pending := by
  unfold ramCorrected; simp
@[simp] theorem ramUncorrectable_pending (s : State) (r : RamId) (a : Nat) : (ramUncorrectable s r a).pending = s.pending := by
  unfold ramUncorrectable; simp
@[simp] theorem ramReport_pending (s : State) (r : RamId) (k a : Nat) : (ramReport s r k a).pending = s.pending := by
  unfold ramReport; simp
@[simp] theorem ramRead_pending (s : State) (r : RamId) (p : Port) (addr reach : Nat) (upset : BitVec 72) : (ramRead s r p addr reach upset).pending = s.pending := by
  unfold ramRead; simp
@[simp] theorem ramMerge_pending (s : State) (r : RamId) (p : Port) (addr reach : Nat) (w : BitVec 64) (en : Nat) (upset inj : BitVec 72) (reads : Bool) : (ramMerge s r p addr reach w en upset inj reads).pending = s.pending := by
  unfold ramMerge; simp
@[simp] theorem ramFull_pending (s : State) (r : RamId) (p : Port) (addr reach : Nat) (w inj : BitVec 72) (reads : Bool) : (ramFull s r p addr reach w inj reads).pending = s.pending := by
  unfold ramFull; simp
@[simp] theorem ramPlain_pending (s : State) (r : RamId) (p : Port) (reach : Nat) (w : BitVec 72) (en : Nat) (reads : Bool) : (ramPlain s r p reach w en reads).pending = s.pending := by
  unfold ramPlain; simp
@[simp] theorem ramWrite_pending (s : State) (r : RamId) (p : Port) (addr reach : Nat) (w : BitVec 72) (en : Nat) (upset inj : BitVec 72) (reads : Bool) : (ramWrite s r p addr reach w en upset inj reads).pending = s.pending := by
  unfold ramWrite; simp
@[simp] theorem ramScrub_pending (s : State) (r : RamId) (upset : BitVec 72) : (ramScrub s r upset).pending = s.pending := by
  unfold ramScrub; simp
@[simp] theorem clearRamCounts_pending (s : State) (p : Nat) : (clearRamCounts s p).pending = s.pending := by
  unfold clearRamCounts; rfl
@[simp] theorem wrRamCntClear_pending (r : Req) (len val : Nat) (s : State) : (wrRamCntClear r len val s).pending = s.pending := by
  unfold wrRamCntClear; simp
@[simp] theorem setQb_pending (s : State) (b : Nat) (q : Qb) : (setQb s b q).pending = s.pending := by
  unfold setQb; rfl
@[simp] theorem qbPut_pending (s : State) (b : Nat) (q : Qb) : (qbPut s b q).pending = s.pending := by
  unfold qbPut; simp
@[simp] theorem qbReport_pending (s : State) (b k : Nat) : (qbReport s b k).pending = s.pending := by
  unfold qbReport; simp
@[simp] theorem qbRead_pending (s : State) (b : Nat) (upset : BitVec 142) (ends : BitVec 3) (adr : BitVec 10) : (qbRead s b upset ends adr).pending = s.pending := by
  unfold qbRead; (repeat' split) <;> simp
@[simp] theorem clearQbCounts_pending (s : State) (b : Nat) : (clearQbCounts s b).pending = s.pending := by
  unfold clearQbCounts; rfl
@[simp] theorem wrQbCntClear_pending (r : Req) (len val : Nat) (s : State) : (wrQbCntClear r len val s).pending = s.pending := by
  unfold wrQbCntClear; simp
@[simp] theorem tickQbs_pending (s : State) : (tickQbs s).pending = s.pending := by
  unfold tickQbs; simp
@[simp] theorem qbAttach_pending (s : State) (b : Nat) (prod cons : QbSide) : (qbAttach s b prod cons).pending = s.pending := by
  unfold qbAttach; (repeat' split) <;> simp
@[simp] theorem applyItem_pending (s : State) (i : DesignItem) : (applyItem s i).pending = s.pending := by
  unfold applyItem; (repeat' split) <;> simp
@[simp] theorem engEvent_pending (s : State) (e code sev data : Nat) : (engEvent s e code sev data).pending = s.pending := by
  unfold engEvent; rfl
@[simp] theorem debugEntry_pending (s : State) (e cause idx : Nat) : (debugEntry s e cause idx).pending = s.pending := by
  unfold debugEntry; simp
@[simp] theorem engException_pending (s : State) (e code : Nat) : (engException s e code).pending = s.pending := by
  unfold engException; simp
@[simp] theorem streamMove_pending (s : State) (e : Nat) (b : Bundle) : (streamMove s e b).1.pending = s.pending := by
  unfold streamMove; (repeat' split) <;> simp
@[simp] theorem applyBundle_pending (s : State) (e : Nat) (b : Bundle) : (applyBundle s e b).pending = s.pending := by
  unfold applyBundle; simp
@[simp] theorem linkRefusal_pending (s : State) (e : Nat) (b : Bundle) : (linkRefusal s e b).pending = s.pending := by
  unfold linkRefusal; split <;> simp
@[simp] theorem issueWord_pending (s : State) (e : Nat) (w : BitVec 64) : (issueWord s e w).pending = s.pending := by
  unfold issueWord; split <;> simp
@[simp] theorem boundary_pending (s : State) (e : Nat) (w : BitVec 64) : (boundary s e w).pending = s.pending := by
  unfold boundary; dsimp only; split <;> simp
@[simp] theorem engWake_pending (s : State) (e : Nat) : (engWake s e).pending = s.pending := by
  unfold engWake; dsimp only; split <;> simp
@[simp] theorem freshCycle_pending (s : State) (e : Nat) : (freshCycle s e).pending = s.pending := by
  unfold freshCycle; simp
@[simp] theorem engCycle_pending (s0 : State) (e : Nat) (held : Bool) : (engCycle s0 e held).pending = s0.pending := by
  unfold engCycle
  repeat' first | with_reducible rfl | (simp; done) | split | (dsimp only; split)
@[simp] theorem toEng_pending (s : State) (e : Nat) (g : Engine) : (toEng s e g).pending = s.pending := by
  unfold toEng; simp
@[simp] theorem issueRow_pending (e : Nat) (w : BitVec 64) (s : State) : (issueRow e w s).pending = s.pending := by
  unfold issueRow; simp
@[simp] theorem engHalt_pending (s : State) (e : Nat) : (engHalt s e).pending = s.pending := by
  unfold engHalt
  repeat' first | with_reducible rfl | (simp; done) | split | (dsimp only; split)
@[simp] theorem engCommand_pending (s : State) (e code : Nat) : (engCommand s e code).pending = s.pending := by
  unfold engCommand; split <;> simp
@[simp] theorem wrEngCommand_pending (r : Req) (e len val : Nat) (s : State) : (wrEngCommand r e len val s).pending = s.pending := by
  unfold wrEngCommand; simp
@[simp] theorem wipeEng_pending (s : State) (e : Nat) : (wipeEng s e).pending = s.pending := by
  unfold wipeEng; simp
@[simp] theorem engNotReady_pending (s : State) (e : Nat) : (engNotReady s e).pending = s.pending := by
  unfold engNotReady; simp
@[simp] theorem setDma_pending (s : State) (e c : Nat) (d : Dma) : (setDma s e c d).pending = s.pending := by
  unfold setDma; rfl
@[simp] theorem dmaEvent_pending (s : State) (e c resp : Nat) : (dmaEvent s e c resp).pending = s.pending := by
  unfold dmaEvent; rfl
@[simp] theorem dmaSettle_pending (s : State) (e c : Nat) : (dmaSettle s e c).pending = s.pending := by
  unfold dmaSettle; simp
@[simp] theorem dmaStart_pending (s : State) (e c : Nat) : (dmaStart s e c).pending = s.pending := by
  unfold dmaStart; simp
@[simp] theorem dmaCtrlWrite_pending (s : State) (e c val mask : Nat) : (dmaCtrlWrite s e c val mask).1.pending = s.pending := by
  unfold dmaCtrlWrite; dsimp only; split <;> simp
@[simp] theorem engSlotWrite_pending (s : State) (e o val mask : Nat) : (engSlotWrite s e o val mask).1.pending = s.pending := by
  unfold engSlotWrite
  dsimp only
  by_cases h : 256 ≤ o ∧ o < 512
  · rw [if_pos h]
    split <;> simp
  · rw [if_neg h]
    repeat' (first | with_reducible rfl | (simp; done) | split | rw [apply_ite Prod.fst, apply_ite State.pending])
@[simp] theorem winClosed_pending (s : State) (e : Nat) (write : Bool) (off be : Nat) (data : BitVec 512) : (winClosed s e write off be data).1.pending = s.pending := by
  unfold winClosed
  repeat' first | with_reducible rfl | (simp; done) | split | (dsimp only; split)
theorem slots_pending (s : State) (e be : Nat) (data : BitVec 512) (b : Bool) (l : List Nat) :
    (l.foldl (fun (a : State × Bool) o =>
      ((engSlotWrite a.1 e o (fld data (8 * (o % 64)) 64) (byteMask 8 (be / 2 ^ (o % 64) % 256))).1,
        a.2 && (engSlotWrite a.1 e o (fld data (8 * (o % 64)) 64) (byteMask 8 (be / 2 ^ (o % 64) % 256))).2)) (s, b)).1.pending = s.pending := by
  induction l generalizing s b with
  | nil => rfl
  | cons x r ih => rw [List.foldl_cons, ih]; simp
@[simp] theorem winWrite_pending (s : State) (e off be : Nat) (data : BitVec 512) : (winWrite s e off be data).1.pending = s.pending := by
  unfold winWrite
  dsimp only
  repeat' split
  all_goals first | rfl | (simp; done) | exact slots_pending s e be data true _
@[simp] theorem winRead_pending (s : State) (e off be : Nat) : (winRead s e off be).1.pending = s.pending := by
  unfold winRead
  repeat' first | with_reducible rfl | (simp; done) | split | (dsimp only; split)
@[simp] theorem winReg_pending (s : State) (e o : Nat) (wide write : Bool) (v : Nat) : (winReg s e o wide write v).pending = s.pending := by
  unfold winReg; simp
@[simp] theorem inboxWrite_pending (s : State) (e line : Nat) (data : BitVec 512) : (inboxWrite s e line data).1.pending = s.pending := by
  unfold inboxWrite
  repeat' first | with_reducible rfl | (simp; done) | split | (dsimp only; split)
@[simp] theorem headerBad_pending (s : State) (p : Pkt) (vn src at_ : Nat) : (headerBad s p vn src at_).pending = s.pending := by
  unfold headerBad; simp
@[simp] theorem headerOk_pending (s : State) (p : Pkt) : (headerOk s p).pending = s.pending := by
  unfold headerOk; simp
@[simp] theorem packetOdd_pending (s : State) (cmd vn at_ : Nat) : (packetOdd s cmd vn at_).pending = s.pending := by
  unfold packetOdd; simp
@[simp] theorem packet_pending (s : State) (p : Pkt) (vn cmd src at_ : Nat) (lose : Bool → State → State) (take : State → State) (hlose : ∀ b a, (lose b a).pending = a.pending) (htake : ∀ a, (take a).pending = a.pending) : (packet s p vn cmd src at_ lose take).pending = s.pending := by
  unfold packet; (repeat' split) <;> simp [hlose, htake]
@[simp] theorem putTx_pending (s : State) (k : Nat) (t : Tx) : (putTx s k t).pending = s.pending := by
  unfold putTx; rfl
@[simp] theorem dropTx_pending (s : State) (k : Nat) : (dropTx s k).pending = s.pending := by
  unfold dropTx; rfl
@[simp] theorem setChan_pending (s : State) (c : Nat) (x : Chan) : (setChan s c x).pending = s.pending := by
  unfold setChan; rfl
@[simp] theorem ddrEv_pending (s : State) (code sev data c : Nat) : (ddrEv s code sev data c).pending = s.pending := by
  unfold ddrEv; rfl
@[simp] theorem chanFail_pending (s : State) (c code : Nat) : (chanFail s c code).pending = s.pending := by
  unfold chanFail; simp
@[simp] theorem fullTraining_pending (s : State) (c : Nat) : (fullTraining s c).pending = s.pending := by
  unfold fullTraining; rfl
@[simp] theorem sizingDone_pending (s : State) (c z : Nat) : (sizingDone s c z).pending = s.pending := by
  unfold sizingDone
  repeat' first | with_reducible rfl | (simp; done) | split | (dsimp only; split)
@[simp] theorem attemptDone_pending (s : State) (c : Nat) (result : DdrTry) : (attemptDone s c result).pending = s.pending := by
  unfold attemptDone; split <;> simp
@[simp] theorem storeRec_pending (s : State) (c r : Nat) : (storeRec s c r).pending = s.pending := by
  unfold storeRec; simp
@[simp] theorem storeRecs_pending (s : State) (c : Nat) : (storeRecs s c).pending = s.pending := by
  unfold storeRecs; simp
@[simp] theorem startWalk_pending (s : State) (c r : Nat) : (startWalk s c r).pending = s.pending := by
  unfold startWalk; rfl
@[simp] theorem nextWalk_pending (s : State) (c : Nat) : (nextWalk s c).pending = s.pending := by
  unfold nextWalk; (repeat' split) <;> simp
@[simp] theorem channelReady_pending (s : State) (c : Nat) (bad : List (Fin 512)) : (channelReady s c bad).pending = s.pending := by
  unfold channelReady; simp
@[simp] theorem noteBeyond_pending (s : State) (c ca : Nat) : (noteBeyond s c ca).pending = s.pending := by
  unfold noteBeyond; simp
@[simp] theorem touchBank_pending (s : State) (c n hint : Nat) : (touchBank s c n hint).pending = s.pending := by
  unfold touchBank; rfl
@[simp] theorem eccDetected_pending (s : State) (c n : Nat) : (eccDetected s c n).pending = s.pending := by
  unfold eccDetected; rfl
@[simp] theorem eccCorrected_pending (s : State) (c : Nat) : (eccCorrected s c).pending = s.pending := by
  unfold eccCorrected; simp
@[simp] theorem ddrRead_pending (s : State) (c n up hint : Nat) : (ddrRead s c n up hint).1.pending = s.pending := by
  unfold ddrRead
  repeat' first | with_reducible rfl | (simp; done) | split | (dsimp only; split)
@[simp] theorem requestAdvance_pending (s : State) (c r : Nat) : (requestAdvance s c r).pending = s.pending := by
  unfold requestAdvance
  repeat' first | with_reducible rfl | (simp; done) | split | (dsimp only; split)
@[simp] theorem tweakReuse_pending (s : State) (c r : Nat) : (tweakReuse s c r).pending = s.pending := by
  unfold tweakReuse; simp
@[simp] theorem counterLost_pending (s : State) (c i : Nat) : (counterLost s c i).pending = s.pending := by
  unfold counterLost; simp
@[simp] theorem counterRead_pending (s : State) (c i up : Nat) : (counterRead s c i up).pending = s.pending := by
  unfold counterRead; (repeat' split) <;> simp
@[simp] theorem counterTouch_pending (s : State) (c i : Nat) (dirty : Bool) (up : Nat) : (counterTouch s c i dirty up).pending = s.pending := by
  unfold counterTouch; simp
@[simp] theorem countWrite_pending (s : State) (c n up : Nat) : (countWrite s c n up).pending = s.pending := by
  unfold countWrite; simp
@[simp] theorem ddrWrite_pending (s : State) (c n : Nat) (data : BitVec 512) (poison : Bool) (up hint : Nat) : (ddrWrite s c n data poison up hint).pending = s.pending := by
  unfold ddrWrite; simp
@[simp] theorem ddrServe_pending (s : State) (c n up hint : Nat) : (ddrServe s c n up hint).1.pending = s.pending := by
  unfold ddrServe; simp
@[simp] theorem ddrNarrow_pending (s : State) (c n : Nat) (data mask : BitVec 512) (poison : Bool) (up hint : Nat) : (ddrNarrow s c n data mask poison up hint).1.pending = s.pending := by
  unfold ddrNarrow; dsimp only; split <;> simp
@[simp] theorem convertLine_pending (s : State) (c n up : Nat) : (convertLine s c n up).pending = s.pending := by
  unfold convertLine; dsimp only; split <;> simp
@[simp] theorem walkEnd_pending (s : State) (c r : Nat) : (walkEnd s c r).pending = s.pending := by
  unfold walkEnd; dsimp only; split <;> simp
@[simp] theorem walkUnit_pending (s : State) (c r line up : Nat) : (walkUnit s c r line up).pending = s.pending := by
  unfold walkUnit; simp
@[simp] theorem patrolRead_pending (s : State) (c up : Nat) : (patrolRead s c up).pending = s.pending := by
  unfold patrolRead; simp
@[simp] theorem forcedRefab_pending (s : State) (c rank : Nat) : (forcedRefab s c rank).pending = s.pending := by
  unfold forcedRefab; simp
@[simp] theorem refreshDue_pending (s : State) (c rank : Nat) (issued : List (Fin 4)) : (refreshDue s c rank issued).pending = s.pending := by
  unfold refreshDue; simp
@[simp] theorem clearEcc_pending (s : State) (c : Nat) : (clearEcc s c).pending = s.pending := by
  unfold clearEcc; rfl
@[simp] theorem wrEccCntClear_pending (r : Req) (len val : Nat) (s : State) : (wrEccCntClear r len val s).pending = s.pending := by
  unfold wrEccCntClear; simp
@[simp] theorem setCport_pending (s : State) (p : Nat) (x : CascPort) : (setCport s p x).pending = s.pending := by
  unfold setCport; rfl
@[simp] theorem pushPkt_pending (s : State) (p : Nat) (credit : Option Nat) (flits : List (BitVec 514)) (poison : Bool) : (pushPkt s p credit flits poison).pending = s.pending := by
  unfold pushPkt; simp
@[simp] theorem pushMsg_pending (s : State) (p type payload : Nat) : (pushMsg s p type payload).pending = s.pending := by
  unfold pushMsg; simp
@[simp] theorem linkGot_pending (s : State) (p vn : Nat) (dvc : Bool) (n : Nat) : (linkGot s p vn dvc n).pending = s.pending := by
  unfold linkGot; simp
@[simp] theorem gwEvent_pending (s : State) (ten code : Nat) : (gwEvent s ten code).pending = s.pending := by
  unfold gwEvent; simp
@[simp] theorem sendRecord_pending (s : State) (line : Nat) (data : BitVec 512) (sync : Bool) : (sendRecord s line data sync).pending = s.pending := by
  unfold sendRecord; simp
@[simp] theorem mirrorWrite_pending (s : State) (line : Nat) (data : BitVec 512) : (mirrorWrite s line data).1.pending = s.pending := by
  unfold mirrorWrite
  repeat' first | with_reducible rfl | (simp; done) | split | (dsimp only; split)
@[simp] theorem setCxl_pending (s : State) (p : Nat) (x : CxlPort) : (setCxl s p x).pending = s.pending := by
  unfold setCxl; rfl
@[simp] theorem setGate_pending (s : State) (g : Nat) (x : Gate) : (setGate s g x).pending = s.pending := by
  unfold setGate; rfl
@[simp] theorem sliceEvict_pending (s : State) (line : Nat) : (sliceEvict s line).pending = s.pending := by
  unfold sliceEvict; split <;> simp
@[simp] theorem slicePut_pending (s : State) (line : Nat) (l : SliceLine) : (slicePut s line l).pending = s.pending := by
  unfold slicePut; dsimp only; split <;> simp
@[simp] theorem memRead_pending (s : State) (m : MemRef) (up hint : Nat) : (memRead s m up hint).1.pending = s.pending := by
  unfold memRead; (repeat' split) <;> simp
@[simp] theorem memWrite_pending (s : State) (m : MemRef) (data : BitVec 512) (poison : Bool) (up hint : Nat) : (memWrite s m data poison up hint).pending = s.pending := by
  unfold memWrite; simp
@[simp] theorem memFull_pending (s : State) (m : MemRef) (data : BitVec 512) (poison : Bool) (up hint : Nat) : (memFull s m data poison up hint).1.pending = s.pending := by
  unfold memFull; (repeat' split) <;> simp
@[simp] theorem memNarrow_pending (s : State) (m : MemRef) (data mask : BitVec 512) (poison : Bool) (up hint : Nat) : (memNarrow s m data mask poison up hint).1.pending = s.pending := by
  unfold memNarrow
  repeat' first | with_reducible rfl | (simp; done) | split | (dsimp only; split)
@[simp] theorem poisonLine_pending (s : State) (line data : Nat) : (poisonLine s line data).pending = s.pending := by
  unfold poisonLine; split <;> simp
@[simp] theorem sfPut_pending (s : State) (line : Nat) (owned : Bool) (pres : BitVec 6) : (sfPut s line owned pres).pending = s.pending := by
  unfold sfPut; rfl
@[simp] theorem answerHost_pending (s : State) (p : Nat) (a : HostAns) : (answerHost s p a).pending = s.pending := by
  unfold answerHost; simp
@[simp] theorem answerGuest_pending (s : State) (g : Nat) (a : HostAns) : (answerGuest s g a).pending = s.pending := by
  unfold answerGuest; simp
@[simp] theorem answerHalf_pending (s : State) (g : Nat) (a : HostAns) : (answerHalf s g a).pending = s.pending := by
  unfold answerHalf; dsimp only; split <;> simp
@[simp] theorem complete_pending (s : State) (w : Who) (resp : Nat) (data : BitVec 512) : (complete s w resp data).pending = s.pending := by
  unfold complete; (repeat' split) <;> simp
@[simp] theorem completeWrite_pending (s : State) (w : Who) (resp : Nat) (wait : Option Nat) : (completeWrite s w resp wait).pending = s.pending := by
  unfold completeWrite; split <;> simp
@[simp] theorem flowStore_pending (s : State) (f : Flow) : (flowStore s f).1.pending = s.pending := by
  unfold flowStore
  repeat' first | with_reducible rfl | (simp; done) | split | (dsimp only; split)
@[simp] theorem flowData_pending (s : State) (f : Flow) : (flowData s f).pending = s.pending := by
  unfold flowData
  repeat' first | with_reducible rfl | (simp; done) | split | (dsimp only; split)
@[simp] theorem setFlow_pending (s : State) (line : Nat) (f : Flow) : (setFlow s line f).pending = s.pending := by
  unfold setFlow; rfl
@[simp] theorem dropFlow_pending (s : State) (line : Nat) : (dropFlow s line).pending = s.pending := by
  unfold dropFlow; rfl
@[simp] theorem ownerLost_pending (s : State) (a line : Nat) : (ownerLost s a line).pending = s.pending := by
  unfold ownerLost; simp
@[simp] theorem loseOwned_pending (s : State) (line : Nat) (owned : Bool) (mask : BitVec 6) : (loseOwned s line owned mask).pending = s.pending := by
  unfold loseOwned; (repeat' split) <;> simp
@[simp] theorem sfBadEvent_pending (s : State) (line : Nat) : (sfBadEvent s line).pending = s.pending := by
  unfold sfBadEvent; rfl
@[simp] theorem takeTrk_pending (s : State) (line : Nat) (f : Flow) : (takeTrk s line f).pending = s.pending := by
  unfold takeTrk; simp
@[simp] theorem takeVictim_pending (s : State) (line : Nat) (v : SfEntry) : (takeVictim s line v).1.pending = s.pending := by
  unfold takeVictim
  repeat' first | with_reducible rfl | (simp; done) | split | (dsimp only; split)
@[simp] theorem finishFlow_pending (s : State) (f : Flow) : (finishFlow s f).pending = s.pending := by
  unfold finishFlow
  repeat' first | with_reducible rfl | (simp; done) | split | (dsimp only; split)
@[simp] theorem beginFlow_pending (s : State) (r : FlowReq) : (beginFlow s r).pending = s.pending := by
  unfold beginFlow; simp
@[simp] theorem startFlow_pending (s : State) (r : FlowReq) : (startFlow s r).pending = s.pending := by
  unfold startFlow; simp
@[simp] theorem lineResume_pending (s : State) (line : Nat) : (lineResume s line).pending = s.pending := by
  unfold lineResume; (repeat' split) <;> simp
@[simp] theorem snoopSend_pending (s : State) (agent line : Nat) (inv : Bool) (pk : Pkt) : (snoopSend s agent line inv pk).pending = s.pending := by
  unfold snoopSend; (repeat' split) <;> simp
@[simp] theorem snoopAnswer_pending (s : State) (agent line : Nat) (shared : Bool) (dirty : Option (BitVec 512)) : (snoopAnswer s agent line shared dirty).pending = s.pending := by
  unfold snoopAnswer; split <;> simp
@[simp] theorem snoopResponse_pending (s : State) (agent line : Nat) (txn : BitVec 16) (shared : Bool) (dirty : Option (BitVec 512)) : (snoopResponse s agent line txn shared dirty).pending = s.pending := by
  unfold snoopResponse; (repeat' split) <;> simp
@[simp] theorem srsp_pending (s : State) (pk : Pkt) (cmd agent line : Nat) (txn : BitVec 16) (shared : Bool) (dirty : Option (BitVec 512)) : (srsp s pk cmd agent line txn shared dirty).pending = s.pending := by
  unfold srsp; simp
@[simp] theorem hostBirsp_pending (s : State) (p line : Nat) (txn : BitVec 16) (shared : Bool) (data : Option (BitVec 512)) : (hostBirsp s p line txn shared data).pending = s.pending := by
  unfold hostBirsp; simp
@[simp] theorem snoopTimeout_pending (s : State) (agent line : Nat) : (snoopTimeout s agent line).pending = s.pending := by
  unfold snoopTimeout; split <;> simp
@[simp] theorem dropAgent_pending (s : State) (agent : Nat) : (dropAgent s agent).1.pending = s.pending := by
  unfold dropAgent; simp
@[simp] theorem hostDisplace_pending (s : State) (h : HostLine) : (hostDisplace s h).pending = s.pending := by
  unfold hostDisplace; rfl
@[simp] theorem hostTrimSlice_pending (s : State) (quota slice : Nat) : (hostTrimSlice s quota slice).pending = s.pending := by
  unfold hostTrimSlice; (repeat' split) <;> simp
@[simp] theorem hostTrim_pending (s : State) (quota fuel : Nat) : (hostTrim s quota fuel).pending = s.pending := by
  induction fuel generalizing s with
  | zero => rfl
  | succ k ih => rw [hostTrim]; split <;> simp [ih]
@[simp] theorem sliceTrim_pending (s : State) (slice : Nat) : (sliceTrim s slice).pending = s.pending := by
  unfold sliceTrim
  repeat' first | with_reducible rfl | (simp; done) | split | (dsimp only; split)
@[simp] theorem hostPut_pending (s : State) (h : HostLine) : (hostPut s h).pending = s.pending := by
  unfold hostPut; simp
@[simp] theorem hostSnoop_pending (s : State) (p line kind : Nat) : (hostSnoop s p line kind).pending = s.pending := by
  unfold hostSnoop; split <;> simp
@[simp] theorem hsnp_pending (s : State) (pk : Pkt) (cmd p line kind : Nat) : (hsnp s pk cmd p line kind).pending = s.pending := by
  unfold hsnp; simp
@[simp] theorem wrHostQuotaMib_pending (r : Req) (len val : Nat) (s : State) : (wrHostQuotaMib r len val s).pending = s.pending := by
  unfold wrHostQuotaMib; simp
@[simp] theorem gwRefuse_pending (s : State) (i : Init) (code : Nat) : (gwRefuse s i code).pending = s.pending := by
  unfold gwRefuse; simp
@[simp] theorem tokenRefill_pending (s : State) : (tokenRefill s).pending = s.pending := by
  unfold tokenRefill
  repeat' first | with_reducible rfl | (simp; done) | split | (dsimp only; split) | (refine (foldl_pending _ _ _ ?_).trans ?_; intro _ _) | rfl
@[simp] theorem tbBurst_pending (s : State) (t val : Nat) : (tbBurst s t val).pending = s.pending := by
  unfold tbBurst; simp
@[simp] theorem ggBurst_pending (s : State) (g val : Nat) : (ggBurst s g val).pending = s.pending := by
  unfold ggBurst; simp
@[simp] theorem lookupAt_pending (s : State) (pt t a : Nat) : (lookupAt s pt t a).1.pending = s.pending := by
  unfold lookupAt
  repeat' first | with_reducible rfl | (simp; done) | split | (dsimp only; split)
@[simp] theorem fetchReturn_pending (s : State) (pt t a : Nat) : (fetchReturn s pt t a).pending = s.pending := by
  unfold fetchReturn; (repeat' split) <;> simp
@[simp] theorem deliverIn_pending (s : State) (k : Nat) (t : Tx) (p sub : Nat) : (deliverIn s k t p sub).pending = s.pending := by
  unfold deliverIn; split <;> simp
@[simp] theorem deliverMsg_pending (s : State) (k : Nat) (t : Tx) (p sub : Nat) : (deliverMsg s k t p sub).pending = s.pending := by
  unfold deliverMsg; rfl
@[simp] theorem sendTo_pending (s : State) (dev vn : Nat) (flits : List (BitVec 514)) (poison : Bool) : (sendTo s dev vn flits poison).pending = s.pending := by
  unfold sendTo; (repeat' split) <;> simp
@[simp] theorem sendRequest_pending (s : State) (t : Tx) (dev addr : Nat) : (sendRequest s t dev addr).pending = s.pending := by
  unfold sendRequest; (repeat' split) <;> simp
@[simp] theorem sendData_pending (s : State) (t : Tx) (dev addr : Nat) (data : List (BitVec 512)) : (sendData s t dev addr data).pending = s.pending := by
  unfold sendData; (repeat' split) <;> simp
@[simp] theorem sendBack_pending (s : State) (t : Tx) (cmd vn resp : Nat) (data : List (BitVec 512)) : (sendBack s t cmd vn resp data).pending = s.pending := by
  unfold sendBack; (repeat' split) <;> simp
@[simp] theorem fromLink_pending (s : State) (i : Init) (vn : Nat) (pk : Pkt) (n : Nat) : (fromLink s i vn pk n).pending = s.pending := by
  unfold fromLink; (repeat' split) <;> simp
@[simp] theorem fromRemote_pending (s : State) (target : Target) (vn : Nat) (pk : Pkt) (n : Nat) : (fromRemote s target vn pk n).pending = s.pending := by
  unfold fromRemote; (repeat' split) <;> simp
@[simp] theorem loseTx_pending (k : Nat) (t : Tx) (vn0 : Bool) (s : State) : (loseTx k t vn0 s).pending = s.pending := by
  unfold loseTx; (repeat' split) <;> simp
@[simp] theorem txAnswer_pending (s : State) (k : Nat) (t : Tx) (resp : Nat) (data : List (BitVec 512)) : (txAnswer s k t resp data).pending = s.pending := by
  unfold txAnswer; rfl
@[simp] theorem readAt_pending (s : State) (k : Nat) (t : Tx) (up : Nat) : (readAt s k t up).pending = s.pending := by
  unfold readAt; (repeat' split) <;> simp
@[simp] theorem hostWriteAt_pending (s : State) (k : Nat) (t : Tx) (p hpa : Nat) (d : BitVec 512) : (hostWriteAt s k t p hpa d).pending = s.pending := by
  unfold hostWriteAt; (repeat' split) <;> simp
@[simp] theorem writeAt_pending (s : State) (k : Nat) (t : Tx) (data : List (BitVec 512)) (poison : Bool) (up : Nat) : (writeAt s k t data poison up).pending = s.pending := by
  unfold writeAt; (repeat' split) <;> simp
@[simp] theorem refusalNote_pending (s : State) (a : Nat) (code : Nat) (r : Route) : (refusalNote s a code r).pending = s.pending := by
  unfold refusalNote; (repeat' split) <;> simp
theorem grant_pending (s t : State) (i : Init) (go : State → State) (hs : s.pending = t.pending) (hgo : ∀ a, a.pending = t.pending → (go a).pending = t.pending) : (grant s i go).pending = t.pending := by
  unfold grant; dsimp only
  split
  · exact hs
  · split
    · exact hgo _ hs
    · exact hs
@[simp] theorem noInject_pending (s : State) (h : Hdr) (code : Nat) : (noInject s h code).pending = s.pending := by
  unfold noInject; rfl
@[simp] theorem refused_pending (s : State) (h : Hdr) (at_ code : Nat) : (refused s h at_ code).pending = s.pending := by
  unfold refused; simp
@[simp] theorem denyWrite_pending (s : State) (target : Target) (be : Nat) : (denyWrite s target be).1.pending = s.pending := by
  unfold denyWrite
  repeat' first | with_reducible rfl | (simp; done) | split | (dsimp only; split)
@[simp] theorem arrive_pending (s : State) (h : Hdr) (r : Route) (v : Verdict) (up : Nat) : (arrive s h r v up).pending = s.pending := by
  unfold arrive
  repeat' first | with_reducible rfl | (simp; done) | split | (dsimp only; split)
@[simp] theorem headerLost_pending (s : State) (h : Hdr) (at_ : Nat) : (headerLost s h at_).pending = s.pending := by
  unfold headerLost; simp
@[simp] theorem travel_pending (s : State) (h : Hdr) (r : Route) (p : Pkt) (up : Nat) : (travel s h r p up).pending = s.pending := by
  unfold travel; (repeat' split) <;> simp
theorem takeTokens_pending {s t : State} {i : Init} {n : Nat} (h : takeTokens s i n = some t) : t.pending = s.pending := by
  unfold takeTokens at h
  split at h
  · cases h; rfl
  · dsimp only at h
    split at h
    · cases h; rfl
    · split at h
      · cases h
      · cases h; rfl
@[simp] theorem answerHere_pending (s s1 : State) (h : Hdr) (r : Option Route) (code : Nat) (h1 : s1.pending = s.pending) : (answerHere s s1 h r code).pending = s.pending := by
  unfold answerHere; split <;> simp [h1]
@[simp] theorem injectPoint_pending (s : State) (pt : Nat) (h : Hdr) (p : Pkt) (up : Nat) : (injectPoint s pt h p up).pending = s.pending := by
  unfold injectPoint
  dsimp only
  repeat' split
  all_goals first
    | (simp; done)
    | (refine grant_pending _ _ _ _ (by simp) fun a ha => ?_
       split
       · rfl
       · rename_i h; simp [takeTokens_pending h, ha])
@[simp] theorem injectGate_pending (s : State) (code : Nat) (h : Hdr) (p : Pkt) (up : Nat) : (injectGate s code h p up).pending = s.pending := by
  unfold injectGate
  repeat' split
  all_goals first
    | (simp; done)
    | exact grant_pending _ _ _ _ rfl fun a ha => by simp [ha]
@[simp] theorem inject_pending (s : State) (h : Hdr) (p : Pkt) (up : Nat) : (inject s h p up).pending = s.pending := by
  unfold inject
  repeat' split
  all_goals first
    | (simp; done)
    | exact grant_pending _ _ _ _ rfl fun a ha => by simp [ha]
@[simp] theorem apGive_pending (s : State) (p tag resp : Nat) (data : BitVec 512) : (apGive s p tag resp data).pending = s.pending := by
  unfold apGive; rfl
@[simp] theorem apFlush_pending (s : State) (p : Nat) : (apFlush s p).pending = s.pending := by
  unfold apFlush
  generalize (tabGet s.vent.apq p []).length = n
  induction n generalizing s with
  | zero => rfl
  | succ k ih => rw [apDrain]; (repeat' split) <;> simp [ih]
@[simp] theorem ventRow_pending (s : State) (h : VHdr) (cmd up : Nat) : (ventRow s h cmd up).pending = s.pending := by
  unfold ventRow; (repeat' split) <;> simp
@[simp] theorem apRequest_pending (s : State) (p : Nat) (q : ApReq) : (apRequest s p q).pending = s.pending := by
  unfold apRequest; simp
@[simp] theorem dropHeld_pending (s : State) (t : Tx) : (dropHeld s t).pending = s.pending := by
  unfold dropHeld; split <;> simp
@[simp] theorem pull_pending (s : State) (k : Nat) (t : Tx) : (pull s k t).pending = s.pending := by
  unfold pull
  split
  · simp
  · split
    · rfl
    · split
      · rfl
      · rename_i h; simp [takeTokens_pending h]
@[simp] theorem deliver_pending (s : State) (k : Nat) (t : Tx) (resp : Nat) (data : BitVec 512) : (deliver s k t resp data).pending = s.pending := by
  have a : ({ dropTx s k with ans := { answered := true, resp := resp, value := data.toNat } } : State).pending = s.pending := dropTx_pending s k
  unfold deliver
  generalize t.init = i
  cases i with
  | ap p => dsimp only; split <;> simp
  | eng _ _ => rfl
  | dbg _ => dsimp only; split <;> simp
  | mgmt => exact a
  | cfg _ => exact a
  | crypto => exact a
  | mirror => exact a
  | casc _ _ _ => dsimp only; split <;> simp
  | _ => simp
@[simp] theorem refreshEpoch_pending (s : State) (t : Tx) : (refreshEpoch s t).pending = s.pending := by
  unfold refreshEpoch; split <;> simp
@[simp] theorem respond_pending (s : State) (k : Nat) (t : Tx) : (respond s k t).pending = s.pending := by
  unfold respond; (repeat' split) <;> simp
@[simp] theorem outsideAnswer_pending (s : State) (k : Nat) (t : Tx) (code : Nat) (line : BitVec 512) : (outsideAnswer s k t code line).pending = s.pending := by
  unfold outsideAnswer; dsimp only; split <;> simp
@[simp] theorem muteTx_pending (s : State) (k : Nat) : (muteTx s k).pending = s.pending := by
  unfold muteTx; simp
@[simp] theorem reqTimeout_pending (s : State) (k : Nat) (t : Tx) : (reqTimeout s k t).pending = s.pending := by
  unfold reqTimeout; simp
@[simp] theorem dmaLine_pending (s : State) (e c k : Nat) (t : Tx) : (dmaLine s e c k t).pending = s.pending := by
  unfold dmaLine; simp
@[simp] theorem samStore_pending (s : State) (e v : Nat) : (samStore s e v).pending = s.pending := by
  unfold samStore; rfl
@[simp] theorem wrSamEntry_pending (r : Req) (e len val : Nat) (s : State) : (wrSamEntry r e len val s).pending = s.pending := by
  unfold wrSamEntry; simp
@[simp] theorem beginInval_pending (s : State) (e : Option Nat) : (beginInval s e).pending = s.pending := by
  unfold beginInval; simp
@[simp] theorem wrSamInvalidate_pending (r : Req) (len val : Nat) (s : State) : (wrSamInvalidate r len val s).pending = s.pending := by
  unfold wrSamInvalidate; simp
@[simp] theorem invalDone_pending (s : State) (i : Inval) : (invalDone s i).pending = s.pending := by
  unfold invalDone; rfl
@[simp] theorem wrEpBind_pending (r : Req) (len val : Nat) (s : State) : (wrEpBind r len val s).pending = s.pending := by
  unfold wrEpBind; simp
@[simp] theorem hostRefused_pending (s : State) (q : HostReq) : (hostRefused s q).pending = s.pending := by
  unfold hostRefused; simp
@[simp] theorem hostStart_pending (s : State) (q : HostReq) (bad : Bool) : (hostStart s q bad).pending = s.pending := by
  unfold hostStart
  repeat' first | with_reducible rfl | (simp; done) | split | (dsimp only; split)
@[simp] theorem hostRequest_pending (s : State) (q : HostReq) (bad : Bool) : (hostRequest s q bad).pending = s.pending := by
  unfold hostRequest; simp
@[simp] theorem releaseHeld_pending (s : State) : (releaseHeld s).pending = s.pending := by
  unfold releaseHeld; simp
@[simp] theorem mailbox_pending (s : State) (p cmd : Nat) : (mailbox s p cmd).pending = s.pending := by
  unfold mailbox; simp
@[simp] theorem cxlEv_pending (s : State) (code sev data p : Nat) : (cxlEv s code sev data p).pending = s.pending := by
  unfold cxlEv; rfl
@[simp] theorem failHostTxs_pending (s : State) (p : Nat) : (failHostTxs s p).pending = s.pending := by
  unfold failHostTxs; simp
@[simp] theorem cxlDown_pending (s : State) (p : Nat) : (cxlDown s p).pending = s.pending := by
  unfold cxlDown; simp
@[simp] theorem mapFlows_pending (s : State) (f : FlowReq → FlowReq) : (mapFlows s f).pending = s.pending := by
  unfold mapFlows; simp
@[simp] theorem poisonReads_pending (s : State) (p : Nat) : (poisonReads s p).pending = s.pending := by
  unfold poisonReads; simp
@[simp] theorem poisonWrites_pending (s : State) (p : Nat) (lines : List (BitVec 46)) : (poisonWrites s p lines).pending = s.pending := by
  unfold poisonWrites; simp
@[simp] theorem wrGgWindow_pending (r : Req) (g w len val : Nat) (s : State) : (wrGgWindow r g w len val s).pending = s.pending := by
  unfold wrGgWindow; simp
@[simp] theorem muteGuest_pending (s : State) (g : Nat) : (muteGuest s g).pending = s.pending := by
  unfold muteGuest; simp
@[simp] theorem quarantine_pending (s : State) (g : Nat) : (quarantine s g).pending = s.pending := by
  unfold quarantine
  repeat' first | with_reducible rfl | (simp; done) | split | (dsimp only; split) | (refine (foldl_pending _ _ _ ?_).trans ?_; intro _ _) | rfl
@[simp] theorem violation_pending (s : State) (g tag cls win reason : Nat) : (violation s g tag cls win reason).pending = s.pending := by
  unfold violation; simp
@[simp] theorem guestRun_pending (s : State) (g t : Nat) (w : Who) (q : GuestReq) : (guestRun s g t w q).pending = s.pending := by
  unfold guestRun
  repeat' first | with_reducible rfl | (simp; done) | split | (dsimp only; split)
@[simp] theorem guestRequest_pending (s : State) (g tag : Nat) (q : GuestReq) : (guestRequest s g tag q).pending = s.pending := by
  unfold guestRequest; (repeat' split) <;> simp
@[simp] theorem wrGgControl_pending (r : Req) (g len val : Nat) (s : State) : (wrGgControl r g len val s).pending = s.pending := by
  unfold wrGgControl; split <;> simp
@[simp] theorem wrTenantReset_pending (r : Req) (len val : Nat) (s : State) : (wrTenantReset r len val s).pending = s.pending := by
  unfold wrTenantReset; simp
@[simp] theorem drainTxs_pending (s : State) (ps es : List Nat) (code : Nat) : (drainTxs s ps es code).pending = s.pending := by
  unfold drainTxs; rfl
@[simp] theorem drainWipe_pending (s : State) (ps es : List Nat) : (drainWipe s ps es).pending = s.pending := by
  unfold drainWipe; simp
@[simp] theorem reassignStart_pending (s : State) (k owner : Nat) : (reassignStart s k owner).pending = s.pending := by
  unfold reassignStart; simp
@[simp] theorem reassignWipe_pending (s : State) (k : Nat) (x : Reassign) : (reassignWipe s k x).pending = s.pending := by
  unfold reassignWipe; simp
@[simp] theorem reassignTick_pending (s : State) : (reassignTick s).pending = s.pending := by
  unfold reassignTick; simp
@[simp] theorem wrOwner_pending (r : Req) (k len val : Nat) (s : State) : (wrOwner r k len val s).pending = s.pending := by
  unfold wrOwner; simp
@[simp] theorem wrFaultClear_pending (r : Req) (t len val : Nat) (s : State) : (wrFaultClear r t len val s).pending = s.pending := by
  unfold wrFaultClear; simp
@[simp] theorem setBup_pending (s : State) (p : Nat) (x : Bringup) : (setBup s p x).pending = s.pending := by
  unfold setBup; rfl
@[simp] theorem cascEv_pending (s : State) (code sev data p : Nat) : (cascEv s code sev data p).pending = s.pending := by
  unfold cascEv; rfl
@[simp] theorem setTwinState_pending (s : State) (v : Nat) : (setTwinState s v).pending = s.pending := by
  unfold setTwinState; rfl
@[simp] theorem becomeActive_pending (s : State) (why : Nat) : (becomeActive s why).pending = s.pending := by
  unfold becomeActive; simp
@[simp] theorem fenceDevice_pending (s : State) (why : Nat) : (fenceDevice s why).pending = s.pending := by
  unfold fenceDevice; rfl
@[simp] theorem splitResolve_pending (s : State) : (splitResolve s).pending = s.pending := by
  unfold splitResolve; split <;> simp
@[simp] theorem releaseWaits_pending (s : State) (upTo : Nat) : (releaseWaits s upTo).pending = s.pending := by
  unfold releaseWaits; simp
@[simp] theorem goStale_pending (s : State) : (goStale s).pending = s.pending := by
  unfold goStale; simp
@[simp] theorem twinLinkLost_pending (s : State) : (twinLinkLost s).pending = s.pending := by
  unfold twinLinkLost; simp
@[simp] theorem twinLinkPassed_pending (s0 : State) : (twinLinkPassed s0).pending = s0.pending := by
  unfold twinLinkPassed; simp
@[simp] theorem linkGone_pending (s : State) (p st : Nat) : (linkGone s p st).pending = s.pending := by
  unfold linkGone; simp
@[simp] theorem portDown_pending (s : State) (p reason : Nat) : (portDown s p reason).pending = s.pending := by
  unfold portDown; simp
@[simp] theorem refusedDown_pending (s : State) (p : Nat) : (refusedDown s p).pending = s.pending := by
  unfold refusedDown; split <;> simp
@[simp] theorem linkRefused_pending (s : State) (p code data : Nat) : (linkRefused s p code data).pending = s.pending := by
  unfold linkRefused; simp
@[simp] theorem linkUp_pending (s : State) (p : Nat) : (linkUp s p).pending = s.pending := by
  unfold linkUp; simp
@[simp] theorem nextSession_pending (s : State) (p idx : Nat) : (nextSession s p idx).pending = s.pending := by
  unfold nextSession; rfl
@[simp] theorem linkSend_pending (s : State) (p : Nat) : (linkSend s p).pending = s.pending := by
  unfold linkSend; dsimp only; split <;> simp
@[simp] theorem linkReplay_pending (s : State) (p : Nat) : (linkReplay s p).pending = s.pending := by
  unfold linkReplay; rfl
@[simp] theorem codeword_pending (s : State) (p fec : Nat) (crcOk : Bool) (seq : Nat) (ackv : Bool) (ack : Nat) (nak : Bool) (back : BitVec 80) : (codeword s p fec crcOk seq ackv ack nak back).pending = s.pending := by
  unfold codeword; simp
@[simp] theorem setSourceCounts_pending (s : State) : (setSourceCounts s).pending = s.pending := by
  unfold setSourceCounts; rfl
@[simp] theorem setMembers_pending (s : State) (m : Nat) : (setMembers s m).pending = s.pending := by
  unfold setMembers; rfl
@[simp] theorem cascLeave_pending (s : State) : (cascLeave s).pending = s.pending := by
  unfold cascLeave; rfl
@[simp] theorem cascBoot_pending (s : State) : (cascBoot s).pending = s.pending := by
  unfold cascBoot; split <;> simp
@[simp] theorem cascTick_pending (s : State) : (cascTick s).pending = s.pending := by
  unfold cascTick; split <;> simp
@[simp] theorem hbTick_pending (s : State) : (hbTick s).pending = s.pending := by
  unfold hbTick; simp
@[simp] theorem linkTick_pending (s : State) : (linkTick s).pending = s.pending := by
  unfold linkTick; simp
@[simp] theorem masterBack_pending (s : State) : (masterBack s).pending = s.pending := by
  unfold masterBack; split <;> simp
@[simp] theorem raiseDtime_pending (s : State) (dev t : Nat) : (raiseDtime s dev t).pending = s.pending := by
  unfold raiseDtime; rfl
@[simp] theorem steerTime_pending (s : State) (off : Int) : (steerTime s off).pending = s.pending := by
  unfold steerTime; simp
@[simp] theorem stepTime_pending (s : State) (off : Int) : (stepTime s off).pending = s.pending := by
  unfold stepTime; rfl
@[simp] theorem copyTick_pending (s : State) : (copyTick s).pending = s.pending := by
  unfold copyTick
  repeat' first | with_reducible rfl | (simp; done) | split | (dsimp only; split)
@[simp] theorem wrTwinForce_pending (r : Req) (len val : Nat) (granted : Bool) (s : State) : (wrTwinForce r len val granted s).pending = s.pending := by
  unfold wrTwinForce; simp
@[simp] theorem wrTwinRelease_pending (r : Req) (len val : Nat) (s : State) : (wrTwinRelease r len val s).pending = s.pending := by
  unfold wrTwinRelease; simp
@[simp] theorem wrTwinWindow_pending (r : Req) (i len val : Nat) (s : State) : (wrTwinWindow r i len val s).pending = s.pending := by
  unfold wrTwinWindow; simp
@[simp] theorem wrCascSecret_pending (r : Req) (len val : Nat) (s : State) : (wrCascSecret r len val s).pending = s.pending := by
  unfold wrCascSecret; simp
@[simp] theorem setLane_pending (s : State) (l : Nat) (x : Lane) : (setLane s l x).pending = s.pending := by
  unfold setLane; rfl
@[simp] theorem setStat_pending (s : State) (l : Nat) (v : BitVec 16) : (setStat s l v).pending = s.pending := by
  unfold setStat; rfl
@[simp] theorem laneSet_pending (s : State) (l st : Nat) : (laneSet s l st).pending = s.pending := by
  unfold laneSet; simp
@[simp] theorem wrLaneStateReq_pending (r : Req) (l len val : Nat) (s : State) : (wrLaneStateReq r l len val s).pending = s.pending := by
  unfold wrLaneStateReq; simp
@[simp] theorem pllUnlock_pending (s : State) (l : Nat) : (pllUnlock s l).pending = s.pending := by
  unfold pllUnlock; split <;> simp
@[simp] theorem lanesLoseRef_pending (s : State) : (lanesLoseRef s).pending = s.pending := by
  unfold lanesLoseRef; simp
@[simp] theorem laneSend_pending (s : State) (l : Nat) (w : BitVec 256) : (laneSend s l w).pending = s.pending := by
  unfold laneSend; simp
@[simp] theorem rdPrbsBits_pending (r : Req) (l : Nat) (s : State) : (rdPrbsBits r l s).pending = s.pending := by
  unfold rdPrbsBits; simp
@[simp] theorem rdPrbsErrors_pending (r : Req) (l : Nat) (s : State) : (rdPrbsErrors r l s).pending = s.pending := by
  unfold rdPrbsErrors; simp
@[simp] theorem wrPrbsClear_pending (r : Req) (len val : Nat) (s : State) : (wrPrbsClear r len val s).pending = s.pending := by
  unfold wrPrbsClear; simp
@[simp] theorem wrErrInject_pending (r : Req) (l len val : Nat) (s : State) : (wrErrInject r l len val s).pending = s.pending := by
  unfold wrErrInject; simp
@[simp] theorem wrLaneRate_pending (r : Req) (l len val : Nat) (s : State) : (wrLaneRate r l len val s).pending = s.pending := by
  unfold wrLaneRate; simp
@[simp] theorem wrLaneWidth_pending (r : Req) (l len val : Nat) (s : State) : (wrLaneWidth r l len val s).pending = s.pending := by
  unfold wrLaneWidth; simp
@[simp] theorem wrLaneTxeq_pending (r : Req) (l len val : Nat) (s : State) : (wrLaneTxeq r l len val s).pending = s.pending := by
  unfold wrLaneTxeq; simp
@[simp] theorem wrLaneCtrl_pending (r : Req) (l len val : Nat) (s : State) : (wrLaneCtrl r l len val s).pending = s.pending := by
  unfold wrLaneCtrl; simp
@[simp] theorem wrLaneStatus_pending (r : Req) (l len val : Nat) (s : State) : (wrLaneStatus r l len val s).pending = s.pending := by
  unfold wrLaneStatus; simp
@[simp] theorem wrPrbsCtrl_pending (r : Req) (l len val : Nat) (s : State) : (wrPrbsCtrl r l len val s).pending = s.pending := by
  unfold wrPrbsCtrl; simp
@[simp] theorem cxlRefHold_pending (s : State) : (cxlRefHold s).pending = s.pending := by
  unfold cxlRefHold; simp
@[simp] theorem wrQuadRefsel_pending (r : Req) (q len val : Nat) (s : State) : (wrQuadRefsel r q len val s).pending = s.pending := by
  unfold wrQuadRefsel; simp
@[simp] theorem wrRefclkFreq_pending (r : Req) (pin len val : Nat) (s : State) : (wrRefclkFreq r pin len val s).pending = s.pending := by
  unfold wrRefclkFreq; simp
@[simp] theorem stopPort_pending (s : State) (p : Nat) : (stopPort s p).pending = s.pending := by
  unfold stopPort; simp
@[simp] theorem portsSettle_pending (s : State) : (portsSettle s).pending = s.pending := by
  unfold portsSettle; simp
@[simp] theorem startPort_pending (s : State) (p : Nat) : (startPort s p).pending = s.pending := by
  unfold startPort; simp
@[simp] theorem portUp_pending (s : State) (p : Nat) : (portUp s p).pending = s.pending := by
  unfold portUp; dsimp only; split <;> simp
@[simp] theorem portStep_pending (s : State) (p : Nat) : (portStep s p).pending = s.pending := by
  unfold portStep; dsimp only; split <;> simp
@[simp] theorem portHeld_pending (s : State) (p why : Nat) : (portHeld s p why).pending = s.pending := by
  unfold portHeld; simp
@[simp] theorem capsFrame_pending (s : State) (p i x : Nat) : (capsFrame s p i x).pending = s.pending := by
  unfold capsFrame; simp
@[simp] theorem setRxInvert_pending (s : State) (l : Nat) : (setRxInvert s l).pending = s.pending := by
  unfold setRxInvert; simp
@[simp] theorem fallBack_pending (s : State) (p : Nat) : (fallBack s p).pending = s.pending := by
  unfold fallBack; rfl
@[simp] theorem eqFrame_pending (s : State) (p i x : Nat) : (eqFrame s p i x).pending = s.pending := by
  unfold eqFrame; simp
@[simp] theorem bringLane_pending (s : State) (p i : Nat) : (bringLane s p i).pending = s.pending := by
  unfold bringLane; simp
@[simp] theorem bringStep_pending (s : State) (p : Nat) : (bringStep s p).pending = s.pending := by
  unfold bringStep; simp
@[simp] theorem bringTick_pending (s : State) : (bringTick s).pending = s.pending := by
  unfold bringTick; simp
@[simp] theorem wrCascLinkEn_pending (r : Req) (p len val : Nat) (s : State) : (wrCascLinkEn r p len val s).pending = s.pending := by
  unfold wrCascLinkEn; simp
@[simp] theorem wrCascDim_pending (r : Req) (len val : Nat) (s : State) : (wrCascDim r len val s).pending = s.pending := by
  unfold wrCascDim; simp
@[simp] theorem codeStep_pending (s : State) (p : Nat) : (codeStep s p).pending = s.pending := by
  unfold codeStep; (repeat' split) <;> simp
@[simp] theorem codeTick_pending (s : State) : (codeTick s).pending = s.pending := by
  unfold codeTick; simp
@[simp] theorem lanesDieDormant_pending (s : State) (d : Nat) : (lanesDieDormant s d).pending = s.pending := by
  unfold lanesDieDormant; simp
@[simp] theorem lanesAllDormant_pending (s : State) : (lanesAllDormant s).pending = s.pending := by
  unfold lanesAllDormant; simp
@[simp] theorem laneStep_pending (s : State) (l : Nat) : (laneStep s l).pending = s.pending := by
  unfold laneStep
  repeat' first | with_reducible rfl | (simp; done) | split | (dsimp only; split)
@[simp] theorem laneTick_pending (s : State) : (laneTick s).pending = s.pending := by
  unfold laneTick
  repeat' first | with_reducible rfl | (simp; done) | split | (dsimp only; split) | (refine (foldl_pending _ _ _ ?_).trans ?_; intro _ _) | rfl
@[simp] theorem refFailure_pending (s : State) (count : Nat) : (refFailure s count).pending = s.pending := by
  unfold refFailure; simp
@[simp] theorem windowEnd_pending (s : State) (count : Nat) : (windowEnd s count).pending = s.pending := by
  unfold windowEnd; simp
@[simp] theorem wrClkEn_pending (r : Req) (u len val : Nat) (s : State) : (wrClkEn r u len val s).pending = s.pending := by
  unfold wrClkEn; simp
@[simp] theorem keepAns_pending (s t : State) : (keepAns s t).pending = t.pending := by
  unfold keepAns; rfl
@[simp] theorem startBoot_pending (s : State) : (startBoot s).pending = s.pending := by
  unfold startBoot; simp
@[simp] theorem wrResetRequest_pending (r : Req) (len val : Nat) (s : State) : (wrResetRequest r len val s).pending = s.pending := by
  unfold wrResetRequest; simp
@[simp] theorem flushSlices_pending (s : State) : (flushSlices s).pending = s.pending := by
  unfold flushSlices; simp
@[simp] theorem flushHosts_pending (s : State) : (flushHosts s).pending = s.pending := by
  unfold flushHosts; simp
@[simp] theorem flushTick_pending (s : State) : (flushTick s).pending = s.pending := by
  unfold flushTick; simp
@[simp] theorem flushEnd_pending (s : State) (kept : Bool) (us : Option Nat) : (flushEnd s kept us).pending = s.pending := by
  unfold flushEnd; rfl
@[simp] theorem setSlot_pending (s : State) (k : Nat) (x : KeySlot) : (setSlot s k x).pending = s.pending := by
  unfold setSlot; rfl
@[simp] theorem destroyForbidden_pending (s : State) (lc : Nat) : (destroyForbidden s lc).1.pending = s.pending := by
  have h : ∀ (l : List Nat) (n : Nat) (a : State), ((l.foldl (fun (a : State × Nat) k =>
      if slotForbidden lc k && !(fuseSlot a.1 k).destroyed
      then (setSlot a.1 k { fuseSlot a.1 k with val := slotOnes k, destroyed := true }, a.2 + 2 ^ k) else a) (a, n))).1.pending = a.pending := by
    intro l
    induction l with
    | nil => intros; rfl
    | cons x r ih =>
      intro n a; rw [List.foldl_cons]; split
      · exact (ih _ _).trans (setSlot_pending _ _ _)
      · exact ih _ _
  unfold destroyForbidden
  dsimp only
  split
  · exact h _ _ _
  · exact h _ _ _
@[simp] theorem logIf_pending (c : Bool) (s : State) (code sev data : Nat) : (logIf c s code sev data).pending = s.pending := by
  unfold logIf; simp
@[simp] theorem bootLatches_pending (s : State) : (bootLatches s).pending = s.pending := by
  unfold bootLatches; simp
@[simp] theorem bootEvents_pending (s : State) (destroyed : Nat) : (bootEvents s destroyed).pending = s.pending := by
  unfold bootEvents; (repeat' split) <;> simp
@[simp] theorem bootStep5_pending (s : State) (us : BitVec 32) (status : BitVec 7) : (bootStep5 s us status).pending = s.pending := by
  unfold bootStep5
  dsimp only
  rw [bootEvents_pending, freeStep_pending]
  split <;> simp
@[simp] theorem bootHalt_pending (s : State) : (bootHalt s).pending = s.pending := by
  unfold bootHalt; rfl
@[simp] theorem wakeChan_pending (s : State) (c : Nat) : (wakeChan s c).pending = s.pending := by
  unfold wakeChan; simp
@[simp] theorem enterStep6_pending (s : State) : (enterStep6 s).pending = s.pending := by
  unfold enterStep6; simp
@[simp] theorem bootNext_pending (s : State) : (bootNext s).pending = s.pending := by
  unfold bootNext; simp
@[simp] theorem setDie_pending (s : State) (d : Nat) (x : DieState) : (setDie s d x).pending = s.pending := by
  unfold setDie; rfl
@[simp] theorem wrDieRequest_pending (r : Req) (d len val : Nat) (s : State) : (wrDieRequest r d len val s).pending = s.pending := by
  unfold wrDieRequest; simp
@[simp] theorem wrStandbyEnter_pending (r : Req) (len val : Nat) (s : State) : (wrStandbyEnter r len val s).pending = s.pending := by
  unfold wrStandbyEnter; simp
@[simp] theorem wakeUp_pending (s : State) (cause : BitVec 8) : (wakeUp s cause).pending = s.pending := by
  unfold wakeUp; rfl
@[simp] theorem wake_pending (s : State) (b : Nat) (c : BitVec 8) : (wake s b c).pending = s.pending := by
  unfold wake; simp
@[simp] theorem wakeBoot_pending (s : State) (rails : BitVec 28) (periods : Nat) : (wakeBoot s rails periods).pending = s.pending := by
  unfold wakeBoot; rfl
@[simp] theorem wrLcRequest_pending (r : Req) (len val : Nat) (s : State) : (wrLcRequest r len val s).pending = s.pending := by
  unfold wrLcRequest; simp
@[simp] theorem rdLcChallenge_pending (r : Req) (s : State) : (rdLcChallenge r s).pending = s.pending := by
  unfold rdLcChallenge; simp
@[simp] theorem setLoad_pending (s : State) (l : Load) : (setLoad s l).pending = s.pending := by
  unfold setLoad; rfl
@[simp] theorem trySlot_pending (s : State) (k : Nat) : (trySlot s k).pending = s.pending := by
  unfold trySlot; simp
@[simp] theorem acceptHeader_pending (s : State) (l : Load) (b : List Byte) : (acceptHeader s l b).pending = s.pending := by
  unfold acceptHeader; simp
@[simp] theorem relayReady_pending (s : State) (n : Nat) (at_ : Option Nat) : (relayReady s n at_).pending = s.pending := by
  unfold relayReady; simp
@[simp] theorem consumeRest_pending (s : State) (n : Nat) : (consumeRest s n).pending = s.pending := by
  unfold consumeRest; simp
@[simp] theorem relayAfterFail_pending (s : State) (n : Nat) : (relayAfterFail s n).pending = s.pending := by
  unfold relayAfterFail; (repeat' split) <;> simp
@[simp] theorem reamIn_pending (s : State) (planOk : List PlanEntry → PlanEntry → Bool) (l : Load) (given : List Byte) : (reamIn s planOk l given).pending = s.pending := by
  unfold reamIn
  repeat' first | with_reducible rfl | (simp; done) | split | (dsimp only; split)
@[simp] theorem bootHubs_pending (s : State) (l : Load) : (bootHubs s l).pending = s.pending := by
  unfold bootHubs; simp
@[simp] theorem sealPassed_pending (s : State) (l : Load) : (sealPassed s l).pending = s.pending := by
  unfold sealPassed; simp
@[simp] theorem writeEngs_pending (s : State) (l : Load) : (writeEngs s l).pending = s.pending := by
  unfold writeEngs; simp
@[simp] theorem writeLoad_pending (s : State) (l : Load) (design : List DesignItem) : (writeLoad s l design).pending = s.pending := by
  unfold writeLoad; simp
@[simp] theorem toWipe_pending (s : State) (l : Load) : (toWipe s l).pending = s.pending := by
  unfold toWipe; rfl
@[simp] theorem trimSlices_pending (s : State) (fuel : Nat) : (trimSlices s fuel).pending = s.pending := by
  induction fuel generalizing s with
  | zero => unfold trimSlices; rfl
  | succ k ih =>
    have h : ((List.range 64).foldl sliceTrim s).pending = s.pending := foldl_pending sliceTrim (List.range 64) s sliceTrim_pending
    unfold trimSlices
    exact (ih _).trans h
@[simp] theorem stageDisplace_pending (s : State) (val : Nat) : (stageDisplace s val).pending = s.pending := by
  unfold stageDisplace; simp
@[simp] theorem wrPrStage_pending (r : Req) (len val : Nat) (s : State) : (wrPrStage r len val s).pending = s.pending := by
  unfold wrPrStage; simp
@[simp] theorem wrLoadRequest_pending (r : Req) (len val : Nat) (s : State) : (wrLoadRequest r len val s).pending = s.pending := by
  unfold wrLoadRequest; simp
@[simp] theorem relayGo_pending (s : State) : (relayGo s).pending = s.pending := by
  unfold relayGo; simp
@[simp] theorem putBbk_pending (s : State) (k : BitVec 256) : (putBbk s k).pending = s.pending := by
  unfold putBbk; rfl
@[simp] theorem wrBbk_pending (r : Req) (len val : Nat) (s : State) : (wrBbk r len val s).pending = s.pending := by
  unfold wrBbk; simp
@[simp] theorem slotInUse_pending (used : Bool) (slot : Nat) (code : BitVec 32) (s : State) : (slotInUse used slot code s).pending = s.pending := by
  unfold slotInUse; simp
@[simp] theorem wrKeyProgram_pending (r : Req) (len val : Nat) (s : State) : (wrKeyProgram r len val s).pending = s.pending := by
  unfold wrKeyProgram; simp
@[simp] theorem wrKeyRevoke_pending (r : Req) (len val : Nat) (s : State) : (wrKeyRevoke r len val s).pending = s.pending := by
  unfold wrKeyRevoke
  refine objWriteG_pending _ _ _ _ _ _ _ _ (by simp) ?_
  intro a
  dsimp only
  split
  · split <;> simp
  · simp
@[simp] theorem wrFuStart_pending (r : Req) (len val : Nat) (s : State) : (wrFuStart r len val s).pending = s.pending := by
  unfold wrFuStart
  refine objWriteG_pending _ _ _ _ _ _ _ _ (by simp) ?_
  intro a
  (try dsimp only)
  split <;> simp
@[simp] theorem fuTick_pending (s : State) : (fuTick s).pending = s.pending := by
  unfold fuTick; simp
@[simp] theorem setBankState_pending (s : State) (b v : Nat) : (setBankState s b v).pending = s.pending := by
  unfold setBankState; rfl
@[simp] theorem wrMioStatus_pending (r : Req) (p len val : Nat) (s : State) : (wrMioStatus r p len val s).pending = s.pending := by
  unfold wrMioStatus; simp
@[simp] theorem wrMioFunc_pending (r : Req) (p len val : Nat) (s : State) : (wrMioFunc r p len val s).pending = s.pending := by
  unfold wrMioFunc; simp
@[simp] theorem wrMioCfg_pending (r : Req) (p len val : Nat) (s : State) : (wrMioCfg r p len val s).pending = s.pending := by
  unfold wrMioCfg; simp
@[simp] theorem wrClkoutDiv_pending (r : Req) (len val : Nat) (s : State) : (wrClkoutDiv r len val s).pending = s.pending := by
  unfold wrClkoutDiv; simp
@[simp] theorem smFlags_pending (s : State) (c : Nat) (valid ranged beyond : Bool) : (smFlags s c valid ranged beyond).pending = s.pending := by
  unfold smFlags; rfl
@[simp] theorem smChange_pending (s : State) (c : Nat) (on : Bool) (v : Int) : (smChange s c on v).pending = s.pending := by
  unfold smChange; rfl
@[simp] theorem smCount_pending (s : State) (c side : Nat) (band : Bool) (v : Int) : (smCount s c side band v).pending = s.pending := by
  unfold smCount; simp
@[simp] theorem aninSwitch_pending (s : State) (i k : Nat) : (aninSwitch s i k).pending = s.pending := by
  unfold aninSwitch; simp
@[simp] theorem aninAuto_pending (s : State) (i : Nat) (code v : Int) (sat : Bool) : (aninAuto s i code v sat).pending = s.pending := by
  unfold aninAuto; simp
@[simp] theorem roundEnd_pending (s : State) (c : Nat) : (roundEnd s c).pending = s.pending := by
  unfold roundEnd; (repeat' split) <;> simp
@[simp] theorem smPlain_pending (s : State) (c : Nat) (v : Int) : (smPlain s c v).pending = s.pending := by
  unfold smPlain; simp
@[simp] theorem smAnin_pending (s : State) (i : Nat) (raw : Nat) : (smAnin s i raw).pending = s.pending := by
  unfold smAnin; simp
@[simp] theorem smRailSeen_pending (s : State) (c : Nat) (v : Int) : (smRailSeen s c v).pending = s.pending := by
  unfold smRailSeen; (repeat' split) <;> simp
@[simp] theorem wrAninRange_pending (r : Req) (i len val : Nat) (s : State) : (wrAninRange r i len val s).pending = s.pending := by
  unfold wrAninRange; simp
@[simp] theorem wrSmThreshold_pending (r : Req) (k c len val : Nat) (s : State) : (wrSmThreshold r k c len val s).pending = s.pending := by
  unfold wrSmThreshold; simp
@[simp] theorem rdDbgChallenge_pending (r : Req) (s : State) : (rdDbgChallenge r s).pending = s.pending := by
  unfold rdDbgChallenge; simp
@[simp] theorem wrDbgToken_pending (r : Req) (len val : Nat) (s : State) : (wrDbgToken r len val s).pending = s.pending := by
  unfold wrDbgToken; simp
@[simp] theorem wrDbgEnd_pending (r : Req) (len val : Nat) (s : State) : (wrDbgEnd r len val s).pending = s.pending := by
  unfold wrDbgEnd; simp
@[simp] theorem canRestart_pending (s : State) : (canRestart s).pending = s.pending := by
  unfold canRestart; rfl
@[simp] theorem wrCanApply_pending (r : Req) (len val : Nat) (s : State) : (wrCanApply r len val s).pending = s.pending := by
  unfold wrCanApply; simp
@[simp] theorem wrAccessMap_pending (r : Req) (i len val : Nat) (s : State) : (wrAccessMap r i len val s).pending = s.pending := by
  unfold wrAccessMap; simp
@[simp] theorem wrDefaultRole_pending (r : Req) (len val : Nat) (s : State) : (wrDefaultRole r len val s).pending = s.pending := by
  unfold wrDefaultRole; simp
@[simp] theorem wrCertChain_pending (r : Req) (len val : Nat) (s : State) : (wrCertChain r len val s).pending = s.pending := by
  unfold wrCertChain; simp
@[simp] theorem rdEvent_pending (r : Req) (s : State) : (rdEvent r s).pending = s.pending := by
  unfold rdEvent; dsimp only; split <;> simp
@[simp] theorem rdEventLost_pending (r : Req) (s : State) : (rdEventLost r s).pending = s.pending := by
  unfold rdEventLost; simp
@[simp] theorem wrDtimeSet_pending (r : Req) (len val : Nat) (s : State) : (wrDtimeSet r len val s).pending = s.pending := by
  unfold wrDtimeSet; simp
@[simp] theorem schedPut_pending (s : State) (i x : Nat) : (schedPut s i x).pending = s.pending := by
  unfold schedPut; rfl
@[simp] theorem wrSchedEntry_pending (r : Req) (i len val : Nat) (s : State) : (wrSchedEntry r i len val s).pending = s.pending := by
  unfold wrSchedEntry; simp
@[simp] theorem wrSchedAdd_pending (r : Req) (len val : Nat) (s : State) : (wrSchedAdd r len val s).pending = s.pending := by
  unfold wrSchedAdd
  refine objWriteG_pending _ _ _ _ _ _ _ _ (by simp) ?_
  intro a
  (try dsimp only)
  split <;> simp
@[simp] theorem wrStoreOp_pending (r : Req) (k want len val : Nat) (eff : State → State) (s : State) (heff : ∀ a, (eff a).pending = a.pending) : (wrStoreOp r k want len val eff s).pending = s.pending := by
  unfold wrStoreOp; simp [heff]
@[simp] theorem eraseIdle_pending (s : State) : (eraseIdle s).pending = s.pending := by
  unfold eraseIdle; (repeat' split) <;> simp
@[simp] theorem wrStoreAll_pending (r : Req) (len val : Nat) (s : State) : (wrStoreAll r len val s).pending = s.pending := by
  unfold wrStoreAll; simp
@[simp] theorem wrRestore_pending (r : Req) (len val : Nat) (s : State) : (wrRestore r len val s).pending = s.pending := by
  unfold wrRestore; simp
@[simp] theorem wrPlain_pending (r : Req) (k len val : Nat) (s : State) : (wrPlain r k len val s).pending = s.pending := by
  unfold wrPlain; simp
@[simp] theorem wrPortSet_pending (r : Req) (k p len val : Nat) (ok : Bool) (s : State) : (wrPortSet r k p len val ok s).pending = s.pending := by
  unfold wrPortSet; simp
@[simp] theorem wrGgLink_pending (r : Req) (g len val : Nat) (s : State) : (wrGgLink r g len val s).pending = s.pending := by
  unfold wrGgLink; simp
@[simp] theorem wrIsetMask_pending (r : Req) (i len val : Nat) (s : State) : (wrIsetMask r i len val s).pending = s.pending := by
  unfold wrIsetMask; simp
@[simp] theorem wrRateLimit_pending (r : Req) (c len val : Nat) (s : State) : (wrRateLimit r c len val s).pending = s.pending := by
  unfold wrRateLimit; simp
@[simp] theorem wrTrainFull_pending (r : Req) (len val : Nat) (s : State) : (wrTrainFull r len val s).pending = s.pending := by
  unfold wrTrainFull; simp
@[simp] theorem wrNextProfile_pending (r : Req) (len val : Nat) (s : State) : (wrNextProfile r len val s).pending = s.pending := by
  unfold wrNextProfile; simp
@[simp] theorem wrTbBurst_pending (r : Req) (t len val : Nat) (s : State) : (wrTbBurst r t len val s).pending = s.pending := by
  unfold wrTbBurst; simp
@[simp] theorem wrGgBurst_pending (r : Req) (g len val : Nat) (s : State) : (wrGgBurst r g len val s).pending = s.pending := by
  unfold wrGgBurst; simp
@[simp] theorem writeA_pending (r : Req) (ix sub len val : Nat) (s : State) : (writeA r ix sub len val s).pending = s.pending := by
  unfold writeA; simp
@[simp] theorem writeB_pending (r : Req) (ix sub len val : Nat) (s : State) : (writeB r ix sub len val s).pending = s.pending := by
  unfold writeB; simp
@[simp] theorem writeC_pending (r : Req) (ix sub len val : Nat) (s : State) : (writeC r ix sub len val s).pending = s.pending := by
  unfold writeC; simp
@[simp] theorem writeD_pending (r : Req) (ix sub len val : Nat) (s : State) : (writeD r ix sub len val s).pending = s.pending := by
  unfold writeD; simp
@[simp] theorem writeDev_pending (r : Req) (ix sub len val : Nat) (s : State) : (writeDev r ix sub len val s).pending = s.pending := by
  unfold writeDev; simp
@[simp] theorem giveValue_pending (s : State) (len val : Nat) : (giveValue s len val).pending = s.pending := by
  unfold giveValue; rfl
@[simp] theorem viewId_pending (s : State) (r : Req) (n : Fin 16) (sub : Nat) (write : Bool) : (viewId s r n sub write).pending = s.pending := by
  unfold viewId; simp
@[simp] theorem subCount_pending (s : State) (r : Req) (ix : Nat) (write : Bool) : (subCount s r ix write).pending = s.pending := by
  unfold subCount; simp
@[simp] theorem noIndex_pending (s : State) (r : Req) : (noIndex s r).pending = s.pending := by
  unfold noIndex; simp
@[simp] theorem writeObj_pending (r : Req) (ix sub len val : Nat) (s : State) : (writeObj r ix sub len val s).pending = s.pending := by
  unfold writeObj; (repeat' split) <;> simp
@[simp] theorem rdCapData_pending (r : Req) (s : State) : (rdCapData r s).pending = s.pending := by
  unfold rdCapData; simp
@[simp] theorem readDev_pending (r : Req) (ix sub : Nat) (s : State) : (readDev r ix sub s).pending = s.pending := by
  unfold readDev; simp
@[simp] theorem readObj_pending (r : Req) (ix sub : Nat) (s : State) : (readObj r ix sub s).pending = s.pending := by
  unfold readObj; (repeat' split) <;> simp
@[simp] theorem segDomain_pending (r : Req) (ix sub off : Nat) (last : Bool) (data : List Byte) (s : State) : (segDomain r ix sub off last data s).pending = s.pending := by
  unfold segDomain; (repeat' split) <;> simp
@[simp] theorem segWrite_pending (r : Req) (ix sub off : Nat) (last : Bool) (data : List Byte) (s : State) : (segWrite r ix sub off last data s).pending = s.pending := by
  unfold segWrite; simp
@[simp] theorem segRead_pending (r : Req) (ix sub off len : Nat) (s : State) : (segRead r ix sub off len s).pending = s.pending := by
  unfold segRead; (repeat' split) <;> simp
@[simp] theorem writeIn_pending (s : State) (ix sub len val : Nat) : (writeIn s ix sub len val).pending = s.pending := by
  unfold writeIn; simp
@[simp] theorem planState_pending (s : State) (before : List PlanEntry) (e : PlanEntry) : (planState s before e).pending = s.pending := by
  unfold planState; simp
@[simp] theorem endLoad_pending (s : State) : (endLoad s).pending = s.pending := by
  unfold endLoad; split <;> simp
@[simp] theorem bootFallback_pending (s : State) (l : Load) : (bootFallback s l).pending = s.pending := by
  unfold bootFallback; split <;> simp
@[simp] theorem clearUnnamed_pending (s : State) (plan : List PlanEntry) : (clearUnnamed s plan).pending = s.pending := by
  unfold clearUnnamed; simp
@[simp] theorem applyPlan_pending (s : State) (plan : List PlanEntry) : (applyPlan s plan).pending = s.pending := by
  unfold applyPlan; simp
@[simp] theorem applyParams_pending (s : State) : (applyParams s).pending = s.pending := by
  unfold applyParams; (repeat' split) <;> simp
@[simp] theorem noteBoot_pending (s : State) (l : Load) : (noteBoot s l).pending = s.pending := by
  unfold noteBoot; rfl
@[simp] theorem bootApply_pending (s : State) (l : Load) : (bootApply s l).pending = s.pending := by
  unfold bootApply; simp
@[simp] theorem releaseTrees_pending (s : State) : (releaseTrees s).pending = s.pending := by
  unfold releaseTrees; simp
@[simp] theorem mctpIn_pending (m : Mctp) (len : Nat) (go : State → State) (s : State) (hgo : ∀ a, (go a).pending = a.pending) : (mctpIn m len go s).pending = s.pending := by
  unfold mctpIn; simp [hgo]
@[simp] theorem mctpSend_pending (m : Mctp) (cmd off len : Nat) (s : State) : (mctpSend m cmd off len s).pending = s.pending := by
  unfold mctpSend; simp
@[simp] theorem writtenTotal_pending (r : Req) (ix sub : Nat) (s : State) : (writtenTotal r ix sub s).pending = s.pending := by
  unfold writtenTotal; (repeat' split) <;> simp
@[simp] theorem pushSend_pending (s : State) (upTo tries : Nat) : (pushSend s upTo tries).pending = s.pending := by
  unfold pushSend; simp
@[simp] theorem pushFirst_pending (s : State) : (pushFirst s).pending = s.pending := by
  unfold pushFirst; (repeat' split) <;> simp
@[simp] theorem reply_pending (s : State) (resp val len : Nat) : (reply s resp val len).pending = s.pending := by
  unfold reply; rfl
@[simp] theorem onBinding_pending (vdm : Bool) (go : State → State) (s : State) (hgo : ∀ a, (go a).pending = a.pending) : (onBinding vdm go s).pending = s.pending := by
  unfold onBinding; simp [hgo]
@[simp] theorem setSpdm_pending (s : State) (x : Spdm) : (setSpdm s x).pending = s.pending := by
  unfold setSpdm; rfl
@[simp] theorem spdm_pending (v : Via) (n : Nat) (go : State → State) (s : State) (hgo : ∀ a, (go a).pending = a.pending) : (spdm v n go s).pending = s.pending := by
  unfold spdm; simp [hgo]
@[simp] theorem spdmKey_pending (v : Via) (k : BitVec 8) (go : State → State) (s : State) (hgo : ∀ a, (go a).pending = a.pending) : (spdmKey v k go s).pending = s.pending := by
  unfold spdmKey; simp [hgo]
@[simp] theorem inSession_pending (v : Via) (go : State → State) (s : State) (hgo : ∀ a, (go a).pending = a.pending) : (inSession v go s).pending = s.pending := by
  unfold inSession; simp [hgo]
@[simp] theorem usdo_pending (node : BitVec 8) (ix sub : Nat) (go : State → State) (s : State) (hgo : ∀ a, (go a).pending = a.pending) : (usdo node ix sub go s).pending = s.pending := by
  unfold usdo; simp [hgo]
@[simp] theorem uartTick_pending (s : State) : (uartTick s).pending = s.pending := by
  unfold uartTick; (repeat' split) <;> simp
@[simp] theorem schedAfter_pending (s : State) (i : Nat) : (schedAfter s i).pending = s.pending := by
  unfold schedAfter; rfl
@[simp] theorem schedRun_pending (s : State) (i : Nat) : (schedRun s i).pending = s.pending := by
  unfold schedRun; simp
@[simp] theorem ackWith_pending (s : State) (a : GAck) : (ackWith s a).pending = s.pending := by
  unfold ackWith; rfl
@[simp] theorem accFault_pending (s : State) : (accFault s).pending = s.pending := by
  unfold accFault; rfl
@[simp] theorem accDenied_pending (s : State) : (accDenied s).pending = s.pending := by
  unfold accDenied; rfl
@[simp] theorem accData_pending (s : State) (v : BitVec 32) : (accData s v).pending = s.pending := by
  unfold accData; rfl
@[simp] theorem accResp_pending (s : State) (resp : Nat) : (accResp s resp).pending = s.pending := by
  unfold accResp; rfl
@[simp] theorem portAttach_pending (s : State) : (portAttach s).pending = s.pending := by
  unfold portAttach; simp
@[simp] theorem engSelect_pending (s : State) (v : BitVec 32) : (engSelect s v).pending = s.pending := by
  unfold engSelect; simp
@[simp] theorem engData_pending (s : State) (rnw : Bool) (v : BitVec 32) : (engData s rnw v).pending = s.pending := by
  unfold engData
  repeat' first | with_reducible rfl | (simp; done) | split | (dsimp only; split)
@[simp] theorem asDebug_pending (go : State → State) (s : State) (hgo : ∀ a, (go a).pending = a.pending) : (asDebug go s).pending = s.pending := by
  unfold asDebug; simp [hgo]
@[simp] theorem prbData_pending (s : State) (rnw : Bool) (v : BitVec 32) : (prbData s rnw v).pending = s.pending := by
  unfold prbData; simp
@[simp] theorem memIssue_pending (s : State) (op : GMemOp) : (memIssue s op).pending = s.pending := by
  unfold memIssue
  repeat' first | with_reducible rfl | (simp; done) | split | (dsimp only; split)
@[simp] theorem memStart_pending (s : State) (op : GMemOp) : (memStart s op).pending = s.pending := by
  unfold memStart; simp
@[simp] theorem memCmd_pending (s : State) (v : BitVec 32) : (memCmd s v).pending = s.pending := by
  unfold memCmd; split <;> simp
@[simp] theorem memPush_pending (s : State) : (memPush s).pending = s.pending := by
  unfold memPush; split <;> simp
@[simp] theorem memEnd_pending (s : State) (op : GMemOp) (t : Tx) : (memEnd s op t).pending = s.pending := by
  unfold memEnd; rfl
@[simp] theorem memDrop_pending (s : State) : (memDrop s).pending = s.pending := by
  unfold memDrop; rfl
@[simp] theorem memDone_pending (s : State) : (memDone s).pending = s.pending := by
  unfold memDone
  repeat' first | with_reducible rfl | (simp; done) | split | (dsimp only; split)
@[simp] theorem tunRun_pending (s : State) (write : Bool) : (tunRun s write).pending = s.pending := by
  unfold tunRun; simp
@[simp] theorem tunDone_pending (s : State) : (tunDone s).pending = s.pending := by
  unfold tunDone; split <;> simp
@[simp] theorem rbDone_pending (s : State) : (rbDone s).pending = s.pending := by
  unfold rbDone; split <;> simp
@[simp] theorem portAbort_pending (s : State) : (portAbort s).pending = s.pending := by
  unfold portAbort; simp
@[simp] theorem portCmd_pending (s : State) (v : BitVec 32) : (portCmd s v).pending = s.pending := by
  unfold portCmd; split <;> simp
@[simp] theorem portRead_pending (s : State) (cls rs : Nat) : (portRead s cls rs).pending = s.pending := by
  unfold portRead; split <;> simp
@[simp] theorem portWrite_pending (s : State) (cls rs : Nat) (v : BitVec 32) : (portWrite s cls rs v).pending = s.pending := by
  unfold portWrite; split <;> simp
@[simp] theorem goith_pending (g : GAcc) (cls rs : Nat) (rnw : Bool) (v : BitVec 32) (s : State) : (goith g cls rs rnw v s).pending = s.pending := by
  unfold goith; simp
@[simp] theorem monRow_pending (s : State) (e code : Nat) (act : Engine → Engine) : (monRow s e code act).pending = s.pending := by
  unfold monRow; simp
@[simp] theorem tapSelect_pending (s : State) (i : TapInstr) : (tapSelect s i).pending = s.pending := by
  unfold tapSelect; simp
@[simp] theorem tapHeld_pending (s : State) (i : TapInstr) : (tapHeld s i).pending = s.pending := by
  unfold tapHeld; simp
@[simp] theorem tickTime_pending (s : State) : (tickTime s).pending = s.pending := by
  unfold tickTime; simp
@[simp] theorem tickEngines_pending (s : State) : (tickEngines s).pending = s.pending := by
  unfold tickEngines; simp
@[simp] theorem tickFabric_pending (s : State) : (tickFabric s).pending = s.pending := by
  unfold tickFabric; simp
@[simp] theorem tickProbes_pending (s : State) : (tickProbes s).pending = s.pending := by
  unfold tickProbes; rfl
@[simp] theorem idleTick_pending (s : State) : (idleTick s).pending = s.pending := by
  unfold idleTick; simp
end Sys2Proof.Machine
end

