-- ==== Sys2Proof/Tests/Slice0.lean ====
section
/-! SUPPORT. Tests of the model: states in which what an obligation assumes holds (wit_X for Obligations.X), the well-formedness checks, and the spec's
worked examples. -/
namespace Sys2Proof.Tests
open Sys2Proof Sys2Proof.Machine
set_option linter.unusedVariables false
set_option Elab.async false

/-- A device that works: supplied, locked to REFIN, every unit clocked, boot complete. -/
def up : State := { State.reset with
  pwr := { State.reset.pwr with porN := true, effReset := false, rails := 0xFFFFFFF#28, vccioUnused := 0#16 }
  clk := { State.reset.clk with locked := true, accepted := true, mode := .ref, inBand := true, clkEn := 0x3FFFFFFFFF#38, clkRun := 0x3FFFFFFFFF#38 }
  rst := { State.reset.rst with phase := .run, treesHeld := false } }
/-- Partition 0 of it runs and holds crossing cell 3, whose clocks run from synthesizer 0. -/
def upX (x : XState) : State := { up with
  obj := [(O_PART_STATE 0, 1)]
  fab := { up.fab with logic := { up.fab.logic with
    clocks := [(0, 0, .synth 0)]
    cross := [(crossKey ⟨0, 3⟩, { src := .glob 0, dst := .glob 0, st := x })] } } }
/-- Engine 0 of it runs. -/
def upE : State := { up with eng := [(0, { state := .running })] }
/-- It issues from the loop cache. -/
def upC : State := { up with eng := [(0, { state := .running, cldPaid := true })] }
/-- It is in its shadow bank. -/
def upI : State := { up with eng := [(0, { state := .running, shadow := true })] }
/-- It runs its monitor. -/
def upD : State := { up with eng := [(0, { state := .monitor })] }
/-- Queue block 0 is attached to both stream ports of the engine and holds a word; its fabric sides, in other tests, run from synthesizer 0. -/
def upQ : State := { upE with
  mem := { up.mem with links := [(0, 1), (1, 1)], qbs := [(0, { words := [{ data := 5, last := true, bytes := 15, ends := 7 }] })] }
  fab := { up.fab with logic := { up.fab.logic with clocks := [(0, 0, .synth 0)] } }
  obj := [(O_PART_STATE 0, 1)] }
/-- Partition 0 runs; leaf RAM 3 is in ECC mode and scrubbed, leaf RAM 4 is not; their clock is synthesizer 0. -/
def upR : State := { up with
  mem := { up.mem with rams := [(3, { ecc := true, scrub := true, back := some (9, 4#72) }), (4, { a := { reads := true, writes := true, width := 18, rdw := .writeFirst, outReg := true, clk := .glob 0 } })] }
  fab := { up.fab with logic := { up.fab.logic with clocks := [(0, 0, .synth 0)] } }
  obj := [(O_PART_STATE 0, 1)] }
/-- Partition 0 runs and holds a logic cell whose flip-flop 0 hangs on reset tree 0. -/
def upCell : State × Cell :=
  let c : Cell := { cfg := { lut := 1, ins := Vector.replicate 6 .zero, byp := .one, ff0 := some { byp := true, clk := 0, en := none, sr := none, init := true, srval := false, restore := true, tree := 0 }, ff1 := none }, q0 := false, q1 := false }
  ({ up with
    fab := { up.fab with logic := { up.fab.logic with cells := [(0, c)] } }
    obj := [(O_PART_STATE 0, 1)] }, c)
/-- Its channel 2 transfers. -/
def upB : State := { up with eng := [(0, { state := .running, dma := Vector.replicate 4 { busy := true, flight := [0] } })] }
/-- An interrupt is due at engine 0. -/
def upP : State := { up with eng := [(0, { state := .running, pend := 0x100, irqEn := 0x100, fg := { cstat := 0x80000000#32 } })] }
/-- A request of its channel 1 that has been answered. -/
def upTx : Tx := { init := .eng 0 1, txn := 7, cmd := 0x10, tenant := 0, addr := 0, be := 0, len := 1, aux := 0, tag := 0, hint := 0, target := .nowhere, entry := none, epoch := 0, phase := .rsp }
/-- A write of the management core. -/
def wTx : Tx := { init := .mgmt, txn := 5, cmd := 0x10, tenant := 0, addr := 0, be := 0, len := 1, aux := 0, tag := 0, hint := 0, target := .nowhere, entry := none, epoch := 0 }
/-- A flow whose snoop of gate 0 has not left, and one whose snoop of port 1 has. -/
def wFlow : Flow := { req := { kind := .devRead, who := .nobody, ref := { line := 0x100, chan := 0, n := 0x100, cache := true } }, inv := true, toSend := 16, sent := 0, owned := true, pres := 16 }
def wFlow2 : Flow := { wFlow with toSend := 0, sent := 2, pres := 2, inv := false }
/-- CXL port 1 is up as a Type 3 port. -/
def upH : State := { up with hub := { up.hub with cxlUp := 15 }, obj := [(O_PORT_MODE 1, 3)] }
/-- Device 0 of a cascade of two by two; port 1 is wanted. -/
def upK : State := { up with pwr := { up.pwr with straps := 0x1000 }, obj := [(O_CASC_DIM, 0x22), (O_CASC_LINK_EN 1, 1)] }
/-- Device 1 of it. -/
def upK2 : State := { upK with pwr := { up.pwr with straps := 0x1100 } }
/-- A twin in STANDBY whose link is up. -/
def upT : State := { up with pwr := { up.pwr with straps := 0x2000 }, twin := { linkOk := true }, obj := [(O_TWIN_STATE, 3)] }
/-- CAN FD and I3C have their pins. -/
def upF : State := { up with pwr := { up.pwr with mioBank := [(0, 1), (1, 1)] }, obj := [(0x2D4001, 2), (0x2D4101, 2), (0x2D4201, 3), (0x2D4301, 3)] }
/-- The line of the Goith port is ready. -/
def upG : State := { up with dbg := { up.dbg with line := .ready } }
/-- A read of the port that has been answered, and a device in which it is in flight. -/
def wPortTx : Tx := { init := .dbg none, txn := 1, cmd := 1, tenant := 0, addr := 0, be := 0, len := 0, aux := 0, tag := 0, hint := 0, target := .nowhere, entry := none, epoch := 0, phase := .rsp }
def upM : State := { upG with dbg := { upG.dbg with memOp := some (.readLine false), memTxn := 1 }, vent := { upG.vent with txs := [(gatePort * 65536 + 1, wPortTx)] } }
/-- A directory at 0 that names one flash. -/
def dirBytes : List Byte :=
  let b := leBytes 4 0x4E475A44 ++ leBytes 2 1 ++ [1#8, 0#8] ++ leBytes 4 0x10000 ++ leBytes 4 0x11000 ++ leBytes 4 0x1000 ++ List.replicate 4 0#8 ++ List.replicate 100 0#8
  b ++ leBytes 4 (crc32 b)
def dirCells : List (Nat × Byte) := dirBytes.mapIdx fun i b => (i, b)
/-- A flash whose directory at 0 gives slot 0 a size of 4,096 bytes. -/
def fuF : FlashInfo := { count := 1, cap := 0x2000000, cells := [(28, 0#8), (29, 0x10#8), (30, 0#8), (31, 0#8)] }
/-- It, with an image of that size in device memory at 0 of channel 0, and the update set up. -/
def fuS : State := { up with
  obj := [(O_FU_LENGTH, 4096), (samKey 0, 2 ^ 63 + 23 * 2 ^ 52 + 2 ^ 16), (O_ISET_MASK 0, 1)]
  ld := { up.ld with flash := some fuF, dir := some 0 }
  ddr := { up.ddr with chans := [(0, { lines := [(0, { data := 0x4E475A53 })] })] } }
/-- Every byte below 4,096 is device memory. -/
theorem fuS_covers (i : Nat) (h : i < 4096) : samLookup fuS (0 + i) = some 0 := by
  have v : samValid (samRaw fuS 0) = true := by decide +kernel
  have b : samBase (samRaw fuS 0) = 0 := by decide +kernel
  have z : samSize (samRaw fuS 0) = 23 := by decide +kernel
  have c : samCovers (samRaw fuS 0) (0 + i) = true := by
    simp only [samCovers, v, b, z, Bool.true_and, Bool.and_eq_true, decide_eq_true_eq]; omega
  show samFind fuS (0 + i) (255 + 1) 0 = some 0
  rw [samFind, if_pos c]
/-- A byte of it. -/
def fuByte (i : Nat) : BitVec 8 :=
  BitVec.ofNat 8 ((lineNow fuS (refUnder fuS (samRaw fuS 0) (samForm (samRaw fuS 0) (0 + i) / 64))).toNat
    / 2 ^ (8 * (samForm (samRaw fuS 0) (0 + i) % 64)))
theorem fuS_bytes (n : Nat) (h : n ≤ 4096) : devBytes fuS 0 n = some ((List.range n).map fuByte) := by
  have k : (samKind (samRaw fuS 0) == kDevmem) = true := by decide +kernel
  have one : ∀ l : List Nat, (∀ i ∈ l, i < 4096) →
      l.mapM (fun i => (samLookup fuS (0 + i)).bind fun e => if samKind (samRaw fuS e) == kDevmem
        then some (BitVec.ofNat 8 ((lineNow fuS (refUnder fuS (samRaw fuS e) (samForm (samRaw fuS e) (0 + i) / 64))).toNat
          / 2 ^ (8 * (samForm (samRaw fuS e) (0 + i) % 64)))) else none) = some (l.map fuByte) := by
    intro l
    induction l with
    | nil => intro _; rfl
    | cons x r ih =>
      intro hl
      rw [List.mapM_cons, ih (fun i hi => hl i (List.mem_cons_of_mem _ hi)), fuS_covers x (hl x List.mem_cons_self)]
      rw [Option.bind_some, k]; rfl
  exact one _ (fun i hi => Nat.lt_of_lt_of_le (List.mem_range.mp hi) h)
theorem fuS_image : fuImage fuS = some (fuF, 0, 0, (List.range 4096).map fuByte) := by
  have e1 : (loadBusy fuS || decide (slotSize fuF 0 0 < 4096) || (fuS.ld.relay != .off && fuS.ld.active.toNat == 0)) = false := by decide +kernel
  have e2 : oGet fuS O_FU_SLOT = 0 := by decide +kernel
  have e3 : oGet fuS O_FU_LENGTH = 4096 := by decide +kernel
  have e4 : oGet fuS O_FU_SOURCE = 0 := by decide +kernel
  have e5 : leAt ((List.range 4096).map fuByte) 0 4 = 0x4E475A53 := by
    have : ((List.range 4096).map fuByte).take 4 = (List.range 4).map fuByte := by rw [← List.map_take, List.take_range]; rfl
    simp only [leAt, List.drop_zero, this]; decide +kernel
  have f1 : fuS.ld.flash = some fuF := rfl
  have f2 : fuS.ld.dir = some 0 := rfl
  unfold fuImage
  simp only [f1, f2, e2, e3, e4, e1, fuS_bytes 4096 (Nat.le_refl _), e5]
  simp
/-- A device whose slot 0 loaded and has a parameter area of 0x7F000000 bytes at 0x10000. -/
def stS : State := { up with
  ld := { up.ld with active := 0, dir := some 0
                     flash := some { count := 1, cap := 0x2000000, cells := [(36, 0#8), (37, 0#8), (38, 1#8), (39, 0#8), (40, 0#8), (41, 0#8), (42, 0#8), (43, 0x7F#8)] } } }
/-- What a key of a stored parameter is. -/
theorem mem_keyInsert (k x : Nat) (l : List Nat) (h : x ∈ keyInsert k l) : x = k ∨ x ∈ l := by
  induction l with
  | nil => simpa [keyInsert] using h
  | cons a r ih =>
    simp only [keyInsert] at h
    split at h
    · simpa using h
    · simp only [List.mem_cons] at h ⊢
      rcases h with h | h
      · tauto
      · rcases ih h with h | h <;> tauto
theorem mem_paramKeys (k : Nat) (h : k ∈ paramKeys) : k ∈ objDict.flatMap rowParams := by
  unfold paramKeys at h
  generalize objDict.flatMap rowParams = l at h ⊢
  induction l with
  | nil => simp at h
  | cons a r ih =>
    rcases mem_keyInsert a k _ h with h | h
    · simp [h]
    · simp [ih h]
theorem length_keyInsert (k : Nat) (l : List Nat) : (keyInsert k l).length = l.length + 1 := by
  induction l with
  | nil => rfl
  | cons a r ih => simp only [keyInsert]; split <;> simp [ih]
theorem length_rowParams (row : ObjRow) : (rowParams row).length ≤ (row.i1 + 1 - row.i0) * (row.s1 + 1 - row.s0) := by
  unfold rowParams
  split
  · have : ∀ n m : Nat, ∀ f : Nat → Nat → Option Nat,
        ((List.range n).flatMap fun a => (List.range m).filterMap fun b => f a b).length ≤ n * m := by
      intro n m f
      rw [List.length_flatMap]
      have h : ∀ l : List Nat, ((l.map fun a => ((List.range m).filterMap fun b => f a b).length)).sum ≤ l.length * m := by
        intro l
        induction l with
        | nil => simp
        | cons x r ih =>
          have : (List.filterMap (fun b => f x b) (List.range m)).length ≤ m := by
            simpa using List.length_filterMap_le (fun b => f x b) (List.range m)
          simp only [List.map_cons, List.sum_cons, List.length_cons, Nat.succ_mul]
          omega
      simpa using h (List.range n)
    exact this _ _ _
  · simp
theorem length_paramKeys : paramKeys.length ≤ 20000 := by
  have h1 : ∀ l : List Nat, (l.foldr keyInsert []).length = l.length := by
    intro l; induction l with
    | nil => rfl
    | cons a r ih => simp [length_keyInsert, ih]
  have h2 : ∀ l : List ObjRow, (l.flatMap rowParams).length ≤ (l.map fun r => (r.i1 + 1 - r.i0) * (r.s1 + 1 - r.s0)).sum := by
    intro l; induction l with
    | nil => simp
    | cons a r ih => have := length_rowParams a; simp only [List.flatMap_cons, List.length_append, List.map_cons, List.sum_cons]; omega
  have h3 : (objDict.map fun r => (r.i1 + 1 - r.i0) * (r.s1 + 1 - r.s0)).sum ≤ 20000 := by decide +kernel
  unfold paramKeys; rw [h1]; exact Nat.le_trans (h2 _) h3
theorem length_leBytes (n v : Nat) : (leBytes n v).length = n := by
  induction n generalizing v with
  | zero => rfl
  | succ n ih => simp [leBytes, ih]
theorem length_planEntry (k len val : Nat) : (planEntry k len val).length ≤ len + 15 := by
  simp [planEntry, length_leBytes]; omega
theorem objLen_param (k : Nat) (h : k ∈ paramKeys) : objLen stS k ≤ 32768 := by
  have hm := mem_paramKeys k h
  obtain ⟨row, hrow, hk⟩ := List.mem_flatMap.mp hm
  have hall : ∀ r ∈ objDict, r.acc = .rw → r.s1 < 256 ∧ (∀ a < r.i1 + 1 - r.i0, r.i0 + a ≠ 0x2A20 ∧ r.i0 + a ≠ 0x2000) ∧ r.lenHi ≤ 32768 := by
    decide +kernel
  have hlen : ∀ r ∈ objDict, r.lenHi ≤ 32768 := by decide +kernel
  unfold rowParams at hk
  split at hk
  · rename_i ha
    simp only [List.mem_flatMap, List.mem_filterMap, List.mem_range] at hk
    obtain ⟨a, ha', b, hb, hk⟩ := hk
    split at hk
    · cases hk
    · simp only [Option.some.injEq] at hk
      have hx := hall row hrow (by simpa using ha)
      have hd : k / 256 = row.i0 + a := by have := hx.1; omega
      have hne := hx.2.1 a ha'
      unfold objLen
      have c1 : k ≠ O_ORDER_CODE := by
        intro e; subst e; exact hne.2 hd.symm
      rw [if_neg c1]
      split
      · have e : oGet stS O_ID_CERT_CHAIN = 0 := by decide +kernel
        unfold certChain; rw [e]; simp; omega
      · rw [if_neg (by rw [hd]; exact hne.1)]
        split
        · rename_i r hr; exact hlen r (List.mem_of_find?_eq_some hr)
        · omega
  · simp at hk
theorem length_flatMap_le {α : Type} (l : List Nat) (f : Nat → List α) (n : Nat) (h : ∀ k ∈ l, (f k).length ≤ n) : (l.flatMap f).length ≤ l.length * n := by
  induction l with
  | nil => simp
  | cons a r ih =>
    have h1 := h a (by simp)
    have h2 := ih fun k hk => h k (by simp [hk])
    simp only [List.flatMap_cons, List.length_append, List.length_cons, Nat.succ_mul]; omega
/-- The parameters fit in half of the area of stS. -/
theorem stS_fits (want : Nat) : storeRefused stS want want = false := by
  have h1 : (paramBytes stS).length ≤ paramKeys.length * 32783 :=
    length_flatMap_le _ _ _ fun k hk => by have := objLen_param k hk; have := length_planEntry k (objLen stS k) (objValue stS { path := .internal, addr := 0#8, view := none } k); omega
  have h2 := length_paramKeys
  have h3 : ∃ f o, paramBlock stS = some (f, o, 0x7F000000) := ⟨_, _, rfl⟩
  obtain ⟨f, o, h3⟩ := h3
  have h4 : paramKeys.length * 32783 ≤ 20000 * 32783 := Nat.mul_le_mul_right _ h2
  unfold storeRefused; rw [h3]
  have h5 : ¬ (0x7F000000 / 2 < 32 + (paramBytes stS).length) := by omega
  simp only [h5, bne_self_eq_false, decide_false, Bool.or_false]

/-! ## Commands no sender sends: one for each check of WellFormed.lean -/

theorem test_ill_value : wellFormed (.registerWrite (.obj ⟨.internal, 0#8, none⟩ 0x2100#16 1#8 [])) = false := by decide +kernel
theorem test_ill_offset : wellFormed (.registerWrite (.engine 0 6#12 0#32)) = false := by decide +kernel
theorem test_ill_flits : wellFormed (.data .mgmt 0#16 (List.replicate 17 0#512) false 0 {}) = false := by decide +kernel
theorem test_ill_flash_order : wellFormed (.flashDirectoryRead ⟨0xC25A3A#24, true, 4096, [(5, 0#8), (5, 1#8)]⟩ ⟨0#24, false, 0, []⟩ false false) = false := by decide +kernel
theorem test_ill_flash_bounds : wellFormed (.flashDirectoryRead ⟨0xC25A3A#24, true, 4096, [(4096, 0#8)]⟩ ⟨0#24, false, 0, []⟩ false false) = false := by decide +kernel
/-- A port of a RAM that reads and writes with clock G0. -/
def smokePort (w : Nat) (outReg : Bool) : RamPort := ⟨true, true, w, .readFirst, outReg, .glob 0⟩
theorem test_ill_ram_width : wellFormed (.framesWritten [.ram ⟨false, 0, 3⟩ false (smokePort 5 false) (smokePort 9 false) false 0x00D58#19 0]) = false := by decide +kernel
theorem test_ill_ram_deep : wellFormed (.framesWritten [.ram ⟨true, 0, 3⟩ false (smokePort 4 false) (smokePort 9 false) false 0x00D58#19 0]) = false := by decide +kernel
theorem test_ill_ram_number : wellFormed (.partialWriteDone [.ram ⟨true, 0, 640⟩ false (smokePort 9 false) (smokePort 9 false) false 0x00D58#19 0]) = false := by decide +kernel
theorem test_ill_ram_ecc : wellFormed (.framesWritten [.ram ⟨false, 0, 3⟩ true (smokePort 64 false) (smokePort 64 true) false 0x00D58#19 0]) = false := by decide +kernel
theorem test_ill_ram_frame : wellFormed (.framesWritten [.ram ⟨false, 0, 3⟩ false (smokePort 9 false) (smokePort 9 false) false 0x00158#19 0]) = false := by decide +kernel
theorem test_ill_tile : wellFormed (.framesWritten [.tile ⟨0, 0, 0⟩ ⟨#v[some (.reg 1 0), none], #v[.zero, .zero, .zero, .zero], #v[.zero, .zero], #v[false, false]⟩]) = false := by
  decide +kernel
theorem test_ill_mul :
    wellFormed (.framesWritten [.mul ⟨0, 0⟩ ⟨List.replicate 28 .zero, [], [], [], .none, .p, false, true, true, true, .glob 0, none, none, 0⟩]) = false := by decide +kernel
theorem test_ill_clock : wellFormed (.framesWritten [.qb 0 false true false 1 .fabric .fabric (.reg 1 0) (.glob 0)]) = false := by decide +kernel
theorem test_ill_threshold : wellFormed (.framesWritten [.qb 0 false true false 0 .fabric .fabric (.glob 0) (.glob 0)]) = false := by decide +kernel
theorem test_ill_side : wellFormed (.framesWritten [.qb 0 false true false 1 (.engine 96) .fabric (.glob 0) (.glob 0)]) = false := by decide +kernel
theorem test_ill_port : wellFormed (.framesWritten [.port 0 0 2 .zero]) = false := by decide +kernel
theorem test_ill_source : wellFormed (.framesWritten [.clock 0 (.reg 1 0) (.synth 0)]) = false := by decide +kernel
theorem test_ill_mode : wellFormed (.framesWritten [.qb 0 false false false 1 .fabric .fabric (.glob 0) (.glob 0)]) = false := by decide +kernel
theorem test_ill_segment :
    wellFormed (.framesWritten [.seg ⟨⟨0, 10, 10⟩, .east, .four, 0⟩ ⟨.lut ⟨⟨0, 10, 7⟩, 0⟩, false, 0, false, 0⟩]) = false := by decide +kernel
theorem test_ill_serdes : wellFormed (.framesWritten [.serdes 60 ⟨true, false, .reg 0 0, Vector.replicate 8 .zero⟩]) = false := by decide +kernel
theorem test_ill_cross : wellFormed (.framesWritten [.cross ⟨20, 0⟩ .toggle (.reg 0 0) (.glob 0)]) = false := by decide +kernel
theorem test_ill_frame : wellFormed (.scrubFrameCheck 0x00558#19 0 0#64 none) = false := by decide +kernel
theorem test_ill_frame_bit : wellFormed (.scrubFrameCheck 0x00800#19 0 0#64 none) = false := by decide +kernel
theorem test_ill_trigger : wellFormed (.captureTrigger []) = false := by decide +kernel
theorem test_ill_capture : wellFormed (.captureComplete (List.replicate 4096 0#64)) = false := by decide +kernel
theorem test_ill_records : wellFormed (.ddrChannelReady 0 [7, 7]) = false := by decide +kernel
theorem test_ill_lines : wellFormed (.ideMacFail 0 [9#46, 9#46]) = false := by decide +kernel
theorem test_ill_update : wellFormed (.fuDone [(4, 0#8), (3, 0#8)]) = false := by decide +kernel
theorem test_ill_store : wellFormed (.paramStoreDone [(4, 0#8), (4, 0#8)]) = false := by decide +kernel
/-- The frame of the example of 05 R229, logic frame 10 of column 5 of partition F3.P07, is one that exists. -/
theorem test_frame_exists : wellFormed (.scrubFrameCheck 0x37127#19 0 0#64 none) = true := by decide +kernel

/-! ## Bundles of the worked example of chapter 09 -/

/-- LOOP 1,000 to 0x0180 with rotation width 16. -/
theorem test_bundle_loop : decBundle 0x6C0003E801800000#64 = some (.ctl (.loop 3 false 0 1000 0x180)) := by decide +kernel
/-- VMAC A0, V0, V28 with CLD V0, [CP0]+ and VLD V31, [P0]+ in slot X. -/
theorem test_bundle_vld :
    decBundle 0x080100381F880000#64 = some (.par (some (0, 0)) (.mac .vmacH 0 0 28 false) (.vld 31 0 true) .none) := by decide +kernel
/-- VMAC A0, V2, V18 with CLD V2, [CP0]+ and STA.H A0, [P4]+, #15 in slot Y. -/
theorem test_bundle_sta :
    decBundle 0x090100A40000412F#64 = some (.par (some (0, 2)) (.mac .vmacH 0 2 18 false) .none (.staH 0 4 true false 15)) := by decide +kernel
/-- W = 0b11 is reserved. -/
theorem test_bundle_width : decBundle 0x1003000000000000#64 = none := by decide +kernel
/-- PVD is not zero while PEN is 0. -/
theorem test_bundle_pvd : decBundle 0x1300000000000000#64 = none := by decide +kernel

/-! ## Other worked examples of the spec -/

/-- 12 R524: two 2-rank x4 DIMMs of 32 Gb hold 256 GiB; line 0x10_0005 lies in row 32, subchannel B, bank group 2. -/
theorem test_ddr_line :
    szBytes (sizingWord 1 false true true) = 256 * 2 ^ 30 ∧ szLines (sizingWord 1 false true true) = 31 * 2 ^ 27 ∧
      rowOfLine (sizingWord 1 false true true) 0x100005 = 32 ∧ bankOfLine (sizingWord 1 false true true) 0x100005 = 1 + 2 * 2 := by decide +kernel
/-- 14 R607: from device 5 to device 15 of a 4 x 4 torus through 6, 7 and 11, in by port N. -/
theorem test_torus_route :
    let s : State := { up with obj := [(O_CASC_DIM, 0x44)] }
    (hopFrom s 5 15).map (·.1) = some 6 ∧ (hopFrom s 6 15).map (·.1) = some 7 ∧ (hopFrom s 7 15).map (·.1) = some 11 ∧ lastPort s 5 5 15 = some 0 := by
  decide +kernel
/-- 16 R696: codes 1,638 on 0.25 V, 1,024 and 1,229 on 1.0 V. -/
theorem test_monitor_codes : aninUv 1638 1 false = 199951 ∧ aninUv 1024 2 false = 500000 ∧ aninUv 1229 2 false = 600098 := by decide +kernel
/-- 03 R136, R137: 800 MHz to 1,000 MHz under D = 8 takes 23 steps. -/
theorem test_glide :
    let y (n : Nat) : Synth := Nat.rec { freq := 800000, d := 8, vco := 6400000, goal := 1000000, run := .glide } (fun _ x => glideStep x) n
    (y 22).run = .glide ∧ (y 22).freq < 1000000 ∧ (y 23).run = .none ∧ (y 23).freq = 1000000 := by decide +kernel
/-- 15 R654: PKG_POWER read over I3C with tag 0x05 while the device draws 525,040 mW: the response's bytes. -/
theorem test_pkg_power :
    (match execMctpObjectRead { vdm := false, eid := 9, vendor := 0x1B7E4, unused := 0, waiting := 0, lost := false, tag := 5 } 0x2100 1 0 4
        { upF with obj := (O_PKG_POWER, 525040) :: (O_MCTP_VENDOR_IANA, 0x1B7E4) :: upF.obj } with
      | .next t => t.fw.mctpOut == [0x7F, 0x00, 0x01, 0xB7, 0xE4, 0x81, 0x05, 0x00, 0x00, 0x00, 0x00, 0x00, 0x04, 0x00, 0x00, 0x00, 0xF0, 0x02, 0x08, 0x00]
      | _ => false) = true := by decide +kernel
/-- 15 R675: entry 4, late by 1 ms with PERIOD 500, runs and moves on three periods. -/
theorem test_late_entry :
    let s : State := setFw { up with obj := [(O_SCHED_ENTRY 4, 9999000000 + 500 * 2 ^ 64 + 0x2503 * 2 ^ 96 + 2 ^ 112 + 2 ^ 120 + 2 ^ 128 + 2 ^ 192)] } { up.fw with dtime := 10000000000, late := 0x10 }
    (match execSchedLateEntry 4 s with
      | .next t => schedTime (schedEntry t 4) == 10000500000 && oGet t (O_SCHED_LATENESS 4) == 1000000 && t.fab.pulse == 1#8
      | _ => false) = true := by decide +kernel

/-! ## Steps -/

/-- With nothing waiting, time passes and no command runs (log entry 1). -/
theorem test_idle : step State.reset = .next (idleTick State.reset) := rfl
/-- The command in front runs. -/
theorem test_front : step { State.reset with pending := [.bypass, .getVersion .i3c] } = exec .bypass { State.reset with pending := [.getVersion .i3c] } := rfl
/-- No word spells a command (log entry 5). -/
theorem test_word : decodeTableWord 64 0x123 = none ∧ State.reset.withFetchWord 64 0x123 = State.reset := ⟨rfl, rfl⟩
/-- Reset memory is in canonical form. -/
theorem test_reset_form : State.reset.obj = [] ∧ State.reset.eng = [] := ⟨rfl, rfl⟩

/-! ## What the obligations assume can be met -/

/-- What Obligations.Supplies assumes can be met, part 1. -/
theorem wit_Supplies_1 :
    (∃ (straps : BitVec 16), ∃ (rails : BitVec 28), ∃ (s : State), (s.pwr.vaux = true) ∧ (s.pwr.rails.getLsbD 7 = true) ∧ (s.pwr.tripped = false) ∧ (s.pwr.porN = true) ∧ (s.pwr.effReset = true) ∧ (monitoredIn rails = true) ∧ (s.rst.phase = .held) ∧ (s.rst.standby = .none)) ∧
    (∃ (straps : BitVec 16), ∃ (rails : BitVec 28), ∃ (s : State), (s.pwr.vaux = false ∨ s.pwr.rails.getLsbD 7 = false ∨ s.pwr.tripped = true ∨ s.pwr.porN = false ∨ s.pwr.effReset = false ∨ monitoredIn rails = false)) ∧
    (∃ (site : Fin 40), ∃ (s : State), (s.pwr.vaux = true) ∧ (s.pwr.tripped = false)) ∧
    (∃ (site : Fin 40), ∃ (s : State), (s.pwr.vaux = false ∨ s.pwr.tripped = true)) ∧
    (∃ (s : State), let p := s.pwr.sumPkg / max 1 s.pwr.samples; clocked s = true) ∧
    (∃ (s : State), clocked s = false) :=
  ⟨⟨0x0014, 0xFFFFFFF, { State.reset with pwr := { State.reset.pwr with porN := true } }, by decide +kernel⟩,
    ⟨0x0014, 0xFFFFFBF, up, by decide +kernel⟩,
    ⟨39, up, by decide +kernel⟩,
    ⟨0, { up with pwr := { up.pwr with tripped := true } }, by decide +kernel⟩,
    ⟨up, by decide +kernel⟩,
    ⟨State.reset, by decide +kernel⟩⟩

/-- What Obligations.Supplies assumes can be met, part 2. -/
theorem wit_Supplies_2 :
    (∃ (s : State), ∃ (p : Nat), (oGet s O_POWER_CAP < p) ∧ (oGet s O_CAP_ACTION = 1)) ∧
    (∃ (s : State), ∃ (p : Nat), p * 100 < oGet s O_POWER_CAP * 95) :=
  ⟨⟨{ up with obj := [(O_CAP_ACTION, 1)] }, 750001, by decide +kernel⟩,
    ⟨up, 0, by decide +kernel⟩⟩

/-- What Obligations.ColdReset assumes can be met, part 1. -/
theorem wit_ColdReset_1 :
    (∃ (s : State), ∃ (cause : Nat), (s.rst.phase ≠ .held) ∧ (s.rst.flushing = false)) :=
  ⟨up, 4, by decide +kernel⟩

/-- What Obligations.ClockMonitor assumes can be met, part 1. -/
theorem wit_ClockMonitor_1 :
    (∃ (s : State), (rc100Runs s = true) ∧ (s.clk.xtalStable = false) ∧ (strapRefSel s = 2)) ∧
    (∃ (s : State), (rc100Runs s = true) ∧ (strapRefSel s = 2)) ∧
    (∃ (s : State), (rc100Runs s = true) ∧ (s.pwr.effReset = false) ∧ (s.rst.standby = .none) ∧ (s.clk.locked = false)) ∧
    (∃ (s : State), (clocked s = true) ∧ (s.clk.mode = .ref) ∧ (s.clk.monStopped = false)) ∧
    (∃ (s : State), (rc100Runs s = true) ∧ (s.clk.accepted = false) ∧ (s.clk.late50 = false)) ∧
    (∃ (count : BitVec 16), ∃ (s : State), (rc100Runs s = true) ∧ (2747 ≤ count.toNat) ∧ (count.toNat ≤ 3357)) :=
  ⟨⟨{ up with pwr := { up.pwr with straps := 0x20 } }, by decide +kernel⟩,
    ⟨{ up with pwr := { up.pwr with straps := 0x20 } }, by decide +kernel⟩,
    ⟨{ up with rst := { up.rst with phase := .wiping }, clk := { up.clk with locked := false, accepted := true } }, by decide +kernel⟩,
    ⟨up, by decide +kernel⟩,
    ⟨State.reset, by decide +kernel⟩,
    ⟨3357, up, by decide +kernel⟩⟩

/-- What Obligations.ClockMonitor assumes can be met, part 2. -/
theorem wit_ClockMonitor_2 :
    (∃ (code : BitVec 16), ∃ (s : State), (rc100Runs s = true) ∧ (s.clk.accepted = true) ∧ (s.clk.trimFrozen = false)) ∧
    (∃ (code : BitVec 16), ∃ (s : State), (syncTrims s = true) ∧ (s.clk.syncPhase1 = false)) ∧
    (∃ (code : BitVec 16), ∃ (s : State), (syncTrims s = true) ∧ (s.clk.syncPhase1 = true) ∧ (s.clk.syncSeen = true) ∧ (oGet s O_COMM_CYCLE ≠ 0) ∧ (s.clk.mode = .rc)) ∧
    (∃ (s : State), (syncTrims s = true) ∧ (s.clk.syncPhase1 = true) ∧ (oGet s O_COMM_CYCLE ≠ 0) ∧ (s.clk.trimHeld = false)) ∧
    (∃ (mHz : BitVec 32), ∃ (s : State), operating s = true) ∧
    (∃ (count : BitVec 16), ∃ (s : State), (rc100Runs s = true) ∧ (s.clk.monStopped = false) ∧ (s.clk.mode = .ref) ∧ (s.clk.locked = true) ∧ (s.clk.holdover = false) ∧ ((bandOf s).1 ≤ count.toNat) ∧ (count.toNat ≤ (bandOf s).2)) :=
  ⟨⟨0x123, up, by decide +kernel⟩,
    ⟨0x123, { up with clk := { up.clk with accepted := false }, rst := { up.rst with phase := .waitRoot } }, by decide +kernel⟩,
    ⟨0x123, { up with clk := { up.clk with accepted := false, syncPhase1 := true, syncSeen := true, mode := .rc }, obj := [(O_TRIM_SYNC_EN, 1), (O_COMM_CYCLE, 1000)] }, by decide +kernel⟩,
    ⟨{ up with clk := { up.clk with accepted := false, syncPhase1 := true, syncSeen := true, mode := .rc }, obj := [(O_TRIM_SYNC_EN, 1), (O_COMM_CYCLE, 1000)] }, by decide +kernel⟩,
    ⟨32768000, up, by decide +kernel⟩,
    ⟨256, up, by decide +kernel⟩⟩

/-- What Obligations.ClockUnits assumes can be met, part 1. -/
theorem wit_ClockUnits_1 :
    (∃ (unit : Fin 38), ∃ (s : State), (s.clk.clkRun.getLsbD unit.val = true) ∧ (s.clk.clkEn.getLsbD unit.val = false) ∧ (¬ (1 ≤ unit.val ∧ unit.val < 0x11))) ∧
    (∃ (i : Fin 32), ∃ (s : State), (clocked s = true) ∧ ((synthOf s i.val).run = .gatedLock) ∧ ((synthOf s i.val).stopped = false)) ∧
    (∃ (i : Fin 32), ∃ (s : State), (clocked s = true) ∧ ((synthOf s i.val).run = .gatedRelease) ∧ ((synthOf s i.val).stopped = false)) ∧
    (∃ (i : Fin 32), ∃ (s : State), (clocked s = true) ∧ ((synthOf s i.val).run = .glide) ∧ ((synthOf s i.val).stopped = false) ∧ ((synthOf s i.val).vco ≤ (synthOf s i.val).d * (synthOf s i.val).goal) ∧ ((synthOf s i.val).vco + (synthOf s i.val).vco / 100 < (synthOf s i.val).d * (synthOf s i.val).goal)) ∧
    (∃ (i : Fin 32), ∃ (s : State), (clocked s = true) ∧ ((synthOf s i.val).locked = true) ∧ ((synthOf s i.val).stopped = false)) ∧
    (∃ (cell : XId), ∃ (y : XCell), ∃ (a b c o p : Bool), ∃ (n : Nat), ∃ (s : State), (tabFind s.fab.logic.cross (crossKey cell) = some y) ∧ (partRuns s cell.part.val = true) ∧ (y.st = .toggle a b c o p n) ∧ (clkOn s y.src = true)) :=
  ⟨⟨0x11, { up with clk := { up.clk with clkEn := 0 } }, by decide +kernel⟩,
    ⟨31, { up with clk := { up.clk with synths := [(31, { run := .gatedLock, locked := false })] } }, by decide +kernel⟩,
    ⟨31, { up with clk := { up.clk with synths := [(31, { run := .gatedRelease })] } }, by decide +kernel⟩,
    ⟨0, { up with clk := { up.clk with synths := [(0, { run := .glide, d := 60, vco := 6000000, goal := 110000 })] } }, by decide +kernel⟩,
    ⟨0, up, by decide +kernel⟩,
    ⟨⟨0, 3⟩, { src := .glob 0, dst := .glob 0, st := .toggle true false false false false 0 }, true, false, false, false, false, 0, upX (.toggle true false false false false 0), by decide +kernel⟩⟩

/-- What Obligations.ClockUnits assumes can be met, part 2. -/
theorem wit_ClockUnits_2 :
    (∃ (cell : XId), ∃ (y : XCell), ∃ (a b c o p : Bool), ∃ (n : Nat), ∃ (s : State), (tabFind s.fab.logic.cross (crossKey cell) = some y) ∧ (partRuns s cell.part.val = true) ∧ (y.st = .toggle a b c o p n) ∧ (clkOn s y.src = true)) ∧
    (∃ (cell : XId), ∃ (word w l : BitVec 128), ∃ (y : XCell), ∃ (dn sk d v : Bool), ∃ (n : Nat), ∃ (s : State), (tabFind s.fab.logic.cross (crossKey cell) = some y) ∧ (partRuns s cell.part.val = true) ∧ (y.st = .hold w false false dn sk d v l n) ∧ (clkOn s y.src = true)) ∧
    (∃ (cell : XId), ∃ (w l : BitVec 128), ∃ (y : XCell), ∃ (a sk d v : Bool), ∃ (n : Nat), ∃ (s : State), (tabFind s.fab.logic.cross (crossKey cell) = some y) ∧ (partRuns s cell.part.val = true) ∧ (y.st = .hold w true a false sk d v l n)) :=
  ⟨⟨⟨0, 3⟩, { src := .glob 0, dst := .glob 0, st := .toggle true false false true false 0 }, true, false, false, true, false, 0, upX (.toggle true false false true false 0), by decide +kernel⟩,
    ⟨⟨0, 3⟩, 5, 0, 0, { src := .glob 0, dst := .glob 0, st := .hold 0 false false false false false false 0 0 }, false, false, false, false, 0, upX (.hold 0 false false false false false false 0 0), by decide +kernel⟩,
    ⟨⟨0, 3⟩, 5, 0, { src := .glob 0, dst := .glob 0, st := .hold 5 true false false false false false 0 0 }, false, false, false, false, 0, upX (.hold 5 true false false false false false 0 0), by decide +kernel⟩⟩

/-- What Obligations.SystemWrites assumes can be met, part 1. -/
theorem wit_SystemWrites_1 :
    (∃ (r : Req), ∃ (v : BitVec 8), ∃ (s : State), Accepted s r O_VBAT_LATCH_CLEAR 1 v.toNat {}) ∧
    (∃ (r : Req), ∃ (v : BitVec 8), ∃ (s : State), Accepted s r O_VBAT_LATCH_CLEAR 1 v.toNat {}) ∧
    (∃ (r : Req), ∃ (v : BitVec 8), ∃ (s : State), (Accepted s r O_REF_STATUS 1 v.toNat {}) ∧ (v.toNat.testBit 2 = false)) ∧
    (∃ (r : Req), ∃ (v : BitVec 8), ∃ (s : State), (Accepted s r O_REF_STATUS 1 v.toNat {}) ∧ (v.toNat.testBit 2 = true)) ∧
    (∃ (r : Req), ∃ (v : BitVec 8), ∃ (s : State), Accepted s r O_REF_RESELECT 1 v.toNat { state := s.clk.mode == .rc && 16 ≤ s.clk.goodRun && !s.clk.monStopped && !strapError s }) ∧
    (∃ (r : Req), ∃ (unit : Fin 38), ∃ (s : State), Accepted s r (O_CLK_EN unit.val) 1 1 { state := mayClock s unit.val }) :=
  ⟨⟨⟨.internal, 0, none⟩, 1, up, by decide +kernel⟩,
    ⟨⟨.internal, 0, none⟩, 1, up, by decide +kernel⟩,
    ⟨⟨.internal, 0, none⟩, 0, up, by decide +kernel⟩,
    ⟨⟨.internal, 0, none⟩, 0xFF, up, by decide +kernel⟩,
    ⟨⟨.internal, 0, none⟩, 1, { up with clk := { up.clk with mode := .rc, goodRun := 16 } }, by decide +kernel⟩,
    ⟨⟨.internal, 0, none⟩, 0, up, by decide +kernel⟩⟩

/-- What Obligations.SystemWrites assumes can be met, part 2. -/
theorem wit_SystemWrites_2 :
    (∃ (r : Req), ∃ (unit : Fin 38), ∃ (s : State), Accepted s r (O_CLK_EN unit.val) 1 0 { state := mayGate s unit.val }) ∧
    (∃ (r : Req), ∃ (i : Fin 32), ∃ (v : BitVec 8), ∃ (s : State), (oGet s (O_SYNTH_MODE i.val) = 0) ∧ (Accepted s r (O_APPLY i.val) 1 v.toNat { state := (synthOf s i.val).run == .none && !(synthOf s i.val).stopped })) ∧
    (∃ (r : Req), ∃ (i : Fin 32), ∃ (v : BitVec 8), ∃ (s : State), (oGet s (O_SYNTH_MODE i.val) = 1) ∧ (Accepted s r (O_APPLY i.val) 1 v.toNat { state := (synthOf s i.val).run == .none && !(synthOf s i.val).stopped && glideFits (synthOf s i.val) (oGet s (O_SYNTH_TARGET i.val)) })) ∧
    (∃ (r : Req), ∃ (s : State), Accepted s r O_RESET_REQUEST 1 1 { state := s.rst.standby == .none }) ∧
    (∃ (r : Req), ∃ (s : State), Accepted s r O_RESET_REQUEST 1 2 { state := s.rst.standby == .none }) ∧
    (∃ (r : Req), ∃ (d : Fin 8), ∃ (s : State), Accepted s r (O_DIE_REQUEST d.val) 1 1 { state := operating s && !dieRefused s d.val && dieOf s d.val != .waking }) :=
  ⟨⟨⟨.internal, 0, none⟩, 0x22, up, by decide +kernel⟩,
    ⟨⟨.internal, 0, none⟩, 31, 1, up, by decide +kernel⟩,
    ⟨⟨.internal, 0, none⟩, 0, 1, { up with obj := [(O_SYNTH_TARGET 0, 100000), (O_SYNTH_MODE 0, 1)] }, by decide +kernel⟩,
    ⟨⟨.internal, 0, none⟩, up, by decide +kernel⟩,
    ⟨⟨.internal, 0, none⟩, up, by decide +kernel⟩,
    ⟨⟨.internal, 0, none⟩, 7, up, by decide +kernel⟩⟩

/-- What Obligations.SystemWrites assumes can be met, part 3. -/
theorem wit_SystemWrites_3 :
    (∃ (r : Req), ∃ (d : Fin 8), ∃ (s : State), Accepted s r (O_DIE_REQUEST d.val) 1 2 { state := operating s && dieOf s d.val != .entering }) ∧
    (∃ (r : Req), ∃ (v : BitVec 8), ∃ (s : State), Accepted s r O_STANDBY_ENTER 1 v.toNat { state := operating s && standbyReason s == 0 }) ∧
    (∃ (r : Req), ∃ (target : BitVec 8), ∃ (sig : BitVec 768), ∃ (s : State), let val := target.toNat + 2 ^ 32 * leNat (beBytes 96 sig.toNat); (s.rst.lc ≠ 2#3) ∧ (Accepted s r O_LC_REQUEST 100 val { state := s.rst.standby == .none && s.rst.lcRun.isNone && lcPermitted s (val % 256) }) ∧ (val / 256 % 2 ^ 24 = 0)) :=
  ⟨⟨⟨.internal, 0, none⟩, 7, { up with rst := { up.rst with die := [(7, .dormant)] } }, by decide +kernel⟩,
    ⟨⟨.internal, 0, none⟩, 1, { up with obj := [(O_WAKE_SOURCES, 1)] }, by decide +kernel⟩,
    ⟨⟨.internal, 0, none⟩, 2, 0, { up with rst := { up.rst with lc := 1#3 } }, by decide +kernel⟩⟩

/-- What Obligations.KeyAndLoadWrites assumes can be met, part 1. -/
theorem wit_KeyAndLoadWrites_1 :
    (∃ (r : Req), ∃ (key : BitVec 256), ∃ (s : State), let val := leNat (beBytes 32 key.toNat); (Accepted s r O_BBK_WRITE 32 val { life := s.rst.lc.toNat ≤ 2 }) ∧ (loadUsesBbk s = false)) ∧
    (∃ (r : Req), ∃ (key : BitVec 256), ∃ (s : State), let val := leNat (beBytes 32 key.toNat); (Accepted s r O_BBK_WRITE 32 val { life := s.rst.lc.toNat ≤ 2 }) ∧ (loadUsesBbk s = true)) ∧
    (∃ (r : Req), ∃ (slot : BitVec 8), ∃ (key : BitVec 384), ∃ (s : State), ∃ (k : Nat), let n := progLen slot.toNat - 4; let val := slot.toNat + 2 ^ 32 * leNat (beBytes n key.toNat); let v := BitVec.ofNat 384 (beNat (leBytes n (val / 2 ^ 32))); (progSlot slot.toNat = some k) ∧ (Accepted s r O_KEY_PROGRAM (n + 4) val { life := s.rst.lc.toNat ≤ 1, state := !loadUsesSlot s k && !(fuseSlot s k).fused && !(fuseSlot s k).destroyed })) ∧
    (∃ (r : Req), ∃ (slot : BitVec 8), ∃ (s : State), let k := slot.toNat % 4; (Accepted s r O_KEY_REVOKE 1 slot.toNat { life := s.rst.lc == 1#3 || s.rst.lc == 2#3, state := !loadUsesSlot s k && (fuseSlot s k).fused && !(fuseSlot s k).destroyed && ((fuseSlot s k).revoked || otherOwner s k) }) ∧ (s.dbg.token = none)) ∧
    (∃ (r : Req), ∃ (v : BitVec 16), ∃ (s : State), Accepted s r O_PR_STAGE_MIB 2 v.toNat { value := v.toNat == 0 || v.toNat == 64 || v.toNat == 128 || v.toNat == 256 || v.toNat == 512, state := s.ld.load.isNone }) ∧
    (∃ (v : Nat), ∃ (s : State), (s.hub.slices = []) ∧ (s.hub.hlines = [])) :=
  ⟨⟨⟨.internal, 0, none⟩, 5, up, by decide +kernel⟩,
    ⟨⟨.internal, 0, none⟩, 5, { up with ld := { up.ld with load := some { src := 0x10, boot := false, follow := none, tenant := none, addr := 0, phase := .reams, staged := 1, keySource := 3 } } }, by decide +kernel⟩,
    ⟨⟨.internal, 0, none⟩, 3, 5, up, 3, by decide +kernel⟩,
    ⟨⟨.internal, 0, none⟩, 3, { up with rst := { up.rst with lc := 1#3 }, fuse := { slots := [(0, { fused := true }), (3, { fused := true })] } }, by decide +kernel⟩,
    ⟨⟨.internal, 0, none⟩, 512, up, by decide +kernel⟩,
    ⟨64, up, by decide +kernel⟩⟩

/-- What Obligations.KeyAndLoadWrites assumes can be met, part 2. -/
theorem wit_KeyAndLoadWrites_2 :
    (∃ (r : Req), ∃ (source : BitVec 8), ∃ (addr : BitVec 64), ∃ (s : State), let val := source.toNat + 2 ^ 64 * addr.toNat; ((source = 1#8 ∨ source = 2#8)) ∧ (Accepted s r 0x231001 16 val { state := operating s && !loadBusy s && oGet s O_PR_STAGE_MIB != 0 && !(source == 2#8 && inOpenSlot s addr.toNat) })) ∧
    (∃ (r : Req), ∃ (v : BitVec 8), ∃ (s : State), ∃ (f : FlashInfo), ∃ (d k : Nat), ∃ (b : List (BitVec 8)), (fuImage s = some (f, d, k, b)) ∧ (Accepted s r O_FU_START 1 v.toNat { state := operating s && !serviceBusy s })) :=
  ⟨⟨⟨.internal, 0, none⟩, 1, 0x100000, { up with obj := [(O_PR_STAGE_MIB, 64)] }, by decide +kernel⟩,
    ⟨⟨.internal, 0, none⟩, 1, fuS, fuF, 0, 0, _, fuS_image, by decide +kernel⟩⟩

/-- What Obligations.FabricWrites assumes can be met, part 1. -/
theorem wit_FabricWrites_1 :
    (∃ (r : Req), ∃ (t : BitVec 8), ∃ (s : State), Accepted s r O_GRST_PULSE 1 t.toNat {}) ∧
    (∃ (r : Req), ∃ (ch : Fin 64), ∃ (v : BitVec 16), ∃ (s : State), Accepted s r (O_PROBE_SEL ch.val) 2 v.toNat { owns := tapAllowed s r ch.val (v.toNat % 4096) }) ∧
    (∃ (r : Req), ∃ (ch : Fin 64), ∃ (v : BitVec 16), ∃ (s : State), Accepted s r (O_PROBE_ROUTE ch.val) 2 v.toNat { value := v.toNat / 2 ^ 14 != 3 && (v.toNat / 2 ^ 14 != 1 || (104 * (ch.val / 8) ≤ v.toNat % 1024 && v.toNat % 1024 < 104 * (ch.val / 8) + 104)), state := v.toNat / 2 ^ 14 != 1 || tabGet s.fab.spare (v.toNat % 1024) false }) ∧
    (∃ (r : Req), ∃ (s : State), ((oGet s O_CAP_STATE = 0 ∨ oGet s O_CAP_STATE = 3 ∨ oGet s O_CAP_STATE = 4)) ∧ (Accepted s r O_CAP_CONTROL 1 1 { state := enabled s unProbe })) ∧
    (∃ (r : Req), ∃ (s : State), ((oGet s O_CAP_STATE = 1 ∨ oGet s O_CAP_STATE = 2)) ∧ (Accepted s r O_CAP_CONTROL 1 2 {})) ∧
    (∃ (r : Req), ∃ (v : BitVec 8), ∃ (s : State), (Accepted s r O_RAM_CNT_CLEAR 1 v.toNat {}) ∧ (v ≠ 0xFF#8)) :=
  ⟨⟨⟨.internal, 0, none⟩, 0x81, up, by decide +kernel⟩,
    ⟨⟨.internal, 0, none⟩, 63, 0, up, by decide +kernel⟩,
    ⟨⟨.internal, 0, none⟩, 0, 0x4067, { up with fab := { up.fab with spare := [(0x67, true)] } }, by decide +kernel⟩,
    ⟨⟨.internal, 0, none⟩, up, by decide +kernel⟩,
    ⟨⟨.internal, 0, none⟩, { up with obj := [(O_CAP_STATE, 1)] }, by decide +kernel⟩,
    ⟨⟨.internal, 0, none⟩, 128, up, by decide +kernel⟩⟩

/-- What Obligations.FabricWrites assumes can be met, part 2. -/
theorem wit_FabricWrites_2 :
    (∃ (r : Req), ∃ (v : BitVec 16), ∃ (s : State), (Accepted s r O_QB_CNT_CLEAR 2 v.toNat {}) ∧ (v ≠ 0xFFFF#16)) ∧
    (∃ (r : Req), ∃ (e : Fin 768), ∃ (s : State), Accepted s r (O_ENG_COMMAND e.val) 1 1 { state := engClocked s e.val && engPermits s e.val 1 }) ∧
    (∃ (r : Req), ∃ (e : Fin 768), ∃ (s : State), Accepted s r (O_ENG_COMMAND e.val) 1 2 { state := engClocked s e.val && engPermits s e.val 2 }) ∧
    (∃ (r : Req), ∃ (e : Fin 768), ∃ (s : State), ((engOf s e.val).state = .waiting) ∧ (debugWait (engOf s e.val) = none) ∧ (Accepted s r (O_ENG_COMMAND e.val) 1 3 { state := engClocked s e.val && engPermits s e.val 3 })) ∧
    (∃ (r : Req), ∃ (e : Fin 768), ∃ (s : State), let g := engOf s e.val; (g.state = .running) ∧ (debugDue g = none) ∧ (bundleFault (answer s 0#32) e.val (g.frozen.getD (bundleAt g g.pc.toNat)) = none) ∧ (Accepted s r (O_ENG_COMMAND e.val) 1 3 { state := engClocked s e.val && engPermits s e.val 3 })) ∧
    (∃ (r : Req), ∃ (e : Fin 768), ∃ (s : State), Accepted s r (O_ENG_COMMAND e.val) 1 4 { state := engClocked s e.val && engPermits s e.val 4 }) :=
  ⟨⟨⟨.internal, 0, none⟩, 1023, up, by decide +kernel⟩,
    ⟨⟨.internal, 0, none⟩, 0, { up with eng := [(0, { state := .notready })] }, by decide +kernel⟩,
    ⟨⟨.internal, 0, none⟩, 767, { up with eng := [(767, { state := .halted })] }, by decide +kernel⟩,
    ⟨⟨.internal, 0, none⟩, 0, { up with eng := [(0, { state := .waiting })] }, by decide +kernel⟩,
    ⟨⟨.internal, 0, none⟩, 0, { up with eng := [(0, { state := .running })] }, by decide +kernel⟩,
    ⟨⟨.internal, 0, none⟩, 0, { up with eng := [(0, { state := .fault })] }, by decide +kernel⟩⟩

/-- What Obligations.FabricWrites assumes can be met, part 3. -/
theorem wit_FabricWrites_3 :
    (∃ (r : Req), ∃ (e : Fin 768), ∃ (s : State), Accepted s r (O_ENG_COMMAND e.val) 1 5 { state := engClocked s e.val && engPermits s e.val 5 }) ∧
    (∃ (r : Req), ∃ (e : Fin 768), ∃ (s : State), Accepted s r (O_ENG_COMMAND e.val) 1 6 { state := engClocked s e.val && engPermits s e.val 6 }) :=
  ⟨⟨⟨.internal, 0, none⟩, 0, { up with eng := [(0, { state := .notready })] }, by decide +kernel⟩,
    ⟨⟨.internal, 0, none⟩, 0, { up with eng := [(0, { state := .off })] }, by decide +kernel⟩⟩

/-- What Obligations.TenantWrites assumes can be met, part 1. -/
theorem wit_TenantWrites_1 :
    (∃ (r : Req), ∃ (e : Fin 256), ∃ (v : BitVec 128), ∃ (s : State), Accepted s r (samKey e.val) 16 v.toNat { value := samValueOk v.toNat, state := samStateOk s e.val v.toNat }) ∧
    (∃ (s : State), ∃ (e v : Nat), e < 256) ∧
    (∃ (r : Req), ∃ (v : BitVec 16), ∃ (s : State), Accepted s r O_SAM_INVALIDATE 2 v.toNat {}) ∧
    (∃ (r : Req), ∃ (id : BitVec 16), ∃ (part : BitVec 8), ∃ (s : State), let val := id.toNat + part.toNat * 65536 + 2 ^ 24; (0x500 ≤ id.toNat ∧ id.toNat ≤ 0x3FFF ∧ part.toNat < 128) ∧ (Accepted s r O_EP_BIND 4 val { owns := actor s r == 0 || (part.toNat < 128 && partOwner s part.toNat == actor s r), cap := s.vent.soft.length < 15104, state := (softPart s id.toNat).isNone })) ∧
    (∃ (r : Req), ∃ (id : BitVec 16), ∃ (part : BitVec 8), ∃ (s : State), let val := id.toNat + part.toNat * 65536 + 2 ^ 25; (part.toNat < 128) ∧ (Accepted s r O_EP_BIND 4 val { owns := actor s r == 0 || (part.toNat < 128 && partOwner s part.toNat == actor s r), state := softPart s id.toNat == some part.toNat })) ∧
    (∃ (r : Req), ∃ (v : BitVec 8), ∃ (s : State), Accepted s r 0x292001 1 v.toNat { value := v.toNat ≤ 15, owns := (match r.view with | some w => w.toNat == v.toNat | none => true) }) :=
  ⟨⟨⟨.internal, 0, none⟩, 255, 0, up, by decide +kernel⟩,
    ⟨up, 255, 0, by decide +kernel⟩,
    ⟨⟨.internal, 0, none⟩, 0xFFFF, up, by decide +kernel⟩,
    ⟨⟨.internal, 0, none⟩, 0x3FFF, 127, up, by decide +kernel⟩,
    ⟨⟨.internal, 0, none⟩, 0x500, 0, { up with vent := { up.vent with soft := [(0x500, 0)] } }, by decide +kernel⟩,
    ⟨⟨.internal, 0, none⟩, 15, up, by decide +kernel⟩⟩

/-- What Obligations.TenantWrites assumes can be met, part 2. -/
theorem wit_TenantWrites_2 :
    (∃ (r : Req), ∃ (p : Fin 128), ∃ (v : BitVec 8), ∃ (s : State), (Accepted s r (ownerKey p.val) 1 v.toNat { value := v.toNat ≤ 15, state := (tabFind s.ten.reassign p.val).isNone }) ∧ (oGet s (ownerKey p.val) ≠ v.toNat) ∧ (planTime s = false) ∧ (reassignBlocked s p.val v.toNat = false)) ∧
    (∃ (r : Req), ∃ (e : Fin 768), ∃ (v : BitVec 8), ∃ (s : State), (Accepted s r (ownerKey (128 + e.val)) 1 v.toNat { value := v.toNat ≤ 15, state := (tabFind s.ten.reassign (128 + e.val)).isNone }) ∧ (oGet s (ownerKey (128 + e.val)) ≠ v.toNat) ∧ (planTime s = true)) ∧
    (∃ (r : Req), ∃ (e : Fin 768), ∃ (v : BitVec 8), ∃ (s : State), (Accepted s r (ownerKey (128 + e.val)) 1 v.toNat { value := v.toNat ≤ 15, state := (tabFind s.ten.reassign (128 + e.val)).isNone }) ∧ (oGet s (ownerKey (128 + e.val)) ≠ v.toNat) ∧ (planTime s = false) ∧ (reassignBlocked s (128 + e.val) v.toNat = false)) ∧
    (∃ (r : Req), ∃ (t : Fin 16), ∃ (v : BitVec 32), ∃ (s : State), let new := oGet s (O_FAULT_RECORD t.val) ^^^ (oGet s (O_FAULT_RECORD t.val) &&& v.toNat); (Accepted s r (O_FAULT_CLEAR t.val) 4 v.toNat {}) ∧ (new ≠ 0)) ∧
    (∃ (r : Req), ∃ (t : Fin 16), ∃ (v : BitVec 32), ∃ (s : State), let new := oGet s (O_FAULT_RECORD t.val) ^^^ (oGet s (O_FAULT_RECORD t.val) &&& v.toNat); (Accepted s r (O_FAULT_CLEAR t.val) 4 v.toNat {}) ∧ (new = 0)) ∧
    (∃ (r : Req), ∃ (v : BitVec 16), ∃ (s : State), (Accepted s r O_HOST_QUOTA_MIB 2 v.toNat { value := v.toNat % 16 == 0 && v.toNat ≤ 256, state := s.hub.evicting.isNone }) ∧ (s.hub.quota ≤ v.toNat)) :=
  ⟨⟨⟨.internal, 0, none⟩, 127, 1, up, by decide +kernel⟩,
    ⟨⟨.internal, 0, none⟩, 767, 1, { up with rst := { up.rst with phase := .planning } }, by decide +kernel⟩,
    ⟨⟨.internal, 0, none⟩, 0, 15, up, by decide +kernel⟩,
    ⟨⟨.internal, 0, none⟩, 15, 1, { up with obj := [(O_FAULT_RECORD 15, 3)] }, by decide +kernel⟩,
    ⟨⟨.internal, 0, none⟩, 0, 3, { up with obj := [(O_FAULT_RECORD 0, 3)] }, by decide +kernel⟩,
    ⟨⟨.internal, 0, none⟩, 256, up, by decide +kernel⟩⟩

/-- What Obligations.TenantWrites assumes can be met, part 3. -/
theorem wit_TenantWrites_3 :
    (∃ (r : Req), ∃ (v : BitVec 16), ∃ (s : State), (Accepted s r O_HOST_QUOTA_MIB 2 v.toNat { value := v.toNat % 16 == 0 && v.toNat ≤ 256, state := s.hub.evicting.isNone }) ∧ (v.toNat < s.hub.quota)) ∧
    (∃ (r : Req), ∃ (g : Fin 2), ∃ (s : State), Accepted s r (O_GG_CONTROL g.val) 1 1 { state := s.fuse.sites.getLsbD g.val && (enabled s (unGuest g.val) && gateState s g.val == 0 && s.rst.lc.toNat ≤ 2) }) ∧
    (∃ (r : Req), ∃ (g : Fin 2), ∃ (s : State), Accepted s r (O_GG_CONTROL g.val) 1 2 { state := s.fuse.sites.getLsbD g.val && (gateState s g.val == 3 && (gate s g.val).walked) }) ∧
    (∃ (r : Req), ∃ (g : Fin 2), ∃ (s : State), Accepted s r (O_GG_CONTROL g.val) 1 3 { state := s.fuse.sites.getLsbD g.val }) :=
  ⟨⟨⟨.internal, 0, none⟩, 0, { up with hub := { up.hub with quota := 16 } }, by decide +kernel⟩,
    ⟨⟨.internal, 0, none⟩, 1, { up with fuse := { up.fuse with sites := 2#2 } }, by decide +kernel⟩,
    ⟨⟨.internal, 0, none⟩, 0, { up with fuse := { up.fuse with sites := 1#2 }, obj := [(O_GG_STATE 0, 3)], hub := { up.hub with gates := [(0, { walked := true })] } }, by decide +kernel⟩,
    ⟨⟨.internal, 0, none⟩, 0, { up with fuse := { up.fuse with sites := 1#2 } }, by decide +kernel⟩⟩

/-- What Obligations.LinkWrites assumes can be met, part 1. -/
theorem wit_LinkWrites_1 :
    (∃ (r : Req), ∃ (v : BitVec 8), ∃ (s : State), (Accepted s r O_ECC_CNT_CLEAR 1 v.toNat {}) ∧ (v ≠ 0xFF#8)) ∧
    (∃ (r : Req), ∃ (l : Fin 128), ∃ (s : State), Accepted s r (O_LANE_STATE_REQ l.val) 1 0 { state := laneFree s l.val && (match laneUser l.val with | .fabric d => dieOf s d == .on | _ => true) }) ∧
    (∃ (r : Req), ∃ (l : Fin 128), ∃ (s : State), Accepted s r (O_LANE_STATE_REQ l.val) 1 1 { state := laneFree s l.val }) ∧
    (∃ (r : Req), ∃ (l : Fin 128), ∃ (s : State), Accepted s r (O_LANE_STATE_REQ l.val) 1 2 { state := laneFree s l.val }) ∧
    (∃ (r : Req), ∃ (v : BitVec 8), ∃ (s : State), (Accepted s r O_PRBS_CLEAR 1 v.toNat {}) ∧ (v ≠ 0xFF#8)) ∧
    (∃ (r : Req), ∃ (l : Fin 128), ∃ (n : BitVec 8), ∃ (s : State), Accepted s r (O_ERR_INJECT l.val) 1 n.toNat { state := laneNow s l.val == 0 && (sline s l.val).inject == 0 }) :=
  ⟨⟨⟨.internal, 0, none⟩, 16, up, by decide +kernel⟩,
    ⟨⟨.internal, 0, none⟩, 127, up, by decide +kernel⟩,
    ⟨⟨.internal, 0, none⟩, 127, up, by decide +kernel⟩,
    ⟨⟨.internal, 0, none⟩, 0, up, by decide +kernel⟩,
    ⟨⟨.internal, 0, none⟩, 128, up, by decide +kernel⟩,
    ⟨⟨.internal, 0, none⟩, 64, 64, { up with obj := [(O_LANE_STATE 64, 0)] }, by decide +kernel⟩⟩

/-- What Obligations.LinkWrites assumes can be met, part 2. -/
theorem wit_LinkWrites_2 :
    (∃ (r : Req), ∃ (s : State), Accepted s r O_TWIN_FORCE_ACTIVE 1 1 { state := twinRuns s && twinState s == 1 && !(s.twin.linkOk && s.twin.partner == 4) && (oGet s O_WITNESS_EN != 1 || s.twin.gnt) }) ∧
    (∃ (r : Req), ∃ (s : State), Accepted s r O_TWIN_RELEASE 1 1 { state := twinState s == 5 }) ∧
    (∃ (r : Req), ∃ (v : BitVec 8), ∃ (s : State), Accepted s r O_CAN_APPLY 1 v.toNat {}) ∧
    (∃ (r : Req), ∃ (v : BitVec 32), ∃ (s : State), (Accepted s r O_STORE_ALL 4 v.toNat {}) ∧ (storeRefused s 0x65766173 v.toNat = false) ∧ (serviceBusy s = false)) ∧
    (∃ (r : Req), ∃ (v : BitVec 32), ∃ (s : State), (Accepted s r O_RESTORE_DEFAULTS 4 v.toNat {}) ∧ (storeRefused s 0x64616F6C v.toNat = false) ∧ (serviceBusy s = false)) :=
  ⟨⟨⟨.internal, 0, none⟩, { up with pwr := { up.pwr with straps := 0x2000 }, obj := [(O_TWIN_STATE, 1)] }, by decide +kernel⟩,
    ⟨⟨.internal, 0, none⟩, { up with obj := [(O_TWIN_STATE, 5)] }, by decide +kernel⟩,
    ⟨⟨.internal, 0, none⟩, 1, up, by decide +kernel⟩,
    ⟨⟨.internal, 0, none⟩, 0x65766173, stS, by decide +kernel, stS_fits _, by decide +kernel⟩,
    ⟨⟨.internal, 0, none⟩, 0x64616F6C, stS, by decide +kernel, stS_fits _, by decide +kernel⟩⟩

/-- What Obligations.DeviceWrites assumes can be met, part 1. -/
theorem wit_DeviceWrites_1 :
    (∃ (r : Req), ∃ (v : BitVec 64), ∃ (s : State), Accepted s r O_DTIME_SET 8 v.toNat { value := s.fw.dtime < v.toNat, state := oGet s O_CASC_STATE == 0 }) ∧
    (∃ (r : Req), ∃ (v : BitVec 256), ∃ (s : State), ∃ (i : Nat), (schedRoom s = some i) ∧ (Accepted s r O_SCHED_ADD 32 v.toNat { value := schedOk v.toNat })) ∧
    (∃ (r : Req), ∃ (pin : Fin 64), ∃ (s : State), Accepted s r (O_MIO_STATUS pin.val) 1 1 {}) ∧
    (∃ (r : Req), ∃ (i : Fin 4), ∃ (v : BitVec 8), ∃ (s : State), (Accepted s r (O_ANIN_RANGE i.val) 1 v.toNat {}) ∧ (v.toNat ≠ 0) ∧ (aninRange s i.val ≠ v.toNat)) ∧
    (∃ (r : Req), ∃ (t : BitVec 1664), ∃ (s : State), Accepted s r O_DBG_TOKEN 208 t.toNat { value := bitsAt t.toNat 16 16 == 0 && bitsAt t.toNat 840 56 == 0, life := s.rst.lc == 2#3 }) ∧
    (∃ (r : Req), ∃ (v : BitVec 8), ∃ (s : State), Accepted s r O_DBG_END 1 v.toNat {}) :=
  ⟨⟨⟨.internal, 0, none⟩, 1, up, by decide +kernel⟩,
    ⟨⟨.internal, 0, none⟩, 0x01000000000000000000000000000000, up, 0, by decide +kernel⟩,
    ⟨⟨.internal, 0, none⟩, 63, up, by decide +kernel⟩,
    ⟨⟨.internal, 0, none⟩, 3, 1, up, by decide +kernel⟩,
    ⟨⟨.goith, 0, none⟩, 0, { up with rst := { up.rst with lc := 2 } }, by decide +kernel⟩,
    ⟨⟨.internal, 0, none⟩, 1, up, by decide +kernel⟩⟩

/-- What Obligations.ObjectReads assumes can be met, part 1. -/
theorem wit_ObjectReads_1 :
    (∃ (r : Req), ∃ (s : State), Readable s r O_LC_CHALLENGE) ∧
    (∃ (r : Req), ∃ (s : State), Readable s r O_DBG_CHALLENGE) ∧
    (∃ (r : Req), ∃ (l : Fin 128), ∃ (s : State), Readable s r (O_PRBS_BITS l.val)) ∧
    (∃ (r : Req), ∃ (s : State), ∃ (q : Nat), ∃ (e : EventRec), (nextRec s.fw.ring (readerOf r) (tabGet s.fw.pos (readerOf r) 0) = some (q, e)) ∧ (Readable s r O_EVENT_READ)) ∧
    (∃ (r : Req), ∃ (s : State), (nextRec s.fw.ring (readerOf r) (tabGet s.fw.pos (readerOf r) 0) = none) ∧ (Readable s r O_EVENT_READ)) ∧
    (∃ (r : Req), ∃ (s : State), Readable s r O_EVENT_LOST) :=
  ⟨⟨⟨.internal, 0, none⟩, up, by decide +kernel⟩,
    ⟨⟨.internal, 0, none⟩, up, by decide +kernel⟩,
    ⟨⟨.internal, 0, none⟩, 127, up, by decide +kernel⟩,
    ⟨⟨.internal, 0, none⟩, { up with fw := { up.fw with ring := [(0, mkRec up 0x2401 0 4 0 0xFFFF)], seq := 1 } }, 0, mkRec up 0x2401 0 4 0 0xFFFF, by decide +kernel⟩,
    ⟨⟨.internal, 0, none⟩, up, by decide +kernel⟩,
    ⟨⟨.internal, 0, none⟩, up, by decide +kernel⟩⟩

/-- What Obligations.ResetsAndBoot assumes can be met, part 1. -/
theorem wit_ResetsAndBoot_1 :
    (∃ (s : State), s.pwr.vaux = true) ∧
    (∃ (s : State), (s.pwr.vaux = true) ∧ (s.pwr.tripped = false) ∧ (s.pwr.effReset = false) ∧ (s.rst.phase = .held) ∧ (s.rst.flushing = false) ∧ (s.rst.standby = .none)) ∧
    (∃ (s : State), ∃ (cause : Nat), s.rst.standby ≠ .none) ∧
    (∃ (service : BitVec 24), ∃ (s : State), fwRuns s = true) ∧
    (∃ (s : State), ∃ (cause : Nat), s.rst.standby = .none) ∧
    (∃ (s : State), ∃ (cause : Nat), (operating s = true) ∧ (oGet s O_WARM_RETAIN ≠ 1)) :=
  ⟨⟨up, by decide +kernel⟩,
    ⟨{ up with rst := { up.rst with phase := .held } }, by decide +kernel⟩,
    ⟨{ up with rst := { up.rst with standby := .entering } }, 0x11, by decide +kernel⟩,
    ⟨7, { up with rst := { up.rst with standby := .entering } }, by decide +kernel⟩,
    ⟨up, 0x11, by decide +kernel⟩,
    ⟨up, 0x12, by decide +kernel⟩⟩

/-- What Obligations.ResetsAndBoot assumes can be met, part 2. -/
theorem wit_ResetsAndBoot_2 :
    (∃ (s : State), ∃ (cause : Nat), (operating s = true) ∧ (oGet s O_WARM_RETAIN = 1)) ∧
    (∃ (s : State), s.rst.flushing = true) ∧
    (∃ (us : Nat), ∃ (s : State), s.rst.flushing = true) ∧
    (∃ (us : BitVec 32), ∃ (s : State), wipeRuns s = true) ∧
    (∃ (s : State), (s.pwr.tripLatch = none) ∧ (strapError s = false) ∧ (s.rst.wipeFailed = false) ∧ (s.ld.tamperStop = false) ∧ (s.clk.mode = .reduced)) ∧
    (∃ (s : State), (s.pwr.tripLatch = none) ∧ (strapError s = true)) :=
  ⟨⟨{ up with obj := [(O_WARM_RETAIN, 1)] }, 0x12, by decide +kernel⟩,
    ⟨{ up with rst := { up.rst with flushing := true } }, by decide +kernel⟩,
    ⟨5000, { up with rst := { up.rst with flushing := true } }, by decide +kernel⟩,
    ⟨1000, { up with rst := { up.rst with phase := .wiping } }, by decide +kernel⟩,
    ⟨{ up with clk := { up.clk with mode := .reduced } }, by decide +kernel⟩,
    ⟨{ up with pwr := { up.pwr with straps := 0x30 } }, by decide +kernel⟩⟩

/-- What Obligations.ResetsAndBoot assumes can be met, part 3. -/
theorem wit_ResetsAndBoot_3 :
    (∃ (done : BitVec 7), ∃ (s : State), (wipeRuns s = true) ∧ (done ≠ 0x7F#7)) ∧
    (∃ (s : State), (s.pwr.tripLatch = none) ∧ (s.rst.wipeFailed = true)) ∧
    (∃ (s : State), (s.rst.phase = .waitRoot) ∧ (clocked s = true) ∧ (s.clk.mode ≠ .reduced)) ∧
    (∃ (s : State), (s.rst.phase = .waitHot) ∧ (clocked s = true)) :=
  ⟨⟨0x3F, { up with rst := { up.rst with phase := .wiping } }, by decide +kernel⟩,
    ⟨{ up with rst := { up.rst with wipeFailed := true } }, by decide +kernel⟩,
    ⟨{ up with rst := { up.rst with phase := .waitRoot } }, by decide +kernel⟩,
    ⟨{ up with rst := { up.rst with phase := .waitHot } }, by decide +kernel⟩⟩

/-- What Obligations.DieAndStandby assumes can be met, part 1. -/
theorem wit_DieAndStandby_1 :
    (∃ (d : Fin 8), ∃ (s : State), (operating s = true) ∧ (dieOf s d.val = .entering) ∧ (s.dbg.attached = false)) ∧
    (∃ (d : Fin 8), ∃ (s : State), (operating s = true) ∧ (dieOf s d.val = .entering) ∧ (partState s (16 * d.val) = 3)) ∧
    (∃ (d : Fin 8), ∃ (s : State), (operating s = true) ∧ (dieOf s d.val = .waking)) ∧
    (∃ (s : State), (s.rst.standby = .entering) ∧ (s.rst.standbyEmul = false) ∧ (s.dbg.attached = false)) ∧
    (∃ (s : State), (s.rst.standby = .entering) ∧ (s.rst.standbyEmul = false) ∧ (s.dbg.attached = true)) ∧
    (∃ (s : State), ∃ (b : Nat), ∃ (c : BitVec 8), (s.pwr.vaux = true) ∧ (s.pwr.tripped = false) ∧ (s.rst.wakeSel.getLsbD b = true) ∧ (s.rst.standby = .asleep) ∧ (s.rst.latchedWake = 0#8)) :=
  ⟨⟨7, { up with rst := { up.rst with die := [(7, .entering)] } }, by decide +kernel⟩,
    ⟨0, { up with rst := { up.rst with die := [(0, .entering)] }, obj := [(O_PART_STATE 0, 3)] }, by decide +kernel⟩,
    ⟨7, { up with rst := { up.rst with die := [(7, .waking)] } }, by decide +kernel⟩,
    ⟨{ up with rst := { up.rst with standby := .entering } }, by decide +kernel⟩,
    ⟨{ up with rst := { up.rst with standby := .entering }, dbg := { up.dbg with attached := true } }, by decide +kernel⟩,
    ⟨{ up with rst := { up.rst with standby := .asleep, wakeSel := 1 } }, 0, 1, by decide +kernel⟩⟩

/-- What Obligations.DieAndStandby assumes can be met, part 2. -/
theorem wit_DieAndStandby_2 :
    (∃ (s : State), canRxPin s = true) ∧
    (∃ (s : State), s.rst.standby = .asleep) ∧
    (∃ (s : State), (s.rst.standby = .asleep) ∧ (s.rst.latchedWake ≠ 0#8) ∧ (s.pwr.vaux = true) ∧ (s.pwr.tripped = false)) ∧
    (∃ (rails : BitVec 28), ∃ (periods : Nat), ∃ (s : State), (s.rst.standby = .waking) ∧ (groupsIn s.pwr rails = true) ∧ (s.pwr.rails.getLsbD 7 = true) ∧ (s.pwr.porN = true)) :=
  ⟨⟨up, by decide +kernel⟩,
    ⟨{ up with rst := { up.rst with standby := .asleep } }, by decide +kernel⟩,
    ⟨{ up with rst := { up.rst with standby := .asleep, latchedWake := 2 } }, by decide +kernel⟩,
    ⟨0xFFFFFFF, 32768, { up with rst := { up.rst with standby := .waking } }, by decide +kernel⟩⟩

/-- What Obligations.LifeCycle assumes can be met, part 1. -/
theorem wit_LifeCycle_1 :
    (∃ (reads : BitVec 32), ∃ (s : State), ∃ (x : LcRun), (s.rst.lcRun = some x) ∧ (x.groups = true) ∧ ((blowGroups s.fuse.lg reads 1 x.target.toNat 4).2 = true)) ∧
    (∃ (reads : BitVec 32), ∃ (s : State), ∃ (x : LcRun), (s.rst.lcRun = some x) ∧ (x.groups = true) ∧ ((blowGroups s.fuse.lg reads 1 x.target.toNat 4).2 = false)) ∧
    (∃ (s : State), ∃ (x : LcRun), (s.rst.lcRun = some x) ∧ (x.groups = false)) ∧
    (∃ (s t : State), FuseLe s t) :=
  ⟨⟨0x00FF, { up with rst := { up.rst with lcRun := some { target := 1, groups := true } } }, { target := 1, groups := true }, by decide +kernel⟩,
    ⟨0, { up with rst := { up.rst with lcRun := some { target := 4, groups := true } } }, { target := 4, groups := true }, by decide +kernel⟩,
    ⟨{ up with rst := { up.rst with lcRun := some { target := 4, groups := false } } }, { target := 4, groups := false }, by decide +kernel⟩,
    ⟨up, up, fun i => BitVec.and_self, fun k _ => ⟨id, id, id, fun _ _ => rfl⟩⟩⟩

/-- What Obligations.StreamIntake assumes can be met, part 1. -/
theorem wit_StreamIntake_1 :
    (∃ (x0 x1 : FlashChip), ∃ (a b : Bool), ∃ (s : State), (s.rst.phase = .directory) ∧ (strapCfgSrc s = false) ∧ (clocked s = true) ∧ ((discover x0 x1).count = 0)) ∧
    (∃ (x0 x1 : FlashChip), ∃ (a b : Bool), ∃ (s : State), (s.rst.phase = .directory) ∧ (strapCfgSrc s = false) ∧ (clocked s = true) ∧ ((discover x0 x1).count ≠ 0) ∧ (chooseDir (discover x0 x1) a b = none)) ∧
    (∃ (x0 x1 : FlashChip), ∃ (a b : Bool), ∃ (s : State), ∃ (d : Nat), (s.rst.phase = .directory) ∧ (strapCfgSrc s = false) ∧ (clocked s = true) ∧ ((discover x0 x1).count ≠ 0) ∧ (chooseDir (discover x0 x1) a b = some d) ∧ (flashNat (discover x0 x1) (d + 6) 1 ≠ (discover x0 x1).count)) ∧
    (∃ (s : State), ∃ (l : Load), (s.ld.load = some l) ∧ (fromFlash l = true) ∧ (loadReads l = true)) ∧
    (∃ (head : Vector (BitVec 8) 128), ∃ (s : State), ∃ (l : Load), (s.ld.load = some l) ∧ (l.phase = .header) ∧ (l.src ≠ 0xFE#8) ∧ (sourceGives s l 0 128 = true)) ∧
    (∃ (head : Vector (BitVec 8) 128), ∃ (s : State), ∃ (l : Load), (s.ld.load = some l) ∧ (l.phase = .header) ∧ (l.src ≠ 0xFE#8) ∧ (sourceGives s l 0 128 = false)) :=
  ⟨⟨{ jedec := 0, octal := true, cap := 0x2000000, cells := [] }, { jedec := 0xFFFFFF, octal := true, cap := 0x2000000, cells := [] }, false, false, { up with rst := { up.rst with phase := .directory } }, by decide +kernel⟩,
    ⟨{ jedec := 0x20BA19, octal := true, cap := 0x2000000, cells := [] }, { jedec := 0, octal := false, cap := 0, cells := [] }, true, true, { up with rst := { up.rst with phase := .directory } }, by decide +kernel⟩,
    ⟨{ jedec := 0x20BA19, octal := true, cap := 0x2000000, cells := dirCells }, { jedec := 0x20BA19, octal := true, cap := 0x2000000, cells := [] }, false, false, { up with rst := { up.rst with phase := .directory } }, 0, by decide +kernel⟩,
    ⟨{ up with ld := { up.ld with load := some { src := 0, boot := true, follow := none, tenant := none } } }, { src := 0, boot := true, follow := none, tenant := none }, by decide +kernel⟩,
    ⟨Vector.replicate 128 0, { up with ld := { up.ld with flash := some { count := 1, cap := 0x2000000, cells := [] }, load := some { src := 0, boot := true, follow := none, tenant := none } } }, { src := 0, boot := true, follow := none, tenant := none }, by decide +kernel⟩,
    ⟨Vector.replicate 128 0, { up with ld := { up.ld with load := some { src := 0, boot := true, follow := none, tenant := none } } }, { src := 0, boot := true, follow := none, tenant := none }, by decide +kernel⟩⟩

/-- What Obligations.StreamIntake assumes can be met, part 2. -/
theorem wit_StreamIntake_2 :
    (∃ (b : List (BitVec 8)), ∃ (s : State), ∃ (l l1 : Load), let len := leAt b 4 4; let ct := (b.drop 16).take len; (s.ld.load = some l) ∧ (l.phase = .reams) ∧ (l.keySource = 0) ∧ (l.src ≠ 0x10#8) ∧ (sourceGives s l l.staged b.length = true) ∧ (leAt b 0 4 = l.next ∧ leAt b 8 8 = 0 ∧ 8 ≤ len ∧ len ≤ 16777216 ∧ len % 8 = 0 ∧ b.length = 32 + len) ∧ (BitVec.ofNat 128 (beNat (b.drop (16 + len))) = 0#128) ∧ (l.staged + b.length + (l.reams - l.next - 1) * 40 + 208 ≤ l.ownLen) ∧ (l.next + 1 ≠ l.reams) ∧ (parseRecords s (planOk s) ct l ct.length = .ok l1)) ∧
    (∃ (rec_ : Vector (BitVec 8) 208), ∃ (s : State), ∃ (l : Load), let bytes := sourceBytes s l l.staged rec_.toList; let digest := Config.shaEnd (Config.shaStep l.sha (bytes.take 112)); let why := if sourceGives s l l.staged 208 then sealReason s l bytes digest else 0x12; (s.ld.load = some l) ∧ (l.phase = .seal)) ∧
    (∃ (s : State), ∃ (l : Load), ∃ (o : Nat), ∃ (given : List (BitVec 8)), l.src ≠ 0x10#8) ∧
    (∃ (s : State), ∃ (f : FlashInfo), ∃ (d : Nat), (s.ld.flash = some f ∧ s.ld.dir = some d) ∧ (operating s = true) ∧ (s.rst.initDone = true) ∧ (loadBusy s = false) ∧ (s.ld.relay = .off) ∧ (s.ld.active.toNat ≤ 3) ∧ (s.ld.followPos < s.ld.followN)) :=
  ⟨⟨[0, 0, 0, 0, 8, 0, 0, 0, 0, 0, 0, 0, 0, 0, 0, 0, 6, 0, 0, 0, 0, 0, 0, 0, 0, 0, 0, 0, 0, 0, 0, 0, 0, 0, 0, 0, 0, 0, 0, 0], { up with ld := { up.ld with load := some { src := 0xFE, boot := true, follow := none, tenant := none, phase := .reams, kind := 2, reams := 2, ownLen := 1000, staged := 128 } } }, { src := 0xFE, boot := true, follow := none, tenant := none, phase := .reams, kind := 2, reams := 2, ownLen := 1000, staged := 128 }, { src := 0xFE, boot := true, follow := none, tenant := none, phase := .reams, kind := 2, reams := 2, ownLen := 1000, staged := 128 }, by decide +kernel⟩,
    ⟨Vector.replicate 208 0, { up with ld := { up.ld with load := some { src := 0, boot := true, follow := none, tenant := none, phase := .seal } } }, { src := 0, boot := true, follow := none, tenant := none, phase := .seal }, by decide +kernel⟩,
    ⟨up, { src := 0, boot := true, follow := none, tenant := none }, 0, [], by decide +kernel⟩,
    ⟨{ up with rst := { up.rst with initDone := true }, ld := { up.ld with flash := some { count := 1, cap := 0x2000000, cells := [] }, dir := some 0, active := 3, followN := 7, followPos := 6 } }, { count := 1, cap := 0x2000000, cells := [] }, 0, by decide +kernel⟩⟩

/-- What Obligations.LoadWriting assumes can be met, part 1. -/
theorem wit_LoadWriting_1 :
    (∃ (design : List DesignItem), ∃ (s : State), ∃ (l : Load), (s.ld.load = some l) ∧ (l.boot = true) ∧ (l.phase = .writing)) ∧
    (∃ (s : State), ∃ (l : Load), let ps := loadParts l; let s1 : State := { s with ld := { s.ld with load := some { l with phase := .writing }, state := 3#8 } }; let s2 := advanceEpochs (ps.foldl (fun a p => setPart a p 2) (drainTxs s1 ps [] rNotready)) ps []; (s.ld.load = some l) ∧ (l.boot = false) ∧ (l.phase = .checked) ∧ (check8 s l = true)) ∧
    (∃ (s : State), ∃ (l : Load), (s.ld.load = some l) ∧ (l.boot = false) ∧ (l.phase = .checked) ∧ (check8 s l = false)) ∧
    (∃ (design : List DesignItem), ∃ (s : State), ∃ (l : Load), let ps := loadParts l; let s2 := toWipe (holdCheck (ps.foldl (fun a p => setPart a p 1) (writeLoad (ps.foldl wipePart s) l design))) l; let t := (l.tenant.map Fin.val).getD 0; (s.ld.load = some l) ∧ (l.boot = false) ∧ (l.phase = .writing) ∧ (l.kind = 2)) ∧
    (∃ (s : State), ∃ (l : Load), (s.ld.load = some l) ∧ (l.phase = .wiping) ∧ (clocked s = true) ∧ (l.boot = true) ∧ (l.reason = 0)) ∧
    (∃ (s : State), ∃ (l : Load), (s.ld.load = some l) ∧ (l.phase = .wiping) ∧ (clocked s = true) ∧ (l.boot = true) ∧ (l.reason ≠ 0)) :=
  ⟨⟨[], { up with ld := { up.ld with load := some { src := 0, boot := true, follow := none, tenant := none, phase := .writing } } }, { src := 0, boot := true, follow := none, tenant := none, phase := .writing }, by decide +kernel⟩,
    ⟨{ up with ld := { up.ld with load := some { src := 0x10, boot := false, follow := none, tenant := none, phase := .checked, parts := 1 } } }, { src := 0x10, boot := false, follow := none, tenant := none, phase := .checked, parts := 1 }, by decide +kernel⟩,
    ⟨{ up with rst := { up.rst with die := [(0, .dormant)] }, ld := { up.ld with load := some { src := 0x10, boot := false, follow := none, tenant := none, phase := .checked, parts := 1 } } }, { src := 0x10, boot := false, follow := none, tenant := none, phase := .checked, parts := 1 }, by decide +kernel⟩,
    ⟨[], { up with ld := { up.ld with load := some { src := 0x10, boot := false, follow := none, tenant := some 15, phase := .writing, kind := 2 } } }, { src := 0x10, boot := false, follow := none, tenant := some 15, phase := .writing, kind := 2 }, by decide +kernel⟩,
    ⟨{ up with ld := { up.ld with load := some { src := 0, boot := true, follow := none, tenant := none, phase := .wiping } } }, { src := 0, boot := true, follow := none, tenant := none, phase := .wiping }, by decide +kernel⟩,
    ⟨{ up with ld := { up.ld with load := some { src := 0, boot := true, follow := none, tenant := none, phase := .wiping, reason := 7 } } }, { src := 0, boot := true, follow := none, tenant := none, phase := .wiping, reason := 7 }, by decide +kernel⟩⟩

/-- What Obligations.LoadWriting assumes can be met, part 2. -/
theorem wit_LoadWriting_2 :
    (∃ (s : State), ∃ (l : Load), (s.ld.load = some l) ∧ (l.phase = .wiping) ∧ (clocked s = true) ∧ (l.boot = false) ∧ (l.reason ≠ 0) ∧ (s.ld.pendingBbk = none)) ∧
    (∃ (s : State), (clocked s = true) ∧ (s.ld.relay = .waiting) ∧ (s.ld.cfgrReady = true)) ∧
    (∃ (s : State), (s.ld.relay = .running) ∧ (s.ld.cfgrReady = true)) ∧
    (∃ (s : State), (s.ld.relay = .running) ∧ (s.ld.cfgrReady = false) ∧ (s.ld.relaySent ≠ s.ld.relayLen)) ∧
    (∃ (s : State), ((s.ld.relay = .running ∨ s.ld.relay = .waiting)) ∧ (s.ld.cfgrReady = false)) ∧
    (∃ (s : State), ∃ (f : FlashInfo), s.ld.flash = some f) :=
  ⟨⟨{ up with ld := { up.ld with load := some { src := 0x10, boot := false, follow := none, tenant := none, phase := .wiping, reason := 7 } } }, { src := 0x10, boot := false, follow := none, tenant := none, phase := .wiping, reason := 7 }, by decide +kernel⟩,
    ⟨{ up with ld := { up.ld with relay := .waiting, cfgrReady := true } }, by decide +kernel⟩,
    ⟨{ up with ld := { up.ld with relay := .running, cfgrReady := true } }, by decide +kernel⟩,
    ⟨{ up with ld := { up.ld with relay := .running, relayLen := 1 } }, by decide +kernel⟩,
    ⟨{ up with ld := { up.ld with relay := .waiting } }, by decide +kernel⟩,
    ⟨{ up with ld := { up.ld with flash := some { count := 1, cap := 1, cells := [] } } }, { count := 1, cap := 1, cells := [] }, by decide +kernel⟩⟩

/-- What Obligations.LoadWriting assumes can be met, part 3. -/
theorem wit_LoadWriting_3 :
    (∃ (s : State), ∃ (j : FuJob), ∃ (f : FlashInfo), ∃ (d : Nat), let o := slotOff f d j.slot; let f2 := flashWrite (flashErase f o (slotSize f d j.slot)) o ((j.image.take 4) ++ List.replicate 4 0xFF#8 ++ j.image.drop 8); let f3 := flashWrite f2 (o + 4) [0, 0, 0, 0]; (s.ld.fu = some j ∧ s.ld.flash = some f ∧ s.ld.dir = some d) ∧ (flashBytes f2 o j.image.length = j.image) ∧ (flashNat f3 (o + 4) 4 = 0)) ∧
    (∃ (pin : Bool), ∃ (s : State), (s.rst.phase = .applied) ∧ (clocked s = true) ∧ (trainingOver s = true) ∧ (requiredMissing s = false) ∧ ((oGet s O_INIT_WAIT_PIN = 0 ∨ pin = true))) ∧
    (∃ (s : State), (s.rst.phase = .applied) ∧ (clocked s = true) ∧ (trainingOver s = true) ∧ (requiredMissing s = false) ∧ (oGet s O_INIT_WAIT_PIN = 1)) ∧
    (∃ (pin : Bool), ∃ (s : State), (s.rst.phase = .applied) ∧ (clocked s = true) ∧ (trainingOver s = true) ∧ (requiredMissing s = true)) ∧
    (∃ (s : State), (s.rst.phase = .waitPin) ∧ (clocked s = true)) :=
  ⟨⟨{ up with ld := { up.ld with fu := some { slot := 0, seq := 1, image := [1, 2, 3, 4, 0xFF, 0xFF, 0xFF, 0xFF, 5] }, flash := some fuF, dir := some 0 } }, { slot := 0, seq := 1, image := [1, 2, 3, 4, 0xFF, 0xFF, 0xFF, 0xFF, 5] }, fuF, 0, by decide +kernel⟩,
    ⟨false, { up with rst := { up.rst with phase := .applied }, clk := { up.clk with clkEn := 0x3FFFFE0001#38 } }, by decide +kernel⟩,
    ⟨{ up with rst := { up.rst with phase := .applied }, clk := { up.clk with clkEn := 0x3FFFFE0001#38 }, obj := [(O_INIT_WAIT_PIN, 1)] }, by decide +kernel⟩,
    ⟨false, { up with rst := { up.rst with phase := .applied }, clk := { up.clk with clkEn := 0x3FFFFE0001#38 }, obj := [(O_DDR_REQUIRED, 1)] }, by decide +kernel⟩,
    ⟨{ up with rst := { up.rst with phase := .waitPin } }, by decide +kernel⟩⟩

/-- What Obligations.FabricHappenings assumes can be met, part 1. -/
theorem wit_FabricHappenings_1 :
    (∃ (g : Fin 8), ∃ (t : RTree), ∃ (s : State), tabFind s.fab.trees g.val = some t) ∧
    (∃ (g : Fin 8), ∃ (level : Bool), ∃ (src : Fin 128), ∃ (x : Sig), ∃ (t : RTree), ∃ (s : State), (tabFind s.fab.trees g.val = some t) ∧ (t.src = some (.logic src x))) ∧
    (∃ (g : Fin 8), ∃ (level : Bool), ∃ (pin : Fin 832), ∃ (t : RTree), ∃ (s : State), (tabFind s.fab.trees g.val = some t) ∧ (t.src = some (.pin pin))) ∧
    (∃ (g : Fin 8), ∃ (level : Bool), ∃ (t : RTree), ∃ (s : State), (tabFind s.fab.trees g.val = some t) ∧ (t.src = none)) ∧
    (∃ (g : Fin 8), ∃ (src p : Nat), ∃ (s : State), (treeFrom s g.val = some src) ∧ (s.rst.treesHeld = false) ∧ (s.fab.pulse.getLsbD g.val = false ∧ s.fab.relHold.getLsbD g.val = false)) ∧
    (∃ (g p : Nat), ∃ (s : State), s.fab.heldBack.getLsbD p = false) :=
  ⟨⟨3, { home := 0, src := none, release := 0 }, { up with fab := { up.fab with trees := [(3, { home := 0, src := none, release := 0 })], pulse := 8 } }, by decide +kernel⟩,
    ⟨3, true, 5, .one, { home := 5, src := some (.logic 5 .one), release := 0 }, { up with fab := { up.fab with trees := [(3, { home := 5, src := some (.logic 5 .one), release := 0 })] }, obj := [(O_PART_STATE 5, 1)] }, by decide +kernel⟩,
    ⟨3, true, 60, { home := 5, src := some (.pin 60), release := 0 }, { up with fab := { up.fab with trees := [(3, { home := 5, src := some (.pin 60), release := 0 })] } }, by decide +kernel⟩,
    ⟨3, true, { home := 5, src := none, release := 0 }, { up with fab := { up.fab with trees := [(3, { home := 5, src := none, release := 0 })] } }, by decide +kernel⟩,
    ⟨3, 5, 5, { up with fab := { up.fab with trees := [(3, { home := 5, src := some (.logic 5 .one), release := 0 })] } }, by decide +kernel⟩,
    ⟨3, 5, up, by decide +kernel⟩⟩

/-- What Obligations.FabricHappenings assumes can be met, part 2. -/
theorem wit_FabricHappenings_2 :
    (∃ (frame : BitVec 19), ∃ (word : Fin 512), ∃ (bad : BitVec 64), ∃ (s : State), let p := frameX frame.toNat; (operating s = true) ∧ (oGet s O_SCRUB_EN = 1) ∧ (pathTaken s (frame.toNat / 65536) = false) ∧ (frameValid frame.toNat = true ∧ frame.toNat.testBit 11 = false) ∧ (partRuns s p = true) ∧ (popUpTo 64 bad.toNat ≤ 2)) ∧
    (∃ (samples : List (BitVec 64)), ∃ (s : State), (capRuns s = true) ∧ (oGet s O_CAP_STATE = 1)) ∧
    (∃ (samples : List (BitVec 64)), ∃ (s : State), (capRuns s = true) ∧ (oGet s O_CAP_STATE = 2)) ∧
    (∃ (s : State), (oGet s O_CAP_STATE = 2) ∧ (4095 ≤ s.fab.capAfter + oGet s O_TRIG_POS)) ∧
    (∃ (k : Nat), ∃ (y : Cell), ∃ (s : State), tabFind s.fab.logic.cells k = some y) ∧
    (∃ (k : Nat), ∃ (e : Bool), ∃ (y : Seam), ∃ (s : State), dieOf s (seamFrom k / 16) = .dormant) :=
  ⟨⟨5, 3, 2, { up with obj := tabPut (tabPut [] O_SCRUB_EN 1) (O_PART_STATE 0) 1 }, by decide +kernel⟩,
    ⟨[0], { upX (.toggle false false false false false 0) with obj := tabPut (tabPut [] O_CAP_STATE 1) O_TRIG_POS 0 }, by decide +kernel⟩,
    ⟨[5, 6], { upX (.toggle false false false false false 0) with obj := tabPut [(O_CAP_STATE, 2)] O_TRIG_POS 4093 }, by decide +kernel⟩,
    ⟨{ up with obj := tabPut [(O_CAP_STATE, 2)] O_TRIG_POS 4095 }, by decide +kernel⟩,
    ⟨0, upCell.2, upCell.1, by decide +kernel⟩,
    ⟨0, true, { src := .one, q := true }, { up with rst := { up.rst with die := [(0, .dormant)] } }, by decide +kernel⟩⟩

/-- What Obligations.FabricHappenings assumes can be met, part 3. -/
theorem wit_FabricHappenings_3 :
    (∃ (n q : Nat), ∃ (k : Nat), ∃ (y : BPort), ∃ (s : State), (tabFind s.fab.logic.ports k = some y) ∧ (passes s y.frm y.dest = false)) ∧
    (∃ (pin : Nat), ∃ (s : State), bankOn s pin = false) :=
  ⟨⟨0, 1, 0, { frm := 0, dest := 1, src := .one }, { up with fab := { up.fab with logic := { up.fab.logic with ports := [(0, { frm := 0, dest := 1, src := .one })] } } }, by decide +kernel⟩,
    ⟨5, { up with pwr := { up.pwr with vccioHiZ := 1 } }, by decide +kernel⟩⟩

/-- What Obligations.RamAccesses assumes can be met, part 1. -/
theorem wit_RamAccesses_1 :
    (∃ (r : RamId), ∃ (p : Port), ∃ (addr reach : BitVec 15), ∃ (upset : BitVec 72), ∃ (s : State), let m := ramOf s r; let a := addr.toNat % ramDepth r; let i := reach.toNat % ramDepth r; let x : RamWord := { ramWord m i with err := (ramWord m i).err ^^^ upset }; let k := ramJudge r x a i s.freeCtr; (portUsable s r p = true) ∧ ((portOf m p).reads = true) ∧ (m.ecc = true)) ∧
    (∃ (r : RamId), ∃ (x : RamWord), ∃ (a f : Nat), (x.adr = 0#12) ∧ (popUpTo 72 x.err.toNat ≤ 2)) ∧
    (∃ (r : RamId), ∃ (p : Port), ∃ (addr reach : BitVec 15), ∃ (upset : BitVec 72), ∃ (s : State), let m := ramOf s r; let w := (portOf m p).width; let i := reach.toNat / portRatio w % ramDepth r; let x : RamWord := { ramWord m i with err := (ramWord m i).err ^^^ upset }; (portUsable s r p = true) ∧ ((portOf m p).reads = true) ∧ (m.ecc = false)) ∧
    (∃ (r : RamId), ∃ (p : Port), ∃ (addr reach : BitVec 15), ∃ (w : BitVec 72), ∃ (inj1 inj2 lost reads : Bool), ∃ (s : State), let m := ramOf s r; let a := addr.toNat % ramDepth r; let i := reach.toNat % ramDepth r; let v := w &&& 0xFFFFFFFFFFFFFFFF#72; let e : BitVec 72 := if inj2 then 0x30000000000000000#72 else if inj1 then 0x10000000000000000#72 else 0#72; (portUsable s r p = true) ∧ ((portOf m p).writes = true) ∧ ((lost && p == .b) = false) ∧ (m.ecc = true) ∧ ((portOf m p).rdw ≠ .readFirst)) ∧
    (∃ (r : RamId), ∃ (p : Port), ∃ (addr reach : BitVec 15), ∃ (w : BitVec 72), ∃ (en : BitVec 8), ∃ (inj1 inj2 lost reads : Bool), ∃ (s : State), let m := ramOf s r; let wd := (portOf m p).width; let i := portWord false wd reach.toNat % ramDepth r; let sh := portShift wd reach.toNat; let old := (ramWord m i).val ^^^ (ramWord m i).err; let mask := enMask false wd en.toNat * 2 ^ sh; let v := BitVec.ofNat 72 ((old.toNat &&& (2 ^ 72 - 1 - mask)) ||| ((w.toNat * 2 ^ sh) &&& mask)); (portUsable s r p = true) ∧ ((portOf m p).writes = true) ∧ ((lost && p == .b) = false) ∧ (m.ecc = false)) ∧
    (∃ (r : RamId), ∃ (p : Port), ∃ (addr reach : BitVec 15), ∃ (w : BitVec 64), ∃ (en : BitVec 8), ∃ (inj1 inj2 : Bool), ∃ (upset : BitVec 72), ∃ (reads : Bool), ∃ (s : State), (portUsable s r p = true) ∧ ((portOf (ramOf s r) p).writes = true)) :=
  ⟨⟨{ die := 0, deep := false, num := 3 }, .a, 7, 7, 1, upR, by decide +kernel⟩,
    ⟨{ die := 0, deep := false, num := 3 }, { err := 1 }, 7, 0, by decide +kernel⟩,
    ⟨{ die := 0, deep := false, num := 4 }, .b, 7, 7, 1, upR, by decide +kernel⟩,
    ⟨{ die := 0, deep := false, num := 3 }, .b, 7, 7, 5, true, false, false, true, upR, by decide +kernel⟩,
    ⟨{ die := 0, deep := false, num := 4 }, .a, 7, 7, 5, 3, false, false, true, true, upR, by decide +kernel⟩,
    ⟨{ die := 0, deep := false, num := 3 }, .a, 7, 7, 5, 3, false, false, 0, true, upR, by decide +kernel⟩⟩

/-- What Obligations.RamAccesses assumes can be met, part 2. -/
theorem wit_RamAccesses_2 :
    (∃ (r : RamId), ∃ (upset : BitVec 72), ∃ (s : State), let m := ramOf s r; let i := m.pos % ramDepth r; let x : RamWord := { ramWord m i with err := (ramWord m i).err ^^^ upset }; let n := popUpTo 72 x.err.toNat; let s1 (b : Option (Nat × BitVec 72)) : State := freeStep (setRam s r { m with words := tabSet m.words i x {}, pos := (i + 1) % ramDepth r, back := b }); (portUsable s r .b = true) ∧ (m.ecc = true ∧ m.scrub = true) ∧ (x.adr = 0#12 ∧ n ≤ 2)) ∧
    (∃ (r : RamId), ∃ (i : Nat), ∃ (v : BitVec 72), ∃ (s : State), (portUsable s r .b = true) ∧ ((ramOf s r).back = some (i, v))) :=
  ⟨⟨{ die := 0, deep := false, num := 3 }, 1, upR, by decide +kernel⟩,
    ⟨{ die := 0, deep := false, num := 3 }, 9, 4, upR, by decide +kernel⟩⟩

/-- What Obligations.QueueBlocks assumes can be met, part 1. -/
theorem wit_QueueBlocks_1 :
    (∃ (b : Fin 1024), ∃ (data : BitVec 128), ∃ (last : Bool), ∃ (bytes : BitVec 4), ∃ (inj1 inj2 : Bool), ∃ (adr : BitVec 10), ∃ (s : State), let q := qbNow s b.val; let w : QbWord := { data := data, last := last, bytes := bytes, err := qbInj inj1 inj2, adr := adr, ends := if last then 7#3 else 0#3 }; let e := q.packet && last; qbFabricIn s b.val = true) ∧
    (∃ (b : Fin 1024), ∃ (w : QbWord), ∃ (r : List QbWord), ∃ (ends : BitVec 3), ∃ (s : State), let q := qbNow s b.val; let e := qbEnd (w.ends ^^^ ends); (qbFabricOut s b.val = true) ∧ (q.flush = 0 ∧ q.dropping = false ∧ q.newWords = 0) ∧ (q.words = w :: r) ∧ (w.err = 0 ∧ w.adr = 0)) ∧
    (∃ (b : Fin 1024), ∃ (upset : BitVec 142), ∃ (ends : BitVec 3), ∃ (adr : BitVec 10), ∃ (s : State), ((qbNow s b.val).dropping = true ∨ qbRcount (qbNow s b.val) = 0)) ∧
    (∃ (b : Fin 1024), ∃ (s : State), let q := qbNow s b.val; (qbFabricOut s b.val = true) ∧ (q.flushOk = true ∧ q.flush = 0)) ∧
    (∃ (b : Fin 1024), ∃ (s : State), let q := qbNow s b.val; (qbUsable s b.val = true) ∧ (qbWclk s b.val = true) ∧ (q.flush = 1)) ∧
    (∃ (b : Fin 1024), ∃ (s : State), let q := qbNow s b.val; (qbFabricOut s b.val = true) ∧ (qbWclk s b.val = true) ∧ (q.flush = 2)) :=
  ⟨⟨0, 5, true, 15, false, false, 0, upQ, by decide +kernel⟩,
    ⟨0, { data := 5, last := true, bytes := 15, ends := 7 }, [], 1, upQ, by decide +kernel⟩,
    ⟨0, 0, 0, 0, up, by decide +kernel⟩,
    ⟨0, { upQ with mem := { upQ.mem with qbs := [(0, { flushOk := true })] } }, by decide +kernel⟩,
    ⟨0, { upQ with mem := { upQ.mem with qbs := [(0, { flush := 1 })] } }, by decide +kernel⟩,
    ⟨0, { upQ with mem := { upQ.mem with qbs := [(0, { flush := 2 })] } }, by decide +kernel⟩⟩

/-- What Obligations.QueueBlocks assumes can be met, part 2. -/
theorem wit_QueueBlocks_2 :
    (∃ (b : Fin 1024), ∃ (s : State), let q := qbNow s b.val; (qbFabricOut s b.val = true) ∧ (q.dropOk = true ∧ q.packet = true ∧ q.inside = true ∧ q.flush = 0 ∧ q.dropping = false)) :=
  ⟨0, { upQ with mem := { upQ.mem with qbs := [(0, { dropOk := true, packet := true, inside := true })] } }, by decide +kernel⟩

/-- What Obligations.ValuResults assumes can be met, part 1. -/
theorem wit_ValuResults_1 :
    (∃ (e : Fin 768), ∃ (d a b : BitVec 5), ∃ (wc : BitVec 2), ∃ (f : Bool), ∃ (rest : BitVec 64), ∃ (s : State), let w := withM rest 1 (fmtV (4 * 1 + wc.toNat) d.toNat a.toNat b.toNat f.toNat); let g := engOf s e; let c := (actBank g).cstat; let n := laneBits wc.toNat; let x (i : Nat) : Int := slane (rdV g a.toNat) n i; let y (i : Nat) : Int := if f then slane (rdS g b.toNat) n 0 else slane (rdV g b.toNat) n i; let r (i : Nat) : Int := x i + y i; Issues s e w) ∧
    (∃ (e : Fin 768), ∃ (d a b : BitVec 5), ∃ (wc : BitVec 2), ∃ (f : Bool), ∃ (rest : BitVec 64), ∃ (s : State), let w := withM rest 1 (fmtV (4 * 2 + wc.toNat) d.toNat a.toNat b.toNat f.toNat); let g := engOf s e; let c := (actBank g).cstat; let n := laneBits wc.toNat; let x (i : Nat) : Int := slane (rdV g a.toNat) n i; let y (i : Nat) : Int := if f then slane (rdS g b.toNat) n 0 else slane (rdV g b.toNat) n i; let r (i : Nat) : Int := x i - y i; Issues s e w) ∧
    (∃ (e : Fin 768), ∃ (d a b : BitVec 5), ∃ (wc : BitVec 2), ∃ (f : Bool), ∃ (rest : BitVec 64), ∃ (s : State), let w := withM rest 1 (fmtV (4 * 3 + wc.toNat) d.toNat a.toNat b.toNat f.toNat); let g := engOf s e; let c := (actBank g).cstat; let n := laneBits wc.toNat; let x (i : Nat) : Int := slane (rdV g a.toNat) n i; let y (i : Nat) : Int := if f then slane (rdS g b.toNat) n 0 else slane (rdV g b.toNat) n i; let r (i : Nat) : Int := rndShift (csRnd c) (x i + y i) 1; Issues s e w) ∧
    (∃ (e : Fin 768), ∃ (d a b : BitVec 5), ∃ (wc : BitVec 2), ∃ (f : Bool), ∃ (rest : BitVec 64), ∃ (s : State), let w := withM rest 1 (fmtV (4 * 4 + wc.toNat) d.toNat a.toNat b.toNat f.toNat); let g := engOf s e; let c := (actBank g).cstat; let n := laneBits wc.toNat; let x (i : Nat) : Int := slane (rdV g a.toNat) n i; let y (i : Nat) : Int := if f then slane (rdS g b.toNat) n 0 else slane (rdV g b.toNat) n i; let r (i : Nat) : Int := rndShift (csRnd c) (x i - y i) 1; Issues s e w) ∧
    (∃ (e : Fin 768), ∃ (d a b : BitVec 5), ∃ (wc : BitVec 2), ∃ (f : Bool), ∃ (rest : BitVec 64), ∃ (s : State), let w := withM rest 1 (fmtV (4 * 5 + wc.toNat) d.toNat a.toNat b.toNat f.toNat); let g := engOf s e; let c := (actBank g).cstat; let n := laneBits wc.toNat; let x (i : Nat) : Int := slane (rdV g a.toNat) n i; let y (i : Nat) : Int := if f then slane (rdS g b.toNat) n 0 else slane (rdV g b.toNat) n i; let r (i : Nat) : Int := min (x i) (y i); Issues s e w) ∧
    (∃ (e : Fin 768), ∃ (d a b : BitVec 5), ∃ (wc : BitVec 2), ∃ (f : Bool), ∃ (rest : BitVec 64), ∃ (s : State), let w := withM rest 1 (fmtV (4 * 6 + wc.toNat) d.toNat a.toNat b.toNat f.toNat); let g := engOf s e; let c := (actBank g).cstat; let n := laneBits wc.toNat; let x (i : Nat) : Int := slane (rdV g a.toNat) n i; let y (i : Nat) : Int := if f then slane (rdS g b.toNat) n 0 else slane (rdV g b.toNat) n i; let r (i : Nat) : Int := max (x i) (y i); Issues s e w) :=
  ⟨⟨0, 2, 1, 1, 1, false, 0, upE, by decide +kernel⟩,
    ⟨0, 2, 1, 1, 1, false, 0, upE, by decide +kernel⟩,
    ⟨0, 2, 1, 1, 1, false, 0, upE, by decide +kernel⟩,
    ⟨0, 2, 1, 1, 1, false, 0, upE, by decide +kernel⟩,
    ⟨0, 2, 1, 1, 1, false, 0, upE, by decide +kernel⟩,
    ⟨0, 2, 1, 1, 1, false, 0, upE, by decide +kernel⟩⟩

/-- What Obligations.ValuResults assumes can be met, part 2. -/
theorem wit_ValuResults_2 :
    (∃ (e : Fin 768), ∃ (d a : BitVec 5), ∃ (wc : BitVec 2), ∃ (rest : BitVec 64), ∃ (s : State), let w := withM rest 1 (fmtV (4 * 7 + wc.toNat) d.toNat a.toNat 0 0); let g := engOf s e; let c := (actBank g).cstat; let n := laneBits wc.toNat; let x (i : Nat) : Int := slane (rdV g a.toNat) n i; let r (i : Nat) : Int := if x i < 0 then -x i else x i; Issues s e w) ∧
    (∃ (e : Fin 768), ∃ (d a : BitVec 5), ∃ (wc : BitVec 2), ∃ (rest : BitVec 64), ∃ (s : State), let w := withM rest 1 (fmtV (4 * 8 + wc.toNat) d.toNat a.toNat 0 0); let g := engOf s e; let c := (actBank g).cstat; let n := laneBits wc.toNat; let x (i : Nat) : Int := slane (rdV g a.toNat) n i; let r (i : Nat) : Int := -x i; Issues s e w) ∧
    (∃ (e : Fin 768), ∃ (d a b : BitVec 5), ∃ (f : Bool), ∃ (rest : BitVec 64), ∃ (s : State), let w := withM rest 1 (fmtV (4 * 9) d.toNat a.toNat b.toNat f.toNat); let g := engOf s e; let c := (actBank g).cstat; let n := laneBits 0; let x (i : Nat) : Nat := lane (rdV g a.toNat) n i; let y (i : Nat) : Nat := if f then lane (rdS g b.toNat) n 0 else lane (rdV g b.toNat) n i; let r (i : Nat) : Nat := x i &&& y i; Issues s e w) ∧
    (∃ (e : Fin 768), ∃ (d a b : BitVec 5), ∃ (f : Bool), ∃ (rest : BitVec 64), ∃ (s : State), let w := withM rest 1 (fmtV (4 * 10) d.toNat a.toNat b.toNat f.toNat); let g := engOf s e; let c := (actBank g).cstat; let n := laneBits 0; let x (i : Nat) : Nat := lane (rdV g a.toNat) n i; let y (i : Nat) : Nat := if f then lane (rdS g b.toNat) n 0 else lane (rdV g b.toNat) n i; let r (i : Nat) : Nat := x i ||| y i; Issues s e w) ∧
    (∃ (e : Fin 768), ∃ (d a b : BitVec 5), ∃ (f : Bool), ∃ (rest : BitVec 64), ∃ (s : State), let w := withM rest 1 (fmtV (4 * 11) d.toNat a.toNat b.toNat f.toNat); let g := engOf s e; let c := (actBank g).cstat; let n := laneBits 0; let x (i : Nat) : Nat := lane (rdV g a.toNat) n i; let y (i : Nat) : Nat := if f then lane (rdS g b.toNat) n 0 else lane (rdV g b.toNat) n i; let r (i : Nat) : Nat := x i ^^^ y i; Issues s e w) ∧
    (∃ (e : Fin 768), ∃ (d a sh : BitVec 5), ∃ (wc : BitVec 2), ∃ (rest : BitVec 64), ∃ (s : State), let w := withM rest 1 (fmtV (4 * 12 + wc.toNat) d.toNat a.toNat sh.toNat 0); let g := engOf s e; let c := (actBank g).cstat; let n := laneBits wc.toNat; let x (i : Nat) : Int := slane (rdV g a.toNat) n i; let r (i : Nat) : Int := rndShift (csRnd c) (x i) sh.toNat; Issues s e w) :=
  ⟨⟨0, 2, 1, 1, 0, upE, by decide +kernel⟩,
    ⟨0, 2, 1, 1, 0, upE, by decide +kernel⟩,
    ⟨0, 2, 1, 1, false, 0, upE, by decide +kernel⟩,
    ⟨0, 2, 1, 1, false, 0, upE, by decide +kernel⟩,
    ⟨0, 2, 1, 1, false, 0, upE, by decide +kernel⟩,
    ⟨0, 2, 1, 1, 1, 0, upE, by decide +kernel⟩⟩

/-- What Obligations.ValuResults assumes can be met, part 3. -/
theorem wit_ValuResults_3 :
    (∃ (e : Fin 768), ∃ (d a sh : BitVec 5), ∃ (wc : BitVec 2), ∃ (rest : BitVec 64), ∃ (s : State), let w := withM rest 1 (fmtV (4 * 13 + wc.toNat) d.toNat a.toNat sh.toNat 0); let g := engOf s e; let c := (actBank g).cstat; let n := laneBits wc.toNat; let r (i : Nat) : Nat := lane (rdV g a.toNat) n i / 2 ^ sh.toNat; Issues s e w) ∧
    (∃ (e : Fin 768), ∃ (d a sh : BitVec 5), ∃ (wc : BitVec 2), ∃ (rest : BitVec 64), ∃ (s : State), let w := withM rest 1 (fmtV (4 * 14 + wc.toNat) d.toNat a.toNat sh.toNat 0); let g := engOf s e; let c := (actBank g).cstat; let n := laneBits wc.toNat; let x (i : Nat) : Int := slane (rdV g a.toNat) n i; let r (i : Nat) : Int := x i * 2 ^ sh.toNat; Issues s e w) ∧
    (∃ (e : Fin 768), ∃ (d a b : BitVec 5), ∃ (wc : BitVec 2), ∃ (f : Bool), ∃ (rest : BitVec 64), ∃ (s : State), let w := withM rest 1 (fmtV (4 * 15 + wc.toNat) d.toNat a.toNat b.toNat f.toNat); let g := engOf s e; let c := (actBank g).cstat; let n := laneBits wc.toNat; let x (i : Nat) : Int := slane (rdV g a.toNat) n i; let y (i : Nat) : Int := if f then slane (rdS g b.toNat) n 0 else slane (rdV g b.toNat) n i; let r (i : Nat) : Int := if y i < x i then -1 else 0; Issues s e w) ∧
    (∃ (e : Fin 768), ∃ (d a b : BitVec 5), ∃ (wc : BitVec 2), ∃ (f : Bool), ∃ (rest : BitVec 64), ∃ (s : State), let w := withM rest 1 (fmtV (4 * 16 + wc.toNat) d.toNat a.toNat b.toNat f.toNat); let g := engOf s e; let c := (actBank g).cstat; let n := laneBits wc.toNat; let x (i : Nat) : Int := slane (rdV g a.toNat) n i; let y (i : Nat) : Int := if f then slane (rdS g b.toNat) n 0 else slane (rdV g b.toNat) n i; let r (i : Nat) : Int := if x i = y i then -1 else 0; Issues s e w) ∧
    (∃ (e : Fin 768), ∃ (d a b : BitVec 5), ∃ (rest : BitVec 64), ∃ (s : State), let w := withM rest 1 (fmtV (4 * 17) d.toNat a.toNat b.toNat 0); let g := engOf s e; let c := (actBank g).cstat; let n := laneBits 0; let x (i : Nat) : Nat := lane (rdV g a.toNat) n i; let y (i : Nat) : Nat := lane (rdV g b.toNat) n i; let z (i : Nat) : Nat := lane (rdV g d.toNat) n i; let r (i : Nat) : Nat := (z i &&& x i) ||| ((255 - z i) &&& y i); Issues s e w) :=
  ⟨⟨0, 2, 1, 1, 1, 0, upE, by decide +kernel⟩,
    ⟨0, 2, 1, 1, 1, 0, upE, by decide +kernel⟩,
    ⟨0, 2, 1, 1, 1, false, 0, upE, by decide +kernel⟩,
    ⟨0, 2, 1, 1, 1, false, 0, upE, by decide +kernel⟩,
    ⟨0, 2, 1, 1, 0, upE, by decide +kernel⟩⟩

/-- What Obligations.MacResults assumes can be met, part 1. -/
theorem wit_MacResults_1 :
    (∃ (e : Fin 768), ∃ (d a b : BitVec 5), ∃ (z : Bool), ∃ (rest : BitVec 64), ∃ (s : State), let w := withM rest 0 (fmtV 1 d.toNat a.toNat b.toNat z.toNat); let g := engOf s e; let c := (actBank g).cstat; let u := rdV g a.toNat; let base (i : Nat) : Int := if z then 0 else slane (accChain g d.toNat) 48 i; let v := rdV g b.toNat; let r (i : Nat) : Int := base i + slane u 16 i * slane v 16 i; Issues s e w) ∧
    (∃ (e : Fin 768), ∃ (d a b : BitVec 5), ∃ (z : Bool), ∃ (rest : BitVec 64), ∃ (s : State), let w := withM rest 0 (fmtV 2 d.toNat a.toNat b.toNat z.toNat); let g := engOf s e; let c := (actBank g).cstat; let u := rdV g a.toNat; let base (i : Nat) : Int := if z then 0 else slane (accChain g d.toNat) 48 i; let v := rdV g b.toNat; let r (i : Nat) : Int := base i + -(slane u 16 i * slane v 16 i); Issues s e w) ∧
    (∃ (e : Fin 768), ∃ (d a b : BitVec 5), ∃ (z : Bool), ∃ (rest : BitVec 64), ∃ (s : State), let w := withM rest 0 (fmtV 3 d.toNat a.toNat b.toNat z.toNat); let g := engOf s e; let c := (actBank g).cstat; let u := rdV g a.toNat; let base (i : Nat) : Int := if z then 0 else slane (accChain g d.toNat) 48 i; let v := rdV g b.toNat; let r (i : Nat) : Int := base i + (slane u 8 (2 * i) * slane v 8 (2 * i) + slane u 8 (2 * i + 1) * slane v 8 (2 * i + 1)); Issues s e w) ∧
    (∃ (e : Fin 768), ∃ (d a b : BitVec 5), ∃ (z : Bool), ∃ (rest : BitVec 64), ∃ (s : State), let w := withM rest 0 (fmtV 4 d.toNat a.toNat b.toNat z.toNat); let g := engOf s e; let c := (actBank g).cstat; let u := rdV g a.toNat; let base (i : Nat) : Int := if z then 0 else slane (accChain g d.toNat) 48 i; let v := rdV g b.toNat; let r (i : Nat) : Int := base i + -(slane u 8 (2 * i) * slane v 8 (2 * i) + slane u 8 (2 * i + 1) * slane v 8 (2 * i + 1)); Issues s e w) ∧
    (∃ (e : Fin 768), ∃ (d a b : BitVec 5), ∃ (z : Bool), ∃ (rest : BitVec 64), ∃ (s : State), let w := withM rest 0 (fmtV 5 d.toNat a.toNat b.toNat z.toNat); let g := engOf s e; let c := (actBank g).cstat; let u := rdV g a.toNat; let base (i : Nat) : Int := if z then 0 else slane (accChain g d.toNat) 48 i; let v := rdV g b.toNat; let r (i : Nat) : Int := base i + (if i % 2 = 0 then slane u 16 (i / 2 * 2) * slane v 16 (i / 2 * 2) - slane u 16 ((i / 2 * 2) + 1) * slane v 16 ((i / 2 * 2) + 1) else slane u 16 (i / 2 * 2) * slane v 16 ((i / 2 * 2) + 1) + slane u 16 ((i / 2 * 2) + 1) * slane v 16 (i / 2 * 2)); Issues s e w) ∧
    (∃ (e : Fin 768), ∃ (d a b : BitVec 5), ∃ (z : Bool), ∃ (rest : BitVec 64), ∃ (s : State), let w := withM rest 0 (fmtV 6 d.toNat a.toNat b.toNat z.toNat); let g := engOf s e; let c := (actBank g).cstat; let u := rdV g a.toNat; let base (i : Nat) : Int := if z then 0 else slane (accChain g d.toNat) 48 i; let v := rdV g b.toNat; let r (i : Nat) : Int := base i + (if i % 2 = 0 then slane u 16 (i / 2 * 2) * slane v 16 (i / 2 * 2) - slane u 16 ((i / 2 * 2) + 1) * slane v 16 ((i / 2 * 2) + 1) else slane u 16 (i / 2 * 2) * slane v 16 ((i / 2 * 2) + 1) + slane u 16 ((i / 2 * 2) + 1) * slane v 16 (i / 2 * 2)); Issues s e w) :=
  ⟨⟨0, 2, 1, 1, false, 0, upE, by decide +kernel⟩,
    ⟨0, 2, 1, 1, false, 0, upE, by decide +kernel⟩,
    ⟨0, 2, 1, 1, false, 0, upE, by decide +kernel⟩,
    ⟨0, 2, 1, 1, false, 0, upE, by decide +kernel⟩,
    ⟨0, 2, 1, 1, false, 0, upE, by decide +kernel⟩,
    ⟨0, 2, 1, 1, false, 0, upE, by decide +kernel⟩⟩

/-- What Obligations.MacResults assumes can be met, part 2. -/
theorem wit_MacResults_2 :
    (∃ (e : Fin 768), ∃ (d a b : BitVec 5), ∃ (z : Bool), ∃ (rest : BitVec 64), ∃ (s : State), let w := withM rest 0 (fmtV 7 d.toNat a.toNat b.toNat z.toNat); let g := engOf s e; let c := (actBank g).cstat; let u := rdV g a.toNat; let base (i : Nat) : Int := if z then 0 else slane (accChain g d.toNat) 48 i; let v := rdV g b.toNat; let r (i : Nat) : Int := base i + (if i % 2 = 0 then slane u 16 (i / 2 * 2) * slane v 16 (i / 2 * 2) + slane u 16 ((i / 2 * 2) + 1) * slane v 16 ((i / 2 * 2) + 1) else slane u 16 ((i / 2 * 2) + 1) * slane v 16 (i / 2 * 2) - slane u 16 (i / 2 * 2) * slane v 16 ((i / 2 * 2) + 1)); Issues s e w) ∧
    (∃ (e : Fin 768), ∃ (d a b : BitVec 5), ∃ (z : Bool), ∃ (rest : BitVec 64), ∃ (s : State), let w := withM rest 0 (fmtV 8 d.toNat a.toNat b.toNat z.toNat); let g := engOf s e; let c := (actBank g).cstat; let u := rdV g a.toNat; let base (i : Nat) : Int := if z then 0 else slane (accChain g d.toNat) 48 i; let v := rdV g b.toNat; let r (i : Nat) : Int := base i + (if i % 2 = 0 then slane u 16 (i / 2 * 2) * slane v 16 (i / 2 * 2) + slane u 16 ((i / 2 * 2) + 1) * slane v 16 ((i / 2 * 2) + 1) else slane u 16 ((i / 2 * 2) + 1) * slane v 16 (i / 2 * 2) - slane u 16 (i / 2 * 2) * slane v 16 ((i / 2 * 2) + 1)); Issues s e w) ∧
    (∃ (e : Fin 768), ∃ (d a b : BitVec 5), ∃ (z : Bool), ∃ (rest : BitVec 64), ∃ (s : State), let w := withM rest 0 (fmtV 9 d.toNat a.toNat b.toNat z.toNat); let g := engOf s e; let c := (actBank g).cstat; let u := rdV g a.toNat; let base (i : Nat) : Int := if z then 0 else slane (accChain g d.toNat) 48 i; let r (i : Nat) : Int := base i + slane u 16 i * slane (rdS g b.toNat) 16 0; Issues s e w) ∧
    (∃ (e : Fin 768), ∃ (d a : BitVec 5), ∃ (z : Bool), ∃ (rest : BitVec 64), ∃ (s : State), let w := withM rest 0 (fmtV 10 d.toNat a.toNat 0 z.toNat); let g := engOf s e; let c := (actBank g).cstat; let base (i : Nat) : Int := if z then 0 else slane (accChain g d.toNat) 48 i; let r (i : Nat) : Int := base i + slane (vecGet g.a a.toNat) 48 i; Issues s e w) ∧
    (∃ (e : Fin 768), ∃ (d a sh : BitVec 5), ∃ (rest : BitVec 64), ∃ (s : State), let w := withM rest 0 (fmtV 11 d.toNat a.toNat sh.toNat 0); let g := engOf s e; let c := (actBank g).cstat; let r (i : Nat) : Int := slane (rdV g a.toNat) 16 i * 2 ^ sh.toNat; Issues s e w) :=
  ⟨⟨0, 2, 1, 1, false, 0, upE, by decide +kernel⟩,
    ⟨0, 2, 1, 1, false, 0, upE, by decide +kernel⟩,
    ⟨0, 2, 1, 1, false, 0, upE, by decide +kernel⟩,
    ⟨0, 2, 1, false, 0, upE, by decide +kernel⟩,
    ⟨0, 2, 1, 3, 0, upE, by decide +kernel⟩⟩

/-- What Obligations.VpermResults assumes can be met, part 1. -/
theorem wit_VpermResults_1 :
    (∃ (e : Fin 768), ∃ (d a : BitVec 5), ∃ (rest : BitVec 64), ∃ (s : State), let w := withM rest 2 (fmtV (4 * 1 + 1) d.toNat a.toNat 0 0); let g := engOf s e; let c := (actBank g).cstat; let n := laneBits 1; let x (i : Nat) : Int := slane (rdV g a.toNat) n i; let r (i : Nat) : Int := if i % 2 = 0 then -x (i + 1) else x (i - 1); Issues s e w) ∧
    (∃ (e : Fin 768), ∃ (d a : BitVec 5), ∃ (rest : BitVec 64), ∃ (s : State), let w := withM rest 2 (fmtV (4 * 2 + 1) d.toNat a.toNat 0 0); let g := engOf s e; let c := (actBank g).cstat; let n := laneBits 1; let x (i : Nat) : Int := slane (rdV g a.toNat) n i; let r (i : Nat) : Int := if i % 2 = 0 then x (i + 1) else -x (i - 1); Issues s e w) ∧
    (∃ (e : Fin 768), ∃ (d a : BitVec 5), ∃ (rest : BitVec 64), ∃ (s : State), let w := withM rest 2 (fmtV (4 * 3 + 1) d.toNat a.toNat 0 0); let g := engOf s e; let c := (actBank g).cstat; let n := laneBits 1; let x (i : Nat) : Int := slane (rdV g a.toNat) n i; let r (i : Nat) : Int := if i % 2 = 0 then x i else -x i; Issues s e w) ∧
    (∃ (e : Fin 768), ∃ (d a k : BitVec 5), ∃ (wc : BitVec 2), ∃ (rest : BitVec 64), ∃ (s : State), let w := withM rest 2 (fmtV (4 * 4 + wc.toNat) d.toNat a.toNat k.toNat 0); let g := engOf s e; let c := (actBank g).cstat; let n := laneBits wc.toNat; let x (i : Nat) : Int := slane (rdV g a.toNat) n i; let r (_ : Nat) : Int := x k.toNat; Issues s e w) ∧
    (∃ (e : Fin 768), ∃ (d a k : BitVec 5), ∃ (wc : BitVec 2), ∃ (rest : BitVec 64), ∃ (s : State), let w := withM rest 2 (fmtV (4 * 5 + wc.toNat) d.toNat a.toNat k.toNat 0); let g := engOf s e; let c := (actBank g).cstat; let n := laneBits wc.toNat; let x (i : Nat) : Int := slane (rdV g a.toNat) n i; let r (i : Nat) : Int := x ((i + k.toNat) % (256 / n)); Issues s e w) ∧
    (∃ (e : Fin 768), ∃ (d a b : BitVec 5), ∃ (wc : BitVec 2), ∃ (rest : BitVec 64), ∃ (s : State), let w := withM rest 2 (fmtV (4 * 6 + wc.toNat) d.toNat a.toNat b.toNat 0); let g := engOf s e; let c := (actBank g).cstat; let n := laneBits wc.toNat; let x (i : Nat) : Int := slane (rdV g a.toNat) n i; let y (i : Nat) : Int := slane (rdV g b.toNat) n i; let r (i : Nat) : Int := if i % 2 = 0 then x (i / 2) else y (i / 2); Issues s e w) :=
  ⟨⟨0, 2, 1, 0, upE, by decide +kernel⟩,
    ⟨0, 2, 1, 0, upE, by decide +kernel⟩,
    ⟨0, 2, 1, 0, upE, by decide +kernel⟩,
    ⟨0, 2, 1, 3, 1, 0, upE, by decide +kernel⟩,
    ⟨0, 2, 1, 3, 1, 0, upE, by decide +kernel⟩,
    ⟨0, 2, 1, 1, 1, 0, upE, by decide +kernel⟩⟩

/-- What Obligations.VpermResults assumes can be met, part 2. -/
theorem wit_VpermResults_2 :
    (∃ (e : Fin 768), ∃ (d a b : BitVec 5), ∃ (wc : BitVec 2), ∃ (rest : BitVec 64), ∃ (s : State), let w := withM rest 2 (fmtV (4 * 7 + wc.toNat) d.toNat a.toNat b.toNat 0); let g := engOf s e; let c := (actBank g).cstat; let n := laneBits wc.toNat; let x (i : Nat) : Int := slane (rdV g a.toNat) n i; let y (i : Nat) : Int := slane (rdV g b.toNat) n i; let r (i : Nat) : Int := if i % 2 = 0 then x (256 / n / 2 + i / 2) else y (256 / n / 2 + i / 2); Issues s e w) ∧
    (∃ (e : Fin 768), ∃ (d a b : BitVec 5), ∃ (wc : BitVec 2), ∃ (rest : BitVec 64), ∃ (s : State), let w := withM rest 2 (fmtV (4 * 8 + wc.toNat) d.toNat a.toNat b.toNat 0); let g := engOf s e; let c := (actBank g).cstat; let n := laneBits wc.toNat; let x (i : Nat) : Int := slane (rdV g a.toNat) n i; let y (i : Nat) : Int := slane (rdV g b.toNat) n i; let r (i : Nat) : Int := if i < 256 / n / 2 then x (2 * i) else y (2 * (i - 256 / n / 2)); Issues s e w) ∧
    (∃ (e : Fin 768), ∃ (d a b : BitVec 5), ∃ (wc : BitVec 2), ∃ (rest : BitVec 64), ∃ (s : State), let w := withM rest 2 (fmtV (4 * 9 + wc.toNat) d.toNat a.toNat b.toNat 0); let g := engOf s e; let c := (actBank g).cstat; let n := laneBits wc.toNat; let x (i : Nat) : Int := slane (rdV g a.toNat) n i; let y (i : Nat) : Int := slane (rdV g b.toNat) n i; let r (i : Nat) : Int := if i < 256 / n / 2 then x (2 * i + 1) else y (2 * (i - 256 / n / 2) + 1); Issues s e w) ∧
    (∃ (e : Fin 768), ∃ (d a : BitVec 5), ∃ (wc : BitVec 2), ∃ (rest : BitVec 64), ∃ (s : State), let w := withM rest 2 (fmtV (4 * 10 + wc.toNat) d.toNat a.toNat 0 0); let g := engOf s e; let c := (actBank g).cstat; let n := laneBits wc.toNat; let x (i : Nat) : Int := slane (rdV g a.toNat) n i; let r (i : Nat) : Int := x i; Issues s e w) ∧
    (∃ (e : Fin 768), ∃ (d a : BitVec 5), ∃ (wc : BitVec 2), ∃ (rest : BitVec 64), ∃ (s : State), let w := withM rest 2 (fmtV (4 * 11 + wc.toNat) d.toNat a.toNat 0 0); let g := engOf s e; let c := (actBank g).cstat; let n := laneBits wc.toNat; let x (i : Nat) : Int := slane (rdV g a.toNat) n i; let r (i : Nat) : Int := x (256 / n / 2 + i); Issues s e w) ∧
    (∃ (e : Fin 768), ∃ (d a b : BitVec 5), ∃ (wc : BitVec 2), ∃ (rest : BitVec 64), ∃ (s : State), let w := withM rest 2 (fmtV (4 * 12 + wc.toNat) d.toNat a.toNat b.toNat 0); let g := engOf s e; let c := (actBank g).cstat; let n := laneBits wc.toNat; let x (i : Nat) : Int := slane (rdV g a.toNat) n i; let y (i : Nat) : Int := slane (rdV g b.toNat) n i; let r (i : Nat) : Int := if i < 256 / n then x i else y (i - 256 / n); Issues s e w) :=
  ⟨⟨0, 2, 1, 1, 1, 0, upE, by decide +kernel⟩,
    ⟨0, 2, 1, 1, 1, 0, upE, by decide +kernel⟩,
    ⟨0, 2, 1, 1, 1, 0, upE, by decide +kernel⟩,
    ⟨0, 2, 1, 1, 0, upE, by decide +kernel⟩,
    ⟨0, 2, 1, 1, 0, upE, by decide +kernel⟩,
    ⟨0, 2, 1, 1, 1, 0, upE, by decide +kernel⟩⟩

/-- What Obligations.VfpResults assumes can be met, part 1. -/
theorem wit_VfpResults_1 :
    (∃ (e : Fin 768), ∃ (d a b : BitVec 5), ∃ (h : Bool), ∃ (rest : BitVec 64), ∃ (s : State), let w := withM rest 3 (fmtV 0x01 d.toNat a.toNat b.toNat h.toNat); let g := engOf s e; let c := (actBank g).cstat; let x (i : Nat) : Fp := fpRead (lane (rdV g a.toNat) 32 i); let y (i : Nat) : Fp := fpRead (lane (rdV g b.toNat) 32 i); let u (i : Nat) : Fp := fpRead (lane (rdV g d.toNat) 32 i); let r (i : Nat) : Nat × Nat := fpFma (u i) (x i) (y i); Issues s e w) ∧
    (∃ (e : Fin 768), ∃ (d a b : BitVec 5), ∃ (h : Bool), ∃ (rest : BitVec 64), ∃ (s : State), let w := withM rest 3 (fmtV 0x02 d.toNat a.toNat b.toNat h.toNat); let g := engOf s e; let c := (actBank g).cstat; let x (i : Nat) : Fp := fpRead (lane (rdV g a.toNat) 32 i); let y (i : Nat) : Fp := fpRead (lane (rdV g b.toNat) 32 i); let u (i : Nat) : Fp := fpRead (lane (rdV g d.toNat) 32 i); let r (i : Nat) : Nat × Nat := fpFma (u i) (x i).flip (y i); Issues s e w) ∧
    (∃ (e : Fin 768), ∃ (d a b : BitVec 5), ∃ (h : Bool), ∃ (rest : BitVec 64), ∃ (s : State), let w := withM rest 3 (fmtV 0x03 d.toNat a.toNat b.toNat h.toNat); let g := engOf s e; let c := (actBank g).cstat; let x (i : Nat) : Fp := fpRead (lane (rdV g a.toNat) 32 i); let y (i : Nat) : Fp := fpRead (lane (rdV g b.toNat) 32 i); let r (i : Nat) : Nat × Nat := fpOr (fpPut (fpProd (x i) (y i)).1) ((fpProd (x i) (y i)).2 ||| fpSig [x i, y i]); Issues s e w) ∧
    (∃ (e : Fin 768), ∃ (d a b : BitVec 5), ∃ (rest : BitVec 64), ∃ (s : State), let w := withM rest 3 (fmtV 0x10 d.toNat a.toNat b.toNat 0); let g := engOf s e; let c := (actBank g).cstat; let x (i : Nat) : Fp := fpRead (lane (rdV g a.toNat) 32 i); let y (i : Nat) : Fp := fpRead (lane (rdV g b.toNat) 32 i); let r (i : Nat) : Nat × Nat := fpOr (fpAdd (x i) (y i)) (fpSig [x i, y i]); Issues s e w) ∧
    (∃ (e : Fin 768), ∃ (d a b : BitVec 5), ∃ (rest : BitVec 64), ∃ (s : State), let w := withM rest 3 (fmtV 0x11 d.toNat a.toNat b.toNat 0); let g := engOf s e; let c := (actBank g).cstat; let x (i : Nat) : Fp := fpRead (lane (rdV g a.toNat) 32 i); let y (i : Nat) : Fp := fpRead (lane (rdV g b.toNat) 32 i); let r (i : Nat) : Nat × Nat := fpOr (fpAdd (x i) (y i).flip) (fpSig [x i, y i]); Issues s e w) ∧
    (∃ (e : Fin 768), ∃ (d a b : BitVec 5), ∃ (rest : BitVec 64), ∃ (s : State), let w := withM rest 3 (fmtV 0x12 d.toNat a.toNat b.toNat 0); let g := engOf s e; let c := (actBank g).cstat; let x (i : Nat) : Fp := fpRead (lane (rdV g a.toNat) 32 i); let y (i : Nat) : Fp := fpRead (lane (rdV g b.toNat) 32 i); let r (i : Nat) : Nat × Nat := fpMinMax false (x i) (y i) (s.freeCtr + i); Issues s e w) :=
  ⟨⟨0, 2, 1, 1, false, 0, upE, by decide +kernel⟩,
    ⟨0, 2, 1, 1, false, 0, upE, by decide +kernel⟩,
    ⟨0, 2, 1, 1, false, 0, upE, by decide +kernel⟩,
    ⟨0, 2, 1, 1, 0, upE, by decide +kernel⟩,
    ⟨0, 2, 1, 1, 0, upE, by decide +kernel⟩,
    ⟨0, 2, 1, 1, 0, upE, by decide +kernel⟩⟩

/-- What Obligations.VfpResults assumes can be met, part 2. -/
theorem wit_VfpResults_2 :
    (∃ (e : Fin 768), ∃ (d a b : BitVec 5), ∃ (rest : BitVec 64), ∃ (s : State), let w := withM rest 3 (fmtV 0x13 d.toNat a.toNat b.toNat 0); let g := engOf s e; let c := (actBank g).cstat; let x (i : Nat) : Fp := fpRead (lane (rdV g a.toNat) 32 i); let y (i : Nat) : Fp := fpRead (lane (rdV g b.toNat) 32 i); let r (i : Nat) : Nat × Nat := fpMinMax true (x i) (y i) (s.freeCtr + i); Issues s e w) ∧
    (∃ (e : Fin 768), ∃ (d a : BitVec 5), ∃ (rest : BitVec 64), ∃ (s : State), let w := withM rest 3 (fmtV 0x14 d.toNat a.toNat 0 0); let g := engOf s e; let c := (actBank g).cstat; let p (i : Nat) : Nat := lane (rdV g a.toNat) 32 i; let x (i : Nat) : Fp := fpRead (lane (rdV g a.toNat) 32 i); let r (i : Nat) : Nat × Nat := (if (x i).isNaN then fpNaN else match x i with | .zero _ => 0 | _ => p i % 2 ^ 31, 0); Issues s e w) ∧
    (∃ (e : Fin 768), ∃ (d a : BitVec 5), ∃ (rest : BitVec 64), ∃ (s : State), let w := withM rest 3 (fmtV 0x15 d.toNat a.toNat 0 0); let g := engOf s e; let c := (actBank g).cstat; let p (i : Nat) : Nat := lane (rdV g a.toNat) 32 i; let x (i : Nat) : Fp := fpRead (lane (rdV g a.toNat) 32 i); let r (i : Nat) : Nat × Nat := (if (x i).isNaN then fpNaN else match x i with | .zero q => fpSign (!q) | _ => p i ^^^ 2 ^ 31, 0); Issues s e w) ∧
    (∃ (e : Fin 768), ∃ (d a b : BitVec 5), ∃ (rest : BitVec 64), ∃ (s : State), let w := withM rest 3 (fmtV 0x16 d.toNat a.toNat b.toNat 0); let g := engOf s e; let c := (actBank g).cstat; let x (i : Nat) : Fp := fpRead (lane (rdV g a.toNat) 32 i); let y (i : Nat) : Fp := fpRead (lane (rdV g b.toNat) 32 i); let r (i : Nat) : Nat × Nat := (if fpGt (x i) (y i) then 2 ^ 32 - 1 else 0, if (x i).isNaN || (y i).isNaN then fxInvalid else 0); Issues s e w) ∧
    (∃ (e : Fin 768), ∃ (d a : BitVec 5), ∃ (rest : BitVec 64), ∃ (s : State), let w := withM rest 3 (fmtV 0x18 d.toNat a.toNat 0 0); let g := engOf s e; let c := (actBank g).cstat; let p (i : Nat) : Nat := lane (rdV g a.toNat) 32 i; let r (i : Nat) : Nat × Nat := fpExact (signed 32 (p i)) 0 false; Issues s e w) ∧
    (∃ (e : Fin 768), ∃ (d a : BitVec 5), ∃ (rest : BitVec 64), ∃ (s : State), let w := withM rest 3 (fmtV 0x19 d.toNat a.toNat 0 0); let g := engOf s e; let c := (actBank g).cstat; let x (i : Nat) : Fp := fpRead (lane (rdV g a.toNat) 32 i); let r (i : Nat) : Nat × Nat := fpToInt (x i); Issues s e w) :=
  ⟨⟨0, 2, 1, 1, 0, upE, by decide +kernel⟩,
    ⟨0, 2, 1, 0, upE, by decide +kernel⟩,
    ⟨0, 2, 1, 0, upE, by decide +kernel⟩,
    ⟨0, 2, 1, 1, 0, upE, by decide +kernel⟩,
    ⟨0, 2, 1, 0, upE, by decide +kernel⟩,
    ⟨0, 2, 1, 0, upE, by decide +kernel⟩⟩

/-- What Obligations.SaluAndMoveResults assumes can be met, part 1. -/
theorem wit_SaluAndMoveResults_1 :
    (∃ (e : Fin 768), ∃ (d a b : BitVec 4), ∃ (rest : BitVec 64), ∃ (s : State), let w := withM rest 4 (fmtS 1 d.toNat a.toNat (b.toNat * 16)); let g := engOf s e; let x := rdS g a.toNat; let y := rdS g b.toNat; Issues s e w) ∧
    (∃ (e : Fin 768), ∃ (d a b : BitVec 4), ∃ (rest : BitVec 64), ∃ (s : State), let w := withM rest 4 (fmtS 2 d.toNat a.toNat (b.toNat * 16)); let g := engOf s e; let x := rdS g a.toNat; let y := rdS g b.toNat; Issues s e w) ∧
    (∃ (e : Fin 768), ∃ (d a b : BitVec 4), ∃ (rest : BitVec 64), ∃ (s : State), let w := withM rest 4 (fmtS 3 d.toNat a.toNat (b.toNat * 16)); let g := engOf s e; let x := rdS g a.toNat; let y := rdS g b.toNat; Issues s e w) ∧
    (∃ (e : Fin 768), ∃ (d a b : BitVec 4), ∃ (rest : BitVec 64), ∃ (s : State), let w := withM rest 4 (fmtS 4 d.toNat a.toNat (b.toNat * 16)); let g := engOf s e; let x := rdS g a.toNat; let y := rdS g b.toNat; Issues s e w) ∧
    (∃ (e : Fin 768), ∃ (d a b : BitVec 4), ∃ (rest : BitVec 64), ∃ (s : State), let w := withM rest 4 (fmtS 5 d.toNat a.toNat (b.toNat * 16)); let g := engOf s e; let x := rdS g a.toNat; let y := rdS g b.toNat; Issues s e w) ∧
    (∃ (e : Fin 768), ∃ (d a b : BitVec 4), ∃ (rest : BitVec 64), ∃ (s : State), let w := withM rest 4 (fmtS 6 d.toNat a.toNat (b.toNat * 16)); let g := engOf s e; let x := rdS g a.toNat; let y := rdS g b.toNat; Issues s e w) :=
  ⟨⟨0, 2, 1, 1, 0, upE, by decide +kernel⟩,
    ⟨0, 2, 1, 1, 0, upE, by decide +kernel⟩,
    ⟨0, 2, 1, 1, 0, upE, by decide +kernel⟩,
    ⟨0, 2, 1, 1, 0, upE, by decide +kernel⟩,
    ⟨0, 2, 1, 1, 0, upE, by decide +kernel⟩,
    ⟨0, 2, 1, 1, 0, upE, by decide +kernel⟩⟩

/-- What Obligations.SaluAndMoveResults assumes can be met, part 2. -/
theorem wit_SaluAndMoveResults_2 :
    (∃ (e : Fin 768), ∃ (d a b : BitVec 4), ∃ (rest : BitVec 64), ∃ (s : State), let w := withM rest 4 (fmtS 7 d.toNat a.toNat (b.toNat * 16)); let g := engOf s e; let x := rdS g a.toNat; let y := rdS g b.toNat; Issues s e w) ∧
    (∃ (e : Fin 768), ∃ (d a b : BitVec 4), ∃ (rest : BitVec 64), ∃ (s : State), let w := withM rest 4 (fmtS 8 d.toNat a.toNat (b.toNat * 16)); let g := engOf s e; let x := rdS g a.toNat; let y := rdS g b.toNat; Issues s e w) ∧
    (∃ (e : Fin 768), ∃ (d a b : BitVec 4), ∃ (rest : BitVec 64), ∃ (s : State), let w := withM rest 4 (fmtS 9 d.toNat a.toNat (b.toNat * 16)); let g := engOf s e; let x := rdS g a.toNat; let y := rdS g b.toNat; Issues s e w) ∧
    (∃ (e : Fin 768), ∃ (d a b : BitVec 4), ∃ (rest : BitVec 64), ∃ (s : State), let w := withM rest 4 (fmtS 10 d.toNat a.toNat (b.toNat * 16)); let g := engOf s e; let x := rdS g a.toNat; let y := rdS g b.toNat; Issues s e w) ∧
    (∃ (e : Fin 768), ∃ (d a b : BitVec 4), ∃ (rest : BitVec 64), ∃ (s : State), let w := withM rest 4 (fmtS 11 d.toNat a.toNat (b.toNat * 16)); let g := engOf s e; let x := rdS g a.toNat; let y := rdS g b.toNat; Issues s e w) ∧
    (∃ (e : Fin 768), ∃ (d a b : BitVec 4), ∃ (rest : BitVec 64), ∃ (s : State), let w := withM rest 4 (fmtS 12 d.toNat a.toNat (b.toNat * 16)); let g := engOf s e; let x := rdS g a.toNat; let y := rdS g b.toNat; Issues s e w) :=
  ⟨⟨0, 2, 1, 1, 0, upE, by decide +kernel⟩,
    ⟨0, 2, 1, 1, 0, upE, by decide +kernel⟩,
    ⟨0, 2, 1, 1, 0, upE, by decide +kernel⟩,
    ⟨0, 2, 1, 1, 0, upE, by decide +kernel⟩,
    ⟨0, 2, 1, 1, 0, upE, by decide +kernel⟩,
    ⟨0, 2, 1, 1, 0, upE, by decide +kernel⟩⟩

/-- What Obligations.SaluAndMoveResults assumes can be met, part 3. -/
theorem wit_SaluAndMoveResults_3 :
    (∃ (e : Fin 768), ∃ (d a b : BitVec 4), ∃ (rest : BitVec 64), ∃ (s : State), let w := withM rest 4 (fmtS 13 d.toNat a.toNat (b.toNat * 16)); let g := engOf s e; let x := rdS g a.toNat; let y := rdS g b.toNat; Issues s e w) ∧
    (∃ (e : Fin 768), ∃ (d a b : BitVec 4), ∃ (rest : BitVec 64), ∃ (s : State), let w := withM rest 4 (fmtS 14 d.toNat a.toNat (b.toNat * 16)); let g := engOf s e; let x := rdS g a.toNat; let y := rdS g b.toNat; Issues s e w) ∧
    (∃ (e : Fin 768), ∃ (d a : BitVec 4), ∃ (imm : BitVec 8), ∃ (rest : BitVec 64), ∃ (s : State), let w := withM rest 4 (fmtS 17 d.toNat a.toNat imm.toNat); let g := engOf s e; let x := rdS g a.toNat; let y := BitVec.ofInt 32 imm.toInt; Issues s e w) ∧
    (∃ (e : Fin 768), ∃ (d a : BitVec 4), ∃ (imm : BitVec 8), ∃ (rest : BitVec 64), ∃ (s : State), let w := withM rest 4 (fmtS 19 d.toNat a.toNat imm.toNat); let g := engOf s e; let x := rdS g a.toNat; let y := BitVec.ofInt 32 imm.toInt; Issues s e w) ∧
    (∃ (e : Fin 768), ∃ (d a : BitVec 4), ∃ (imm : BitVec 8), ∃ (rest : BitVec 64), ∃ (s : State), let w := withM rest 4 (fmtS 20 d.toNat a.toNat imm.toNat); let g := engOf s e; let x := rdS g a.toNat; let y := BitVec.ofInt 32 imm.toInt; Issues s e w) ∧
    (∃ (e : Fin 768), ∃ (d a : BitVec 4), ∃ (imm : BitVec 8), ∃ (rest : BitVec 64), ∃ (s : State), let w := withM rest 4 (fmtS 21 d.toNat a.toNat imm.toNat); let g := engOf s e; let x := rdS g a.toNat; let y := BitVec.ofInt 32 imm.toInt; Issues s e w) :=
  ⟨⟨0, 2, 1, 1, 0, upE, by decide +kernel⟩,
    ⟨0, 2, 1, 1, 0, upE, by decide +kernel⟩,
    ⟨0, 2, 1, 5, 0, upE, by decide +kernel⟩,
    ⟨0, 2, 1, 5, 0, upE, by decide +kernel⟩,
    ⟨0, 2, 1, 5, 0, upE, by decide +kernel⟩,
    ⟨0, 2, 1, 5, 0, upE, by decide +kernel⟩⟩

/-- What Obligations.SaluAndMoveResults assumes can be met, part 4. -/
theorem wit_SaluAndMoveResults_4 :
    (∃ (e : Fin 768), ∃ (d a : BitVec 4), ∃ (imm : BitVec 8), ∃ (rest : BitVec 64), ∃ (s : State), let w := withM rest 4 (fmtS 22 d.toNat a.toNat imm.toNat); let g := engOf s e; let x := rdS g a.toNat; let y := BitVec.ofInt 32 imm.toInt; Issues s e w) ∧
    (∃ (e : Fin 768), ∃ (d a : BitVec 4), ∃ (imm : BitVec 8), ∃ (rest : BitVec 64), ∃ (s : State), let w := withM rest 4 (fmtS 23 d.toNat a.toNat imm.toNat); let g := engOf s e; let x := rdS g a.toNat; let y := BitVec.ofInt 32 imm.toInt; Issues s e w) ∧
    (∃ (e : Fin 768), ∃ (d a : BitVec 4), ∃ (imm : BitVec 8), ∃ (rest : BitVec 64), ∃ (s : State), let w := withM rest 4 (fmtS 24 d.toNat a.toNat imm.toNat); let g := engOf s e; let x := rdS g a.toNat; let y := BitVec.ofInt 32 imm.toInt; Issues s e w) ∧
    (∃ (e : Fin 768), ∃ (d a : BitVec 4), ∃ (imm : BitVec 8), ∃ (rest : BitVec 64), ∃ (s : State), let w := withM rest 4 (fmtS 28 d.toNat a.toNat imm.toNat); let g := engOf s e; let x := rdS g a.toNat; let y := BitVec.ofInt 32 imm.toInt; Issues s e w) ∧
    (∃ (e : Fin 768), ∃ (d a : BitVec 5), ∃ (rest : BitVec 64), ∃ (s : State), let w := withM rest 5 (fmtV 1 d.toNat a.toNat 0 0); let g := engOf s e; let c := (actBank g).cstat; Issues s e w) ∧
    (∃ (e : Fin 768), ∃ (d a k : BitVec 5), ∃ (rest : BitVec 64), ∃ (s : State), let w := withM rest 5 (fmtV 2 d.toNat a.toNat k.toNat 0); let g := engOf s e; Issues s e w) :=
  ⟨⟨0, 2, 1, 5, 0, upE, by decide +kernel⟩,
    ⟨0, 2, 1, 5, 0, upE, by decide +kernel⟩,
    ⟨0, 2, 1, 5, 0, upE, by decide +kernel⟩,
    ⟨0, 2, 1, 5, 0, upE, by decide +kernel⟩,
    ⟨0, 2, 1, 0, upE, by decide +kernel⟩,
    ⟨0, 2, 1, 3, 0, upE, by decide +kernel⟩⟩

/-- What Obligations.SaluAndMoveResults assumes can be met, part 5. -/
theorem wit_SaluAndMoveResults_5 :
    (∃ (e : Fin 768), ∃ (d a k : BitVec 5), ∃ (rest : BitVec 64), ∃ (s : State), let w := withM rest 5 (fmtV 3 d.toNat a.toNat k.toNat 0); let g := engOf s e; let c := (actBank g).cstat; Issues s e w) ∧
    (∃ (e : Fin 768), ∃ (d a : BitVec 5), ∃ (wc : BitVec 2), ∃ (rest : BitVec 64), ∃ (s : State), let w := withM rest 5 (fmtV 4 d.toNat a.toNat wc.toNat 0); let g := engOf s e; let c := (actBank g).cstat; Issues s e w) ∧
    (∃ (e : Fin 768), ∃ (d a sh : BitVec 5), ∃ (rest : BitVec 64), ∃ (s : State), let w := withM rest 5 (fmtV 5 d.toNat a.toNat sh.toNat 0); let g := engOf s e; let c := (actBank g).cstat; let r (i : Nat) : Int := rndShift (csRnd c) (slane (vecGet g.a a.toNat) 48 i) sh.toNat; Issues s e w) ∧
    (∃ (e : Fin 768), ∃ (d a : BitVec 5), ∃ (rest : BitVec 64), ∃ (s : State), let w := withM rest 5 (fmtV 6 d.toNat a.toNat 0 0); let g := engOf s e; Issues s e w) ∧
    (∃ (e : Fin 768), ∃ (d a : BitVec 5), ∃ (rest : BitVec 64), ∃ (s : State), let w := withM rest 5 (fmtV 7 d.toNat a.toNat 0 0); let g := engOf s e; Issues s e w) ∧
    (∃ (e : Fin 768), ∃ (d a : BitVec 5), ∃ (rest : BitVec 64), ∃ (s : State), let w := withM rest 5 (fmtV 8 d.toNat a.toNat 0 0); let g := engOf s e; Issues s e w) :=
  ⟨⟨0, 2, 1, 3, 0, upE, by decide +kernel⟩,
    ⟨0, 2, 1, 1, 0, upE, by decide +kernel⟩,
    ⟨0, 2, 1, 3, 0, upE, by decide +kernel⟩,
    ⟨0, 2, 1, 0, upE, by decide +kernel⟩,
    ⟨0, 1, 1, 0, upE, by decide +kernel⟩,
    ⟨0, 2, 1, 0, upE, by decide +kernel⟩⟩

/-- What Obligations.SaluAndMoveResults assumes can be met, part 6. -/
theorem wit_SaluAndMoveResults_6 :
    (∃ (e : Fin 768), ∃ (d a : BitVec 5), ∃ (rest : BitVec 64), ∃ (s : State), let w := withM rest 5 (fmtV 9 d.toNat a.toNat 0 0); let g := engOf s e; Issues s e w) ∧
    (∃ (e : Fin 768), ∃ (d a : BitVec 5), ∃ (rest : BitVec 64), ∃ (s : State), let w := withM rest 5 (fmtV 10 d.toNat a.toNat 0 0); let g := engOf s e; Issues s e w) ∧
    (∃ (e : Fin 768), ∃ (d a : BitVec 5), ∃ (rest : BitVec 64), ∃ (s : State), let w := withM rest 5 (fmtV 11 d.toNat a.toNat 0 0); let g := engOf s e; Issues s e w) ∧
    (∃ (e : Fin 768), ∃ (d a : BitVec 5), ∃ (rest : BitVec 64), ∃ (s : State), let w := withM rest 5 (fmtV 12 d.toNat a.toNat 0 0); Issues s e w) ∧
    (∃ (e : Fin 768), ∃ (d a : BitVec 5), ∃ (rest : BitVec 64), ∃ (s : State), let w := withM rest 5 (fmtV 13 d.toNat a.toNat 0 0); let g := engOf s e; Issues s e w) :=
  ⟨⟨0, 1, 1, 0, upE, by decide +kernel⟩,
    ⟨0, 2, 1, 0, upE, by decide +kernel⟩,
    ⟨0, 1, 1, 0, upE, by decide +kernel⟩,
    ⟨0, 2, 1, 0, upE, by decide +kernel⟩,
    ⟨0, 2, 1, 0, upE, by decide +kernel⟩⟩

/-- What Obligations.SlotResults assumes can be met, part 1. -/
theorem wit_SlotResults_1 :
    (∃ (e : Fin 768), ∃ (ci : Bool), ∃ (v : BitVec 3), ∃ (rest : BitVec 64), ∃ (s : State), let w := withP rest (16 + ci.toNat * 8 + v.toNat); let g := engOf s e; let c := (actBank g).cstat; let cp := vecGet (actBank g).cp ci.toNat; Issues s e w) ∧
    (∃ (e : Fin 768), ∃ (y : Bool), ∃ (v : BitVec 5), ∃ (p : BitVec 3), ∃ (u : Bool), ∃ (rest : BitVec 64), ∃ (s : State), let w := withSlot rest y (0x1000 + v.toNat * 128 + p.toNat * 16 + u.toNat * 8); let g := engOf s e; let c := (actBank g).cstat; let q := (vecGet (actBank g).p p.toNat).toNat; Issues s e w) ∧
    (∃ (e : Fin 768), ∃ (y : Bool), ∃ (v : BitVec 5), ∃ (p : BitVec 3), ∃ (u : Bool), ∃ (rest : BitVec 64), ∃ (s : State), let w := withSlot rest y (0x2000 + v.toNat * 128 + p.toNat * 16 + u.toNat * 8); let g := engOf s e; let c := (actBank g).cstat; let q := (vecGet (actBank g).p p.toNat).toNat; Issues s e w) ∧
    (∃ (e : Fin 768), ∃ (y : Bool), ∃ (v : BitVec 5), ∃ (p : BitVec 3), ∃ (u t : Bool), ∃ (wc : BitVec 2), ∃ (rest : BitVec 64), ∃ (s : State), let w := withSlot rest y (0x3000 + v.toNat * 128 + p.toNat * 16 + u.toNat * 8 + t.toNat * 4 + wc.toNat); let g := engOf s e; let q := (vecGet (actBank g).p p.toNat).toNat; Issues s e w) ∧
    (∃ (e : Fin 768), ∃ (y : Bool), ∃ (a p : BitVec 3), ∃ (u : Bool), ∃ (sh : BitVec 5), ∃ (rest : BitVec 64), ∃ (s : State), let w := withSlot rest y (0x4000 + a.toNat * 512 + p.toNat * 64 + u.toNat * 32 + sh.toNat); let g := engOf s e; let c := (actBank g).cstat; let q := (vecGet (actBank g).p p.toNat).toNat; let r (i : Nat) : Int := rndShift (csRnd c) (slane (vecGet g.a a.toNat) 48 i) sh.toNat; let x := vecOf 16 fun i => markN 16 (r i); Issues s e w) ∧
    (∃ (e : Fin 768), ∃ (y : Bool), ∃ (a p : BitVec 3), ∃ (u : Bool), ∃ (sh : BitVec 5), ∃ (rest : BitVec 64), ∃ (s : State), let w := withSlot rest y (0x5000 + a.toNat * 512 + p.toNat * 64 + u.toNat * 32 + sh.toNat); let g := engOf s e; let c := (actBank g).cstat; let q := (vecGet (actBank g).p p.toNat).toNat; let r (i : Nat) : Int := rndShift (csRnd c) (slane (vecGet g.a a.toNat) 48 i) sh.toNat; let x := vecOf 16 fun i => markN 16 (r i); Issues s e w) :=
  ⟨⟨0, false, 1, 0, upC, by decide +kernel⟩,
    ⟨0, false, 1, 2, true, 0, upE, by decide +kernel⟩,
    ⟨0, false, 1, 2, true, 0, upE, by decide +kernel⟩,
    ⟨0, true, 1, 2, true, true, 1, 0, upE, by decide +kernel⟩,
    ⟨0, true, 1, 2, true, 3, 0, upE, by decide +kernel⟩,
    ⟨0, true, 1, 2, true, 3, 0, upE, by decide +kernel⟩⟩

/-- What Obligations.SlotResults assumes can be met, part 2. -/
theorem wit_SlotResults_2 :
    (∃ (e : Fin 768), ∃ (y : Bool), ∃ (a p : BitVec 3), ∃ (u h : Bool), ∃ (sh : BitVec 4), ∃ (rest : BitVec 64), ∃ (s : State), let w := withSlot rest y (0x6000 + a.toNat * 512 + p.toNat * 64 + u.toNat * 32 + h.toNat * 16 + sh.toNat); let g := engOf s e; let c := (actBank g).cstat; let q := (vecGet (actBank g).p p.toNat).toNat; let r (i : Nat) : Int := rndShift (csRnd c) (slane (vecGet g.a a.toNat) 48 ((if h then 8 else 0) + i)) sh.toNat; let x := vecOf 32 fun i => markN 32 (r i); Issues s e w) ∧
    (∃ (e : Fin 768), ∃ (y : Bool), ∃ (a p : BitVec 3), ∃ (u h : Bool), ∃ (sh : BitVec 4), ∃ (rest : BitVec 64), ∃ (s : State), let w := withSlot rest y (0x7000 + a.toNat * 512 + p.toNat * 64 + u.toNat * 32 + h.toNat * 16 + sh.toNat); let g := engOf s e; let c := (actBank g).cstat; let q := (vecGet (actBank g).p p.toNat).toNat; let r (i : Nat) : Int := rndShift (csRnd c) (slane (vecGet g.a a.toNat) 48 ((if h then 8 else 0) + i)) sh.toNat; let x := vecOf 32 fun i => markN 32 (r i); Issues s e w) ∧
    (∃ (e : Fin 768), ∃ (y : Bool), ∃ (r : BitVec 4), ∃ (p : BitVec 3), ∃ (u : Bool), ∃ (rest : BitVec 64), ∃ (s : State), let w := withSlot rest y (0x8000 + r.toNat * 256 + p.toNat * 32 + u.toNat * 16); let g := engOf s e; let q := (vecGet (actBank g).p p.toNat).toNat; Issues s e w) ∧
    (∃ (e : Fin 768), ∃ (y : Bool), ∃ (r : BitVec 4), ∃ (p : BitVec 3), ∃ (u : Bool), ∃ (rest : BitVec 64), ∃ (s : State), let w := withSlot rest y (0x9000 + r.toNat * 256 + p.toNat * 32 + u.toNat * 16); let g := engOf s e; let q := (vecGet (actBank g).p p.toNat).toNat; Issues s e w) ∧
    (∃ (e : Fin 768), ∃ (y : Bool), ∃ (p : BitVec 3), ∃ (rest : BitVec 64), ∃ (s : State), let w := withSlot rest y (0xA000 + p.toNat * 512); let g := engOf s e; Issues s e w) ∧
    (∃ (e : Fin 768), ∃ (y : Bool), ∃ (p : BitVec 3), ∃ (imm : BitVec 7), ∃ (rest : BitVec 64), ∃ (s : State), let w := withSlot rest y (0xA080 + p.toNat * 512 + imm.toNat); let g := engOf s e; Issues s e w) :=
  ⟨⟨0, true, 1, 2, true, true, 3, 0, upE, by decide +kernel⟩,
    ⟨0, true, 1, 2, true, true, 3, 0, upE, by decide +kernel⟩,
    ⟨0, false, 1, 2, true, 0, upE, by decide +kernel⟩,
    ⟨0, false, 1, 2, true, 0, upE, by decide +kernel⟩,
    ⟨0, true, 1, 0, upE, by decide +kernel⟩,
    ⟨0, true, 1, 0x7F, 0, upE, by decide +kernel⟩⟩

/-- What Obligations.SlotResults assumes can be met, part 3. -/
theorem wit_SlotResults_3 :
    (∃ (e : Fin 768), ∃ (y : Bool), ∃ (p : BitVec 3), ∃ (a : BitVec 4), ∃ (rest : BitVec 64), ∃ (s : State), let w := withSlot rest y (0xA100 + p.toNat * 512 + a.toNat * 8); let g := engOf s e; Issues s e w) ∧
    (∃ (e : Fin 768), ∃ (v : BitVec 5), ∃ (h : Bool), ∃ (rest : BitVec 64), ∃ (qb : Nat), ∃ (s : State), let w := withSlot rest false (0xB000 + v.toNat * 128 + h.toNat * 64); let g := engOf s e; let c := (actBank g).cstat; let o := (qbOf (qbRead s qb 0#142 0#3 0#10) qb).out; let k := if h then 2 ^ 128 else 1; (Issues s e w) ∧ (streamBlock s e false = some qb)) ∧
    (∃ (e : Fin 768), ∃ (v : BitVec 5), ∃ (h l : Bool), ∃ (n : BitVec 4), ∃ (rest : BitVec 64), ∃ (qb : Nat), ∃ (s : State), let w := withSlot rest false (0xC000 + v.toNat * 128 + h.toNat * 64 + l.toNat * 32 + n.toNat * 2); let g := engOf s e; let k := if h then 2 ^ 128 else 1; (Issues s e w) ∧ (streamBlock s e true = some qb)) :=
  ⟨⟨0, true, 1, 5, 0, upE, by decide +kernel⟩,
    ⟨0, 1, true, 0, 0, upQ, by decide +kernel⟩,
    ⟨0, 1, true, true, 15, 0, 0, upQ, by decide +kernel⟩⟩

/-- What Obligations.ControlResults assumes can be met, part 1. -/
theorem wit_ControlResults_1 :
    (∃ (e : Fin 768), ∃ (rw : BitVec 2), ∃ (cs : Bool), ∃ (a : BitVec 4), ∃ (count last : BitVec 16), ∃ (s : State), let w := BitVec.ofNat 64 (6 * 2 ^ 60 + rw.toNat * 2 ^ 58 + cs.toNat * 2 ^ 57 + a.toNat * 2 ^ 53 + count.toNat * 2 ^ 32 + last.toNat * 2 ^ 16); let g := engOf s e; let c := (actBank g).cstat; let n := if cs then (rdS g a.toNat).toNat % 65536 else count.toNat; let k (bb : Bundle) : EngBank := actBank (engOf (applyBundle s e bb) e); Issues s e w) ∧
    (∃ (e : Fin 768), ∃ (t : BitVec 16), ∃ (s : State), let w := BitVec.ofNat 64 (7 * 2 ^ 60 + 0 * 2 ^ 56 + t.toNat * 2 ^ 16); Issues s e w) ∧
    (∃ (e : Fin 768), ∃ (a b : BitVec 4), ∃ (t : BitVec 16), ∃ (s : State), let w := BitVec.ofNat 64 (7 * 2 ^ 60 + 1 * 2 ^ 56 + a.toNat * 2 ^ 52 + b.toNat * 2 ^ 48 + t.toNat * 2 ^ 16); let g := engOf s e; Issues s e w) ∧
    (∃ (e : Fin 768), ∃ (a b : BitVec 4), ∃ (t : BitVec 16), ∃ (s : State), let w := BitVec.ofNat 64 (7 * 2 ^ 60 + 2 * 2 ^ 56 + a.toNat * 2 ^ 52 + b.toNat * 2 ^ 48 + t.toNat * 2 ^ 16); let g := engOf s e; Issues s e w) ∧
    (∃ (e : Fin 768), ∃ (a b : BitVec 4), ∃ (t : BitVec 16), ∃ (s : State), let w := BitVec.ofNat 64 (7 * 2 ^ 60 + 3 * 2 ^ 56 + a.toNat * 2 ^ 52 + b.toNat * 2 ^ 48 + t.toNat * 2 ^ 16); let g := engOf s e; Issues s e w) ∧
    (∃ (e : Fin 768), ∃ (a b : BitVec 4), ∃ (t : BitVec 16), ∃ (s : State), let w := BitVec.ofNat 64 (7 * 2 ^ 60 + 4 * 2 ^ 56 + a.toNat * 2 ^ 52 + b.toNat * 2 ^ 48 + t.toNat * 2 ^ 16); let g := engOf s e; Issues s e w) :=
  ⟨⟨0, 1, false, 0, 5, 0x100, upE, by decide +kernel⟩,
    ⟨0, 0x40, upE, by decide +kernel⟩,
    ⟨0, 1, 2, 0x40, upE, by decide +kernel⟩,
    ⟨0, 1, 2, 0x40, upE, by decide +kernel⟩,
    ⟨0, 1, 2, 0x40, upE, by decide +kernel⟩,
    ⟨0, 1, 2, 0x40, upE, by decide +kernel⟩⟩

/-- What Obligations.ControlResults assumes can be met, part 2. -/
theorem wit_ControlResults_2 :
    (∃ (e : Fin 768), ∃ (a b : BitVec 4), ∃ (t : BitVec 16), ∃ (s : State), let w := BitVec.ofNat 64 (7 * 2 ^ 60 + 5 * 2 ^ 56 + a.toNat * 2 ^ 52 + b.toNat * 2 ^ 48 + t.toNat * 2 ^ 16); let g := engOf s e; Issues s e w) ∧
    (∃ (e : Fin 768), ∃ (a b : BitVec 4), ∃ (t : BitVec 16), ∃ (s : State), let w := BitVec.ofNat 64 (7 * 2 ^ 60 + 6 * 2 ^ 56 + a.toNat * 2 ^ 52 + b.toNat * 2 ^ 48 + t.toNat * 2 ^ 16); let g := engOf s e; Issues s e w) ∧
    (∃ (e : Fin 768), ∃ (a : BitVec 4), ∃ (t : BitVec 16), ∃ (s : State), let w := BitVec.ofNat 64 (7 * 2 ^ 60 + 7 * 2 ^ 56 + a.toNat * 2 ^ 52 + t.toNat * 2 ^ 16); let g := engOf s e; Issues s e w) ∧
    (∃ (e : Fin 768), ∃ (a : BitVec 4), ∃ (t : BitVec 16), ∃ (s : State), let w := BitVec.ofNat 64 (7 * 2 ^ 60 + 8 * 2 ^ 56 + a.toNat * 2 ^ 52 + t.toNat * 2 ^ 16); let g := engOf s e; Issues s e w) ∧
    (∃ (e : Fin 768), ∃ (l : BitVec 4), ∃ (t : BitVec 16), ∃ (s : State), let w := BitVec.ofNat 64 (7 * 2 ^ 60 + 9 * 2 ^ 56 + l.toNat * 2 ^ 44 + t.toNat * 2 ^ 16); let g := engOf s e; Issues s e w) ∧
    (∃ (e : Fin 768), ∃ (a : BitVec 4), ∃ (s : State), let w := BitVec.ofNat 64 (7 * 2 ^ 60 + 10 * 2 ^ 56 + a.toNat * 2 ^ 52); let g := engOf s e; Issues s e w) :=
  ⟨⟨0, 1, 2, 0x40, upE, by decide +kernel⟩,
    ⟨0, 1, 2, 0x40, upE, by decide +kernel⟩,
    ⟨0, 1, 0x40, upE, by decide +kernel⟩,
    ⟨0, 1, 0x40, upE, by decide +kernel⟩,
    ⟨0, 1, 0x40, upE, by decide +kernel⟩,
    ⟨0, 1, upE, by decide +kernel⟩⟩

/-- What Obligations.ControlResults assumes can be met, part 3. -/
theorem wit_ControlResults_3 :
    (∃ (e : Fin 768), ∃ (i : BitVec 4), ∃ (imm : BitVec 32), ∃ (s : State), let w := BitVec.ofNat 64 (8 * 2 ^ 60 + 0 * 2 ^ 57 + i.toNat * 2 ^ 53 + imm.toNat); let g := engOf s e; Issues s e w) ∧
    (∃ (e : Fin 768), ∃ (i : BitVec 4), ∃ (imm : BitVec 32), ∃ (s : State), let w := BitVec.ofNat 64 (8 * 2 ^ 60 + 1 * 2 ^ 57 + i.toNat * 2 ^ 53 + imm.toNat); let g := engOf s e; Issues s e w) ∧
    (∃ (e : Fin 768), ∃ (i : BitVec 4), ∃ (imm : BitVec 32), ∃ (s : State), let w := BitVec.ofNat 64 (8 * 2 ^ 60 + 2 * 2 ^ 57 + i.toNat * 2 ^ 53 + imm.toNat); let g := engOf s e; Issues s e w) ∧
    (∃ (e : Fin 768), ∃ (i : BitVec 4), ∃ (imm : BitVec 32), ∃ (s : State), let w := BitVec.ofNat 64 (8 * 2 ^ 60 + 3 * 2 ^ 57 + i.toNat * 2 ^ 53 + imm.toNat); let g := engOf s e; Issues s e w) ∧
    (∃ (e : Fin 768), ∃ (v : BitVec 5), ∃ (wc : BitVec 2), ∃ (imm : BitVec 32), ∃ (s : State), let w := BitVec.ofNat 64 (9 * 2 ^ 60 + v.toNat * 2 ^ 55 + wc.toNat * 2 ^ 53 + imm.toNat); let g := engOf s e; Issues s e w) ∧
    (∃ (e : Fin 768), ∃ (s : State), let w := BitVec.ofNat 64 (10 * 2 ^ 60 + 1 * 2 ^ 52); let g := engOf s e; Issues s e w) :=
  ⟨⟨0, 1, 0x20, upE, by decide +kernel⟩,
    ⟨0, 1, 0x20, upE, by decide +kernel⟩,
    ⟨0, 1, 0x20, upE, by decide +kernel⟩,
    ⟨0, 1, 0x20, upE, by decide +kernel⟩,
    ⟨0, 1, 0, 0x20, upE, by decide +kernel⟩,
    ⟨0, upE, by decide +kernel⟩⟩

/-- What Obligations.ControlResults assumes can be met, part 4. -/
theorem wit_ControlResults_4 :
    (∃ (e : Fin 768), ∃ (s : State), let w := BitVec.ofNat 64 (10 * 2 ^ 60 + 2 * 2 ^ 52); let g := engOf s e; Issues s e w) ∧
    (∃ (e : Fin 768), ∃ (s : State), let w := BitVec.ofNat 64 (10 * 2 ^ 60 + 3 * 2 ^ 52); let g := engOf s e; Issues s e w) ∧
    (∃ (e : Fin 768), ∃ (s : State), let w := BitVec.ofNat 64 (10 * 2 ^ 60 + 4 * 2 ^ 52); let g := engOf s e; Issues s e w) ∧
    (∃ (e : Fin 768), ∃ (s : State), let w := BitVec.ofNat 64 (10 * 2 ^ 60 + 5 * 2 ^ 52); let g := engOf s e; Issues s e w) ∧
    (∃ (e : Fin 768), ∃ (n : BitVec 4), ∃ (s : State), let w := BitVec.ofNat 64 (10 * 2 ^ 60 + 6 * 2 ^ 52 + n.toNat * 2 ^ 48); let g := engOf s e; Issues s e w) ∧
    (∃ (e : Fin 768), ∃ (s : State), let w := BitVec.ofNat 64 (10 * 2 ^ 60 + 7 * 2 ^ 52); let g := engOf s e; Issues s e w) :=
  ⟨⟨0, upI, by decide +kernel⟩,
    ⟨0, upD, by decide +kernel⟩,
    ⟨0, upE, by decide +kernel⟩,
    ⟨0, upE, by decide +kernel⟩,
    ⟨0, 8, upE, by decide +kernel⟩,
    ⟨0, upE, by decide +kernel⟩⟩

/-- What Obligations.ControlResults assumes can be met, part 5. -/
theorem wit_ControlResults_5 :
    (∃ (e : Fin 768), ∃ (y : Bool), ∃ (r : BitVec 4), ∃ (addr : BitVec 16), ∃ (s : State), let w := BitVec.ofNat 64 (11 * 2 ^ 60 + y.toNat * 2 ^ 59 + 0 * 2 ^ 56 + r.toNat * 2 ^ 51 + addr.toNat * 2 ^ 16); let g := engOf s e; let q := addr.toNat; Issues s e w) ∧
    (∃ (e : Fin 768), ∃ (y : Bool), ∃ (r : BitVec 4), ∃ (addr : BitVec 16), ∃ (s : State), let w := BitVec.ofNat 64 (11 * 2 ^ 60 + y.toNat * 2 ^ 59 + 1 * 2 ^ 56 + r.toNat * 2 ^ 51 + addr.toNat * 2 ^ 16); let g := engOf s e; let q := addr.toNat; Issues s e w) ∧
    (∃ (e : Fin 768), ∃ (y : Bool), ∃ (v : BitVec 5), ∃ (addr : BitVec 16), ∃ (s : State), let w := BitVec.ofNat 64 (11 * 2 ^ 60 + y.toNat * 2 ^ 59 + 2 * 2 ^ 56 + v.toNat * 2 ^ 51 + addr.toNat * 2 ^ 16); let g := engOf s e; let q := addr.toNat; Issues s e w) ∧
    (∃ (e : Fin 768), ∃ (y : Bool), ∃ (v : BitVec 5), ∃ (addr : BitVec 16), ∃ (s : State), let w := BitVec.ofNat 64 (11 * 2 ^ 60 + y.toNat * 2 ^ 59 + 3 * 2 ^ 56 + v.toNat * 2 ^ 51 + addr.toNat * 2 ^ 16); let g := engOf s e; let q := addr.toNat; Issues s e w) :=
  ⟨⟨0, true, 1, 0x24, upE, by decide +kernel⟩,
    ⟨0, true, 1, 0x24, upE, by decide +kernel⟩,
    ⟨0, true, 1, 0x40, upE, by decide +kernel⟩,
    ⟨0, true, 1, 0x40, upE, by decide +kernel⟩⟩

/-- What Obligations.EngineRows assumes can be met, part 1. -/
theorem wit_EngineRows_1 :
    (∃ (e : Fin 768), ∃ (s : State), (engOf s e).power = some false) ∧
    (∃ (e : Fin 768), ∃ (s : State), (engOf s e).power = some true) ∧
    (∃ (e : Fin 768), ∃ (s : State), let g := cyclesPass (engOf s e).wait (engOf s e); (engClocked s e = true) ∧ (engIssues (engOf s e) = true) ∧ (debugDue (engOf s e) = none) ∧ (irqDue s e = true)) ∧
    (∃ (e : Fin 768), ∃ (s : State), let g := { engOf s e with state := EngState.running }; (engClocked s e = true) ∧ ((engOf s e).state = .waiting) ∧ (irqActive s e = true)) ∧
    (∃ (e : Fin 768), ∃ (s : State), let g := engOf s e; (engClocked s e = true) ∧ (engIssues g = true) ∧ (g.cycles = g.timer)) ∧
    (∃ (e : Fin 768), ∃ (c i : Nat), ∃ (s : State), let g := engOf s e; (engClocked s e = true) ∧ (g.state = .running) ∧ (debugDue g = some (c, i))) :=
  ⟨⟨3, { up with eng := [(3, { power := some false })] }, by decide +kernel⟩,
    ⟨3, { up with eng := [(3, { state := .off, power := some true })] }, by decide +kernel⟩,
    ⟨0, upP, by decide +kernel⟩,
    ⟨0, { upP with eng := [(0, { state := .waiting, pend := 0x100, irqEn := 0x100 })] }, by decide +kernel⟩,
    ⟨0, upE, by decide +kernel⟩,
    ⟨0, 3, 0, { up with eng := [(0, { state := .running, haltReq := true })] }, by decide +kernel⟩⟩

/-- What Obligations.EngineRows assumes can be met, part 2. -/
theorem wit_EngineRows_2 :
    (∃ (e : Fin 768), ∃ (c i : Nat), ∃ (s : State), let g := engOf s e; (engClocked s e = true) ∧ (g.state = .waiting) ∧ ((g.dbgEvt = some (c, i) ∨ (g.dbgEvt = none ∧ g.haltReq = true ∧ c = 3 ∧ i = 0)))) ∧
    (∃ (e : Fin 768), ∃ (w : BitVec 64), ∃ (s : State), ((engOf s e).frozen = some w) ∧ (engClocked s e = true) ∧ (engIssues (engOf s e) = true)) ∧
    (∃ (e : Fin 768), ∃ (v : BitVec 32), ∃ (s : State), let g := engOf s e; (engClocked s e = true) ∧ (g.state ≠ .off ∧ g.state ≠ .notready)) ∧
    (∃ (e : Fin 768), ∃ (v : BitVec 32), ∃ (s : State), let g := engOf s e; (engClocked s e = true) ∧ (g.state ≠ .off ∧ g.state ≠ .notready)) ∧
    (∃ (e : Fin 768), ∃ (v : BitVec 32), ∃ (s : State), let g := engOf s e; (engClocked s e = true) ∧ (g.state ≠ .off ∧ g.state ≠ .notready)) ∧
    (∃ (e : Fin 768), ∃ (v : BitVec 32), ∃ (s : State), let g := engOf s e; (engClocked s e = true) ∧ (g.state ≠ .off ∧ g.state ≠ .notready)) :=
  ⟨⟨0, 3, 0, { up with eng := [(0, { state := .waiting, haltReq := true })] }, by decide +kernel⟩,
    ⟨0, 0, { up with eng := [(0, { state := .running, frozen := some 0 })] }, by decide +kernel⟩,
    ⟨0, 0xFFFFFFFF, upE, by decide +kernel⟩,
    ⟨0, 0xFFFFFFFF, upE, by decide +kernel⟩,
    ⟨0, 0xFFFFFFFF, upE, by decide +kernel⟩,
    ⟨0, 0xFFFFFFFF, upE, by decide +kernel⟩⟩

/-- What Obligations.EngineRows assumes can be met, part 3. -/
theorem wit_EngineRows_3 :
    (∃ (e : Fin 768), ∃ (c : Fin 4), ∃ (v : BitVec 32), ∃ (s : State), let d := dmaOf s e c; let ctrl := maskMerge d.ctrl (v.setWidth 10) 0x3F9#10; (engClocked s e = true) ∧ ((engOf s e).state ≠ .off ∧ (engOf s e).state ≠ .notready) ∧ (d.busy = false)) ∧
    (∃ (e : Fin 768), ∃ (c : Fin 4), ∃ (v : BitVec 32), ∃ (s : State), let d := dmaOf s e c; (engClocked s e = true) ∧ ((engOf s e).state ≠ .off ∧ (engOf s e).state ≠ .notready) ∧ (d.busy = true)) ∧
    (∃ (e : Fin 768), ∃ (c : Fin 4), ∃ (v : BitVec 32), ∃ (s : State), let d := dmaOf s e c; let ctrl := maskMerge d.ctrl (v.setWidth 10) 0x3F9#10; (engClocked s e = true) ∧ ((engOf s e).state ≠ .off ∧ (engOf s e).state ≠ .notready) ∧ (v.getLsbD 31 = false)) ∧
    (∃ (e : Fin 768), ∃ (c : Fin 4), ∃ (v : BitVec 32), ∃ (s : State), let d := dmaOf s e c; (engClocked s e = true) ∧ ((engOf s e).state ≠ .off ∧ (engOf s e).state ≠ .notready)) ∧
    (∃ (e : Fin 768), ∃ (c : Fin 4), ∃ (txn : BitVec 16), ∃ (t : Tx), ∃ (s : State), let k := txKey (.eng e c) txn.toNat; let d := dmaOf s e c; let s2 := dropTx s k; (tabFind s.vent.txs k = some t) ∧ (engClocked s e = true) ∧ (t.init = .eng e c ∧ t.phase = .rsp ∧ t.resp = rOk ∧ cmdReads t.cmd = false) ∧ (t.lost = false ∧ t.gone = false ∧ inOrder s k t = true)) :=
  ⟨⟨0, 2, 0x70000001, upE, by decide +kernel⟩,
    ⟨0, 2, 0x70000001, upB, by decide +kernel⟩,
    ⟨0, 2, 0x70000001, upB, by decide +kernel⟩,
    ⟨0, 2, 0x70000001, upE, by decide +kernel⟩,
    ⟨0, 1, 7, upTx, { upE with vent := { up.vent with txs := [(txKey (.eng 0 1) 7, upTx)] } }, by decide +kernel⟩⟩

/-- What Obligations.EngineBoundary assumes can be met, part 1. -/
theorem wit_EngineBoundary_1 :
    (∃ (e : Fin 768), ∃ (d a b : BitVec 4), ∃ (rest : BitVec 64), ∃ (s : State), let g := engOf s e; (engClocked s e && engIssues g && g.frozen.isNone) = false) ∧
    (∃ (e : Fin 768), ∃ (d a b : BitVec 4), ∃ (rest : BitVec 64), ∃ (s : State), let w := withM rest 4 (fmtS 1 d.toNat a.toNat (b.toNat * 16)); let g := engOf s e; let s1 := toEng s e { g with stored := [] }; (engClocked s e = true ∧ engIssues g = true ∧ g.frozen = none) ∧ (g.wait = 0 ∧ g.spIn = 0 ∧ g.spOut = 0)) :=
  ⟨⟨0, 1, 2, 3, 0, up, by decide +kernel⟩,
    ⟨0, 1, 2, 3, 0, upE, by decide +kernel⟩⟩

/-- What Obligations.EngineFrame assumes can be met, part 1. -/
theorem wit_EngineFrame_1 :
    (∃ (e : Nat), ∃ (b : Bundle), ∃ (s : State), let g := engOf s e; let t := applyBundle s e b; streamOp b = none) :=
  ⟨0, .par none .none .none .none, upE, by decide +kernel⟩

/-- What Obligations.EngineLanding assumes can be met, part 1. -/
theorem wit_EngineLanding_1 :
    (∃ (e : Nat), ∃ (p : Option (Nat × Nat)), ∃ (m : MOp), ∃ (x y : SlotOp), ∃ (s : State), let b : Bundle := .par p m x y; let g := engOf s e; let t := engOf (applyBundle s e b) e; (streamOp b = none) ∧ (conflicts (bundleWrites s e b) = false) ∧ (((∀ l k v, (l, Dest.s k v) ∈ bundleWrites s e b → k < 16) ∧ (∀ l k v, (l, Dest.p k v) ∈ bundleWrites s e b → k < 8)))) :=
  ⟨0, none, .none, .none, .none, upE, rfl, rfl, by simp [bundleWrites, mWrites, slotWrites, slotPost, storeWord], by simp [bundleWrites, mWrites, slotWrites, slotPost, storeWord]⟩

/-- What Obligations.RequestHeaders assumes can be met, part 1. -/
theorem wit_RequestHeaders_1 :
    (∃ (h : VHdr), ∃ (up : Fin 16), ∃ (r : Route), ∃ (s : State), let x (cmd : Nat) : Hdr := rowHdr h cmd; let s1 := setVent s { s.vent with trkWait := s.vent.trkWait.filter (· != gatePort) }; let go (cmd u : Nat) : State := travel s1 (x cmd) r h.pk u; (h.init = .mgmt) ∧ (operating s = true) ∧ (tabFind s.vent.txs (txKey h.init h.txn.toNat) = none) ∧ (trackersHeld s .mgmt < 256 ∧ trackersGranted s < 64512 ∧ trkTurn s gatePort = true) ∧ (h.addr.toNat < controlBase ∧ liveRoute s h.addr.toNat = some r ∧ inFull s r = false) ∧ (gwAdmits s .mgmt (samKind r.raw) (samForm r.raw h.addr.toNat / 64) 1 none = true) ∧ (behind s (rowHdr h 0x20) (some r) = false)) ∧
    (∃ (h : VHdr), ∃ (up : Fin 16), ∃ (s : State), let no (cmd code : Nat) : State := noInject s (rowHdr h cmd) code; (h.init = .mgmt) ∧ (operating s = true) ∧ (tabFind s.vent.txs (txKey h.init h.txn.toNat) = none) ∧ (h.addr.toNat < controlBase ∧ liveRoute s h.addr.toNat = none)) ∧
    (∃ (h : VHdr), ∃ (up : Fin 16), ∃ (s : State), let no (cmd : Nat) : State := noInject s (rowHdr h cmd) rGated; (h.init = .mgmt) ∧ (entering s = true) ∧ (tabFind s.vent.txs (txKey h.init h.txn.toNat) = none)) ∧
    (∃ (p : Fin 128), ∃ (cmd : BitVec 8), ∃ (addr : BitVec 52), ∃ (be : BitVec 64), ∃ (len : BitVec 5), ∃ (aux : BitVec 64), ∃ (tag : BitVec 8), ∃ (qos hint : BitVec 2), ∃ (s : State), let base := tabGet s.vent.wneed p 0; let code := if entering s || dieOf s (p / 16) != .on then some rGated else if partRefuses s p then some rTenantReset else if !lenFits cmd.toNat len.toNat || hint.toNat = 3 then some rSlverr else none; let q : ApReq := { cmd := cmd.toNat, addr := addr.toNat, be := be, len := len.toNat, aux := aux, tag := tag.toNat, hint := hint.toNat, wbase := base, qos := qos, code := code }; let s1 := setVent s { s.vent with wneed := tabPut s.vent.wneed p (base + len.toNat), apq := tabPut s.vent.apq p (tabGet s.vent.apq p [] ++ [q]) }; (serving s = true) ∧ (partRuns s p = true) ∧ (tagBusy s p tag.toNat = false)) ∧
    (∃ (p : Fin 128), ∃ (data : BitVec 512), ∃ (last : Bool), ∃ (s : State), let n := tabGet s.vent.wrecv p 0; (serving s = true) ∧ (partRuns s p = true) ∧ (n < tabGet s.vent.wneed p 0)) :=
  ⟨⟨{ init := .mgmt, txn := 5, addr := 0x40, be := 0, len := 1, aux := 0, hint := 0, pk := {} }, 2, { entry := 0, raw := 2 ^ 63 + 23 * 2 ^ 52 + 2 ^ 16, part := 0, epoch := 0 }, { up with obj := [(samKey 0, 2 ^ 63 + 23 * 2 ^ 52 + 2 ^ 16)] }, by decide +kernel⟩,
    ⟨{ init := .mgmt, txn := 5, addr := 0x40, be := 0, len := 1, aux := 0, hint := 0, pk := {} }, 2, up, by decide +kernel⟩,
    ⟨{ init := .mgmt, txn := 5, addr := 0x40, be := 0, len := 1, aux := 0, hint := 0, pk := {} }, 2, { up with rst := { up.rst with standby := .entering } }, by decide +kernel⟩,
    ⟨0, 1, 0x40, 0, 0, 0, 9, 0, 0, upR, by decide +kernel⟩,
    ⟨0, 5, true, { upR with vent := { up.vent with wneed := [(0, 1)] } }, by decide +kernel⟩⟩

/-- What Obligations.TransactionPhases assumes can be met, part 1. -/
theorem wit_TransactionPhases_1 :
    (∃ (i : Init), ∃ (txn : BitVec 16), ∃ (pk : Pkt), ∃ (t : Tx), ∃ (s : State), let k := txKey i txn.toNat; let s1 := headerOk (fromRemote s t.target 2 pk 1) pk; (serving s = true) ∧ (tabFind s.vent.txs k = some t) ∧ (t.init = i ∧ t.phase = .pull ∧ t.lost = false ∧ inOrder s k t = true) ∧ (pk.herr ≠ 2 ∧ pk.odd = .fine)) ∧
    (∃ (i : Init), ∃ (txn : BitVec 16), ∃ (code : BitVec 4), ∃ (line : BitVec 512), ∃ (pk : Pkt), ∃ (t : Tx), ∃ (s : State), let k := txKey i txn.toNat; (serving s = true) ∧ (tabFind s.vent.txs k = some t) ∧ (t.init = i ∧ t.phase = .rsp ∧ t.lost = false ∧ inOrder s k t = true) ∧ (pk.herr ≠ 2 ∧ pk.odd = .fine)) ∧
    (∃ (i : Init), ∃ (txn : BitVec 16), ∃ (code : BitVec 4), ∃ (line : BitVec 512), ∃ (pk : Pkt), ∃ (t : Tx), ∃ (p hpa : Nat), ∃ (s : State), let k := txKey i txn.toNat; (serving s = true) ∧ (tabFind s.vent.txs k = some t) ∧ (t.init = i ∧ t.lost = false) ∧ (t.target = .host p hpa ∧ t.phase = .atTarget)) ∧
    (∃ (i : Init), ∃ (txn : BitVec 16), ∃ (code : BitVec 4), ∃ (line : BitVec 512), ∃ (pk : Pkt), ∃ (t : Tx), ∃ (d a : Nat), ∃ (c : Bool), ∃ (s : State), let k := txKey i txn.toNat; let u := headerOk (fromRemote s t.target 2 pk 1) pk; (serving s = true) ∧ (tabFind s.vent.txs k = some t) ∧ (t.init = i ∧ t.lost = false ∧ cmdReads t.cmd = false) ∧ (t.target = .remote d a c) ∧ ((t.phase = .atTarget ∨ t.phase = .pull)) ∧ (pk.herr ≠ 2 ∧ pk.odd = .fine)) ∧
    (∃ (i : Init), ∃ (txn : BitVec 16), ∃ (code : BitVec 4), ∃ (line : BitVec 512), ∃ (data : List (BitVec 512)), ∃ (poison : Bool), ∃ (up : Fin 16), ∃ (pk : Pkt), ∃ (t : Tx), ∃ (s : State), let k := txKey i txn.toNat; let gone (u : State) : State := putTx u k { t with lost := true }; (serving s = true) ∧ (tabFind s.vent.txs k = some t) ∧ (t.init = i ∧ t.lost = false ∧ inOrder s k t = true) ∧ (pk.herr = 2)) ∧
    (∃ (i : Init), ∃ (txn : BitVec 16), ∃ (code : BitVec 4), ∃ (line : BitVec 512), ∃ (data : List (BitVec 512)), ∃ (poison : Bool), ∃ (up : Fin 16), ∃ (pk : Pkt), ∃ (c : BitVec 8), ∃ (v : BitVec 3), ∃ (t : Tx), ∃ (s : State), let k := txKey i txn.toNat; let odd (u : State) (a : Nat) : State := loseTx k t (v == 0#3) (packetOdd (headerOk u pk) c.toNat v.toNat a); (serving s = true) ∧ (tabFind s.vent.txs k = some t) ∧ (t.init = i ∧ t.lost = false ∧ inOrder s k t = true) ∧ (pk.herr ≠ 2 ∧ pk.odd = .reserved c v)) :=
  ⟨⟨.mgmt, 5, {}, { wTx with phase := .pull }, { up with vent := { up.vent with txs := [(txKey .mgmt 5, { wTx with phase := .pull })] } }, by decide +kernel⟩,
    ⟨.mgmt, 5, 0, 0, {}, { wTx with phase := .rsp }, { up with vent := { up.vent with txs := [(txKey .mgmt 5, { wTx with phase := .rsp })] } }, by decide +kernel⟩,
    ⟨.mgmt, 5, 0, 0, {}, { wTx with phase := .atTarget, target := .host 1 64 }, 1, 64, { up with vent := { up.vent with txs := [(txKey .mgmt 5, { wTx with phase := .atTarget, target := .host 1 64 })] } }, by decide +kernel⟩,
    ⟨.mgmt, 5, 3, 0, {}, { wTx with phase := .pull, target := .remote 1 64 false }, 1, 64, false, { up with vent := { up.vent with txs := [(txKey .mgmt 5, { wTx with phase := .pull, target := .remote 1 64 false })] } }, by decide +kernel⟩,
    ⟨.mgmt, 5, 0, 0, [], false, 0, { herr := 2, hop := 2 }, { wTx with phase := .rsp }, { up with vent := { up.vent with txs := [(txKey .mgmt 5, { wTx with phase := .rsp })] } }, by decide +kernel⟩,
    ⟨.mgmt, 5, 0, 0, [], false, 0, { odd := .reserved 0xFF 7 }, 0xFF, 7, { wTx with phase := .rsp }, { up with vent := { up.vent with txs := [(txKey .mgmt 5, { wTx with phase := .rsp })] } }, by decide +kernel⟩⟩

/-- What Obligations.TransactionPhases assumes can be met, part 2. -/
theorem wit_TransactionPhases_2 :
    (∃ (i : Init), ∃ (txn : BitVec 16), ∃ (data : List (BitVec 512)), ∃ (poison : Bool), ∃ (up : Fin 16), ∃ (pk : Pkt), ∃ (t : Tx), ∃ (s : State), let k := txKey i txn.toNat; let d := match i with | .ap _ | .eng _ _ | .dbg _ => t.data | _ => data; (serving s = true) ∧ (tabFind s.vent.txs k = some t) ∧ (t.init = i ∧ t.phase = .data ∧ t.lost = false ∧ inOrder s k t = true) ∧ (pk.herr ≠ 2 ∧ pk.odd = .fine)) ∧
    (∃ (i : Init), ∃ (txn : BitVec 16), ∃ (t : Tx), ∃ (s : State), let k := txKey i txn.toNat; let d := srcPort i + t.cmd * 65536; let s1 := muteTx (logEvT s 0x2803 sevErr d t.tenant gatePort) k; let s2 := if (pointOf i).isSome then recordFault s1 t.tenant 3 d else s1; let t1 : Tx := { t with tracked := false, lost := false }; (serving s = true) ∧ (tabFind s.vent.txs k = some t) ∧ (t.init = i ∧ t.tracked = true)) ∧
    (∃ (p : Fin 128), ∃ (id : BitVec 8), ∃ (resp : BitVec 4), ∃ (data : BitVec 512), ∃ (b : Inbound), ∃ (k : Nat), ∃ (t : Tx), ∃ (s : State), let s1 := setVent s { s.vent with inb := tabDel s.vent.inb (p * 256 + id.toNat) }; (serving s = true) ∧ (partRuns s p = true) ∧ (tabFind s.vent.inb (p * 256 + id.toNat) = some b) ∧ (b.tx = some k ∧ tabFind s.vent.txs k = some t)) ∧
    (∃ (point : Fin 224), ∃ (tenant : Fin 16), ∃ (addr : BitVec 52), ∃ (body : Mgmt), ∃ (pk : Pkt), ∃ (s : State), (operating s = true) ∧ (pk.herr ≠ 2 ∧ pk.odd = .fine)) ∧
    (∃ (pt t a : Nat), ∃ (f : Fetch), ∃ (r : Route), ∃ (s : State), let v := { s.vent with fetch := s.vent.fetch.erase f }; s.vent.fetch.find? (fun f => f.point == pt && f.tenant == t && f.addr == a && !f.absent) = some f) ∧
    (∃ (s : State), let u := s.vent.inval.foldl invalDone s; s.vent.inval ≠ []) :=
  ⟨⟨.mgmt, 5, [1], false, 0, {}, { wTx with phase := .data }, { up with vent := { up.vent with txs := [(txKey .mgmt 5, { wTx with phase := .data })] } }, by decide +kernel⟩,
    ⟨.mgmt, 5, wTx, { up with vent := { up.vent with txs := [(txKey .mgmt 5, wTx)] } }, by decide +kernel⟩,
    ⟨0, 3, 0, 7, { tx := some 5, cmd := 1, sub := 0, src := 0, tenant := 0, addr := 0, be := 0, aux := 0, data := [] }, 5, wTx, { upR with vent := { up.vent with txs := [(5, wTx)], inb := [(3, { tx := some 5, cmd := 1, sub := 0, src := 0, tenant := 0, addr := 0, be := 0, aux := 0, data := [] })] } }, by decide +kernel⟩,
    ⟨0, 0, 0, .fetch, {}, up, by decide +kernel⟩,
    ⟨0, 0, 0x40, { point := 0, tenant := 0, addr := 0x40 }, { entry := 0, raw := 0, part := 0, epoch := 0 }, { up with vent := { up.vent with fetch := [{ point := 0, tenant := 0, addr := 0x40 }] } }, by decide +kernel⟩,
    ⟨{ up with vent := { up.vent with inval := [{ entry := some 3, written := 0 }] } }, by decide +kernel⟩⟩

/-- What Obligations.TransactionPhases assumes can be met, part 3. -/
theorem wit_TransactionPhases_3 :
    (∃ (s : State), operating s = true) :=
  ⟨up, by decide +kernel⟩

/-- What Obligations.TenantTreatment assumes can be met, part 1. -/
theorem wit_TenantTreatment_1 :
    (∃ (n : Fin 16), ∃ (x : TenReset), ∃ (s : State), let s1 := drainWipe s (partsOf s n) (engsOf s n); (tabFind s.ten.resets n = some x) ∧ (x.step = 3)) ∧
    (∃ (n : Fin 16), ∃ (x : TenReset), ∃ (s : State), (tabFind s.ten.resets n = some x) ∧ (x.step = 5)) ∧
    (∃ (k : Fin 896), ∃ (x : Reassign), ∃ (s : State), let ps := if k.val < 128 then [k.val] else []; let es := if k.val < 128 then [] else [k.val - 128]; let s1 : State := { s with ten := { s.ten with reassign := tabPut s.ten.reassign k { owner := x.owner, step := 3 } } }; (tabFind s.ten.reassign k = some x) ∧ (x.step = 0) ∧ (reassignBlocked s k x.owner = false)) ∧
    (∃ (k : Fin 896), ∃ (x : Reassign), ∃ (s : State), let ps := if k.val < 128 then [k.val] else []; let es := if k.val < 128 then [] else [k.val - 128]; let s1 : State := if x.step = 3 then { drainWipe s ps es with ten := { s.ten with reassign := tabPut s.ten.reassign k { x with step := 5 } } } else s; let soft := if k.val < 128 then s1.vent.soft.filter (fun b => b.2 != k.val) else s1.vent.soft; (tabFind s.ten.reassign k = some x) ∧ (x.step ≠ 0)) :=
  ⟨⟨3, { step := 3, source := 1 }, { up with ten := { up.ten with resets := [(3, { step := 3, source := 1 })] } }, by decide +kernel⟩,
    ⟨3, { step := 5, source := 1 }, { up with ten := { up.ten with resets := [(3, { step := 5, source := 1 })] } }, by decide +kernel⟩,
    ⟨130, { owner := 2, step := 0 }, { up with ten := { up.ten with reassign := [(130, { owner := 2, step := 0 })] } }, by decide +kernel⟩,
    ⟨130, { owner := 2, step := 3 }, { up with ten := { up.ten with reassign := [(130, { owner := 2, step := 3 })] } }, by decide +kernel⟩⟩

/-- What Obligations.SnoopFlows assumes can be met, part 1. -/
theorem wit_SnoopFlows_1 :
    (∃ (a : Fin 6), ∃ (line : BitVec 46), ∃ (pk : Pkt), ∃ (f : Flow), ∃ (s : State), let s1 := headerOk (setFlow s line.toNat { f with toSend := setBit f.toSend a false, sent := setBit f.sent a true }) pk; let n (b : Bool) : Snoop := { inv := b, line := line.toNat, txn := f.trk, tenant := 0, epoch := 0 }; let out (b : Bool) : State := if a.val < 4 then setCxl s1 a { cxl s1 a with bi := some (n b) } else setGate s1 (a - 4) { gate s1 (a - 4) with snp := some (n b) }; (operating s = true) ∧ (tabFind s.hub.flows line.toNat = some f) ∧ (f.toSend.getLsbD a = true) ∧ (pk.herr ≠ 2 ∧ pk.odd = .fine)) ∧
    (∃ (a : Fin 6), ∃ (line : BitVec 46), ∃ (txn : BitVec 16), ∃ (data : BitVec 512), ∃ (pk : Pkt), ∃ (f : Flow), ∃ (s : State), let s1 := headerOk s pk; let f1 (shared : Bool) (d : Option (BitVec 512)) : Flow := { f with sent := setBit f.sent a false, toSend := setBit f.toSend a false, kept := if shared && !f.inv then setBit f.kept a true else f.kept, dirty := d.orElse fun _ => f.dirty }; let t (shared : Bool) (d : Option (BitVec 512)) : State := if (f1 shared d).sent = 0#6 && (f1 shared d).toSend = 0#6 then finishFlow s1 (f1 shared d) else setFlow s1 line.toNat (f1 shared d); (tabFind s.hub.flows line.toNat = some f) ∧ (f.sent.getLsbD a = true ∧ f.trk = txn) ∧ (pk.herr ≠ 2 ∧ pk.odd = .fine)) ∧
    (∃ (a : Fin 6), ∃ (line : BitVec 46), ∃ (txn : BitVec 16), ∃ (data : BitVec 512), ∃ (pk : Pkt), ∃ (s : State), let s1 := headerOk s pk; ((match tabFind s.hub.flows line.toNat with | some f => f.sent.getLsbD a && f.trk == txn | none => false) = false) ∧ (pk.herr ≠ 2 ∧ pk.odd = .fine)) ∧
    (∃ (a : Fin 6), ∃ (p : Fin 4), ∃ (line : BitVec 46), ∃ (txn : BitVec 16), ∃ (data : BitVec 512), ∃ (pk : Pkt), ∃ (s : State), let lost := headerBad s pk 2 (agentPort a) (linePort line.toNat); let lostH := headerBad s pk 1 (cxlPort p) (slicePort (hostSlice p (line.toNat * 64))); pk.herr = 2) ∧
    (∃ (p : Fin 4), ∃ (line : BitVec 46), ∃ (txn : BitVec 16), ∃ (shared : Bool), ∃ (data : Option (BitVec 512)), ∃ (f : Flow), ∃ (s : State), let x := cxl s p; let s1 := setCxl s p { x with fold := tabDel x.fold line.toNat }; let d := data.orElse fun _ => tabFind x.fold line.toNat; let f1 : Flow := { f with sent := setBit f.sent p false, toSend := setBit f.toSend p false, kept := if shared && !f.inv then setBit f.kept p true else f.kept, dirty := d.orElse fun _ => f.dirty }; (x.insecure = false) ∧ (tabFind s.hub.flows line.toNat = some f) ∧ (f.sent.getLsbD p = true ∧ f.trk = txn)) ∧
    (∃ (p : Fin 4), ∃ (line : BitVec 46), ∃ (txn : BitVec 16), ∃ (shared : Bool), ∃ (data : Option (BitVec 512)), ∃ (s : State), (cxl s p).insecure = true) :=
  ⟨⟨4, 0x100, {}, wFlow, { up with hub := { up.hub with flows := [(0x100, wFlow)] } }, by decide +kernel⟩,
    ⟨1, 0x100, 0, 7, {}, wFlow2, { up with hub := { up.hub with flows := [(0x100, wFlow2)] } }, by decide +kernel⟩,
    ⟨1, 0x100, 5, 7, {}, { up with hub := { up.hub with flows := [(0x100, wFlow2)] } }, by decide +kernel⟩,
    ⟨1, 1, 0x100, 0, 7, { herr := 2 }, upH, by decide +kernel⟩,
    ⟨1, 0x100, 0, true, none, wFlow2, { up with hub := { up.hub with flows := [(0x100, wFlow2)] } }, by decide +kernel⟩,
    ⟨1, 0x100, 0, true, none, { upH with hub := { upH.hub with ports := [(1, { insecure := true })] } }, by decide +kernel⟩⟩

/-- What Obligations.SnoopFlows assumes can be met, part 2. -/
theorem wit_SnoopFlows_2 :
    (∃ (a : Fin 6), ∃ (line : BitVec 46), ∃ (f : Flow), ∃ (s : State), let owns := f.owned && f.pres.getLsbD a; let s1 := if a.val < 4 then oBump (setCxl s a { cxl s a with fold := tabDel (cxl s a).fold line.toNat }) (O_SNOOP_FAILS a) 1 (2 ^ 32 - 1) else setGate s (a - 4) { gate s (a - 4) with snoopFails := min ((gate s (a - 4)).snoopFails + 1) (2 ^ 32 - 1) }; let s2 := logEv s1 0x2904 sevErr (a + if owns then 256 else 0); (tabFind s.hub.flows line.toNat = some f) ∧ (f.sent.getLsbD a = true)) ∧
    (∃ (line : BitVec 46), ∃ (r : FlowReq), ∃ (q : List FlowReq), ∃ (s : State), (operating s = true) ∧ (tabFind s.hub.flows line.toNat = none) ∧ (tabGet s.hub.waiting line.toNat [] = r :: q) ∧ ((ddrHeld s r.ref.chan r.ref.n = false ∨ (sliceGet s line.toNat).isSome = true))) ∧
    (∃ (line : BitVec 46), ∃ (f : Flow), ∃ (s : State), (operating s = true) ∧ (tabFind s.hub.flows line.toNat = some f)) ∧
    (∃ (p : Fin 4), ∃ (line : BitVec 46), ∃ (pk : Pkt), ∃ (h : HostLine), ∃ (s : State), let s1 := headerOk s pk; let r := s.hub.hlines.filter fun x => !(x.port == p.val && x.line == line.toNat); let t (l : List HostLine) (kind : Nat) : State := setCxl { s1 with hub := { s.hub with hlines := l } } p { cxl s p with hsnp := { hit := true, dirty := h.dirty, kept := kind, data := if h.dirty then h.data else 0#512, poison := h.dirty && h.poison } }; (operating s = true ∧ s.hub.cxlUp.getLsbD p = true ∧ (cxl s p).insecure = false) ∧ (hostFind s p line.toNat = some h) ∧ (pk.herr ≠ 2 ∧ pk.odd = .fine)) ∧
    (∃ (q : Nat), ∃ (s : State), let s1 := hostTrim s q s.hub.hlines.length; s.hub.evicting = some q) :=
  ⟨⟨1, 0x100, wFlow2, { up with hub := { up.hub with flows := [(0x100, wFlow2)] } }, by decide +kernel⟩,
    ⟨0x100, wFlow.req, [], { up with hub := { up.hub with waiting := [(0x100, [wFlow.req])] } }, by decide +kernel⟩,
    ⟨0x100, wFlow2, { up with hub := { up.hub with flows := [(0x100, wFlow2)] } }, by decide +kernel⟩,
    ⟨1, 0x40, {}, { port := 1, line := 0x40, data := 7, dirty := true, excl := true }, { up with hub := { up.hub with cxlUp := 15, hlines := [{ port := 1, line := 0x40, data := 7, dirty := true, excl := true }] } }, by decide +kernel⟩,
    ⟨16, { up with hub := { up.hub with evicting := some 16 } }, by decide +kernel⟩⟩

/-- What Obligations.HostRequests assumes can be met, part 1. -/
theorem wit_HostRequests_1 :
    (∃ (p : Fin 4), ∃ (tag : BitVec 16), ∃ (dpa : BitVec 52), ∃ (snp : Fin 4), ∃ (bad : Bool), ∃ (up : Fin 16), ∃ (s : State), let q (k : FlowKind) : HostReq := { port := p, tag := tag.toNat, addr := hostAddr s p (dpa.toNat / 64 * 64), kind := k, io := false, data := 0#512, mask := ~~~0#512, up := up.val }; memOpen s p = true) ∧
    (∃ (p : Fin 4), ∃ (tag : BitVec 16), ∃ (dpa : BitVec 52), ∃ (mv : Fin 3), ∃ (be : BitVec 64), ∃ (data : BitVec 512), ∃ (bad : Bool), ∃ (up : Fin 16), ∃ (s : State), let q (rec_ : Bool) : HostReq := { port := p, tag := tag.toNat, addr := hostAddr s p (dpa.toNat / 64 * 64), kind := .hostWrite mv rec_, io := false, data := data, mask := BitVec.ofNat 512 (byteMask 64 be.toNat), up := up.val }; memOpen s p = true) ∧
    (∃ (p : Fin 4), ∃ (tag : BitVec 16), ∃ (write : Bool), ∃ (x : BitVec 52), ∃ (be : BitVec 64), ∃ (data : BitVec 512), ∃ (up : Fin 16), ∃ (s : State), let q : HostReq := { port := p, tag := tag.toNat, addr := hostAddr s p (x.toNat / 64 * 64), kind := if write then .hostWrite 0 false else .rdCur, io := true, data := data, mask := BitVec.ofNat 512 (byteMask 64 be.toNat), up := up.val }; cxlLive s p = true) ∧
    (∃ (p : Fin 4), ∃ (s : State), let t (cmd : Nat) : State := freeStep (setCxl s p { cxl s p with mbox := some (cmd, s.freeCtr) }); (cxlLive s p = true) ∧ (oGet s (O_PORT_MODE p) = 3)) ∧
    (∃ (p : Fin 4), ∃ (dec : Fin 8), ∃ (db : Bool), ∃ (base size : BitVec 52), ∃ (ways : Fin 5), ∃ (gran : Fin 7), ∃ (s : State), let x := cxl s p; let refuse := (db && !x.flit256) || hdmOverlap s p base.toNat size.toNat db; let s1 := setCxl s p { x with decoders := tabPut x.decoders dec { committed := !refuse, error := refuse, db := db, base := base.toNat, size := size.toNat, ways := ways.val, gran := gran.val } }; (cxlLive s p = true) ∧ ((oGet s (O_PORT_MODE p) = 3 ∨ (oGet s (O_PORT_MODE p) = 2 ∧ db = true)))) :=
  ⟨⟨1, 5, 0x80, 1, false, 0, upH, by decide +kernel⟩,
    ⟨1, 5, 0x80, 1, 0xFF, 7, false, 0, upH, by decide +kernel⟩,
    ⟨1, 5, true, 0x80, 0xFF, 7, 0, upH, by decide +kernel⟩,
    ⟨1, upH, by decide +kernel⟩,
    ⟨1, 2, false, 0x1000, 0x1000, 0, 0, upH, by decide +kernel⟩⟩

/-- What Obligations.LinksAndGuests assumes can be met, part 1. -/
theorem wit_LinksAndGuests_1 :
    (∃ (p : Fin 4), ∃ (rate : BitVec 3), ∃ (width : BitVec 5), ∃ (f l i : Bool), ∃ (s : State), let s1 : State := { s with hub := { s.hub with cxlUp := setBit s.hub.cxlUp p true } }; let s2 := setCxl s1 p { cxl s1 p with rate := rate.toNat, width := width.toNat, flit256 := f, lopt := l, ideLink := i, retrain := false, insecure := false, ideMem := false, wait := [], decoders := (cxl s1 p).decoders.filter fun d => f || !d.2.db }; (operating s = true ∧ enabled s (unCxl p) = true) ∧ (oGet s (O_PORT_MODE p) ≠ 0 ∧ s.hub.cxlUp.getLsbD p = false) ∧ ((1 ≤ rate.toNat ∧ rate.toNat ≤ oGet s (O_PORT_MAX_RATE p) ∧ (f = true ∨ (l = false ∧ rate.toNat ≤ 5)))) ∧ (cxlRefOk s p = true) ∧ (((width = 4#5 ∨ width = 8#5 ∨ width = 16#5) ∧ width.toNat ≤ oGet s (O_PORT_MAX_WIDTH p)))) ∧
    (∃ (p : Fin 4), ∃ (s : State), s.hub.cxlUp.getLsbD p = true) ∧
    (∃ (p : Fin 4), ∃ (s : State), cxlLive s p = true) ∧
    (∃ (p : Fin 4), ∃ (s : State), let x := cxl s p; (cxlLive s p = true) ∧ (x.retrain = true)) ∧
    (∃ (p : Fin 4), ∃ (lines : List (BitVec 46)), ∃ (s : State), let d := p * 65536 + lines.length; let s1 := setCxl s p { cxl s p with insecure := true, ideMem := false }; (cxlLive s p = true) ∧ ((cxl s p).ideMem = true) ∧ (lines.length ≤ 32)) ∧
    (∃ (g : Fin 2), ∃ (s : State), (operating s = true ∧ enabled s (unGuest g) = true) ∧ (gateState s g = 1)) :=
  ⟨⟨1, 1, 8, true, false, false, { up with obj := [(O_PORT_MODE 1, 3), (O_REFCLK_FREQ 0, 1), (O_REFCLK_FREQ 1, 1), (O_REFCLK_FREQ 2, 1), (O_REFCLK_FREQ 3, 1)] }, by decide +kernel⟩,
    ⟨1, upH, by decide +kernel⟩,
    ⟨1, upH, by decide +kernel⟩,
    ⟨1, { upH with hub := { upH.hub with ports := [(1, { retrain := true })] } }, by decide +kernel⟩,
    ⟨1, [], { upH with hub := { upH.hub with ports := [(1, { ideMem := true })] } }, by decide +kernel⟩,
    ⟨0, { up with obj := [(O_GG_STATE 0, 1)] }, by decide +kernel⟩⟩

/-- What Obligations.LinksAndGuests assumes can be met, part 2. -/
theorem wit_LinksAndGuests_2 :
    (∃ (g : Fin 2), ∃ (s : State), let d := dropAgent s (4 + g); let n := d.2 + (gate s g).lost; let s1 := if n = 0 then d.1 else logEv d.1 0x2905 sevErr (4 + g + min n 0xFFFF * 256); (gateState s g = 3) ∧ ((gate s g).walked = false)) ∧
    (∃ (g : Fin 2), ∃ (tag : BitVec 16), ∃ (a : BitVec 52), ∃ (len : Fin 65), ∃ (line : BitVec 46), ∃ (data : BitVec 512), ∃ (dirty : Bool), ∃ (up : Fin 16), ∃ (s : State), let raw (w : Nat) : Nat := oGet s (if g.val = 0 then O_GG0_WINDOW w else O_GG1_WINDOW w); let goes (q : GuestReq) : State := if (gate s g).tokens < q.flits * (guestParts q).length then violation s g tag.toNat q.cls 0x7F 4 else match ggFind s g q.addr q.len with | none => violation s g tag.toNat q.cls 0x7F 1 | some w => if (q.needR = true ∧ (raw w).testBit 127 = false) ∨ (q.needW = true ∧ (raw w).testBit 126 = false) ∨ (q.needC = true ∧ (raw w).testBit 125 = false) then violation s g tag.toNat q.cls w 2 else if (raw w).testBit (112 + q.cls) = false then violation s g tag.toNat q.cls w 3 else (guestParts q).foldl (fun b p => guestRun b g (raw w % 16) (if (guestParts q).length = 1 then .guest g tag.toNat else .half g tag.toNat) p) s; let out (q : GuestReq) : State := if entering s = true then answerGuest s g { tag := tag.toNat, resp := rGated } else if enabled s (unGuest g) = false then answerGuest (answerGated s (unGuest g)) g { tag := tag.toNat, resp := rGated } else goes q; (serving s = true) ∧ (gateState s g = 2) ∧ (flowsOf s (isGuest g) < 128) ∧ (outsideFree s (.gate g 0) = true)) ∧
    (∃ (q : GuestReq), q.len ≤ 64) :=
  ⟨⟨0, { up with obj := [(O_GG_STATE 0, 3)] }, by decide +kernel⟩,
    ⟨0, 5, 0x40, 64, 1, 7, true, 0, { up with obj := tabPut (tabPut [] (O_GG_STATE 0) 2) (O_GG_BURST 0) 100 }, by decide +kernel⟩,
    ⟨{ cls := 0, needR := true, needW := false, needC := false, addr := 60, len := 8, kind := .devRead, data := 0#512, flits := 1, up := 0 }, by decide +kernel⟩⟩

/-- What Obligations.ChannelTraining assumes can be met, part 1. -/
theorem wit_ChannelTraining_1 :
    (∃ (c : Fin 16), ∃ (second : Bool), ∃ (d : Fin 3), ∃ (x8 r2 n2 : Bool), ∃ (s : State), (ddrTrains s c = true ∧ chanState s c = 0) ∧ ((chan s c).stage = 0 ∧ (chan s c).kept = false ∧ (chan s c).sized = false)) ∧
    (∃ (c : Fin 16), ∃ (s : State), let x := chan s c; let rate := nextRate (szDimms (oGet s (O_DDR_SIZING c))) (oGet s (O_DDR_RATE c)); ddrTrains s c = true ∧ chanState s c = 1 ∧ x.stage = 1) ∧
    (∃ (c : Fin 16), ∃ (bad : List (Fin 512)), ∃ (s : State), let x := chan s c; let d := c * 65536 + oGet s (O_DDR_RATE c) * 256 + (if x.usesStored then 1 else 0) + (if x.kept then 2 else 0); let gs := x.recs.map fun v => (v.1, readRec s c v.1 v.2); let queued := (gs.filter fun g => g.2.state == 1).map (·.1); let y := if s.ddr.keyKept then bad.foldl (fun a r => badRecord a r.val s.freeCtr) { x with regions := gs, walk := (gs.find? fun g => 2 ≤ g.2.state).map (·.1), queue := x.queue.filter queued.contains ++ queued.filter fun r => !x.queue.contains r } else { x with regions := [], recs := [], queue := [], walk := none, deriving_ := false, lines := [], counters := [], tags := [], ccache := [] }; let s1 := freeStep (setChan s c { y with stage := 0, resetN := true }); let s2 := oSet s1 O_TRAIN_STORED (oGet s1 O_TRAIN_STORED ||| (if x.usesStored && !x.kept then 2 ^ c.val else 0)); let s3 := ddrEv (oSet s2 (O_CHAN_STATE c) 2) 0x2A01 sevInfo d c; ddrTrains s c = true ∧ chanState s c = 1 ∧ x.stage = 2) ∧
    (∃ (s : State), trainStoreDue s = true) ∧
    (∃ (s : State), ∃ (f : FlashInfo), ∃ (d : Nat), (s.ld.flash = some f ∧ s.ld.dir = some d) ∧ (s.ddr.storing = true)) :=
  ⟨⟨3, true, 1, true, false, false, up, by decide +kernel⟩,
    ⟨3, { up with obj := [(O_CHAN_STATE 3, 1), (O_DDR_SIZING 3, 0x411)], ddr := { up.ddr with chans := [(3, { stage := 1, attempt := 2 })] } }, by decide +kernel⟩,
    ⟨3, [], { up with obj := [(O_CHAN_STATE 3, 1), (O_DDR_SIZING 3, 0x411)], ddr := { up.ddr with chans := [(3, { stage := 2, attempt := 2, usesStored := true })] } }, by decide +kernel⟩,
    ⟨{ up with rst := { up.rst with initDone := true }, obj := [(O_TRAIN_STORE, 1)], ddr := { up.ddr with limitsWritten := true }, ld := { up.ld with active := 0, dir := some 0, flash := some { count := 1, cap := 0x2000000, cells := (List.range 120).map fun i => (i, 0#8) } } }, by decide +kernel⟩,
    ⟨{ up with ddr := { up.ddr with storing := true }, ld := { up.ld with flash := some fuF, dir := some 0 } }, fuF, 0, by decide +kernel⟩⟩

/-- What Obligations.ChannelHappenings assumes can be met, part 1. -/
theorem wit_ChannelHappenings_1 :
    (∃ (c : Fin 16), ∃ (s : State), let x := chan s c; clocked s = true ∧ chanState s c = 2 ∧ x.alert = false) ∧
    (∃ (c : Fin 16), ∃ (s : State), let x := chan s c; let w := 0 < x.replays ∧ s.fw.dtime ≤ x.replayAt + 1000000; let n := if w then x.replays + 1 else 1; clocked s = true ∧ x.alert = true) ∧
    (∃ (c : Fin 16), ∃ (bank : BitVec 8), ∃ (s : State), chanWorks s c = true) ∧
    (∃ (c : Fin 16), ∃ (rank : Fin 4), ∃ (pays : List (Fin 4)), ∃ (s : State), let z := oGet s (O_DDR_SIZING c); let y := { chan s c with owed := (List.range 4).foldl (fun t b => tabPut t (4 * rank + b) (owedAt (chan s c) rank b + 1)) (chan s c).owed }; let w := pays.foldl (fun a b => refreshBank a rank b.val) y; let s1 := setChan s c w; (chanWorks s c = true) ∧ (rank.val < szDimms z * szRanks z)) ∧
    (∃ (c : Fin 16), ∃ (rank : Fin 4), ∃ (pays : List (Fin 4)), ∃ (s : State), let z := oGet s (O_DDR_SIZING c); (clocked s = true ∧ chanState s c = 2) ∧ (chanWorks s c = false) ∧ (rank.val < szDimms z * szRanks z)) ∧
    (∃ (c : Fin 16), ∃ (doubled : BitVec 4), ∃ (s : State), let z := oGet s (O_DDR_SIZING c); let on := doubled.toNat % 2 ^ (szDimms z * szRanks z) != 0; let old := oGet s O_REFRESH_2X; chanWorks s c = true) :=
  ⟨⟨3, { up with obj := [(O_CHAN_STATE 3, 2)], ddr := { up.ddr with chans := [(3, { replays := 3 })] } }, by decide +kernel⟩,
    ⟨3, { up with obj := [(O_CHAN_STATE 3, 2)], ddr := { up.ddr with chans := [(3, { alert := true, replays := 1 })] } }, by decide +kernel⟩,
    ⟨3, 5, { up with obj := [(O_CHAN_STATE 3, 2)] }, by decide +kernel⟩,
    ⟨3, 0, [1], { up with obj := [(O_CHAN_STATE 3, 2), (O_DDR_SIZING 3, 0x411)] }, by decide +kernel⟩,
    ⟨3, 0, [1], { up with obj := [(O_CHAN_STATE 3, 2), (O_DDR_SIZING 3, 0x411)], ddr := { up.ddr with chans := [(3, { alert := true })] } }, by decide +kernel⟩,
    ⟨3, 1, { up with obj := [(O_CHAN_STATE 3, 2), (O_DDR_SIZING 3, 0x411)] }, by decide +kernel⟩⟩

/-- What Obligations.ChannelHappenings assumes can be met, part 2. -/
theorem wit_ChannelHappenings_2 :
    (∃ (c : Fin 16), ∃ (line : BitVec 33), ∃ (l : DdrLine), ∃ (s : State), let x := chan s c; (chanWorks s c = true) ∧ (x.back.contains line.toNat = true) ∧ (tabFind x.lines line.toNat = some l)) ∧
    (∃ (c : Fin 16), ∃ (found : Fin 4), ∃ (s : State), let m := chanLines s c; let pos := (chan s c).patrol; let s1 := if pos < m then (ddrRead (counterTouch s c (pos / 32) false 0) c pos found 0).1 else if pos < m + m / 32 then counterRead s c (pos - m) found else if found = 1 then eccCorrected s c else if found = 0 then s else eccDetected s c pos; (chanWorks s c = true ∧ oGet s O_PATROL_HOURS ≠ 0) ∧ (ddrHeld s c pos = false)) ∧
    (∃ (c : Fin 16), ∃ (s : State), chanWorks s c = true) ∧
    (∃ (c : Fin 16), ∃ (line : Fin 32), ∃ (u : Fin 16), ∃ (r : Nat), ∃ (s : State), let w := (region (chan s c) r).wm.getD 0; let n := r * 2 ^ 24 + w; let s0 := counterTouch s c (n / 32) true (u / 4); let s1 := (List.range 32).foldl (fun a i => convertLine a c (n + i) (if i = line then u % 4 else 0)) s0; let x := chan s1 c; let s2 := freeStep (setChan s1 c (putCounts (setRegion x r { region x r with wm := some (w + 32) }) (n / 32) ((List.range 32).map fun i => (n + i, 0#12)))); (chanWorks s c = true) ∧ ((chan s c).walk = some r ∧ (chan s c).deriving_ = false)) ∧
    (∃ (c : Fin 16), ∃ (n r : Nat), ∃ (s : State), let g := region (chan s c) r; g.epoch ≠ 0xFFFFFFFF#32) :=
  ⟨⟨3, 7, { err := 1 }, { up with obj := [(O_CHAN_STATE 3, 2)], ddr := { up.ddr with chans := [(3, { back := [7], lines := [(7, { err := 1 })] })] } }, by decide +kernel⟩,
    ⟨3, 1, { up with obj := [(O_CHAN_STATE 3, 2), (O_PATROL_HOURS, 24), (O_DDR_SIZING 3, 0x411)] }, by decide +kernel⟩,
    ⟨3, { up with obj := [(O_CHAN_STATE 3, 2)] }, by decide +kernel⟩,
    ⟨3, 5, 1, 0, { up with obj := [(O_CHAN_STATE 3, 2), (O_DDR_SIZING 3, 0x411)], ddr := { up.ddr with chans := [(3, { walk := some 0, regions := [(0, { wm := some 64, state := 2, epoch := 1 })] })] } }, by decide +kernel⟩,
    ⟨3, 1, 0, { up with obj := [(O_CHAN_STATE 3, 2)] }, by decide +kernel⟩⟩

/-- What Obligations.LaneEvents assumes can be met, part 1. -/
theorem wit_LaneEvents_1 :
    (∃ (l : Fin 128), ∃ (s : State), let x := sline s l; let s1 := setLane (setStat s l (lStat s l ||| 0x1E#16)) l { x with adapt := if (oGet s (O_LANE_CTRL l)).testBit 7 then x.adapt else x.adapt + 1 }; (laneWorks s l = true ∧ laneAsked s l = true) ∧ ((sline s l).pllLost = false)) ∧
    (∃ (l : Fin 128), ∃ (s : State), let s1 := setLane (setStat s l ((lStat s l &&& 0xFFE5#16) ||| 0x20#16)) l { sline s l with pllLost := true }; let s2 := logEv s1 0x2B05 sevErr l; (laneWorks s l = true ∧ laneNow s l ≠ 2) ∧ ((sline s l).pllLost = false)) ∧
    (∃ (l : Fin 128), ∃ (s : State), (laneWorks s l = true) ∧ ((sline s l).pllLost = true)) ∧
    (∃ (l : Fin 128), ∃ (w : BitVec 256), ∃ (s : State), laneLogic s l = true) ∧
    (∃ (l : Fin 128), ∃ (s : State), let s1 := setStat (laneSend s l (idleWord &&& onesBelow (slineBits s l))) l (lStat s l ||| 0x80#16); (96 ≤ l.val ∧ laneWorks s l = true ∧ laneNow s l = 0) ∧ ((sline s l).pllLost = false ∧ (sline s l).txq = [])) ∧
    (∃ (l : Fin 128), ∃ (early : Bool), ∃ (s : State), (laneLogic s l = true ∧ laneNow s l = 0) ∧ ((lStat s l).getLsbD 2 = true)) :=
  ⟨⟨100, { up with obj := [(O_LANE_STATE 100, 1)], lanes := { up.lanes with lane := [(100, { goal := 0 })] } }, by decide +kernel⟩,
    ⟨100, { up with obj := [(O_LANE_STATE 100, 0)], lanes := { up.lanes with lane := [(100, { goal := 0 })] } }, by decide +kernel⟩,
    ⟨100, { up with lanes := { up.lanes with lane := [(100, { pllLost := true })] } }, by decide +kernel⟩,
    ⟨100, 7, { up with obj := [(O_PART_STATE 24, 1)] }, by decide +kernel⟩,
    ⟨100, { up with obj := [(O_PART_STATE 24, 1), (O_LANE_STATE 100, 0)] }, by decide +kernel⟩,
    ⟨100, false, { up with obj := [(O_PART_STATE 24, 1), (O_LANE_STATE 100, 0), (O_LANE_STATUS 100, 4)] }, by decide +kernel⟩⟩

/-- What Obligations.LaneEvents assumes can be met, part 2. -/
theorem wit_LaneEvents_2 :
    (∃ (l : Fin 128), ∃ (s : State), let s1 := setStat s l ((lStat s l &&& 0xFFF3#16) ||| 0x40#16); (laneWorks s l = true) ∧ (laneNow s l ≠ 2)) ∧
    (∃ (l : Fin 128), ∃ (lock : Bool), ∃ (bits errs : BitVec 48), ∃ (s : State), let s1 := if (lStat s l).getLsbD 8 = true then oBump (oBump s (O_PRBS_BITS l) bits.toNat (2 ^ 48 - 1)) (O_PRBS_ERRORS l) errs.toNat (2 ^ 48 - 1) else s; ((laneWorks s l = true ∧ (lock = false ∨ laneNow s l = 0))) ∧ ((oGet s (O_PRBS_CTRL l)).testBit 7 = true)) :=
  ⟨⟨100, { up with obj := [(O_PART_STATE 24, 1), (O_LANE_STATE 100, 0)] }, by decide +kernel⟩,
    ⟨100, true, 9, 1, { up with obj := [(O_PART_STATE 24, 1), (O_LANE_STATE 100, 0), (O_PRBS_CTRL 100, 128)] }, by decide +kernel⟩⟩

/-- What Obligations.PortBringup assumes can be met, part 1. -/
theorem wit_PortBringup_1 :
    (∃ (p : Fin 4), ∃ (s : State), let s1 := setBup s p { offer := oGet s (O_CASC_RATE_LIMIT p), downAt := (bup s p).downAt }; let s2 := oSet (oSet (oSet s1 (O_CASC_TRAIN_STATE p) 1) (O_CASC_LINK_STATE p) 1) (O_CASC_LANE_FAIL p) 0xFF; let t := (portLanes p).foldl (fun a l => freeStep (setLane (oSet (oSet (laneSet a l 0) (O_LANE_RATE l) 1) (O_LANE_TXEQ l) 0x24F) l { sline (oSet (oSet (laneSet a l 0) (O_LANE_RATE l) 1) (O_LANE_TXEQ l) 0x24F) l with fill := prbsSeed 5 (Config.free 31 (oSet (oSet (laneSet a l 0) (O_LANE_RATE l) 1) (O_LANE_TXEQ l) 0x24F).freeCtr) })) s2; portWants s p = true) ∧
    (∃ (p : Fin 4), ∃ (r : Fin 5), ∃ (s : State), portsMay s = true) ∧
    (∃ (p : Fin 4), ∃ (lane : Fin 8), ∃ (f : BitVec 4), ∃ (x : BitVec 64), ∃ (inv : Bool), ∃ (s0 : State), let s := if inv then oSet s0 (O_LANE_CTRL (64 + 8 * p + lane)) (oGet s0 (O_LANE_CTRL (64 + 8 * p + lane)) ^^^ 4) else s0; let b := bup s p; let t := oSet (oSet s (O_CASC_TRAIN_STATE p) 1) (O_CASC_LANE_FAIL p) (setBit (BitVec.ofNat 8 (oGet s (O_CASC_LANE_FAIL p))) lane true).toNat; let fl := setBit (BitVec.ofNat 8 (oGet s (O_CASC_LANE_FAIL p))) lane false; let why := if bitsAt x.toNat 38 2 ≠ strapMode s then 1 else if bitsAt x.toNat 48 16 ≠ oGet s O_PART_ID % 65536 ∨ bitsAt x.toNat 40 8 ≠ 1 then 2 else 0; let b1 := { b with seen := if why = 0 then tabPut b.seen lane (tabGet b.seen lane 0 + 1) else [], ack := b.ack || (why == 0 && x.toNat.testBit 30) }; let s2 := oSet (setBup (oSet (oSet s (O_CASC_LANE_FAIL p) fl.toNat) (O_CASC_PARTNER_CAPS p) x.toNat) p b1) (O_CASC_TRAIN_STATE p) (if fl = 0#8 then 2 else 1); ((portsMay s0 = true ∧ (trainState s0 p = 1 ∨ trainState s0 p = 2))) ∧ (x.toNat % 2 ^ 24 = 0)) ∧
    (∃ (p : Fin 4), ∃ (lane : Fin 8), ∃ (x : BitVec 64), ∃ (s : State), let l := 64 + 8 * p.val + lane.val; let s1 := oSet s (O_LANE_TXEQ l) (tapsAfter (oGet s (O_LANE_TXEQ l)) (x.toNat % 256)); let b := bup s1 p; let b1 := { b with partner := if bitsAt x.toNat 48 8 = 1 then (if lane = 0 then b.partner + 1 else b.partner) else 0 }; let s2 := setBup s1 p b1; let n := bitsAt x.toNat 40 8; (portsMay s = true ∧ trainState s p = 3) ∧ (bitsAt x.toNat 8 24 = 0)) ∧
    (∃ (p : Fin 4), ∃ (s : State), let b := bup s p; let s1 := oSet (setBup s p { b with rate := b.next, next := 0, measuring := b.fallback.isSome, failed := 0, passed := false, partner := 0 }) (O_CASC_TRAIN_STATE p) 3; ((portsMay s = true ∧ (trainState s p = 2 ∨ trainState s p = 3))) ∧ (b.next ≠ 0)) ∧
    (∃ (p : Fin 4), ∃ (s : State), let b := bup s p; (portsMay s = true ∧ trainState s p = 3) ∧ (b.next = 0 ∧ b.measuring = false ∧ b.passed = false)) :=
  ⟨⟨1, upK, by decide +kernel⟩,
    ⟨1, 2, upK, by decide +kernel⟩,
    ⟨1, 3, 3, 0x9640010000000000, true, { upK with obj := (O_CASC_TRAIN_STATE 1, 1) :: upK.obj }, by decide +kernel⟩,
    ⟨1, 3, 0x0001000000000000, { upK with obj := (O_CASC_TRAIN_STATE 1, 3) :: upK.obj }, by decide +kernel⟩,
    ⟨1, { upK with obj := (O_CASC_TRAIN_STATE 1, 2) :: upK.obj, lanes := { upK.lanes with port := [(1, { next := 3 })] } }, by decide +kernel⟩,
    ⟨1, { upK with obj := (O_CASC_TRAIN_STATE 1, 3) :: upK.obj }, by decide +kernel⟩⟩

/-- What Obligations.PortBringup assumes can be met, part 2. -/
theorem wit_PortBringup_2 :
    (∃ (p : Fin 4), ∃ (errors bits : Nat), ∃ (s : State), let b := bup s p; let s1 := setBup s p { b with measuring := false, passed := true, taps := (portLanes p).map fun l => (l, oGet s (O_LANE_TXEQ l)) }; let good := if b.rate < 5 then errors = 0 else errors * 100000 ≤ bits; (portsMay s = true ∧ trainState s p = 3) ∧ (b.measuring = true)) :=
  ⟨1, 0, 100, { upK with obj := (O_CASC_TRAIN_STATE 1, 3) :: upK.obj, lanes := { upK.lanes with port := [(1, { measuring := true, rate := 3 })] } }, by decide +kernel⟩

/-- What Obligations.CascadeLinks assumes can be met, part 1. -/
theorem wit_CascadeLinks_1 :
    (∃ (p : Fin 4), ∃ (fec : Fin 3), ∃ (ok : Bool), ∃ (seq ack : BitVec 16), ∃ (ackv nak : Bool), ∃ (back : BitVec 80), ∃ (s : State), let s0 := if fec = 1 then oBump s (O_CASC_FEC_CORRECTED p) 1 (2 ^ 32 - 1) else s; let x := cport s0 p; let room := List.zipWith min [8, 8, 8, 8, 8, 8, 34, 34, 4, 4] (x.credits.mapIdx fun i n => n + bitsAt back.toNat (8 * i) 8); let s1 := setCport s0 p { x with bad := false, heard := true, rxSeq := seq.toNat, rxCount := x.rxCount + 1, txAck := if ackv then ack.toNat else x.txAck, credits := room }; portsMay s = true ∧ trainState s p = 4) ∧
    (∃ (p : Fin 4), ∃ (s : State), portsMay s = true ∧ trainState s p = 4) ∧
    (∃ (p : Fin 4), ∃ (nonce : BitVec 64), ∃ (intact : Bool), ∃ (partner : Fin 6), ∃ (differ : BitVec 8), ∃ (s : State), let s0 := setCport s p { cport s p with peer := some nonce.toNat, txCount := 0, rxCount := 0 }; let s1 := pushMsg s0 p 2 (keyConfirm s0 p (lowerEnd s0 p)); let s2 := setTwin s1 { s1.twin with peerIntact := intact, partner := partner, windowsOk := differ == 0#8 }; (linkLive s p = true) ∧ (oGet s (O_CASC_LINK_STATE p) = 2)) ∧
    (∃ (p : Fin 4), ∃ (v : BitVec 64), ∃ (s : State), let s1 := oSet s (O_CASC_LINK_STATE p) 3; (linkLive s p = true) ∧ (oGet s (O_CASC_LINK_STATE p) = 2 ∧ (cport s p).peer.isSome = true)) ∧
    (∃ (p : Fin 4), ∃ (idx : BitVec 32), ∃ (s : State), let n := ((cport s p).session + 1) % 2 ^ 32; let s1 := pushMsg s p 3 n; (linkChecked s p = true) ∧ (portsMay s = true)) :=
  ⟨⟨1, 0, true, 1, 5, true, false, 3, { upK with obj := (O_CASC_TRAIN_STATE 1, 4) :: upK.obj }, by decide +kernel⟩,
    ⟨1, { upK with obj := (O_CASC_TRAIN_STATE 1, 4) :: upK.obj }, by decide +kernel⟩,
    ⟨1, 77, true, 1, 0, { upK with obj := (O_CASC_TRAIN_STATE 1, 4) :: (O_CASC_LINK_STATE 1, 2) :: upK.obj }, by decide +kernel⟩,
    ⟨1, 77, { upK with obj := (O_CASC_TRAIN_STATE 1, 4) :: (O_CASC_LINK_STATE 1, 2) :: upK.obj, casc := { upK.casc with ports := [(1, { peer := some 5 })] } }, by decide +kernel⟩,
    ⟨1, 1, { upK with obj := (O_CASC_TRAIN_STATE 1, 4) :: (O_CASC_LINK_STATE 1, 3) :: upK.obj }, by decide +kernel⟩⟩

/-- What Obligations.CascadeMembership assumes can be met, part 1. -/
theorem wit_CascadeMembership_1 :
    (∃ (s : State), let s1 := masterBack s; let m := oGet s1 O_CASC_MEMBERS; let s2 := setMembers (oSet s1 O_CASC_STATE 2) (if m.testBit 0 then m else m + 1); let m2 := oGet s2 O_CASC_MEMBERS; (cascRuns s = true ∧ strapCascId s = 0) ∧ ((∃ p, p < 4 ∧ linkChecked s p = true))) ∧
    (∃ (s : State), (cascRuns s = true) ∧ (strapCascId s ≠ 0 ∧ oGet s O_CASC_STATE ≠ 0)) ∧
    (∃ (dev : Fin 16), ∃ (part : BitVec 16), ∃ (id : BitVec 4), ∃ (dim : BitVec 8), ∃ (group : BitVec 64), ∃ (lc : BitVec 3), ∃ (st : BitVec 8), ∃ (t : BitVec 64), ∃ (s : State), let s0 := setCasc s { s.casc with polled := setBit s.casc.polled dev false }; let s1 := if st = 3#8 then raiseDtime s0 dev t.toNat else s0; let why := enumReason s1 part.toNat id.toNat dim.toNat group.toNat lc.toNat; let s2 := if why = 0 then setCasc s1 { s1.casc with assigned := setBit s1.casc.assigned dev true } else logEv s1 0x2C07 sevWarn (dev * 256 + why); (cascRuns s = true ∧ strapCascId s = 0) ∧ (s.casc.polled.getLsbD dev = true)) ∧
    (∃ (m : BitVec 16), ∃ (s : State), let s1 := setCasc s { s.casc with aligning := true, aligned := false, off20 := 0 }; (cascRuns s = true ∧ cascPlaced s = true) ∧ (strapCascId s ≠ 0)) ∧
    (∃ (dev : Fin 16), ∃ (s : State), let m := oGet s O_CASC_MEMBERS; let w := if m.testBit dev then m else m + 2 ^ dev.val; (cascRuns s = true) ∧ (strapCascId s = 0 ∧ s.casc.assigned.getLsbD dev = true)) ∧
    (∃ (dev : Fin 16), ∃ (s : State), let m := oGet s O_CASC_MEMBERS; let w := if m.testBit dev then m else m + 2 ^ dev.val; (cascRuns s = true ∧ strapCascId s ≠ 0 ∧ strapCascId s = dev) ∧ (s.casc.aligning = true ∧ s.casc.aligned = true)) :=
  ⟨⟨{ upK with obj := (O_CASC_TRAIN_STATE 1, 4) :: (O_CASC_LINK_STATE 1, 3) :: upK.obj }, by decide +kernel, 1, by decide +kernel⟩,
    ⟨{ upK2 with obj := (O_CASC_STATE, 1) :: upK2.obj }, by decide +kernel⟩,
    ⟨1, 0x9640, 1, 0x22, 0, 0, 1, 5, { upK with casc := { upK.casc with polled := 2#16 } }, by decide +kernel⟩,
    ⟨3, { upK2 with obj := (O_CASC_STATE, 1) :: upK2.obj }, by decide +kernel⟩,
    ⟨1, { upK with casc := { upK.casc with assigned := 2#16 } }, by decide +kernel⟩,
    ⟨1, { upK2 with casc := { upK2.casc with aligning := true, aligned := true } }, by decide +kernel⟩⟩

/-- What Obligations.CascadeMembership assumes can be met, part 2. -/
theorem wit_CascadeMembership_2 :
    (∃ (s : State), (cascRuns s = true) ∧ (strapCascId s ≠ 0 ∧ oGet s O_CASC_STATE = 2)) ∧
    (∃ (s : State), (cascRuns s = true) ∧ ((oGet s O_CASC_STATE = 2 ∨ oGet s O_CASC_STATE = 3))) ∧
    (∃ (p : Fin 4), ∃ (t : BitVec 64), ∃ (s : State), (cascRuns s = true ∧ linkChecked s p = true) ∧ (parentPort s = some p.val) ∧ ((s.casc.aligning = true ∨ oGet s O_CASC_STATE = 2))) ∧
    (∃ (p : Fin 4), ∃ (trip turn : BitVec 56), ∃ (t own : Nat), ∃ (s : State), let off : Int := ((own : Int) - t) * 1000 - ((trip.toNat : Int) - turn.toNat) / 2; let s1 := setCport s p { cport s p with timeRx := none }; let s2 := oSet (oSet s1 (O_CASC_LINK_DELAY p) (min ((trip.toNat - turn.toNat) / 2000) 0xFFFF)) O_DTIME_OFFSET ((off % 2 ^ 32).toNat); (cascRuns s = true ∧ linkChecked s p = true) ∧ ((cport s p).timeRx = some (t, own))) :=
  ⟨⟨{ upK2 with obj := (O_CASC_STATE, 2) :: upK2.obj }, by decide +kernel⟩,
    ⟨{ upK2 with obj := (O_CASC_STATE, 2) :: upK2.obj }, by decide +kernel⟩,
    ⟨1, 5, { upK2 with obj := (O_CASC_STATE, 2) :: (O_CASC_TRAIN_STATE 1, 4) :: (O_CASC_LINK_STATE 1, 3) :: upK2.obj }, by decide +kernel⟩,
    ⟨1, 5000, 1000, 7, 9, { upK2 with obj := (O_CASC_STATE, 2) :: (O_CASC_TRAIN_STATE 1, 4) :: (O_CASC_LINK_STATE 1, 3) :: upK2.obj, casc := { upK2.casc with ports := [(1, { timeRx := some (7, 9) })] } }, by decide +kernel⟩⟩

/-- What Obligations.TwinPair assumes can be met, part 1. -/
theorem wit_TwinPair_1 :
    (∃ (first : Bool), ∃ (s : State), let s0 := if first = true ∧ s.twin.linkOk = false ∧ s.twin.missed ≠ 0 ∧ s.twin.hbLost = false then goStale s else s; let n := if first = true then 1 else s0.twin.missed + 1; let s1 := setTwin s0 { s0.twin with missed := n, hbLost := 3 ≤ n }; let s2 := logEv s1 0x2C11 sevErr (twinState s1); twinRuns s = true) ∧
    (∃ (s : State), (twinRuns s = true) ∧ (twinState s = 3)) ∧
    (∃ (s : State), let s1 := if twinState s = 5 then s else fenceDevice s 1; (twinRuns s = true) ∧ (s.twin.linkOk = true)) ∧
    (∃ (s : State), (twinRuns s = true ∧ twinState s = 3) ∧ (s.twin.linkOk = true ∧ s.twin.sent = true)) ∧
    (∃ (s : State), let s1 := setTwin s { s.twin with gnt := true }; let s0 := setTwin s { s.twin with gnt := false }; twinRuns s = true) ∧
    (∃ (level : Bool), ∃ (s : State), twinRuns s = false) :=
  ⟨⟨false, upT, by decide +kernel⟩,
    ⟨upT, by decide +kernel⟩,
    ⟨upT, by decide +kernel⟩,
    ⟨{ upT with twin := { upT.twin with sent := true } }, by decide +kernel⟩,
    ⟨upT, by decide +kernel⟩,
    ⟨true, { up with obj := [] }, by decide +kernel⟩⟩

/-- What Obligations.TwinPair assumes can be met, part 2. -/
theorem wit_TwinPair_2 :
    (∃ (s : State), (twinRuns s = true ∧ twinState s = 3) ∧ (s.twin.request = true ∧ s.twin.gnt = false)) ∧
    (∃ (s : State), let s1 := setTwin s { s.twin with soloOver := true }; (twinRuns s = true ∧ twinState s = 1) ∧ (s.twin.linkOk = false)) ∧
    (∃ (seq : BitVec 32), ∃ (line : BitVec 46), ∃ (data : BitVec 512), ∃ (synced : Bool), ∃ (s : State), let s0 := pushMsg (setTwin s { s.twin with applied := s.twin.applied + 1 }) 3 8 ((s.twin.applied + 1) % 2 ^ 32); let s1 := if mirrorAdmits s line.toNat = true then (match refOfLine s0 line.toNat with | some m => memWrite s0 m data false 0 0 | none => s0) else gwEvent s 0 4; (twinRuns s = true ∧ s.twin.linkOk = true) ∧ ((twinState s = 2 ∨ twinState s = 3)) ∧ (seq.toNat = (s.twin.applied + 1) % 2 ^ 32)) ∧
    (∃ (seq : BitVec 32), ∃ (line : BitVec 46), ∃ (data : BitVec 512), ∃ (synced : Bool), ∃ (s : State), (twinRuns s = true ∧ s.twin.linkOk = true) ∧ ((twinState s = 2 ∨ twinState s = 3)) ∧ (seq.toNat ≠ (s.twin.applied + 1) % 2 ^ 32)) ∧
    (∃ (seq : BitVec 32), ∃ (s : State), let t := s.twin; let hit : Option MirrorRec := t.unacked.find? fun r => r.seq % 2 ^ 32 == seq.toNat; let s1 : State := match hit with | some r => releaseWaits (setTwin s { t with acked := r.seq, unacked := t.unacked.filter fun u => r.seq < u.seq }) r.seq | none => s; let upTo : Nat := (hit.map (·.seq)).getD 0; let done := s1.twin.copies.filter fun (c : Nat × Nat) => decide (c.2 ≤ upTo); let dirty := done.foldl (fun d c => clearGranule d c.1) s1.twin.dirty; let left := s1.twin.copies.filter fun (c : Nat × Nat) => !decide (c.2 ≤ upTo); let s2 := setTwin s1 { s1.twin with dirty := dirty, copies := left, copied := s1.twin.copied + done.length }; (twinRuns s = true ∧ twinState s = 4) ∧ (t.linkOk = true)) :=
  ⟨⟨{ upT with twin := { upT.twin with request := true } }, by decide +kernel⟩,
    ⟨{ upT with twin := {}, obj := [(O_TWIN_STATE, 1)] }, by decide +kernel⟩,
    ⟨1, 0x100, 9, true, { upT with obj := [(O_TWIN_STATE, 2), (samKey 0, 2 ^ 63 + 23 * 2 ^ 52 + 2 ^ 16), (O_ISET_MASK 0, 1), (O_TWIN_WINDOW 0, 2 ^ 63 + 2 ^ 64)] }, by decide +kernel⟩,
    ⟨0, 0x100, 9, true, { upT with obj := [(O_TWIN_STATE, 2)] }, by decide +kernel⟩,
    ⟨1, { upT with twin := { upT.twin with partner := 2, dirty := [(3, 1)], copies := [(3, 1)], unacked := [{ seq := 1, line := 0x100, data := 9, sync := true }] }, obj := [(O_TWIN_STATE, 4)] }, by decide +kernel⟩⟩

/-- What Obligations.MctpMessages assumes can be met, part 1. -/
theorem wit_MctpMessages_1 :
    (∃ (m : Mctp), ∃ (seq : BitVec 32), ∃ (s : State), let q := pushPos s + (seq.toNat + 2 ^ 32 - pushPos s % 2 ^ 32) % 2 ^ 32; (pathOpen s (mctpReq m) = true ∧ m.lost = false ∧ m.waiting ≠ 4) ∧ (m.vendor.toNat = oGet s O_MCTP_VENDOR_IANA ∧ m.unused = 0#64)) ∧
    (∃ (s : State), let n := ((heldFrom18 s).filter fun q => q < s.fw.mctpSent).length; let rs := ((s.fw.ring.filter fun x => pushPos s ≤ x.1 && x.1 < s.fw.mctpSent).reverse).take 16; let msg := [0x7F#8] ++ beBytes 4 (oGet s O_MCTP_VENDOR_IANA) ++ [3#8, Config.free 8 s.freeCtr, Config.free 8 (s.freeCtr + 1)] ++ leBytes 4 ((rs.map (·.1)).headD 0) ++ leBytes 2 rs.length ++ [Config.free 8 (s.freeCtr + 2), Config.free 8 (s.freeCtr + 3)] ++ rs.flatMap fun x => leBytes 16 (recNat x.2); (fwRuns s = true ∧ oGet s O_EVT_MCTP_EID ≠ 0) ∧ (pushPos s < s.fw.mctpSent)) ∧
    (∃ (vdm : Bool), ∃ (eid : BitVec 8), ∃ (s : State), bindingOpen s vdm = true) ∧
    (∃ (vdm : Bool), ∃ (eid : BitVec 8), ∃ (s : State), bindingOpen s vdm = false) :=
  ⟨⟨{ vdm := false, eid := 9, vendor := 0, unused := 0, waiting := 0, lost := false }, 0, { upF with obj := (O_EVT_MCTP_EID, 9) :: (O_MCTP_VENDOR_IANA, 0) :: upF.obj, fw := { upF.fw with mctpSent := 4 } }, by decide +kernel⟩,
    ⟨{ upF with obj := (O_EVT_MCTP_EID, 9) :: upF.obj, fw := { upF.fw with mctpSent := 4 } }, by decide +kernel⟩,
    ⟨false, 9, upF, by decide +kernel⟩,
    ⟨false, 9, up, by decide +kernel⟩⟩

/-- What Obligations.SpdmRequests assumes can be met, part 1. -/
theorem wit_SpdmRequests_1 :
    (∃ (v : Via), ∃ (ok : Bool), ∃ (s : State), viaOpen s v = true) ∧
    (∃ (v : Via), ∃ (slot : BitVec 8), ∃ (off len : BitVec 16), ∃ (s : State), let l := ((chainBytes s).drop off.toNat).take len.toNat; (viaOpen s v = true) ∧ (3 ≤ s.fw.spdm.stage)) ∧
    (∃ (v : Via), ∃ (b : BitVec 8), ∃ (s : State), let dig := leNat (beBytes 48 s.ld.digest.toNat); let fwv := Config.fwVersion % 2 ^ 32; let mon := Config.monitorVersion % 2 ^ 32; (viaOpen s v = true) ∧ (3 ≤ s.fw.spdm.stage)) ∧
    (∃ (v : Via), ∃ (slot : BitVec 8), ∃ (s : State), let no (t : State) : State := if slot ≠ 0#8 then reply s 1 0 0 else if s.fw.idKey = none then reply s 5 0 0 else t; (viaOpen s v = true) ∧ (3 ≤ s.fw.spdm.stage)) ∧
    (∃ (v : Via), ∃ (s : State), let t (n : Nat) : State := setSpdm s { s.fw.spdm with session := n }; (viaOpen s v = true) ∧ (3 ≤ s.fw.spdm.stage)) ∧
    (∃ (p : Fin 4), ∃ (s : State), let x := cxl s p; (viaOpen s (.doe p) = true) ∧ (3 ≤ s.fw.spdm.stage ∧ s.fw.spdm.session = 2)) :=
  ⟨⟨.i3c, true, upF, by decide +kernel⟩,
    ⟨.i3c, 0, 0, 4, { upF with fw := { upF.fw with spdm := { stage := 3 } } }, by decide +kernel⟩,
    ⟨.i3c, 2, { upF with fw := { upF.fw with spdm := { stage := 3 } } }, by decide +kernel⟩,
    ⟨.i3c, 0, { upF with fw := { upF.fw with spdm := { stage := 3 } } }, by decide +kernel⟩,
    ⟨.i3c, { upF with fw := { upF.fw with spdm := { stage := 3, session := 1 } } }, by decide +kernel⟩,
    ⟨1, { upF with fw := { upF.fw with spdm := { stage := 3, session := 2 } }, hub := { upF.hub with cxlUp := 15 } }, by decide +kernel⟩⟩

/-- What Obligations.SpdmRequests assumes can be met, part 2. -/
theorem wit_SpdmRequests_2 :
    (∃ (v : Via), ∃ (p : Fin 4), ∃ (ok : Bool), ∃ (slot : BitVec 8), ∃ (off len : BitVec 16), ∃ (s : State), (viaOpen s v = true) ∧ (s.fw.spdm.stage < 3)) ∧
    (∃ (v : Via), ∃ (p : Fin 4), ∃ (ok : Bool), ∃ (slot : BitVec 8), ∃ (off len : BitVec 16), ∃ (s : State), viaOpen s v = false) :=
  ⟨⟨.i3c, 0, true, 0, 0, 4, upF, by decide +kernel⟩,
    ⟨.vdm, 0, true, 0, 0, 4, up, by decide +kernel⟩⟩

/-- What Obligations.CanAndServices assumes can be met, part 1. -/
theorem wit_CanAndServices_1 :
    (∃ (node : BitVec 8), ∃ (index : BitVec 16), ∃ (sub : BitVec 8), ∃ (off : BitVec 32), ∃ (last : Bool), ∃ (data : List (BitVec 8)), ∃ (s : State), let r := canReq node; pathOpen s r = true) ∧
    (∃ (tec : BitVec 16), ∃ (r t : BitVec 8), ∃ (s : State), canOn s = true) ∧
    (∃ (s : State), (fwRuns s = true ∧ canPins s = true) ∧ (oGet s O_CAN_STATUS = 2)) ∧
    (∃ (q : Nat), ∃ (e : EventRec), ∃ (s : State), (canOn s = true) ∧ ((∀ t, s.fw.emcyAt = some t → t + oGet s O_EMCY_INHIBIT * 100000 ≤ s.fw.dtime)) ∧ (nextEmcy s = some (q, e))) ∧
    (∃ (index : BitVec 16), ∃ (sub : BitVec 8), ∃ (k : Nat), ∃ (x : Xfer), ∃ (s : State), (fwRuns s = true) ∧ ((devKey internalReq index.toNat sub.toNat).map (·.2) = some k ∧ tabFind s.fw.xfers k = some x)) ∧
    (∃ (e : Fin 32), ∃ (s : State), (fwRuns s = true ∧ schedDue s e = true) ∧ ((∀ j, j < e.val → schedDue s j = true → schedTime (schedEntry s j) ≠ schedTime (schedEntry s e)))) :=
  ⟨⟨9, 0x1000, 0, 0, true, [1], upF, by decide +kernel⟩,
    ⟨300, 1, 2, upF, by decide +kernel⟩,
    ⟨{ upF with obj := (O_CAN_STATUS, 2) :: upF.obj }, by decide +kernel⟩,
    ⟨0, { data := 0, sev := 5, tenant := 0, unit := 0, code := 0x1001, dtime := 0 }, { upF with fw := { upF.fw with ring := [(0, { data := 0, sev := 5, tenant := 0, unit := 0, code := 0x1001, dtime := 0 })] } }, by decide +kernel, (fun t h => by cases h), by decide +kernel⟩,
    ⟨0x2000, 1, 0x200001, { r := internalReq, data := [] }, { up with fw := { up.fw with xfers := [(0x200001, { r := internalReq, data := [] })] } }, by decide +kernel⟩,
    ⟨0, { up with obj := [(O_SCHED_ENTRY 0, 2 ^ 192)] }, by decide +kernel, fun j h => absurd h (Nat.not_lt_zero j)⟩⟩

/-- What Obligations.CanAndServices assumes can be met, part 2. -/
theorem wit_CanAndServices_2 :
    (∃ (e : Fin 32), ∃ (s : State), let d := e * 65536 + min (lateness s e / 1000000) 0xFFFF; (fwRuns s = true) ∧ (s.fw.late.getLsbD e = true ∧ schedValid (schedEntry s e) = true)) ∧
    (∃ (s : State), (mioApplied s = true) ∧ (s.clk.locked = true)) ∧
    (∃ (bad : List (Nat × BitVec 8)), ∃ (count : Nat), ∃ (entries : List (BitVec 8)), ∃ (f : FlashInfo), ∃ (o size : Nat), ∃ (s : State), let a := activeHalf f o size; let at_ := match a with | some (0, _) => o + size / 2 | _ => o; let img := halfBytes s.ld.active.toNat ((a.map (·.2)).getD 0 + 1) count entries; let f1 := flawed (flashWrite (flashErase f at_ (size / 2)) at_ img) at_ (bad.filter fun b => b.1 < size / 2); let s1 := setLd (setFw s { s.fw with store := none }) { s.ld with flash := some f1 }; (s.fw.store = some (count, entries)) ∧ (paramBlock s = some (f, o, size))) ∧
    (∃ (f : FlashInfo), ∃ (o size : Nat), ∃ (s : State), (paramBlock s = some (f, o, size)) ∧ (oGet s O_STORE_STATE = 2)) ∧
    (∃ (v : BitVec 1664), ∃ (s : State), let b := leBytes 208 v.toNat; let s0 := setDbg s { s.dbg with verifying := none }; let why := tokenReason s b; let ten := if leAt b 0 1 = 0 then 0 else leAt b 0 1 - 0x10; let s1 := logEvT (setDbg s0 { s0.dbg with token := some (tokenOf s b) }) 0x2E01 sevInfo (leAt b 0 1 + leAt b 1 1 * 256) ten 0xFFFF; (fwRuns s = true) ∧ (s.dbg.verifying = some v)) ∧
    (∃ (t : Token), ∃ (s : State), (s.dbg.token = some t) ∧ (t.expiry ≠ 0 ∧ t.expiry ≤ s.fw.dtime)) :=
  ⟨⟨0, { up with obj := [(O_SCHED_ENTRY 0, 2 ^ 192)], fw := { up.fw with late := 1 } }, by decide +kernel⟩,
    ⟨up, by decide +kernel⟩,
    ⟨[], 0, [], _, _, _, { stS with fw := { stS.fw with store := some (0, []) } }, rfl, rfl⟩,
    ⟨_, _, _, { stS with obj := [(O_STORE_STATE, 2)] }, rfl, rfl⟩,
    ⟨7, { up with dbg := { up.dbg with verifying := some 7 } }, by decide +kernel⟩,
    ⟨{ tenant := none, key := 0, expiry := 5 }, { up with dbg := { up.dbg with token := some { tenant := none, key := 0, expiry := 5 } }, fw := { up.fw with dtime := 9 } }, by decide +kernel⟩⟩

/-- What Obligations.PinsAndMonitor assumes can be met, part 1. -/
theorem wit_PinsAndMonitor_1 :
    (∃ (bank : Fin 2), ∃ (v33 : Bool), ∃ (s : State), let v := if v33 = true then 2 else 1; let s1 := setPwr s { s.pwr with mioBank := tabPut s.pwr.mioBank bank v, rails := setBit s.pwr.rails (9 + bank) true }; (s.pwr.vaux = true) ∧ ((bankState s bank = 0 ∨ bankState s bank = 3))) ∧
    (∃ (bank : Fin 2), ∃ (mv : BitVec 16), ∃ (s : State), let s1 := setPwr s { s.pwr with mioBank := tabPut s.pwr.mioBank bank 3, rails := setBit s.pwr.rails (9 + bank) false }; (s.pwr.vaux = true) ∧ ((bankState s bank = 1 ∨ bankState s bank = 2))) ∧
    (∃ (pin : Fin 64), ∃ (s : State), let off := (oGet s (O_MIO_CFG pin)).testBit 3; let s1 := oSet s (O_MIO_STATUS pin) (1 + (if off = true then 2 else 0)); pinWatched s pin = true) ∧
    (∃ (ch : Fin 68), ∃ (v : BitVec 32), ∃ (s : State), let x := signed32 v.toNat; let bit : Option Nat := match ch.val with | 44 => some 4 | 45 => some 5 | 48 => some 8 | 51 => some 11 | _ => none; let s1 := match bit with | some b => setPwr s { s.pwr with rails := setBit s.pwr.rails b (decide ((smLoDefault ch : Int) ≤ x ∧ x ≤ smHiDefault ch)) } | none => s; (smRuns s ch = true) ∧ ((smTurn s = some ch.val ∨ (64 ≤ ch.val ∧ s.mio.ranged.getLsbD (ch - 64) = true)))) :=
  ⟨⟨1, true, { up with pwr := { up.pwr with mioBank := [(1, 3)] } }, by decide +kernel⟩,
    ⟨1, 900, { up with pwr := { up.pwr with mioBank := [(1, 2)] } }, by decide +kernel⟩,
    ⟨5, { upF with obj := (0x2D4001 + 5 * 256, 1) :: (O_MIO_OE 5, 1) :: upF.obj }, by decide +kernel⟩,
    ⟨64, 5, { up with obj := [(O_SM_ENABLE 64, 1)], mio := { up.mio with smNext := 64 } }, by decide +kernel⟩⟩

/-- What Obligations.PortLine assumes can be met, part 1. -/
theorem wit_PortLine_1 :
    (∃ (b : BitVec 8), ∃ (s : State), portSilent s = false) :=
  ⟨0x5A, up, by decide +kernel⟩

/-- What Obligations.PortAccesses assumes can be met, part 1. -/
theorem wit_PortAccesses_1 :
    (∃ (g : GAcc), ∃ (cmd : BitVec 8), ∃ (s : State), let t := ackWith s .ok; (portSilent s = false ∧ s.dbg.line = .ready) ∧ (g.hdrOk = true ∧ g.dataOk = true)) ∧
    (∃ (g : GAcc), ∃ (rnw : Bool), ∃ (v : BitVec 32), ∃ (s : State), let t := ackWith s .ok; (portSilent s = false ∧ s.dbg.line = .ready ∧ fwRuns s = true) ∧ (g.hdrOk = true ∧ g.dataOk = true) ∧ (portError s = false ∧ anyAuth s = true)) ∧
    (∃ (g : GAcc), ∃ (adv : Bool), ∃ (lanes : BitVec 4), ∃ (v : BitVec 32), ∃ (s : State), let t := ackWith s .ok; let d := t.dbg; (portSilent s = false ∧ s.dbg.line = .ready ∧ fwRuns s = true) ∧ (g.hdrOk = true ∧ g.dataOk = true) ∧ (portError s = false ∧ anyAuth s = true ∧ s.dbg.memOp = none)) ∧
    (∃ (g : GAcc), ∃ (v : BitVec 32), ∃ (s : State), let t := ackWith s .ok; let d := t.dbg; (portSilent s = false ∧ s.dbg.line = .ready ∧ fwRuns s = true) ∧ (g.hdrOk = true ∧ g.dataOk = true) ∧ (portError s = false ∧ s.dbg.tunOp = none)) ∧
    (∃ (g : GAcc), ∃ (v : BitVec 32), ∃ (s : State), let t := ackWith s .ok; let d := t.dbg; (portSilent s = false ∧ s.dbg.line = .ready ∧ fwRuns s = true) ∧ (g.hdrOk = true ∧ g.dataOk = true) ∧ (portError s = false ∧ anyAuth s = true ∧ s.dbg.rbWait = none)) ∧
    (∃ (op : GMemOp), ∃ (t : Tx), ∃ (s : State), let s1 := memPush (memIssue (memDrop s) op); (portSilent s = false) ∧ (s.dbg.memOp = some op) ∧ (tabFind s1.vent.txs (memKey s1) = some t ∧ isPort t.init = true)) :=
  ⟨⟨⟨true, true⟩, 9, upG, by decide +kernel⟩,
    ⟨⟨true, true⟩, false, 0x30000, upG, by decide +kernel⟩,
    ⟨⟨true, true⟩, true, 3, 0x30000, upG, by decide +kernel⟩,
    ⟨⟨true, true⟩, 0x30000, upG, by decide +kernel⟩,
    ⟨⟨true, true⟩, 0x30000, upG, by decide +kernel⟩,
    ⟨.readLine false, wPortTx, upM, by decide +kernel⟩⟩

/-- What Obligations.PortAccesses assumes can be met, part 2. -/
theorem wit_PortAccesses_2 :
    (∃ (write : Bool), ∃ (s : State), let t := tunRun s write; let n := if write = true ∨ t.ans.abort ≠ 0#32 then 0 else min (fld s.dbg.tunLen 0 13) (t.ans.total - s.dbg.tunOffset.toNat); (fwRuns s = true) ∧ (s.dbg.tunOp = some write)) ∧
    (∃ (a : Nat), ∃ (s : State), (portSilent s = false) ∧ (s.dbg.rbWait = some a)) :=
  ⟨⟨false, { upG with dbg := { upG.dbg with tunOp := some false } }, by decide +kernel⟩,
    ⟨0x100, { upG with dbg := { upG.dbg with rbWait := some 0x100 } }, by decide +kernel⟩⟩

/-- What Obligations.MonitorAndTap assumes can be met, part 1. -/
theorem wit_MonitorAndTap_1 :
    (∃ (e : Fin 768), ∃ (s : State), let g := engOf s e; let b := monByte g; let no := if 0x84 ≤ b ∨ b = 0x80 then setEng s e (setMonByte g 0xFF) else s; (engClocked s e = true) ∧ (g.state = .monitor)) ∧
    (∃ (s : State), let t (i : TapInstr) : State := setDbg s { s.dbg with tap := i }; s.pwr.vaux = true) :=
  ⟨⟨0, upD, by decide +kernel⟩,
    ⟨up, by decide +kernel⟩⟩

/-- What Obligations.StepRunsFront assumes can be met, part 1. -/
theorem wit_StepRunsFront_1 :
    (∃ (s : State), s.pending = []) :=
  ⟨State.reset, by decide +kernel⟩

/-- What Obligations.QueueKept assumes can be met, part 1. -/
theorem wit_QueueKept_1 :
    (∃ (c : Instr), ∃ (s t : State), exec c s = .next t) ∧
    (∃ (c : Instr), ∃ (q : List Instr), ∃ (s t : State), (s.pending = c :: q) ∧ (step s = .next t)) :=
  ⟨⟨.bypass, State.reset, _, rfl⟩,
    ⟨.bypass, [], { State.reset with pending := [.bypass] }, _, rfl, rfl⟩⟩

/-- What Obligations.FusesOneWay assumes can be met, part 1. -/
theorem wit_FusesOneWay_1 :
    (∃ (s t : State), step s = .next t) :=
  ⟨{ State.reset with pending := [.bypass] }, _, rfl⟩

/-- What Obligations.DestroyedSlotsRead assumes can be met, part 1. -/
theorem wit_DestroyedSlotsRead_1 :
    (∃ (s t : State), (SlotsOk s) ∧ (step s = .next t)) :=
  ⟨{ State.reset with pending := [.bypass] }, _, by unfold SlotsOk; decide +kernel, rfl⟩

/-- What Obligations.KeySlotWrites assumes can be met, part 1. -/
theorem wit_KeySlotWrites_1 :
    (∃ (r : Req), ∃ (slot : BitVec 8), ∃ (key : BitVec 384), ∃ (k : Nat), ∃ (s : State), let n := progLen slot.toNat - 4; let val := slot.toNat + 2 ^ 32 * leNat (beBytes n key.toNat); (progSlot slot.toNat = some k) ∧ (Accepted s r O_KEY_PROGRAM (n + 4) val {}) ∧ (s.rst.lc.toNat ≤ 1)) ∧
    (∃ (r : Req), ∃ (slot : BitVec 8), ∃ (key : BitVec 384), ∃ (k : Nat), ∃ (s : State), let n := progLen slot.toNat - 4; let val := slot.toNat + 2 ^ 32 * leNat (beBytes n key.toNat); (progSlot slot.toNat = some k) ∧ (Accepted s r O_KEY_PROGRAM (n + 4) val {}) ∧ (2 ≤ s.rst.lc.toNat)) ∧
    (∃ (r : Req), ∃ (slot : BitVec 8), ∃ (s : State), let k := slot.toNat % 4; let x := fuseSlot s k; (Accepted s r O_KEY_REVOKE 1 slot.toNat {}) ∧ ((s.rst.lc = 1#3 ∨ s.rst.lc = 2#3))) ∧
    (∃ (r : Req), ∃ (slot : BitVec 8), ∃ (s : State), (Accepted s r O_KEY_REVOKE 1 slot.toNat {}) ∧ (s.rst.lc ≠ 1#3 ∧ s.rst.lc ≠ 2#3)) :=
  ⟨⟨⟨.internal, 0, none⟩, 3, 5, 3, up, by decide +kernel⟩,
    ⟨⟨.internal, 0, none⟩, 3, 5, 3, { up with rst := { up.rst with lc := 2#3 } }, by decide +kernel⟩,
    ⟨⟨.internal, 0, none⟩, 3, { up with rst := { up.rst with lc := 1#3 }, fuse := { slots := [(0, { fused := true }), (3, { fused := true })] } }, by decide +kernel⟩,
    ⟨⟨.internal, 0, none⟩, 3, up, by decide +kernel⟩⟩

/-- What Obligations.EngineWindows assumes can be met, part 1. -/
theorem wit_EngineWindows_1 :
    (∃ (n off : Nat), (n < 768) ∧ (off < 0x1000000)) ∧
    (∃ (o : Nat), o < 0x10000) ∧
    (∃ (e i : Nat), ∃ (s : State), let g := engOf s e; let x (y : Bool) : BitVec 512 := dataWord g y (2 * i + 1) ++ dataWord g y (2 * i); (i < 1024) ∧ (g.state ≠ .off ∧ g.state ≠ .notready) ∧ (g.stored = [])) :=
  ⟨⟨517, 0x100000, by decide +kernel⟩,
    ⟨0xFFFF, by decide +kernel⟩,
    ⟨0, 1023, upE, by decide +kernel⟩⟩

/-- What Obligations.InterleaveChannel assumes can be met, part 1. -/
theorem wit_InterleaveChannel_1 :
    (∃ (mask k dpa : Nat), let m := (List.range 44).foldl (fun a i => a ^^^ (dpa / 2 ^ 8 / 2 ^ (k * i) % 2 ^ k)) 0; let c := chanOf mask dpa; (k ≤ 4 ∧ mask < 2 ^ 16) ∧ (((List.range 16).filter mask.testBit).length = 2 ^ k) ∧ (dpa < 2 ^ 52)) :=
  ⟨0xFFFF, 4, 0x40001F40, by decide +kernel⟩

/-- What Obligations.SourceCounts assumes can be met, part 1. -/
theorem wit_SourceCounts_1 :
    (∃ (s : State), cascDx s = 4 ∧ cascDy s = 4) ∧
    (∃ (s : State), let s1 := setCasc s { s.casc with aligning := true, aligned := false, off20 := 0 }; (cascRuns s = true ∧ strapCascId s ≠ 0) ∧ (cascDx s = 4 ∧ cascDy s = 4) ∧ (oGet s O_CASC_STATE = 1)) :=
  ⟨⟨{ upK with obj := [(O_CASC_DIM, 0x44)] }, by decide +kernel⟩,
    ⟨{ upK2 with obj := [(O_CASC_STATE, 1), (O_CASC_DIM, 0x44)] }, by decide +kernel⟩⟩

end Sys2Proof.Tests
end

section
/-! PROOF. Where the window of an engine lies, and what a read of its memories returns (00 R19, 08 R335, R359). -/
namespace Sys2Proof.Machine

/-! ## The address map (00 R19) -/

/-- The 768 windows of 16 MiB follow one another from 0x10_0000_0000 of control space. -/
theorem controlTarget_window {n off : Nat} (hn : n < 768) (hoff : off < 0x1000000) :
    controlTarget (0xFFF0000000000 + 0x1000000000 + n * 0x1000000 + off) = some (.window n off) := by
  have hbase : 0xFFF0000000000 + 0x1000000000 + n * 0x1000000 + off - controlBase =
      0x1000000000 + n * 0x1000000 + off := by
    unfold controlBase; omega
  have habove : ¬ 0x1000000000 + n * 0x1000000 + off < 0x1000000000 := by omega
  have hbelow : 0x1000000000 + n * 0x1000000 + off < 0x1300000000 := by omega
  have hnum : (0x1000000000 + n * 0x1000000 + off - 0x1000000000) / 0x1000000 = n := by omega
  have hrest : (0x1000000000 + n * 0x1000000 + off) % 0x1000000 = off := by omega
  simp only [controlTarget, hbase, if_neg habove, if_pos hbelow, hnum, hrest]

/-- The three memories of a window, 1 MiB apart: program, X and Y. -/
theorem winRegion_memory {m o : Nat} (hm : m < 3) (ho : o < 0x10000) :
    winRegion (m * 0x100000 + o) = some m := by
  have hmem : m * 0x100000 + o < 0x300000 := by omega
  have hin : (m * 0x100000 + o) % 0x100000 < 0x10000 := by omega
  have hnum : (m * 0x100000 + o) / 0x100000 = m := by omega
  simp only [winRegion, if_pos hmem, if_pos hin, hnum]

/-- The engine registers lie above the memories. -/
theorem winRegion_registers {o : Nat} (ho : o < 0x1000) : winRegion (0x300000 + o) = some 3 := by
  have habove : ¬ 0x300000 + o < 0x300000 := by omega
  have hbelow : 0x300000 + o < 0x301000 := by omega
  simp only [winRegion, if_neg habove, if_pos hbelow]

/-! ## The mask of an access that enables every byte -/

theorem packLanes_replicate_ones (w n : Nat) :
    packLanes w (List.replicate n (2 ^ w - 1)) = 2 ^ (w * n) - 1 := by
  induction n with
  | zero => rfl
  | succ n ih =>
    have hw : 0 < 2 ^ w := Nat.two_pow_pos w
    have hn : 0 < 2 ^ (w * n) := Nat.two_pow_pos (w * n)
    have hle : 2 ^ w ≤ 2 ^ w * 2 ^ (w * n) := Nat.le_mul_of_pos_right _ hn
    rw [List.replicate_succ, packLanes, ih, Nat.mod_eq_of_lt (by omega), Nat.mul_succ,
      Nat.add_comm (w * n), Nat.pow_add, Nat.mul_sub_one]
    omega

theorem byteMask_allEnabled (n : Nat) : byteMask n (2 ^ n - 1) = 2 ^ (8 * n) - 1 := by
  have hlanes : (List.range n).map (fun i => if (2 ^ n - 1).testBit i then 255 else 0) =
      List.replicate n (2 ^ 8 - 1) := by
    refine List.eq_replicate_iff.2 ⟨by simp, fun b hb => ?_⟩
    obtain ⟨i, hi, rfl⟩ := List.mem_map.1 hb
    simp [Nat.testBit_two_pow_sub_one, List.mem_range.1 hi]
  rw [byteMask, hlanes, packLanes_replicate_ones]

/-- A mask that enables every byte keeps the data as they are. -/
theorem and_byteMask_allEnabled {n : Nat} (x : BitVec (8 * n)) :
    x &&& BitVec.ofNat (8 * n) (byteMask n (2 ^ n - 1)) = x := by
  rw [byteMask_allEnabled, ← BitVec.toNat_allOnes, BitVec.ofNat_toNat, BitVec.setWidth_eq, BitVec.and_allOnes]

/-! ## What a read returns (08 R335, R359) -/

/-- With no store of the engine port in the cycle the external port reads the memory's own word. -/
theorem extWord_of_stored_nil {g : Engine} (h : g.stored = []) (free : Nat) (y : Bool) (i : Nat) :
    extWord free g y i = dataWord g y i := by
  simp [extWord, h]

theorem extLine_of_stored_nil {g : Engine} (h : g.stored = []) (free region i : Nat) :
    extLine free g region i = memLine g region i := by
  simp only [extLine, memLine, extWord_of_stored_nil h]

/-- A read of an engine memory changes nothing and answers the line as the external port has it, under the byte
enables, in every state but OFF and NOTREADY. -/
theorem winRead_memory {s : State} {e off m : Nat} (be : Nat) (hm : m < 3) (hreg : winRegion off = some m)
    (hopen : (engOf s e).state ≠ .off ∧ (engOf s e).state ≠ .notready) :
    winRead s e off be = (s, rOk, extLine (s.freeCtr + 2 ^ 41) (engOf s e) m (off % 0x100000 / 64)
      &&& BitVec.ofNat 512 (byteMask 64 be)) := by
  have hready : ((engOf s e).state == .off || (engOf s e).state == .notready) = false := by
    simp [hopen.1, hopen.2]
  unfold winRead
  split
  case h_1 hnone => simp [hreg] at hnone
  case h_2 hthree => rw [hreg, Option.some.injEq] at hthree; omega
  case h_3 k _ hk =>
    obtain rfl : m = k := Option.some.inj (hreg.symm.trans hk)
    simp [hready]

/-- A full read of line `i` of memory `m`, in a cycle without a store of the engine. -/
theorem winRead_fullLine {s : State} {e m i : Nat} (hm : m < 3) (hi : i < 1024)
    (hopen : (engOf s e).state ≠ .off ∧ (engOf s e).state ≠ .notready) (hstored : (engOf s e).stored = []) :
    winRead s e (m * 0x100000 + 64 * i) (2 ^ 64 - 1) = (s, rOk, memLine (engOf s e) m i) := by
  have hline : (m * 0x100000 + 64 * i) % 0x100000 / 64 = i := by omega
  rw [winRead_memory _ hm (winRegion_memory hm (by omega)) hopen, hline, and_byteMask_allEnabled (n := 64),
    extLine_of_stored_nil hstored]

end Sys2Proof.Machine

namespace Sys2Proof.Proofs
open Sys2Proof.Machine

/-- Settles O58: each clause by the law of the address map or of the read that it speaks of. -/
theorem engineWindows : Obligations.EngineWindows := by
  unfold Obligations.EngineWindows
  refine ⟨fun n off hn hoff => controlTarget_window hn hoff, fun o ho => ?regions,
    ?reads, ?example517⟩
  case regions =>
    have hprog : winRegion o = some 0 := by simpa using winRegion_memory (m := 0) (by omega) ho
    exact ⟨hprog, winRegion_memory (m := 1) (by omega) ho, winRegion_memory (m := 2) (by omega) ho,
      winRegion_registers⟩
  case reads =>
    intro e i s g x hi hopen hstored
    have hprog : winRead s e (64 * i) (2 ^ 64 - 1) = (s, rOk, memLine g 0 i) := by
      simpa using winRead_fullLine (m := 0) (by omega) hi hopen hstored
    exact ⟨hprog, winRead_fullLine (m := 1) (by omega) hi hopen hstored,
      winRead_fullLine (m := 2) (by omega) hi hopen hstored⟩
  case example517 =>
    exact controlTarget_window (n := 517) (off := 0x100000) (by omega) (by omega)

end Sys2Proof.Proofs
end

section
/-! PROOF. The steps of a tenant reset and of a reassignment: what each row answers in the step of the treatment that it ends or begins
(01 R37, R39, R44, R45; 11 R501, R505). -/
namespace Sys2Proof.Machine

/-! ## Rows of a tenant reset (01 R39; 11 R505) -/

theorem exec_tenantResetDrainDone {n : Fin 16} {x : TenReset} {s : State} (hfind : tabFind s.ten.resets n = some x) (hstep : x.step = 3) :
    exec (.tenantResetDrainDone n) s = .next (setTen (drainWipe s (partsOf s n) (engsOf s n))
      { s.ten with resets := tabPut s.ten.resets n { x with step := 5 } }) := by
  change execTenantResetDrainDone n s = _
  simp only [execTenantResetDrainDone, hfind, if_pos hstep]

theorem exec_tenantResetWipeDone {n : Fin 16} {x : TenReset} {s : State} (hfind : tabFind s.ten.resets n = some x) (hstep : x.step = 5) :
    exec (.tenantResetWipeDone n) s = .next (logEvT (setTen s { s.ten with resets := tabDel s.ten.resets n })
      0x2902 sevInfo x.source n 0xFFFF) := by
  change execTenantResetWipeDone n s = _
  simp only [execTenantResetWipeDone, hfind, if_pos hstep]

/-! ## Rows of a reassignment (01 R37, R44; 11 R501) -/

/-- A held reassignment starts once nothing that it waits for runs. -/
theorem exec_reassignStart {k : Fin 896} {x : Reassign} {s : State} (hfind : tabFind s.ten.reassign k = some x) (hheld : x.step = 0)
    (hfree : reassignBlocked s k x.owner = false) : exec (.reassignStart k) s = .next (reassignStart s k x.owner) := by
  change execReassignStart k s = _
  have hgo : (x.step = 0 && !reassignBlocked s k x.owner) = true := by simp [hheld, hfree]
  simp only [execReassignStart, hfind, if_pos hgo]

/-- What is left of a treatment when its resource `k` changes hands: the soft IDs of a partition are released, the entry of the
reassignment ends, the new owner stands (01 R37; 10 R427). -/
def handOver (s : State) (k owner : Nat) : State :=
  oSet { s with
    ten := { s.ten with reassign := tabDel s.ten.reassign k }
    vent := { s.vent with soft := if k < 128 then s.vent.soft.filter (fun b => b.2 != k) else s.vent.soft } } (ownerKey k) owner

/-- No command ends step 4 of a reassignment: OWNER_CHANGE brings drain and wipe where no idle step has (log entry 91). -/
theorem exec_ownerChange_undrained {k : Fin 896} {x : Reassign} {s : State} (hfind : tabFind s.ten.reassign k = some x) (hstep : x.step = 3) :
    exec (.ownerChange k) s = .next (handOver (reassignWipe s k x) k x.owner) := by
  change execOwnerChange k s = _
  have hstarted : ¬ x.step = 0 := by omega
  simp only [execOwnerChange, hfind, if_neg hstarted, if_pos hstep]
  rfl

theorem exec_ownerChange_drained {k : Fin 896} {x : Reassign} {s : State} (hfind : tabFind s.ten.reassign k = some x) (hstarted : x.step ≠ 0)
    (hdrained : x.step ≠ 3) : exec (.ownerChange k) s = .next (handOver s k x.owner) := by
  change execOwnerChange k s = _
  simp only [execOwnerChange, hfind, if_neg hstarted, if_neg hdrained]
  rfl

end Sys2Proof.Machine

namespace Sys2Proof.Proofs
open Sys2Proof.Machine

/-- Settles O33: each row by its law; OWNER_CHANGE by whether the drain and the wipe have begun. -/
theorem tenantTreatment : Obligations.TenantTreatment := by
  unfold Obligations.TenantTreatment
  refine ⟨fun n x s hfind hstep => exec_tenantResetDrainDone hfind hstep,
    fun n x s hfind hstep => exec_tenantResetWipeDone hfind hstep,
    fun k x s hfind hheld hfree => exec_reassignStart hfind hheld hfree, ?ownerChange⟩
  case ownerChange =>
    intro k x s ps es s1 soft hfind hstarted
    by_cases hstep : x.step = 3
    · have hs1 : s1 = reassignWipe s k x := if_pos hstep
      rw [exec_ownerChange_undrained hfind hstep, ← hs1]
      rfl
    · have hs1 : s1 = s := if_neg hstep
      rw [exec_ownerChange_drained hfind hstarted hstep]
      simp only [soft, hs1]
      rfl

end Sys2Proof.Proofs
end

section
/-! PROOF. What reset leaves: objects whose rows of the object dictionary default to zero, engines and key slots that nothing has
written (01 R36; 04 R186, R189; 08 R357; 12 R562). -/
namespace Sys2Proof.Machine

/-! ## Defaults of the object dictionary -/

/-- Every row of the object dictionary that meets the indices `lo` to `hi` has the default zero. -/
def rowsDefaultZero (lo hi : Nat) : Bool := objDict.all fun r => decide (r.i1 < lo) || decide (hi < r.i0) || r.dflt == 0

theorem objRow_dflt_eq_zero {lo hi ix sub : Nat} {row : ObjRow} (hrows : rowsDefaultZero lo hi = true) (hlo : lo ≤ ix) (hhi : ix ≤ hi)
    (hrow : objRow ix sub = some row) : row.dflt = 0 := by
  have hzero := List.all_eq_true.1 hrows row (List.mem_of_find?_eq_some hrow)
  have hmeets := List.find?_some hrow
  simp only [Bool.or_eq_true, Bool.and_eq_true, decide_eq_true_eq, beq_iff_eq] at hzero hmeets
  omega

/-- Between 0x2803 and 0x2B01 no object has a default of its own rule: the row of the dictionary gives it. -/
theorem objDefault_eq_zero {lo hi k : Nat} (s : State) (hrows : rowsDefaultZero lo hi = true) (hplain : 0x2803 < lo ∧ hi < 0x2B01)
    (hlo : lo ≤ k / 256) (hhi : k / 256 ≤ hi) : objDefault s k = 0 := by
  have hevent : k / 256 ≠ 0x2803 := by omega
  have hclock : k / 256 ≠ 0x2B01 := by omega
  have hpins : ¬ (0x2D40 ≤ k / 256 ∧ k / 256 ≤ 0x2D7F ∧ k % 256 = 1) := by omega
  have hmon : k / 256 ≠ 0x2D83 ∧ k / 256 ≠ 0x2D84 ∧ k / 256 ≠ 0x2D85 := by omega
  obtain ⟨hhigh, hlow, hhyst⟩ := hmon
  simp only [objDefault, if_neg hevent, if_neg hpins, if_neg hhigh, if_neg hlow, if_neg hhyst, if_neg hclock]
  split
  · next hrow => exact objRow_dflt_eq_zero hrows hlo hhi hrow
  · rfl

/-- The owners of partitions, engines and entries of the system address map are T0 by default (11 R517). -/
theorem rowsDefaultZero_owners : rowsDefaultZero 0x2910 0x2918 = true := by decide +kernel

/-- CHAN_STATE is by default that of a channel that is not populated (12 R562). -/
theorem rowsDefaultZero_chanState : rowsDefaultZero 0x2A02 0x2A02 = true := by decide +kernel

/-! ## The state after reset -/

/-- Reset leaves every object at its default. -/
theorem oGet_reset (k : Nat) : oGet State.reset k = objDefault State.reset k := rfl

theorem oGet_reset_owner {k : Nat} (hlo : 0x2910 ≤ k / 256) (hhi : k / 256 ≤ 0x2918) : oGet State.reset k = 0 :=
  (oGet_reset k).trans (objDefault_eq_zero _ rowsDefaultZero_owners (by omega) hlo hhi)

theorem partOwner_reset {p : Nat} (hp : p < 128) : partOwner State.reset p = 0 := by
  have hindex : O_PART_OWNER p / 256 = 0x2910 := by unfold O_PART_OWNER; omega
  exact oGet_reset_owner (by omega) (by omega)

theorem engOwner_reset {e : Nat} (he : e < 768) : engOwner State.reset e = 0 := by
  have hindex : O_ENG_OWNER e / 256 = 0x2911 + e / 128 := by unfold O_ENG_OWNER; omega
  exact oGet_reset_owner (by omega) (by omega)

theorem samOwner_reset {e : Nat} (he : e < 256) : samOwner State.reset e = 0 := by
  have hindex : O_SAM_OWNER e / 256 = 0x2917 + e / 128 := by unfold O_SAM_OWNER; omega
  exact oGet_reset_owner (by omega) (by omega)

theorem chanState_reset {c : Nat} (hc : c < 16) : chanState State.reset c = 0 := by
  have hindex : O_CHAN_STATE c / 256 = 0x2A02 := by unfold O_CHAN_STATE; omega
  exact (oGet_reset _).trans (objDefault_eq_zero _ rowsDefaultZero_chanState (by omega) (by omega) (by omega))

/-- Reset leaves every engine in its reset condition. -/
theorem engOf_reset (e : Nat) : engOf State.reset e = {} := tabGet_nil e _

/-- Of the key slots as shipped none is destroyed (04 R189). -/
theorem fuseSlot_reset_destroyed (k : Nat) : (fuseSlot State.reset k).destroyed = false := rfl

theorem slotsOk_reset : SlotsOk State.reset := by
  intro k _ hdestroyed
  rw [fuseSlot_reset_destroyed] at hdestroyed
  contradiction

/-- With no life-cycle group blown the state reads BLANK (04 R186). -/
theorem lcOf_eq_blank {s : State} (hlg : s.fuse.lg = []) : lcOf s = 0 := by
  have hwhole : groupBlown 0#8 = false := by decide
  simp [lcOf, hlg, hwhole]

end Sys2Proof.Machine

namespace Sys2Proof.Proofs
open Sys2Proof.Machine

/-- Settles O53: owners and channels by the dictionary's defaults, engines and key slots by their unlisted entries. -/
theorem resetState : Obligations.ResetState := by
  unfold Obligations.ResetState
  refine ⟨rfl, rfl, lcOf_eq_blank rfl, fun p hp => partOwner_reset hp, fun e he => engOwner_reset he, fun e he => samOwner_reset he,
    fun e => ?engines, fun c hc => chanState_reset hc, ⟨rfl, rfl, rfl, rfl, rfl⟩, slotsOk_reset⟩
  case engines =>
    rw [engOf_reset]
    exact ⟨rfl, rfl, rfl, rfl⟩

end Sys2Proof.Proofs
end

section
/-! PROOF. What a brownout does, and what a cold reset keeps and sets back (02 R71, R80; 04 R158, R163, R185; 12 R526). -/
namespace Sys2Proof.Machine

/-! ## What a cold reset keeps -/

@[simp] theorem coldReset_vbat (s : State) (cause : Nat) : (coldReset s cause).vbat = s.vbat := by unfold coldReset; rfl
@[simp] theorem coldReset_pwr (s : State) (cause : Nat) :
    (coldReset s cause).pwr = { keepPower s.pwr with effReset := true, gone := goneAfter s } := by unfold coldReset; rfl
@[simp] theorem coldReset_clk (s : State) (cause : Nat) : (coldReset s cause).clk = keepMonitor s.clk := by unfold coldReset; rfl
@[simp] theorem coldReset_phase (s : State) (cause : Nat) : (coldReset s cause).rst.phase = .held := by unfold coldReset; rfl
@[simp] theorem coldReset_lc (s : State) (cause : Nat) : (coldReset s cause).rst.lc = s.rst.lc := by unfold coldReset keepAon; rfl
@[simp] theorem coldReset_nextProfile (s : State) (cause : Nat) : (coldReset s cause).rst.nextProfile = s.rst.nextProfile := by
  unfold coldReset keepAon; rfl

/-! ## What a cold reset sets back -/

@[simp] theorem coldReset_eng (s : State) (cause : Nat) : (coldReset s cause).eng = State.reset.eng := by unfold coldReset; rfl
@[simp] theorem coldReset_obj (s : State) (cause : Nat) : (coldReset s cause).obj = State.reset.obj := by unfold coldReset; rfl
@[simp] theorem coldReset_hub (s : State) (cause : Nat) : (coldReset s cause).hub = State.reset.hub := by unfold coldReset; rfl
@[simp] theorem coldReset_ddr (s : State) (cause : Nat) : (coldReset s cause).ddr = State.reset.ddr := by unfold coldReset; rfl
@[simp] theorem coldReset_fw (s : State) (cause : Nat) : (coldReset s cause).fw = State.reset.fw := by unfold coldReset; rfl
@[simp] theorem coldReset_ld (s : State) (cause : Nat) : (coldReset s cause).ld = State.reset.ld := by unfold coldReset; rfl
@[simp] theorem coldReset_dbg (s : State) (cause : Nat) : (coldReset s cause).dbg = State.reset.dbg := by unfold coldReset; rfl

/-! ## The record of the reset (04 R162) -/

theorem inReset_of_phase_ne_held {s : State} (h : s.rst.phase ≠ .held) : inReset s = false := by simp [inReset, h]

/-- Only a cold reset that finds a cold reset running leaves the first cause. -/
theorem coldReset_cause {s : State} (cause : Nat) (h : inReset s = false) :
    (coldReset s cause).rst.cause = BitVec.ofNat 16 cause := by
  simp [coldReset, h]

theorem coldReset_count {s : State} (cause : Nat) (h : inReset s = false) :
    (coldReset s cause).rst.count = s.rst.count + 1#32 := by
  simp [coldReset, h]

/-! ## Row BROWNOUT (02 R71; 04 R185) -/

theorem exec_brownout_unmonitored {rail : MonRail} {s : State} (h : ¬(s.pwr.vaux = true ∧ (rail = .vccaux ∨ s.pwr.monSuspended = false))) :
    exec (.brownout rail) s = .next s := by
  change execBrownout rail s = _
  have hmon : ¬(s.pwr.vaux && (rail == .vccaux || !s.pwr.monSuspended)) = true := by simpa using h
  simp only [execBrownout, if_neg hmon]

/-- A monitored rail below its range: the rail's bit clears in the state that effective reset, or the cold reset, leaves. -/
theorem exec_brownout_monitored {rail : MonRail} {s : State} (h : s.pwr.vaux = true ∧ (rail = .vccaux ∨ s.pwr.monSuspended = false)) {t : State}
    (ht : t = if s.pwr.tripped = true then setPwr s { s.pwr with effReset := true } else coldReset s 0x0002) :
    exec (.brownout rail) s = .next (setPwr t { t.pwr with rails := setBit t.pwr.rails (monBit rail) false }) := by
  change execBrownout rail s = _
  have hmon : (s.pwr.vaux && (rail == .vccaux || !s.pwr.monSuspended)) = true := by simpa using h
  simp only [execBrownout, if_pos hmon, ht]

end Sys2Proof.Machine

namespace Sys2Proof.Proofs
open Sys2Proof.Machine

/-- Settles O2: BROWNOUT by whether the rail is monitored, the cold reset by what it keeps and sets back. -/
theorem coldReset : Obligations.ColdReset := by
  unfold Obligations.ColdReset
  refine ⟨fun rail s => ?brownout, fun s cause hphase _ => ?kept⟩
  case brownout =>
    intro s1
    split
    next hmon => exact exec_brownout_monitored hmon rfl
    next hmon => exact exec_brownout_unmonitored hmon
  case kept =>
    have hrun := inReset_of_phase_ne_held hphase
    refine ⟨_, rfl, ?_⟩
    simp only [coldReset_pending, coldReset_fuse, coldReset_vbat, coldReset_eng, coldReset_obj, coldReset_hub, coldReset_ddr, coldReset_fw,
      coldReset_ld, coldReset_dbg, coldReset_cause cause hrun, coldReset_count cause hrun, coldReset_lc, coldReset_phase,
      coldReset_nextProfile, coldReset_pwr, coldReset_clk, keepPower, keepMonitor, true_and]
    rfl

end Sys2Proof.Proofs
end

section
/-! PROOF. Accepted writes of the supply, clock, reset and life-cycle objects: the effect of each write on the answered state, whatever path carries
it (02 R101; 03 R126 to R136, R155; 04 R172 to R178, R188, R191; 15 R648). -/
namespace Sys2Proof.Machine

variable {s : State} {r : Req} {len val : Nat}

/-! ## Supplies and clocks (02 R101; 03 R126 to R136, R155) -/

theorem wrVbatLatchClear_released (h : Accepted s r O_VBAT_LATCH_CLEAR len val {}) :
    wrVbatLatchClear r len val false s = { answer s 0#32 with vbat := { s.vbat with tamper := false, low := false } } :=
  objWriteP_accepted _ h

theorem wrVbatLatchClear_held (h : Accepted s r O_VBAT_LATCH_CLEAR len val {}) :
    wrVbatLatchClear r len val true s = tamperSets { answer s 0#32 with vbat := { s.vbat with tamper := false, low := false } } :=
  objWriteP_accepted _ h

theorem wrRefStatus_clears (h : Accepted s r O_REF_STATUS len val {}) (hbit : val.testBit 2 = false) :
    wrRefStatus r len val s = setClk (answer s 0#32) { s.clk with refFail := false } := by
  simp [wrRefStatus, objWriteP_accepted _ h, hbit]

theorem wrRefStatus_ignores (h : Accepted s r O_REF_STATUS len val {}) (hbit : val.testBit 2 = true) :
    wrRefStatus r len val s = answer s 0#32 := by
  simp [wrRefStatus, objWriteP_accepted _ h, hbit]

theorem wrRefReselect_accepted
    (h : Accepted s r O_REF_RESELECT len val { state := s.clk.mode == .rc && 16 ≤ s.clk.goodRun && !s.clk.monStopped && !strapError s }) :
    wrRefReselect r len val s =
      logEv (setClk (answer s 0#32) { s.clk with mode := .ref, accepted := true, holdover := false, badRun := 0 }) 0x2202 sevInfo s.clk.sinceFail :=
  objWriteG_accepted _ _ h

theorem wrClkEn_set {u : Nat} (h : Accepted s r (O_CLK_EN u) len 1 { state := mayClock s u }) :
    wrClkEn r u len 1 s = setEnable (answer s 0#32) u :=
  objWriteG_accepted _ _ h

theorem wrClkEn_clear {u : Nat} (h : Accepted s r (O_CLK_EN u) len 0 { state := mayGate s u }) :
    wrClkEn r u len 0 s = portsSettle (clearEnable (answer s 0#32) u) :=
  objWriteG_accepted _ _ h

/-- In mode 0 the change is a gated one: the output is held low while D and the VCO change (03 R135). -/
theorem wrSynthApply_gated {i : Nat} (hmode : oGet s (O_SYNTH_MODE i) = 0)
    (h : Accepted s r (O_APPLY i) len val { state := (synthOf s i).run == .none && !(synthOf s i).stopped }) :
    wrSynthApply r i len val s = setSynth (answer s 0#32) i
      { synthOf s i with run := .gatedLock, goal := oGet s (O_SYNTH_TARGET i), low := true, locked := false
                         d := chooseD (oGet s (O_SYNTH_TARGET i)) } := by
  have hglide : (oGet s (O_SYNTH_MODE i) == 1) = false := by simp [hmode]
  simp only [wrSynthApply, hglide, Bool.not_false, Bool.true_or, Bool.and_true, objWriteG_accepted _ _ h, Bool.false_eq_true, if_false]

/-- In mode 1 it is a glide, which keeps D (03 R136). -/
theorem wrSynthApply_glide {i : Nat} (hmode : oGet s (O_SYNTH_MODE i) = 1)
    (h : Accepted s r (O_APPLY i) len val
      { state := (synthOf s i).run == .none && !(synthOf s i).stopped && glideFits (synthOf s i) (oGet s (O_SYNTH_TARGET i)) }) :
    wrSynthApply r i len val s = setSynth (answer s 0#32) i { synthOf s i with run := .glide, goal := oGet s (O_SYNTH_TARGET i) } := by
  have hglide : (oGet s (O_SYNTH_MODE i) == 1) = true := by simp [hmode]
  simp only [wrSynthApply, hglide, Bool.not_true, Bool.false_or, objWriteG_accepted _ _ h, if_true]

/-! ## Resets (04 R191) -/

theorem wrResetRequest_warm (h : Accepted s r O_RESET_REQUEST len 1 { state := s.rst.standby == .none }) :
    wrResetRequest r len 1 s = keepAns (answer s 0#32) (warmReset (answer s 0#32) 0x0012) :=
  objWriteG_accepted _ _ h

theorem wrResetRequest_cold (h : Accepted s r O_RESET_REQUEST len 2 { state := s.rst.standby == .none }) :
    wrResetRequest r len 2 s = keepAns (answer s 0#32) (coldReset (answer s 0#32) 0x0005) :=
  objWriteG_accepted _ _ h

/-! ## Dies and standby (04 R172, R175, R177) -/

/-- Only a die that is ON enters (log entry 17). -/
theorem wrDieRequest_enter {d : Nat}
    (h : Accepted s r (O_DIE_REQUEST d) len 1 { state := operating s && !dieRefused s d && dieOf s d != .waking }) :
    wrDieRequest r d len 1 s =
      if dieOf s d = .on then setDie { answer s 0#32 with eng := abandonOff (dieEngs d) s.eng } d .entering else answer s 0#32 := by
  simp only [wrDieRequest, if_true, objWriteG_accepted _ _ h, beq_iff_eq, answer_eng]

/-- Only a dormant die returns (log entry 17). -/
theorem wrDieRequest_return {d : Nat} (h : Accepted s r (O_DIE_REQUEST d) len 2 { state := operating s && dieOf s d != .entering }) :
    wrDieRequest r d len 2 s =
      if dieOf s d = .dormant then
        setRst (setDie (answer s 0#32) d .waking) { (setDie (answer s 0#32) d .waking).rst with dieEmul := setBit s.rst.dieEmul d false }
      else answer s 0#32 := by
  have hreturn : ¬(2 = 1) := by decide
  simp only [wrDieRequest, if_neg hreturn, objWriteG_accepted _ _ h, beq_iff_eq]
  rfl

theorem wrStandbyEnter_accepted (h : Accepted s r O_STANDBY_ENTER len val { state := operating s && standbyReason s == 0 }) :
    wrStandbyEnter r len val s = setRst (answer s 0#32)
      { s.rst with standby := .entering, treesHeld := true, latchedWake := 0#8, wakeSel := BitVec.ofNat 8 (oGet s O_WAKE_SOURCES) } :=
  objWriteG_accepted _ _ h

/-! ## Life cycle (04 R188) -/

/-- Out of a state other than DEPLOYED a transition needs no signature. -/
theorem wrLcRequest_unsigned (hlc : s.rst.lc ≠ 2#3) (hzero : val / 256 % 2 ^ 24 = 0)
    (h : Accepted s r O_LC_REQUEST len val { state := s.rst.standby == .none && s.rst.lcRun.isNone && lcPermitted s (val % 256) }) :
    wrLcRequest r len val s = setRst (answer s 0#32)
      { s.rst with lcRun := some { target := BitVec.ofNat 3 (val % 256), groups := true }, treesHeld := true } := by
  have hvalue : (val / 256 % 2 ^ 24 == 0) = true := beq_iff_eq.2 hzero
  have hunsigned : (s.rst.lc == 2#3) = false := by simp [hlc]
  simp only [wrLcRequest, hvalue, objWriteG_accepted _ _ h, answer_rst, hunsigned, Bool.false_and, Bool.false_eq_true, if_false]

/-- Row LC_REQUEST writes the target's byte, three bytes and the signature; with the three bytes zero they add nothing. -/
theorem exec_lcRequest_zero (target : BitVec 8) (sig : BitVec 768) :
    exec (.lcRequest r target 0#24 sig) s = .next (wrLcRequest r 100 (target.toNat + 2 ^ 32 * leNat (beBytes 96 sig.toNat)) s) := rfl

end Sys2Proof.Machine

namespace Sys2Proof.Proofs
open Sys2Proof.Machine

/-- Settles O5: each row is the write of its object, whose effect the law of that write gives. -/
theorem systemWrites : Obligations.SystemWrites := by
  unfold Obligations.SystemWrites
  refine ⟨fun r v s h => congrArg _ (wrVbatLatchClear_released h), fun r v s h => congrArg _ (wrVbatLatchClear_held h),
    fun r v s h hbit => congrArg _ (wrRefStatus_clears h hbit), fun r v s h hbit => congrArg _ (wrRefStatus_ignores h hbit),
    fun r v s h => congrArg _ (wrRefReselect_accepted h), fun r unit s h => congrArg _ (wrClkEn_set h),
    fun r unit s h => congrArg _ (wrClkEn_clear h), fun r i v s hmode h => congrArg _ (wrSynthApply_gated hmode h),
    fun r i v s hmode h => congrArg _ (wrSynthApply_glide hmode h), fun r s h => congrArg _ (wrResetRequest_warm h),
    fun r s h => congrArg _ (wrResetRequest_cold h), fun r d s h => congrArg _ (wrDieRequest_enter h),
    fun r d s h => congrArg _ (wrDieRequest_return h), fun r v s h => congrArg _ (wrStandbyEnter_accepted h), ?lifeCycle⟩
  case lifeCycle =>
    intro r target sig s val hlc h hzero
    rw [exec_lcRequest_zero]
    exact congrArg _ (wrLcRequest_unsigned hlc hzero h)

end Sys2Proof.Proofs
end

section
/-! PROOF. Unit clocks, synthesizers and crossing cells: what each row answers in the state that it speaks of, and what the edges of the two
clocks do to a crossing cell (03 R130, R135 to R138, R146 to R154). -/
namespace Sys2Proof.Machine

/-! ## Unit clocks (03 R130) -/

/-- Only a DDR channel, of unit bits 1 to 16, has a state that sleeps with its clock. -/
theorem chanSleep_of_not_ddr {u : Nat} (hunit : ¬ (1 ≤ u ∧ u < 0x11)) (s : State) (old new : Nat) : chanSleep s u old new = s :=
  if_neg fun h => hunit ⟨h.1, h.2.1⟩

theorem exec_unitClockStopped {unit : Fin 38} {s : State} (hruns : s.clk.clkRun.getLsbD unit.val = true)
    (hgated : s.clk.clkEn.getLsbD unit.val = false) (hunit : ¬ (1 ≤ unit.val ∧ unit.val < 0x11)) :
    exec (.unitClockStopped unit) s = .next (setClk s { s.clk with clkRun := setBit s.clk.clkRun unit.val false }) := by
  change execUnitClockStopped unit s = _
  have hstops : (s.clk.clkRun.getLsbD unit.val && !s.clk.clkEn.getLsbD unit.val) = true := by rw [hruns, hgated]; rfl
  simp only [execUnitClockStopped, if_pos hstops, if_neg hunit, chanSleep_of_not_ddr hunit]

/-! ## Synthesizers (03 R135 to R138) -/

section
variable {i : Fin 32} {s : State}

theorem exec_synthLocked (hclk : clocked s = true) (hrun : (synthOf s i.val).run = .gatedLock)
    (hlive : (synthOf s i.val).stopped = false) :
    exec (.synthLocked i) s = .next (setSynth s i.val { synthOf s i.val with
      locked := true, run := .gatedRelease, vco := (synthOf s i.val).d * (synthOf s i.val).goal }) := by
  change execSynthLocked i s = _
  have hlocks : (clocked s && (synthOf s i.val).run == .gatedLock && !(synthOf s i.val).stopped) = true := by simp [hclk, hrun, hlive]
  simp only [execSynthLocked, if_pos hlocks]

theorem exec_synthRelease (hclk : clocked s = true) (hrun : (synthOf s i.val).run = .gatedRelease)
    (hlive : (synthOf s i.val).stopped = false) :
    exec (.synthRelease i) s = .next (setSynth s i.val { synthOf s i.val with
      low := false, run := .none, freq := (synthOf s i.val).goal }) := by
  change execSynthRelease i s = _
  have hreleases : (clocked s && (synthOf s i.val).run == .gatedRelease && !(synthOf s i.val).stopped) = true := by
    simp [hclk, hrun, hlive]
  simp only [execSynthRelease, if_pos hreleases]

/-- A rising step of 1 % that stops short of the goal: the glide goes on, and the output follows the VCO through the unchanged D. -/
theorem glideStep_rising {y : Synth} (hrun : y.run = .glide) (hup : y.vco ≤ y.d * y.goal) (hshort : y.vco + y.vco / 100 < y.d * y.goal) :
    glideStep y = { y with vco := y.vco + y.vco / 100, freq := (y.vco + y.vco / 100) / y.d } := by
  have hstep : min (y.d * y.goal) (y.vco + y.vco / 100) = y.vco + y.vco / 100 := Nat.min_eq_right hshort.le
  simp only [glideStep, if_pos hup, hstep, if_neg hshort.ne, ← hrun]

theorem exec_synthGlideStep (hclk : clocked s = true) (hrun : (synthOf s i.val).run = .glide)
    (hlive : (synthOf s i.val).stopped = false) :
    exec (.synthGlideStep i) s = .next (setSynth s i.val (glideStep (synthOf s i.val))) := by
  change execSynthGlideStep i s = _
  have hglides : (clocked s && (synthOf s i.val).run == .glide && !(synthOf s i.val).stopped) = true := by simp [hclk, hrun, hlive]
  simp only [execSynthGlideStep, if_pos hglides]

theorem exec_synthLockLost (hclk : clocked s = true) (hlocked : (synthOf s i.val).locked = true)
    (hlive : (synthOf s i.val).stopped = false) :
    exec (.synthLockLost i) s = .next (logEv (setSynth s i.val { synthOf s i.val with
      locked := false, low := true, run := .gatedLock }) 0x2206 sevErr i.val) := by
  change execSynthLockLost i s = _
  have hloses : (clocked s && (synthOf s i.val).locked && !(synthOf s i.val).stopped) = true := by simp [hclk, hlocked, hlive]
  simp only [execSynthLockLost, if_pos hloses]

end

/-! ## Rows of a crossing cell (03 R146, R147, R151, R154) -/

/-- State `s` with crossing cell `cell` set to `y`. -/
def putCross (s : State) (cell : XId) (y : XCell) : State :=
  setLogic s { s.fab.logic with cross := tabPut s.fab.logic.cross (crossKey cell) y }

section
variable {cell : XId} {y : XCell} {s : State}

/-- A row of a configured cell whose partition runs replaces the state of that cell, and nothing else. -/
theorem onCross_running {x : XState} {f : XCell → XState} (hfind : tabFind s.fab.logic.cross (crossKey cell) = some y)
    (hrun : partRuns s cell.part.val = true) (hcell : f y = x) : onCross s cell f = putCross s cell { y with st := x } := by
  simp only [onCross, hfind, if_pos hrun, hcell, putCross]

/-- BUSY is high while the toggle as sent and as it has come back differ. -/
theorem exec_xtogglePulse {a b c o p : Bool} {n : Nat} (hfind : tabFind s.fab.logic.cross (crossKey cell) = some y)
    (hrun : partRuns s cell.part.val = true) (hst : y.st = .toggle a b c o p n) (hclk : clkOn s y.src = true) :
    exec (.xtogglePulse cell) s =
      .next (putCross s cell { y with st := if a ≠ c then .toggle a b c true p n else .toggle (!a) b c o p n }) := by
  change execXtogglePulse cell s = _
  refine congrArg _ (onCross_running hfind hrun ?_)
  simp only [hst, hclk, Bool.not_true, Bool.false_eq_true, if_false, bne_iff_ne]

theorem exec_xtoggleClr {a b c o p : Bool} {n : Nat} (hfind : tabFind s.fab.logic.cross (crossKey cell) = some y)
    (hrun : partRuns s cell.part.val = true) (hst : y.st = .toggle a b c o p n) (hclk : clkOn s y.src = true) :
    exec (.xtoggleClr cell) s = .next (putCross s cell { y with st := .toggle a b c false p n }) := by
  change execXtoggleClr cell s = _
  refine congrArg _ (onCross_running hfind hrun ?_)
  simp only [hst, hclk, if_true]

theorem exec_xholdReq {word w l : BitVec 128} {dn sk d v : Bool} {n : Nat} (hfind : tabFind s.fab.logic.cross (crossKey cell) = some y)
    (hrun : partRuns s cell.part.val = true) (hst : y.st = .hold w false false dn sk d v l n) (hclk : clkOn s y.src = true) :
    exec (.xholdReq cell word) s = .next (putCross s cell { y with st := .hold word true false false false d v l n }) := by
  change execXholdReq cell word s = _
  refine congrArg _ (onCross_running hfind hrun ?_)
  simp only [hst, hclk, Bool.not_false, Bool.and_self, if_true]

theorem exec_xholdDestResetEnd {w l : BitVec 128} {a sk d v : Bool} {n : Nat} (hfind : tabFind s.fab.logic.cross (crossKey cell) = some y)
    (hrun : partRuns s cell.part.val = true) (hst : y.st = .hold w true a false sk d v l n) :
    exec (.xholdDestResetEnd cell) s = .next (putCross s cell { y with st := .hold w true true true true d v l n }) := by
  change execXholdDestResetEnd cell s = _
  refine congrArg _ (onCross_running hfind hrun ?_)
  simp only [hst, Bool.not_false, Bool.and_self, if_true]

end

/-! ## The Gray code (03 R149) -/

/-- A word XORed with itself shifted right by `k`: the step of which both directions of the Gray code are made. -/
def xorShift {w : Nat} (k : Nat) (x : BitVec w) : BitVec w := x ^^^ (x >>> k)

section
variable {w : Nat}

theorem xorShift_xor (k : Nat) (x y : BitVec w) : xorShift k (x ^^^ y) = xorShift k x ^^^ xorShift k y := by
  simp only [xorShift, BitVec.ushiftRight_xor_distrib]
  ac_rfl

theorem xorShift_comm (j k : Nat) (x : BitVec w) : xorShift j (xorShift k x) = xorShift k (xorShift j x) := by
  simp only [xorShift, BitVec.ushiftRight_xor_distrib, ← BitVec.shiftRight_add, Nat.add_comm k j]
  ac_rfl

/-- Of two equal steps the single shifts cancel. -/
theorem xorShift_twice (k : Nat) (x : BitVec w) : xorShift k (xorShift k x) = xorShift (2 * k) x := by
  simp only [xorShift, BitVec.ushiftRight_xor_distrib, ← BitVec.shiftRight_add, ← Nat.two_mul]
  rw [BitVec.xor_assoc, ← BitVec.xor_assoc (x >>> k), BitVec.xor_self, BitVec.zero_xor]

theorem xorShift_width (x : BitVec w) : xorShift w x = x := by
  rw [xorShift, BitVec.ushiftRight_eq_zero (le_refl w), BitVec.xor_zero]

end

theorem grayOf_eq_xorShift (g : BitVec 16) : grayOf g = xorShift 1 g := rfl
theorem ofGray_eq_xorShift (g : BitVec 16) : ofGray g = xorShift 1 (xorShift 2 (xorShift 4 (xorShift 8 g))) := rfl

/-- The steps by 1, 1, 2, 4 and 8 merge into one by 16, which is the identity. -/
theorem ofGray_grayOf (g : BitVec 16) : ofGray (grayOf g) = g :=
  calc ofGray (grayOf g)
    _ = xorShift 8 (xorShift 4 (xorShift 2 (xorShift 1 (xorShift 1 g)))) := by
      rw [ofGray_eq_xorShift, grayOf_eq_xorShift, xorShift_comm 4 8, xorShift_comm 2 8, xorShift_comm 2 4,
        xorShift_comm 1 8, xorShift_comm 1 4, xorShift_comm 1 2]
    _ = xorShift 16 g := by simp only [xorShift_twice, Nat.reduceMul]
    _ = g := xorShift_width g

theorem grayOf_xor (g h : BitVec 16) : grayOf (g ^^^ h) = grayOf g ^^^ grayOf h := xorShift_xor 1 g h

/-- Counting on by one flips the trailing ones and the zero above them: of the low `n + 1` bits the lowest `k + 1`. -/
theorem xor_succ_mod_two_pow (n v : Nat) : ∃ k ≤ n, (v ^^^ (v + 1)) % 2 ^ (n + 1) = 2 ^ (k + 1) - 1 := by
  have hodd (v : Nat) : (v ^^^ (v + 1)) % 2 = 1 := by rw [Nat.xor_mod_two_eq]; omega
  have hsplit (n v : Nat) : (v ^^^ (v + 1)) % 2 ^ (n + 1) = 1 + 2 * ((v / 2 ^^^ (v + 1) / 2) % 2 ^ n) := by
    rw [pow_succ', Nat.mod_mul, hodd, Nat.xor_div_two]
  induction n generalizing v with
  | zero => exact ⟨0, le_rfl, hodd v⟩
  | succ n ih =>
    obtain heven | hone := Nat.mod_two_eq_zero_or_one v
    · refine ⟨0, Nat.zero_le _, ?_⟩
      have hhalf : (v + 1) / 2 = v / 2 := by omega
      rw [hsplit, hhalf, Nat.xor_self, Nat.zero_mod]
      rfl
    · obtain ⟨k, hk, hxor⟩ := ih (v / 2)
      refine ⟨k + 1, by omega, ?_⟩
      have hhalf : (v + 1) / 2 = v / 2 + 1 := by omega
      have hpos := Nat.two_pow_pos (k + 1)
      rw [hsplit, hhalf, hxor, pow_succ 2 (k + 1)]
      omega

theorem xor_succ_eq_ones (g : BitVec 16) : ∃ k < 16, g ^^^ (g + 1) = BitVec.ofNat 16 (2 ^ (k + 1) - 1) := by
  obtain ⟨k, hk, hxor⟩ := xor_succ_mod_two_pow 15 g.toNat
  refine ⟨k, by omega, BitVec.eq_of_toNat_eq ?_⟩
  have hg : g.toNat % 2 ^ 16 = g.toNat := Nat.mod_eq_of_lt g.isLt
  rw [BitVec.toNat_ofNat, ← hxor, Nat.mod_mod, Nat.xor_mod_two_pow, BitVec.toNat_xor, BitVec.toNat_add, hg]
  rfl

/-- A run of low ones has a single one in Gray code. -/
theorem popUpTo_grayOf_ones : ∀ k < 16, popUpTo 16 (grayOf (BitVec.ofNat 16 (2 ^ (k + 1) - 1))).toNat = 1 := by decide

/-- Successive counts differ in one bit of their Gray code, from 65,535 to 0 too. -/
theorem popUpTo_grayOf_succ (g : BitVec 16) : popUpTo 16 (grayOf g ^^^ grayOf (g + 1)).toNat = 1 := by
  obtain ⟨k, hk, hones⟩ := xor_succ_eq_ones g
  rw [← grayOf_xor, hones]
  exact popUpTo_grayOf_ones k hk

/-! ## Edges of the two clocks (03 R146, R149, R151) -/

theorem crossSrc_count (s : State) (p : Nat) (ce : Sig) (g seen dl : BitVec 16) :
    crossSrc s p (.count ce (grayOf g) seen dl) = .count ce (grayOf (if sig s p ce = true then g + 1 else g)) seen dl := by
  simp only [crossSrc, ofGray_grayOf, apply_ite grayOf]

theorem crossDst_count (ce : Sig) (g seen dl : BitVec 16) :
    crossDst (.count ce (grayOf g) seen dl) = .count ce (grayOf g) g (g - seen) := by
  simp only [crossDst, ofGray_grayOf]

end Sys2Proof.Machine

namespace Sys2Proof.Proofs
open Sys2Proof.Machine

/-- Settles O4: each row by its law; the edges of XTOGGLE and XHOLD by their own equations, those of XCOUNT by the laws of the Gray code. -/
theorem clockUnits : Obligations.ClockUnits := by
  unfold Obligations.ClockUnits
  refine ⟨fun unit s hruns hgated hunit => exec_unitClockStopped hruns hgated hunit,
    fun i s hclk hrun hlive => exec_synthLocked hclk hrun hlive, fun i s hclk hrun hlive => exec_synthRelease hclk hrun hlive, ?glide,
    fun i s hclk hlocked hlive => exec_synthLockLost hclk hlocked hlive,
    fun cell y a b c o p n s hfind hrun hst hclk => exec_xtogglePulse hfind hrun hst hclk,
    fun cell y a b c o p n s hfind hrun hst hclk => exec_xtoggleClr hfind hrun hst hclk,
    fun cell word w l y dn sk d v n s hfind hrun hst hclk => exec_xholdReq hfind hrun hst hclk,
    fun cell w l y a sk d v n s hfind hrun hst => exec_xholdDestResetEnd hfind hrun hst, ?edges⟩
  case glide =>
    intro i s hclk hrun hlive hup hshort
    rw [exec_synthGlideStep hclk hrun hlive, glideStep_rising hrun hup hshort]
    rfl
  case edges =>
    intro p s a b c o u n w l r k dn sk d v ce g seen dl
    exact ⟨rfl, rfl, rfl, rfl, rfl, ofGray_grayOf g, popUpTo_grayOf_succ g, crossSrc_count s p ce g seen dl, crossDst_count ce g seen dl⟩

end Sys2Proof.Proofs
end

section
/-! PROOF. Every command takes the fuses only their one way (04 R186, R189 to R191; 05 R236): the rows that may blow a fuse each by the law of their
operation, every other row because it leaves the fuses as they are. -/
namespace Sys2Proof.Machine

/-- Where the outcome is a next state, the fuses went one way to it. -/
def FuseOutcome (s : State) (o : Host.Outcome State Fault Refusal) : Prop := ∀ t, o = .next t → FuseStep s t

theorem FuseOutcome.next {s t : State} (h : FuseStep s t) : FuseOutcome s (.next t) := by
  rintro _ ⟨⟩
  exact h

theorem FuseOutcome.of_fuse {s t : State} (h : t.fuse = s.fuse) : FuseOutcome s (.next t) := .next (.of_eq h)

/-! ## Boot and the life cycle (04 R169, R189) -/

/-- The blowing of the life-cycle groups up to a target. -/
theorem fuseStep_blowGroups (s : State) (reads : BitVec 32) (g t fuel : Nat) :
    FuseStep s { s with fuse := { s.fuse with lg := (blowGroups s.fuse.lg reads g t fuel).1 } } :=
  ⟨⟨fun i => blowGroups_keeps fuel s.fuse.lg reads g t i, fun _ _ => .refl _⟩, fun hok k hk => hok k hk⟩

theorem fuseStep_bootNext_bootStep5 (s : State) (us : BitVec 32) (status : BitVec 7) : FuseStep s (bootNext (bootStep5 s us status)) :=
  (fuseStep_bootStep5 s us status).trans (.of_eq (bootNext_fuse _))

theorem fuseOutcome_wipeTimeout (done : BitVec 7) (s : State) : FuseOutcome s (execWipeTimeout done s) := by
  refine .next (.ite ((fuseStep_bootStep5 s (Config.free 32 (s.freeCtr + 1)) done).trans (.of_eq ?_)) (.refl s))
  simp

theorem fuseOutcome_stagingWipeDone (s : State) : FuseOutcome s (execStagingWipeDone s) := by
  refine .next ?_
  split
  · next l _ =>
    refine .ite (.ite (.ite (fuseStep_bootApply s l) (.of_eq ?_)) (.ite (.of_eq ?_) (.of_eq ?_))) (.refl s) <;> simp
  · exact .refl s

theorem fuseOutcome_lcGroupsBlown (reads : BitVec 32) (s : State) : FuseOutcome s (execLcGroupsBlown reads s) := by
  refine .next ?_
  split
  · next x _ =>
    refine .ite ((fuseStep_blowGroups s reads 1 x.target.toNat 4).trans ?_) (.refl s)
    exact .of_eq (by dsimp only; split <;> simp)
  · exact .refl s

theorem fuseOutcome_lcKeysDestroyed (s : State) : FuseOutcome s (execLcKeysDestroyed s) := by
  refine .next ?_
  split
  · next x _ => exact .ite (.refl s) ((fuseStep_destroyForbidden s x.target.toNat).trans (.of_eq (by simp)))
  · exact .refl s

/-! ## Writes of objects by message and by schedule (15 R649, R653, R671) -/

theorem fuseOutcome_mctpObjectWrite (m : Mctp) (index : BitVec 16) (sub : BitVec 8) (offset : BitVec 32) (last : Bool) (data : List (BitVec 8))
    (s : State) : FuseOutcome s (execMctpObjectWrite m index sub offset last data s) := by
  refine .next (FuseStep.trans ?_ (.of_eq (mctpSend_fuse _ _ _ _ _)))
  refine .ite (.of_eq (unanswered_fuse s)) (.ite (.of_eq (by simp)) (.ite (.of_eq (answer_fuse s _)) (.ite (.of_eq (answer_fuse s _)) ?_)))
  exact (fuseStep_segWrite _ _ _ _ _ _ s).trans (.of_eq (writtenTotal_fuse _ _ _ _))

/-- A USDO request runs its access or is answered without one. -/
theorem fuseStep_usdo (node : BitVec 8) (ix sub : Nat) {go : State → State} {s : State} (hgo : FuseStep s (go s)) :
    FuseStep s (usdo node ix sub go s) :=
  .ite (.of_eq (unanswered_fuse s)) (.ite (.of_eq (answer_fuse s _)) hgo)

theorem fuseOutcome_schedLateEntry (e : Fin 32) (s : State) : FuseOutcome s (execSchedLateEntry e s) :=
  .next (.ite (.ite (.of_eq (by simp)) (FuseStep.trans (.of_eq (by simp)) (fuseStep_schedRun _ _))) (.refl s))

theorem fuseOutcome_registerWrite (t : RegTarget) (s : State) : FuseOutcome s (execRegisterWrite t s) := by
  refine .next ?_
  cases t with
  | obj r index sub value => exact fuseStep_writeObj _ _ _ _ _ s
  | goith g cls rs rnw v => exact fuseStep_goith _ _ _ _ _ s
  | engine e off v => exact .of_eq (winReg_fuse _ _ _ _ _ _)

/-! ## Rows that reach their operation through a value they compute -/

theorem fuseOutcome_timePeriod (s : State) : FuseOutcome s (execTimePeriod s) := by
  refine .next (.ite ((FuseStep.of_eq (setCasc_fuse s _)).trans (.foldl _ (fun a d => ?_) _ _)) (.refl s))
  split
  · exact .of_eq (pushMsg_fuse _ _ _ _)
  · exact .refl a

theorem fuseOutcome_apInboundAnswer (p : Fin 128) (id : BitVec 8) (resp : BitVec 4) (data : BitVec 512) (s : State) :
    FuseOutcome s (execApInboundAnswer p id resp data s) := by
  refine .next (.ite (.refl s) ?_)
  split
  · exact .refl s
  · dsimp only
    split
    · exact .of_eq (by simp)
    · exact .of_eq (setVent_fuse s _)

theorem fuseOutcome_mack (seq : BitVec 32) (s : State) : FuseOutcome s (execMack seq s) := by
  refine .next (.ite ?_ (.refl s))
  dsimp only
  split
  · exact .refl s
  · exact .of_eq (by simp)

theorem fuseOutcome_mirrorRecord (seq : BitVec 32) (line : BitVec 46) (data : BitVec 512) (synced : Bool) (s : State) :
    FuseOutcome s (execMirrorRecord seq line data synced s) := by
  refine .next (.ite ?_ (.refl s))
  extract_lets _ _ s0 s1
  have hs1 : FuseStep s s1 := by
    refine .ite (.ite ?_ (.of_eq (gwEvent_fuse s 0 4))) (.refl s)
    split <;> exact .of_eq (by simp [s0])
  exact hs1.trans (.ite (.of_eq (by simp)) (.refl s1))

theorem fuseOutcome_flashDirectoryRead (x0 x1 : FlashChip) (firstFails copyFails : Bool) (s : State) :
    FuseOutcome s (execFlashDirectoryRead x0 x1 firstFails copyFails s) := by
  refine .next (.ite ?_ (.refl s))
  dsimp only
  split
  · exact .of_eq (by simp)
  · refine .ite (.of_eq (by simp)) (.of_eq ?_)
    simp

/-! ## The dispatch -/

/-- Every command: the rows of keys, boot, life cycle, object writes and the port by their laws; the rest leave the fuses as they are. -/
theorem exec_fuseOutcome (c : Instr) (s : State) : FuseOutcome s (exec c s) := by
  cases c
  case keyProgram => exact .next (fuseStep_wrKeyProgram _ _ _ s)
  case keyRevoke => exact .next (fuseStep_wrKeyRevoke _ _ _ s)
  case wipeDone => exact .next (.ite (fuseStep_bootNext_bootStep5 s _ _) (.refl s))
  case wipeTimeout done => exact fuseOutcome_wipeTimeout done s
  case stagingWipeDone => exact fuseOutcome_stagingWipeDone s
  case lcGroupsBlown reads => exact fuseOutcome_lcGroupsBlown reads s
  case lcKeysDestroyed => exact fuseOutcome_lcKeysDestroyed s
  case mctpObjectWrite => exact fuseOutcome_mctpObjectWrite _ _ _ _ _ _ s
  case usdoDownload => exact .next (fuseStep_usdo _ _ _ (fuseStep_segWrite _ _ _ _ _ _ s))
  case usdoUpload => exact .next (fuseStep_usdo _ _ _ (.of_eq (readObj_fuse _ _ _ s)))
  case schedDue => exact .next (.ite (fuseStep_schedRun s _) (.refl s))
  case schedLateEntry => exact fuseOutcome_schedLateEntry _ s
  case registerWrite => exact fuseOutcome_registerWrite _ s
  case goithTunnelDone => exact .next (fuseStep_tunDone s)
  case attach | detach | portClear | goithAbort | portCmdInvalid | engSelWrite | engDataAccess | prbDataAccess | memBufAccess | readLine | writeLine
    | readWord | writeBytes | tunRead | tunWrite | tunDataAccess | rbFrameWrite | rbDataRead => exact .next (fuseStep_goith _ _ _ _ _ s)
  case xtogglePulse | xtoggleClr | xholdReq | xholdDestResetEnd => exact .of_fuse (onCross_fuse s _ _)
  case timePeriod => exact fuseOutcome_timePeriod s
  case apInboundAnswer => exact fuseOutcome_apInboundAnswer _ _ _ _ s
  case mack => exact fuseOutcome_mack _ s
  case mirrorRecord => exact fuseOutcome_mirrorRecord _ _ _ _ s
  case flashDirectoryRead => exact fuseOutcome_flashDirectoryRead _ _ _ _ s
  all_goals refine .of_fuse ?_
  case bootWaitEnd | flashReadTimeout | streamHeader | ream | sealRecord | framesWritten | followOnLoadStart | partialWriteStart
    | partialWriteDone | fuDone | grstRelease | grstUserAssert | ramScrubWriteback | engDebugEntry | engStreamUnfreeze | dmaLineResponse | rsp | pull
    | data | mgmt | epochResponse | reqTimeout | tenantResetDrainDone | tenantResetWipeDone | reassignStart | ownerChange | cxlMemrd | cxlMemwr
    | ddrSizingDone | ddrWalkUnit | timeEcho | assign | getMeasurements | emcySend | segmentTimeout | paramStoreDone | dbgTokenVerified
    | dbgTokenExpiry | hostQuotaEvictionDone | trainingAreaStoreDone | paramEraseDone =>
    (repeat' split) <;> simp
  all_goals simp

theorem step_fuseStep {s t : State} (h : step s = .next t) : FuseStep s t := by
  unfold step at h
  split at h
  · exact FuseOutcome.of_fuse (idleTick_fuse s) t h
  · next c rest _ =>
    have hrest : FuseStep s { s with pending := rest } := .of_eq rfl
    exact hrest.trans (exec_fuseOutcome c _ t h)

end Sys2Proof.Machine

namespace Sys2Proof.Proofs
open Sys2Proof.Machine

/-- Settles O55: the order of the fuses is half of what every step keeps. -/
theorem fusesOneWay : Obligations.FusesOneWay := by
  unfold Obligations.FusesOneWay
  exact fun s t hstep => (step_fuseStep hstep).le

/-- Settles O56: the other half. -/
theorem destroyedSlotsRead : Obligations.DestroyedSlotsRead := by
  unfold Obligations.DestroyedSlotsRead
  exact fun s t hok hstep => (step_fuseStep hstep).ok hok

end Sys2Proof.Proofs
end

section
/-! PROOF. The life-cycle transition: what its two rows leave, what the destruction of the forbidden keys reaches, and that a life cycle read from the
groups never falls (04 R186, R188 to R190). -/
namespace Sys2Proof.Machine

/-! ## The life cycle that the groups give (04 R186) -/

theorem popUpTo_le_of_and_eq (n x y : Nat) (h : x &&& y = x) : popUpTo n x ≤ popUpTo n y := by
  induction n generalizing x y with
  | zero => exact le_rfl
  | succ n ih =>
    have hhalf : x / 2 &&& y / 2 = x / 2 := by rw [← Nat.and_div_two, h]
    have hlow : x % 2 = 1 → y % 2 = 1 := fun hx => (Nat.and_mod_two_eq_one.1 (h.symm ▸ hx)).2
    have hrest := ih _ _ hhalf
    simp only [popUpTo]
    omega

/-- A group that counts as blown counts as blown with more bits blown. -/
theorem groupBlown_of_and_eq {v w : BitVec 8} (h : v &&& w = v) (hv : groupBlown v = true) : groupBlown w = true := by
  have hle := popUpTo_le_of_and_eq 8 v.toNat w.toNat (by rw [← BitVec.toNat_and, h])
  simp only [groupBlown, decide_eq_true_eq] at hv ⊢
  omega

theorem lcOf_le_four (s : State) : lcOf s ≤ 4 := by
  simp only [lcOf]
  repeat' split
  all_goals omega

/-- The life cycle is a blown group, unless it is BLANK. -/
theorem groupBlown_lcOf {s : State} (h : lcOf s ≠ 0) : groupBlown (tabGet s.fuse.lg (lcOf s) 0#8) = true := by
  revert h
  simp only [lcOf]
  repeat' split
  all_goals simp [*]

/-- No group above the life cycle is blown. -/
theorem le_lcOf {s : State} {g : Nat} (hg : g ≤ 4) (h : groupBlown (tabGet s.fuse.lg g 0#8) = true) : g ≤ lcOf s := by
  interval_cases g
  · exact Nat.zero_le _
  all_goals
    simp only [lcOf, h, if_true]
    repeat' split
  all_goals omega

theorem lcOf_le_of_fuseLe {s t : State} (h : FuseLe s t) : lcOf s ≤ lcOf t := by
  by_cases hblank : lcOf s = 0
  · omega
  · exact le_lcOf (lcOf_le_four s) (groupBlown_of_and_eq (h.1 _) (groupBlown_lcOf hblank))

/-! ## The destruction of forbidden keys (04 R189, R190) -/

/-- What the destruction does at slot `k`, with the bitmap of the slots destroyed so far. -/
def destroyAt (lc : Nat) (a : State × Nat) (k : Nat) : State × Nat :=
  if slotForbidden lc k && !(fuseSlot a.1 k).destroyed
  then (setSlot a.1 k { fuseSlot a.1 k with val := slotOnes k, destroyed := true }, a.2 + 2 ^ k) else a

/-- The key slots are visited in order; a BBK that the state forbids goes with them. -/
theorem destroyForbidden_fst (s : State) (lc : Nat) : (destroyForbidden s lc).1 =
    if 3 ≤ lc && s.vbat.keyHeld then
      { ((List.range 7).foldl (destroyAt lc) (s, 0)).1 with
        vbat := { ((List.range 7).foldl (destroyAt lc) (s, 0)).1.vbat with key := 0#256, keyHeld := false } }
    else ((List.range 7).foldl (destroyAt lc) (s, 0)).1 := by
  unfold destroyForbidden destroyAt
  split <;> rfl

theorem destroyAt_lg (lc : Nat) (a : State × Nat) (k : Nat) : (destroyAt lc a k).1.fuse.lg = a.1.fuse.lg := by
  unfold destroyAt
  split <;> rfl

/-- Of the state only the key slots change. -/
theorem destroyAt_slots (lc : Nat) (a : State × Nat) (k : Nat) :
    (destroyAt lc a k).1 = { a.1 with fuse := { a.1.fuse with slots := (destroyAt lc a k).1.fuse.slots } } := by
  unfold destroyAt
  split <;> rfl

theorem fuseSlot_destroyAt_of_ne {lc j k : Nat} (a : State × Nat) (h : j ≠ k) : fuseSlot (destroyAt lc a k).1 j = fuseSlot a.1 j := by
  unfold destroyAt
  split
  · rw [fuseSlot_setSlot, if_neg h]
  · rfl

theorem destroyAt_of_permitted {lc k : Nat} (a : State × Nat) (h : slotForbidden lc k = false) : destroyAt lc a k = a := by
  simp [destroyAt, h]

theorem fuseSlot_destroyAt_destroyed {lc k : Nat} (a : State × Nat) (h : slotForbidden lc k = true) :
    (fuseSlot (destroyAt lc a k).1 k).destroyed = true := by
  cases hd : (fuseSlot a.1 k).destroyed <;> simp [destroyAt, h, hd, fuseSlot_setSlot]

/-- A permitted slot stays as it is over every visit. -/
theorem fuseSlot_foldl_destroyAt_permitted {lc k : Nat} (h : slotForbidden lc k = false) (l : List Nat) (a : State × Nat) :
    fuseSlot (l.foldl (destroyAt lc) a).1 k = fuseSlot a.1 k := by
  induction l generalizing a with
  | nil => rfl
  | cons j l ih =>
    rw [List.foldl_cons, ih]
    by_cases hj : k = j
    · rw [← hj, destroyAt_of_permitted a h]
    · exact fuseSlot_destroyAt_of_ne a hj

theorem destroyAt_keeps_destroyed {lc j k : Nat} {a : State × Nat} (h : (fuseSlot a.1 k).destroyed = true) :
    (fuseSlot (destroyAt lc a j).1 k).destroyed = true := by
  by_cases hj : k = j
  · simp [destroyAt, ← hj, h]
  · rwa [fuseSlot_destroyAt_of_ne a hj]

theorem foldl_destroyAt_keeps_destroyed {lc k : Nat} (l : List Nat) {a : State × Nat} (h : (fuseSlot a.1 k).destroyed = true) :
    (fuseSlot (l.foldl (destroyAt lc) a).1 k).destroyed = true := by
  induction l generalizing a with
  | nil => exact h
  | cons j l ih => exact ih (destroyAt_keeps_destroyed h)

/-- A forbidden slot is destroyed once it has been visited. -/
theorem fuseSlot_foldl_destroyAt_forbidden {lc k : Nat} (h : slotForbidden lc k = true) (l : List Nat) (hk : k ∈ l) (a : State × Nat) :
    (fuseSlot (l.foldl (destroyAt lc) a).1 k).destroyed = true := by
  induction l generalizing a with
  | nil => contradiction
  | cons j l ih =>
    obtain rfl | hl := List.mem_cons.1 hk
    · exact foldl_destroyAt_keeps_destroyed l (fuseSlot_destroyAt_destroyed a h)
    · exact ih hl _

theorem foldl_destroyAt_slots (lc : Nat) (l : List Nat) (a : State × Nat) :
    (l.foldl (destroyAt lc) a).1 = { a.1 with fuse := { a.1.fuse with slots := (l.foldl (destroyAt lc) a).1.fuse.slots } } := by
  induction l generalizing a with
  | nil => rfl
  | cons j l ih => rw [List.foldl_cons, ih, destroyAt_slots]

/-- The destruction changes key slots and, where the BBK goes, the VBAT domain. -/
theorem destroyForbidden_slots (s : State) (lc : Nat) : (destroyForbidden s lc).1 =
    { s with
      fuse := { s.fuse with slots := (destroyForbidden s lc).1.fuse.slots }
      vbat := (destroyForbidden s lc).1.vbat } := by
  rw [destroyForbidden_fst, foldl_destroyAt_slots]
  split <;> rfl

theorem fuseSlot_destroyForbidden (s : State) (lc k : Nat) :
    fuseSlot (destroyForbidden s lc).1 k = fuseSlot ((List.range 7).foldl (destroyAt lc) (s, 0)).1 k := by
  rw [destroyForbidden_fst]
  split <;> rfl

theorem destroyForbidden_forbidden {lc k : Nat} (s : State) (hk : k < 7) (h : slotForbidden lc k = true) :
    (fuseSlot (destroyForbidden s lc).1 k).destroyed = true := by
  rw [fuseSlot_destroyForbidden]
  exact fuseSlot_foldl_destroyAt_forbidden h _ (List.mem_range.2 hk) _

theorem destroyForbidden_permitted {lc k : Nat} (s : State) (h : slotForbidden lc k = false) :
    fuseSlot (destroyForbidden s lc).1 k = fuseSlot s k := by
  rw [fuseSlot_destroyForbidden, fuseSlot_foldl_destroyAt_permitted h]

@[simp] theorem destroyForbidden_lg (s : State) (lc : Nat) : (destroyForbidden s lc).1.fuse.lg = s.fuse.lg := by
  rw [destroyForbidden_slots]
@[simp] theorem destroyForbidden_rst (s : State) (lc : Nat) : (destroyForbidden s lc).1.rst = s.rst := by
  rw [destroyForbidden_slots]
@[simp] theorem destroyForbidden_pwr (s : State) (lc : Nat) : (destroyForbidden s lc).1.pwr = s.pwr := by
  rw [destroyForbidden_slots]
@[simp] theorem destroyForbidden_clk (s : State) (lc : Nat) : (destroyForbidden s lc).1.clk = s.clk := by
  rw [destroyForbidden_slots]
@[simp] theorem destroyForbidden_obj (s : State) (lc : Nat) : (destroyForbidden s lc).1.obj = s.obj := by
  rw [destroyForbidden_slots]

/-! ## The rows of the transition (04 R189) -/

@[simp] theorem coldReset_lcFail (s : State) (cause : Nat) : (coldReset s cause).rst.lcFail = s.rst.lcFail := by
  unfold coldReset keepAon; rfl
@[simp] theorem coldReset_lcOld (s : State) (cause : Nat) : (coldReset s cause).rst.lcOld = s.rst.lcOld := by
  unfold coldReset keepAon; rfl

/-- The cause recorded: a cold reset under way keeps its own (04 R162). -/
theorem coldReset_cause_eq (s : State) (cause : Nat) :
    (coldReset s cause).rst.cause = if inReset s = true ∧ s.rst.warm = false then s.rst.cause else BitVec.ofNat 16 cause := by
  simp [coldReset, keepAon]

/-- State `s` with the groups of its transition to `x.target` blown as far as they took. -/
def withGroups (s : State) (reads : BitVec 32) (x : LcRun) : State :=
  { s with fuse := { s.fuse with lg := (blowGroups s.fuse.lg reads 1 x.target.toNat 4).1 } }

theorem exec_lcGroupsBlown_took {reads : BitVec 32} {s : State} {x : LcRun} (hrun : s.rst.lcRun = some x) (hgroups : x.groups = true)
    (htook : (blowGroups s.fuse.lg reads 1 x.target.toNat 4).2 = true) :
    exec (.lcGroupsBlown reads) s = .next (setRst (withGroups s reads x) { s.rst with lcRun := some { x with groups := false } }) := by
  change execLcGroupsBlown reads s = _
  simp only [execLcGroupsBlown, hrun, hgroups, htook, if_true]
  rfl

theorem exec_lcGroupsBlown_failed {reads : BitVec 32} {s : State} {x : LcRun} (hrun : s.rst.lcRun = some x) (hgroups : x.groups = true)
    (hfailed : (blowGroups s.fuse.lg reads 1 x.target.toNat 4).2 = false) :
    exec (.lcGroupsBlown reads) s = .next (coldReset (setRst (withGroups s reads x) { s.rst with lcFail := some x.target }) 0x0031) := by
  change execLcGroupsBlown reads s = _
  simp only [execLcGroupsBlown, hrun, hgroups, hfailed, if_true, Bool.false_eq_true, if_false]
  rfl

theorem exec_lcKeysDestroyed {s : State} {x : LcRun} (hrun : s.rst.lcRun = some x) (hgroups : x.groups = false) :
    exec .lcKeysDestroyed s = .next (coldReset (setRst (destroyForbidden s x.target.toNat).1
      { (destroyForbidden s x.target.toNat).1.rst with lcOld := some s.rst.lc }) 0x0031) := by
  change execLcKeysDestroyed s = _
  simp only [execLcKeysDestroyed, hrun, hgroups, Bool.false_eq_true, if_false]

end Sys2Proof.Machine

namespace Sys2Proof.Proofs
open Sys2Proof.Machine

/-- Settles O14: the rows by their laws, the keys by those of the destruction, the life cycle by the highest blown group. -/
theorem lifeCycle : Obligations.LifeCycle := by
  unfold Obligations.LifeCycle
  refine ⟨fun reads s x hrun hgroups htook => exec_lcGroupsBlown_took hrun hgroups htook, fun reads s x hrun hgroups hfailed => ?failed,
    fun s x hrun hgroups => ?keys, fun s t hle => lcOf_le_of_fuseLe hle⟩
  case failed =>
    refine ⟨_, exec_lcGroupsBlown_failed hrun hgroups hfailed, ?_, ?_, ?_, coldReset_phase _ _⟩
    · simp [withGroups]
    · exact coldReset_cause_eq _ _
    · simp
  case keys =>
    have hfuse := coldReset_fuse (setRst (destroyForbidden s x.target.toNat).1
      { (destroyForbidden s x.target.toNat).1.rst with lcOld := some s.rst.lc }) 0x0031
    refine ⟨_, exec_lcKeysDestroyed hrun hgroups, fun k hk h => ?_, fun k _ h => ?_, ?_, ?_, coldReset_phase _ _⟩
    · rw [fuseSlot_congr hfuse]
      exact destroyForbidden_forbidden s hk h
    · rw [fuseSlot_congr hfuse]
      exact destroyForbidden_permitted s h
    · simp
    · simp

end Sys2Proof.Proofs
end

section
/-! PROOF. Accepted writes of the key, staging, load and update objects: the effect of each write on the answered state (04 R189; 05 R205, R236 to R238,
R249). -/
namespace Sys2Proof.Machine

variable {s : State} {r : Req} {len val : Nat}

/-! ## The battery-backed key (05 R234) -/

theorem wrBbk_held (h : Accepted s r O_BBK_WRITE len val { life := s.rst.lc.toNat ≤ 2 }) (hfree : loadUsesBbk s = false) :
    wrBbk r len val s = putBbk (answer s 0#32) (BitVec.ofNat 256 (beNat (leBytes 32 val))) := by
  have hans : loadUsesBbk (answer s 0#32) = false := hfree
  simp only [wrBbk, objWriteG_accepted _ _ h, hans, Bool.false_eq_true, if_false]

/-- While a load uses the key, the new one waits. -/
theorem wrBbk_waits (h : Accepted s r O_BBK_WRITE len val { life := s.rst.lc.toNat ≤ 2 }) (hused : loadUsesBbk s = true) :
    wrBbk r len val s =
      setLd (answer s 0#32) { s.ld with pendingBbk := some (BitVec.ofNat 256 (beNat (leBytes 32 val))) } := by
  have hans : loadUsesBbk (answer s 0#32) = true := hused
  simp only [wrBbk, objWriteG_accepted _ _ h, hans, if_true, answer_ld]

/-! ## Key slots (05 R236) -/

/-- A programmable slot has a length of its own: four bytes more than its key. -/
theorem progLen_cases (code : Nat) : progLen code = 36 ∨ progLen code = 52 := by
  unfold progLen
  split <;> simp

theorem wrKeyProgram_accepted {code k : Nat} (hcode : val % 256 = code) (hslot : progSlot code = some k) (hlen : len = progLen code)
    (hzero : val / 256 % 2 ^ 24 = 0)
    (h : Accepted s r O_KEY_PROGRAM len val
      { life := s.rst.lc.toNat ≤ 1, state := !loadUsesSlot s k && !(fuseSlot s k).fused && !(fuseSlot s k).destroyed }) :
    let key := BitVec.ofNat 384 (beNat (leBytes (progLen code - 4) (val / 2 ^ 32)))
    wrKeyProgram r len val s =
      setSlot (answer s 0#32) k { fuseSlot s k with fused := true, val := key, destroyed := key == slotOnes k } := by
  have hwidth : (len = 36 ∨ len = 52) ∧ ((some k).isNone = true ∨ len = progLen code) := ⟨hlen ▸ progLen_cases _, .inr hlen⟩
  have hvalue : ((some k).isSome && val / 256 % 2 ^ 24 == 0) = true := beq_iff_eq.2 hzero
  simp only [wrKeyProgram, hcode, hslot, Option.getD_some, if_pos hwidth, hvalue, objWriteG_accepted _ _ h]

theorem wrKeyRevoke_accepted (hdbg : s.dbg.token = none)
    (h : Accepted s r O_KEY_REVOKE len val
      { life := s.rst.lc == 1#3 || s.rst.lc == 2#3
        state := !loadUsesSlot s (val % 4) && (fuseSlot s (val % 4)).fused && !(fuseSlot s (val % 4)).destroyed &&
          ((fuseSlot s (val % 4)).revoked || otherOwner s (val % 4)) }) :
    wrKeyRevoke r len val s = setSlot (answer s 0#32) (val % 4) { fuseSlot s (val % 4) with revoked := true } := by
  have htoken : (setSlot (answer s 0#32) (val % 4) { fuseSlot s (val % 4) with revoked := true }).dbg.token = none := hdbg
  simp only [wrKeyRevoke, objWriteG_accepted _ _ h, htoken]

/-! ## Staging and loads (05 R205, R239) -/

theorem wrPrStage_accepted
    (h : Accepted s r O_PR_STAGE_MIB len val
      { value := val == 0 || val == 64 || val == 128 || val == 256 || val == 512, state := s.ld.load.isNone }) :
    wrPrStage r len val s = stageDisplace (answer s 0#32) val :=
  objWriteG_accepted _ _ h

/-- Where the slices hold nothing, a new size of the staging region displaces nothing. -/
theorem stageDisplace_empty (v : Nat) (hslices : s.hub.slices = []) (hlines : s.hub.hlines = []) :
    stageDisplace s v = oSet (freeStep s) O_PR_STAGE_MIB v := by
  have hroom : (oSet (freeStep s) O_PR_STAGE_MIB v).hub.slices = [] := hslices
  unfold stageDisplace
  rw [hslices, hlines]
  change trimSlices (oSet (freeStep s) O_PR_STAGE_MIB v) (oSet (freeStep s) O_PR_STAGE_MIB v).hub.slices.length = _
  rw [hroom]
  rfl

theorem wrLoadRequest_accepted (hsrc : val % 256 = 1 ∨ val % 256 = 2) (hzero : val / 256 % 2 ^ 56 = 0)
    (h : Accepted s r 0x231001 len val
      { state := operating s && !loadBusy s && oGet s O_PR_STAGE_MIB != 0 &&
          !(val % 256 == 2 && inOpenSlot s (val / 2 ^ 64 % 2 ^ 64)) }) :
    wrLoadRequest r len val s = setLd (answer s 0#32) { s.ld with
      state := 1#8
      load := some { src := if val % 256 = 1 then 0x10#8 else 0x11#8, boot := false, follow := none, tenant := r.view
                     addr := val / 2 ^ 64 % 2 ^ 64 } } := by
  have hvalue : ((val % 256 == 1 || val % 256 == 2) && val / 256 % 2 ^ 56 == 0) = true := by
    rw [beq_iff_eq.2 hzero]
    simpa using hsrc
  simp only [wrLoadRequest, hvalue, objWriteG_accepted _ _ h, answer_ld]

/-! ## Flash update (05 R249) -/

theorem samRaw_answer (s : State) (code : BitVec 32) (e : Nat) : samRaw (answer s code) e = samRaw s e := oGet_answer s code _

theorem samFind_answer (s : State) (code : BitVec 32) (a n i : Nat) : samFind (answer s code) a n i = samFind s a n i := by
  induction n generalizing i with
  | zero => rfl
  | succ n ih => simp only [samFind, samRaw_answer, ih]

theorem lineNow_answer (s : State) (code : BitVec 32) (m : MemRef) : lineNow (answer s code) m = lineNow s m := by
  simp only [lineNow, sliceGet, chan, answer_hub, answer_ddr, answer_freeCtr]

theorem devByte_answer (s : State) (code : BitVec 32) (a : Nat) : devByte (answer s code) a = devByte s a := by
  simp only [devByte, samLookup, samFind_answer, samRaw_answer, refUnder, oGet_answer, lineNow_answer]

/-- An answer leaves the image of the update as it is. -/
theorem fuImage_answer (s : State) (code : BitVec 32) : fuImage (answer s code) = fuImage s := by
  simp only [fuImage, answer_ld, oGet_answer, loadBusy, devBytes, devByte_answer]
  rfl

theorem wrFuStart_accepted {f : FlashInfo} {d k : Nat} {b : List Byte} (himage : fuImage s = some (f, d, k, b))
    (h : Accepted s r O_FU_START len val { state := operating s && !serviceBusy s }) :
    wrFuStart r len val s = setLd (oSet (answer s 0#32) O_FU_STATE 1) { s.ld with
      flash := some (journalPut f d s.fw.dtime 1 k (journalTop f d + 1))
      fu := some { slot := k, seq := journalTop f d + 1, image := b } } := by
  have hstate : (operating s && (some (f, d, k, b)).isSome && !serviceBusy s) = (operating s && !serviceBusy s) := by simp
  simp only [wrFuStart, himage, hstate, objWriteG_accepted _ _ h, fuImage_answer, answer_ld, answer_fw]

end Sys2Proof.Machine

namespace Sys2Proof.Proofs
open Sys2Proof.Machine

/-- Settles O6: each row is the write of its object, whose effect the law of that write gives; the rows' operands spell the written value. -/
theorem keyAndLoadWrites : Obligations.KeyAndLoadWrites := by
  unfold Obligations.KeyAndLoadWrites
  refine ⟨fun r key s h hfree => congrArg _ (wrBbk_held h hfree), fun r key s h hused => congrArg _ (wrBbk_waits h hused), ?program,
    fun r slot s h hdbg => congrArg _ (wrKeyRevoke_accepted hdbg h),
    fun r v s h => congrArg _ (wrPrStage_accepted h), fun v s hslices hlines => stageDisplace_empty v hslices hlines, ?load,
    fun r v s f d k b himage h => congrArg _ (wrFuStart_accepted himage h)⟩
  case program =>
    intro r slot key s k n val v hslot h
    have hcode : val % 256 = slot.toNat := by omega
    have hzero : val / 256 % 2 ^ 24 = 0 := by omega
    have hlen : n + 4 = progLen slot.toNat := by
      have hcases := progLen_cases slot.toNat
      omega
    exact congrArg _ (wrKeyProgram_accepted hcode hslot hlen hzero h)
  case load =>
    intro r source addr s val hsrc h
    have hcode : val % 256 = source.toNat := by omega
    have haddr : val / 2 ^ 64 % 2 ^ 64 = addr.toNat := by omega
    have hzero : val / 256 % 2 ^ 56 = 0 := by omega
    have hone : val % 256 = 1 ↔ source = 1#8 := by rw [hcode, ← BitVec.toNat_inj]; rfl
    have htwo : val % 256 = 2 ↔ source = 2#8 := by rw [hcode, ← BitVec.toNat_inj]; rfl
    have hwrite := wrLoadRequest_accepted (s := s) (r := r) (len := 16) (hone.or htwo |>.2 hsrc) hzero
      (by simpa only [haddr, Bool.beq_eq_decide_eq, htwo] using h)
    simp only [haddr, hone] at hwrite
    exact congrArg _ hwrite

end Sys2Proof.Proofs
end

section
/-! PROOF. Reads that change the state: what each answers and what it leaves behind (04 R188; 13 R589; 15 R669; 17 R728). -/
namespace Sys2Proof.Machine

variable {s : State} {r : Req}

theorem rdLcChallenge_readable (h : Readable s r O_LC_CHALLENGE) : rdLcChallenge r s =
    { freeStep (setRst s { s.rst with lcChallenge := Config.free 384 s.freeCtr }) with
      ans := { answered := true, abort := 0#32, value := leNat (beBytes 48 (Config.free 384 s.freeCtr).toNat), total := 48 } } := by
  unfold rdLcChallenge
  exact objReadG_readable _ _ _ h

theorem rdDbgChallenge_readable (h : Readable s r O_DBG_CHALLENGE) : rdDbgChallenge r s =
    { freeStep (setDbg s { s.dbg with challenge := Config.free 384 s.freeCtr }) with
      ans := { answered := true, abort := 0#32, value := leNat (beBytes 48 (Config.free 384 s.freeCtr).toNat), total := 48 } } := by
  unfold rdDbgChallenge
  exact objReadG_readable _ _ _ h

/-- A read of PRBS_BITS latches the lane's error count. -/
theorem rdPrbsBits_readable {l : Nat} (h : Readable s r (O_PRBS_BITS l)) : rdPrbsBits r l s =
    { setLane s l { sline s l with latched := some (oGet s (O_PRBS_ERRORS l)) } with
      ans := { answered := true, abort := 0#32, value := oGet s (O_PRBS_BITS l), total := 8 } } := by
  unfold rdPrbsBits
  exact objReadG_readable _ _ _ h

theorem rdEvent_record {q : Nat} {e : EventRec} (hnext : nextRec s.fw.ring (readerOf r) (tabGet s.fw.pos (readerOf r) 0) = some (q, e))
    (h : Readable s r O_EVENT_READ) : rdEvent r s =
    { setFw s { s.fw with pos := tabPut s.fw.pos (readerOf r) (q + 1) } with
      ans := { answered := true, abort := 0#32, value := q % 2 ^ 32 + 2 ^ 32 * recNat e, total := 20 } } := by
  simp only [rdEvent, hnext]
  exact objReadG_readable _ _ _ h

theorem rdEvent_empty (hnext : nextRec s.fw.ring (readerOf r) (tabGet s.fw.pos (readerOf r) 0) = none) (h : Readable s r O_EVENT_READ) :
    rdEvent r s = { s with ans := { answered := true, abort := 0#32, value := 0, total := 20 } } := by
  simp only [rdEvent, hnext]
  exact objReadG_readable _ _ _ h

/-- A read of EVENT_LOST sets the reader's count back. -/
theorem rdEventLost_readable (h : Readable s r O_EVENT_LOST) : rdEventLost r s =
    { setFw s { s.fw with lost := tabPut s.fw.lost (readerOf r) 0 } with
      ans := { answered := true, abort := 0#32, value := tabGet s.fw.lost (readerOf r) 0, total := 4 } } := by
  unfold rdEventLost
  exact objReadG_readable _ _ _ h

end Sys2Proof.Machine

namespace Sys2Proof.Proofs
open Sys2Proof.Machine

/-- Settles O11: each row is the read of its object; EVENT_READ by whether the reader has a next record. -/
theorem objectReads : Obligations.ObjectReads := by
  unfold Obligations.ObjectReads
  exact ⟨fun r s h => congrArg _ (rdLcChallenge_readable h), fun r s h => congrArg _ (rdDbgChallenge_readable h),
    fun r l s h => congrArg _ (rdPrbsBits_readable h), fun r s q e hnext h => congrArg _ (rdEvent_record hnext h),
    fun r s hnext h => congrArg _ (rdEvent_empty hnext h), fun r s h => congrArg _ (rdEventLost_readable h)⟩

end Sys2Proof.Proofs
end

section
/-! PROOF. Reset pins, the watchdog, warm reset with and without retention, the wipe and the waits of boot (04 R160 to R169; 03 R115; 02 R96). -/
namespace Sys2Proof.Machine

theorem operating_iff (s : State) : operating s = true ↔
    s.pwr.vaux = true ∧ s.pwr.tripped = false ∧ s.rst.phase = .run ∧ s.rst.standby = .none ∧ s.rst.lcRun = none := by
  simp [operating, and_assoc]

/-! ## What ends with a warm reset's start (04 R163; 17 R723, R729; 05 R243) -/

/-- State `s` once a warm reset has ended the token, the attachment and what the port has in flight. -/
def debugCleared (s : State) : State :=
  let s1 := match s.dbg.token with | some t => tokenEvent s t 0x2E03 1 | none => s
  let s2 := if s.dbg.attached then logEv s1 0x2E04 sevInfo 0 else s1
  { s2 with
    ld := { s2.ld with pendingBbk := none }
    dbg := { s2.dbg with token := none, attached := false, verifying := none, memOp := none, tunOp := none, rbWait := none } }

theorem resetDebug_eq (s : State) : resetDebug s = abortLoad (debugCleared s) 0x14 := rfl

/-- Event records, the pending battery-backed key and the port change. -/
theorem debugCleared_eq (s : State) : debugCleared s =
    { s with
      fw := { (debugCleared s).fw with dtime := s.fw.dtime }
      ld := { s.ld with pendingBbk := none }
      dbg := { s.dbg with token := none, attached := false, verifying := none, memOp := none, tunOp := none, rbWait := none } } := by
  unfold debugCleared
  cases s.dbg.token <;> cases s.dbg.attached <;> rfl

theorem abortWipe_dtime (s : State) (l : Load) : (abortWipe s l).fw.dtime = s.fw.dtime := by
  have hparts (x : List Nat) : (x.foldl wipePart s).fw.dtime = s.fw.dtime := foldl_keeps (fun a => a.fw.dtime) wipePart (fun _ _ => rfl) x s
  unfold abortWipe
  generalize List.range 128 = parts
  split
  · rfl
  · split
    · exact hparts _
    · exact hparts _

@[simp] theorem abortLoad_dtime (s : State) (reason : Nat) : (abortLoad s reason).fw.dtime = s.fw.dtime := by
  unfold abortLoad
  split
  · rfl
  · next l _ =>
    split
    · rfl
    · cases l.follow <;> exact abortWipe_dtime s l

@[simp] theorem resetDebug_pwr (s : State) : (resetDebug s).pwr = s.pwr := by
  rw [resetDebug_eq, (sameLinks_abortLoad _ _).pwr, debugCleared_eq]
@[simp] theorem resetDebug_vbat (s : State) : (resetDebug s).vbat = s.vbat := by
  rw [resetDebug_eq, (sameLinks_abortLoad _ _).vbat, debugCleared_eq]
@[simp] theorem resetDebug_clk (s : State) : (resetDebug s).clk = s.clk := by
  rw [resetDebug_eq, (sameLinks_abortLoad _ _).clk, debugCleared_eq]
@[simp] theorem resetDebug_rst (s : State) : (resetDebug s).rst = s.rst := by
  rw [resetDebug_eq, (sameLinks_abortLoad _ _).rst, debugCleared_eq]
@[simp] theorem resetDebug_hub (s : State) : (resetDebug s).hub = s.hub := by
  rw [resetDebug_eq, (sameLinks_abortLoad _ _).hub, debugCleared_eq]
@[simp] theorem resetDebug_ddr (s : State) : (resetDebug s).ddr = s.ddr := by
  rw [resetDebug_eq, (sameLinks_abortLoad _ _).ddr, debugCleared_eq]
@[simp] theorem resetDebug_dtime (s : State) : (resetDebug s).fw.dtime = s.fw.dtime := by
  rw [resetDebug_eq, abortLoad_dtime, debugCleared_eq]
@[simp] theorem resetDebug_token (s : State) : (resetDebug s).dbg.token = none := by
  rw [resetDebug_eq, (sameLinks_abortLoad _ _).dbg, debugCleared_eq]
@[simp] theorem resetDebug_attached (s : State) : (resetDebug s).dbg.attached = false := by
  rw [resetDebug_eq, (sameLinks_abortLoad _ _).dbg, debugCleared_eq]

/-! ## A warm reset of a device that works (04 R158, R162, R167) -/

/-- State `s` with a new reset recorded. -/
def resetRecorded (s : State) (cause : Nat) : State :=
  { s with
    pwr := { s.pwr with gone := goneAfter s }
    rst := { s.rst with cause := BitVec.ofNat 16 cause, count := s.rst.count + 1#32 } }

/-- With WARM_RETAIN 0 the device goes to the wipe at once. -/
theorem warmGo_of_operating {s : State} (cause : Nat) (hop : operating s = true) (hkeep : oGet s O_WARM_RETAIN ≠ 1) :
    warmGo s cause = warmCore (setRst (resetDebug (resetRecorded s cause)) { (resetDebug (resetRecorded s cause)).rst with retain := false }) := by
  obtain ⟨hvaux, htrip, hphase, -, hrun⟩ := (operating_iff s).1 hop
  simp [warmGo, inReset, hvaux, htrip, hphase, hrun, hkeep, resetRecorded, setRst]

/-- State `s`, in a warm reset that holds it for the flush of device memory. -/
def flushHeld (s : State) : State :=
  { s with
    ten := {}, ld := { State.reset.ld with tamperStop := s.ld.tamperStop }
    rst := { s.rst with warm := true, retain := true, flushing := true, phase := .held, treesHeld := true, standby := .none, standbyEmul := false } }

theorem warmGo_of_operating_retain {s : State} (cause : Nat) (hop : operating s = true) (hkeep : oGet s O_WARM_RETAIN = 1) :
    warmGo s cause = flushHeld (resetDebug (resetRecorded s cause)) := by
  obtain ⟨hvaux, htrip, hphase, -, hrun⟩ := (operating_iff s).1 hop
  simp [warmGo, inReset, hvaux, htrip, hphase, hrun, hkeep, resetRecorded, flushHeld]

theorem warmReset_of_standby {s : State} (cause : Nat) (h : s.rst.standby ≠ .none) : warmReset s cause = s := by
  simp [warmReset, h]
theorem warmReset_of_awake {s : State} (cause : Nat) (h : s.rst.standby = .none) : warmReset s cause = warmGo s cause := by
  simp [warmReset, h]

/-! ## The pins, the watchdog and the end of the flush (04 R160, R161, R167, R168) -/

theorem exec_sysRstNLow {s : State} (hvaux : s.pwr.vaux = true) :
    exec .sysRstNLow s = .next (warmReset (setPwr s { s.pwr with sysRstN := false }) 0x0011) := by
  change execSysRstNLow s = _
  simp only [execSysRstNLow, hvaux, if_true]

theorem exec_sysRstNRise {s : State} (hvaux : s.pwr.vaux = true) :
    exec .sysRstNRise s = .next (startBoot (setPwr s { s.pwr with sysRstN := true })) := by
  change execSysRstNRise s = _
  simp only [execSysRstNRise, hvaux, if_true]

/-- Boot starts where nothing holds the device in reset. -/
theorem startBoot_of_released {s : State} (hvaux : s.pwr.vaux = true) (hpin : s.pwr.sysRstN = true) (htrip : s.pwr.tripped = false)
    (heff : s.pwr.effReset = false) (hheld : s.rst.phase = .held) (hflush : s.rst.flushing = false) (hstandby : s.rst.standby = .none) :
    startBoot s = setRst s { s.rst with phase := .wiping } := by
  simp [startBoot, hvaux, hpin, htrip, heff, hheld, hflush, hstandby]

theorem exec_watchdogExpiry {s : State} (service : BitVec 24) (hfw : fwRuns s = true) :
    exec (.watchdogExpiry service) s = .next (warmGo (setRst s { s.rst with wdExpired := some service }) 0x0013) := by
  change execWatchdogExpiry service s = _
  simp only [execWatchdogExpiry, hfw, if_true]

theorem exec_warmFlushDone {s : State} (h : s.rst.flushing = true) :
    exec .warmFlushDone s = .next (flushEnd ((List.range 16).foldl storeRecs (flushHosts (flushSlices s))) true s.rst.abandoned) := by
  change execWarmFlushDone s = _
  simp only [execWarmFlushDone, h, if_true]

theorem exec_warmFlushTimeout {s : State} (us : Nat) (h : s.rst.flushing = true) :
    exec (.warmFlushTimeout us) s = .next (flushEnd s false (some us)) := by
  change execWarmFlushTimeout us s = _
  simp only [execWarmFlushTimeout, h, if_true]

/-! ## Steps that log events and do nothing else -/

/-- State `t` is `s` with its event log gone on. -/
def OnlyLogs (s t : State) : Prop := t = { s with fw := t.fw }

theorem OnlyLogs.refl (s : State) : OnlyLogs s s := rfl

theorem OnlyLogs.trans {s t u : State} (a : OnlyLogs s t) (b : OnlyLogs t u) : OnlyLogs s u := by
  unfold OnlyLogs at *
  rw [b, a]

theorem onlyLogs_logEv (s : State) (code sev data : Nat) : OnlyLogs s (logEv s code sev data) := rfl

theorem onlyLogs_logIf (c : Bool) (s : State) (code sev data : Nat) : OnlyLogs s (logIf c s code sev data) := by
  unfold logIf
  split
  · exact onlyLogs_logEv s code sev data
  · exact .refl s

/-! ## Steps 1 to 5 of boot (04 R169) -/

/-- The latches' marks change, and what is logged. -/
theorem bootLatches_eq (s : State) : bootLatches s = { s with fw := (bootLatches s).fw, vbat := (bootLatches s).vbat } := by
  unfold bootLatches
  extract_lets s1 s2
  have hlogs : OnlyLogs s s2 := (onlyLogs_logIf _ _ _ _ _).trans (onlyLogs_logIf _ _ _ _ _)
  rw [hlogs]

/-- The reset unit's record once the firmware has logged what led to this boot. -/
def reported (r : ResetUnit) : ResetUnit := { r with wdExpired := none, abandoned := none, lcOld := none, lcFail := none }

theorem setRst_reported {s t : State} (h : t = { s with fw := t.fw, vbat := t.vbat }) :
    setRst t (reported t.rst) = { s with fw := t.fw, vbat := t.vbat, rst := reported s.rst } := by
  rw [h]
  rfl

/-- What the firmware's start leaves: events, the latches' marks, and the causes that it has logged. -/
theorem bootEvents_eq (s : State) (destroyed : Nat) : bootEvents s destroyed =
    { s with fw := (bootEvents s destroyed).fw, vbat := (bootEvents s destroyed).vbat, rst := reported s.rst } := by
  unfold bootEvents
  extract_lets lc s1 s2 s3 s4 s5 s6 s7
  have h1 : OnlyLogs s s1 := onlyLogs_logEv _ _ _ _
  have h2 : OnlyLogs s1 s2 := by dsimp only [s2]; split <;> exact rfl
  have h3 : OnlyLogs s2 s3 := by dsimp only [s3]; split <;> exact rfl
  have h4 : OnlyLogs s3 s4 := onlyLogs_logIf _ _ _ _ _
  have h5 : OnlyLogs s4 s5 := by
    dsimp only [s5]
    split
    · exact onlyLogs_logEv _ _ _ _
    · split <;> exact rfl
  have h6 : OnlyLogs s5 s6 := onlyLogs_logIf _ _ _ _ _
  have hlogs : OnlyLogs s s6 := ((((h1.trans h2).trans h3).trans h4).trans h5).trans h6
  have hlatches : s7 = { s6 with fw := s7.fw, vbat := s7.vbat } := bootLatches_eq s6
  rw [hlogs] at hlatches
  exact setRst_reported hlatches

@[simp] theorem bootEvents_rst (s : State) (destroyed : Nat) : (bootEvents s destroyed).rst = reported s.rst := by rw [bootEvents_eq]
@[simp] theorem bootEvents_pwr (s : State) (destroyed : Nat) : (bootEvents s destroyed).pwr = s.pwr := by rw [bootEvents_eq]
@[simp] theorem bootEvents_clk (s : State) (destroyed : Nat) : (bootEvents s destroyed).clk = s.clk := by rw [bootEvents_eq]
@[simp] theorem bootEvents_obj (s : State) (destroyed : Nat) : (bootEvents s destroyed).obj = s.obj := by rw [bootEvents_eq]

/-- Step 5 reaches the events with the state that the destruction left, but for keys and the free values taken. -/
theorem bootStep5_eq (s : State) (us : BitVec 32) (status : BitVec 7) : ∃ u, bootStep5 s us status =
    bootEvents u (destroyForbidden (setRst s { s.rst with lc := BitVec.ofNat 3 (lcOf s), wipeTime := us, wipeStatus := status }) (lcOf s)).2 ∧
    u.rst = { s.rst with lc := BitVec.ofNat 3 (lcOf s), wipeTime := us, wipeStatus := status } ∧ u.pwr = s.pwr ∧ u.clk = s.clk ∧ u.obj = s.obj := by
  refine ⟨_, rfl, ?_⟩
  cases s.rst.warm && s.rst.retain <;> simp [freeStep]

theorem bootStep5_rst (s : State) (us : BitVec 32) (status : BitVec 7) : (bootStep5 s us status).rst =
    reported { s.rst with lc := BitVec.ofNat 3 (lcOf s), wipeTime := us, wipeStatus := status } := by
  obtain ⟨u, h, hrst, -⟩ := bootStep5_eq s us status
  rw [h, bootEvents_rst, hrst]
@[simp] theorem bootStep5_pwr (s : State) (us : BitVec 32) (status : BitVec 7) : (bootStep5 s us status).pwr = s.pwr := by
  obtain ⟨u, h, -, hpwr, -⟩ := bootStep5_eq s us status
  rw [h, bootEvents_pwr, hpwr]
@[simp] theorem bootStep5_clk (s : State) (us : BitVec 32) (status : BitVec 7) : (bootStep5 s us status).clk = s.clk := by
  obtain ⟨u, h, -, -, hclk, -⟩ := bootStep5_eq s us status
  rw [h, bootEvents_clk, hclk]
@[simp] theorem bootStep5_obj (s : State) (us : BitVec 32) (status : BitVec 7) : (bootStep5 s us status).obj = s.obj := by
  obtain ⟨u, h, -, -, -, hobj⟩ := bootStep5_eq s us status
  rw [h, bootEvents_obj, hobj]

/-! ## The wipe's end and the waits (04 R164, R165, R169; 03 R115; 02 R96) -/

theorem exec_wipeDone {s : State} (us : BitVec 32) (h : wipeRuns s = true) :
    exec (.wipeDone us) s = .next (bootNext (bootStep5 s us 0x7F#7)) := by
  change execWipeDone us s = _
  simp only [execWipeDone, h, if_true]

/-- State `s` after step 5 of a boot whose wipe failed. -/
def wipeFailedBoot (s : State) (done : BitVec 7) : State :=
  let s1 := logEv (bootStep5 s (Config.free 32 (s.freeCtr + 1)) done) 0x2402 sevFatal (~~~done).toNat
  setRst s1 { s1.rst with wipeFailed := true }

theorem exec_wipeTimeout {s : State} {done : BitVec 7} (h : wipeRuns s = true) (hdone : done ≠ 0x7F#7) :
    exec (.wipeTimeout done) s = .next (bootNext (wipeFailedBoot s done)) := by
  change execWipeTimeout done s = _
  simp only [execWipeTimeout, h, bne_iff_ne.2 hdone, Bool.and_self, if_true, wipeFailedBoot]

theorem wipeFailedBoot_rst (s : State) (done : BitVec 7) : (wipeFailedBoot s done).rst =
    { reported { s.rst with lc := BitVec.ofNat 3 (lcOf s), wipeTime := Config.free 32 (s.freeCtr + 1), wipeStatus := done } with
      wipeFailed := true } := by
  rw [← bootStep5_rst]
  rfl

@[simp] theorem wipeFailedBoot_pending (s : State) (done : BitVec 7) : (wipeFailedBoot s done).pending = s.pending := by
  simp [wipeFailedBoot, setRst]
@[simp] theorem wipeFailedBoot_pwr (s : State) (done : BitVec 7) : (wipeFailedBoot s done).pwr = s.pwr := bootStep5_pwr s _ done
@[simp] theorem wipeFailedBoot_clk (s : State) (done : BitVec 7) : (wipeFailedBoot s done).clk = s.clk := bootStep5_clk s _ done
@[simp] theorem wipeFailedBoot_obj (s : State) (done : BitVec 7) : (wipeFailedBoot s done).obj = s.obj := bootStep5_obj s _ done

theorem bootNext_of_strapError {s : State} (hlatch : s.pwr.tripLatch = none) (hstrap : strapError s = true) :
    bootNext s = bootHalt (logEv s 0x2107 sevFatal (s.pwr.straps.toNat / 4)) := by
  simp [bootNext, hlatch, hstrap]

theorem bootNext_of_wipeFailed {s : State} (hlatch : s.pwr.tripLatch = none) (hstrap : strapError s = false) (hfailed : s.rst.wipeFailed = true) :
    bootNext s = bootHalt s := by
  simp [bootNext, hlatch, hstrap, hfailed]

theorem bootNext_of_reduced {s : State} (hlatch : s.pwr.tripLatch = none) (hstrap : strapError s = false) (hwiped : s.rst.wipeFailed = false)
    (htamper : s.ld.tamperStop = false) (hmode : s.clk.mode = .reduced) : bootNext s = setRst s { s.rst with phase := .waitRoot } := by
  simp [bootNext, hlatch, hstrap, hwiped, htamper, hmode]

/-- A failed wipe stops boot, with a strap error logged first where there is one. -/
theorem bootNext_halted {s : State} (hlatch : s.pwr.tripLatch = none) (hfailed : s.rst.wipeFailed = true) :
    bootNext s = bootHalt (logIf (strapError s) s 0x2107 sevFatal (s.pwr.straps.toNat / 4)) := by
  cases hstrap : strapError s
  · exact bootNext_of_wipeFailed hlatch hstrap hfailed
  · exact bootNext_of_strapError hlatch hstrap

theorem exec_bootWaitEnd_root {s : State} (hphase : s.rst.phase = .waitRoot) (hclocked : clocked s = true) (hmode : s.clk.mode ≠ .reduced) :
    exec .bootWaitEnd s = .next (enterStep6 s) := by
  change execBootWaitEnd s = _
  simp [execBootWaitEnd, hphase, hclocked, hmode]

theorem exec_bootWaitEnd_hot {s : State} (hphase : s.rst.phase = .waitHot) (hclocked : clocked s = true) :
    exec .bootWaitEnd s = .next (bootNext (logEv (setPwr s { s.pwr with tripLatch := none }) 0x2106 sevFatal (s.pwr.tripLatch.getD 0))) := by
  change execBootWaitEnd s = _
  simp [execBootWaitEnd, hphase, hclocked]

end Sys2Proof.Machine

namespace Sys2Proof.Proofs
open Sys2Proof.Machine

/-- Settles O12: each row by its law, what a warm reset keeps by what the debug port's clearing and the core of the reset keep. -/
theorem resetsAndBoot : Obligations.ResetsAndBoot := by
  unfold Obligations.ResetsAndBoot
  refine ⟨fun s hvaux => exec_sysRstNLow hvaux, fun s hvaux htrip heff hheld hflush hstandby => ?rise, fun s cause h => warmReset_of_standby cause h,
    fun service s hfw => exec_watchdogExpiry service hfw, fun s cause h => warmReset_of_awake cause h,
    fun s cause hop hkeep => ⟨_, warmGo_of_operating cause hop hkeep, ?warm⟩, fun s cause hop hkeep => ⟨_, warmGo_of_operating_retain cause hop hkeep, ?retain⟩,
    fun s h => ⟨_, rfl, exec_warmFlushDone h⟩, fun us s h => exec_warmFlushTimeout us h, fun us s h => exec_wipeDone us h,
    fun s hlatch hstrap hwiped htamper hmode => bootNext_of_reduced hlatch hstrap hwiped htamper hmode,
    fun s hlatch hstrap => bootNext_of_strapError hlatch hstrap, fun done s h hdone => ⟨_, exec_wipeTimeout h hdone, ?wipe⟩,
    fun s hlatch hfailed => ⟨_, bootNext_halted hlatch hfailed, ?halted⟩, fun s hphase hclocked hmode => exec_bootWaitEnd_root hphase hclocked hmode,
    fun s hphase hclocked => exec_bootWaitEnd_hot hphase hclocked⟩
  case rise =>
    rw [exec_sysRstNRise hvaux, startBoot_of_released (s := setPwr s { s.pwr with sysRstN := true }) hvaux rfl htrip heff hheld hflush hstandby]
    rfl
  case warm => simp [warmCore, keepAon, keepPower, setRst, resetRecorded]
  case retain => simp [flushHeld, resetRecorded, State.reset]
  case wipe =>
    rw [wipeFailedBoot_rst]
    exact ⟨rfl, rfl, rfl, wipeFailedBoot_pending s done, wipeFailedBoot_pwr s done, wipeFailedBoot_clk s done, wipeFailedBoot_obj s done⟩
  case halted => cases strapError s <;> exact ⟨rfl, hfailed, rfl, rfl⟩

end Sys2Proof.Proofs
end

section
/-! PROOF. A die's drain, power-off and return, the entry of STANDBY, its wake events and the boot of a wake (04 R173 to R182; 17 R724). -/
namespace Sys2Proof.Machine

/-! ## DIE-DORMANT (04 R173, R175) -/

theorem exec_dieDrainDone {d : Fin 8} {s : State} (hop : operating s = true) (hdie : dieOf s d.val = .entering) (hfree : s.dbg.attached = false) :
    exec (.dieDrainDone d) s = .next (lanesDieDormant (synthsStop
      (let u := (dieParts d.val).foldl (fun a p => setPart a p 3) (drainTxs s (dieParts d.val) (dieEngs d.val) rGated)
       setVent u { u.vent with txs := orphan [] (dieEngs d.val) u.vent.txs }) d.val) d.val) := by
  change execDieDrainDone d s = _
  simp only [execDieDrainDone, hop, hdie, hfree, beq_self_eq_true, Bool.and_self, if_true, Bool.false_eq_true, if_false]

theorem exec_diePowerOffDone {d : Fin 8} {s : State} (hop : operating s = true) (hdie : dieOf s d.val = .entering)
    (hpart : partState s (16 * d.val) = 3) :
    exec (.diePowerOffDone d) s = .next (logEv (setRst s { s.rst with
      die := tabPut s.rst.die d.val .dormant, dieEmul := setBit s.rst.dieEmul d.val s.dbg.attached }) 0x2140 sevInfo d.val) := by
  change execDiePowerOffDone d s = _
  simp only [execDiePowerOffDone, hop, hdie, hpart, beq_self_eq_true, Bool.and_self, if_true]
  rfl

/-- What no return of a die reaches. -/
def besideDies (s : State) : List Instr × Fuses × Power × Hub × Ddr := (s.pending, s.fuse, s.pwr, s.hub, s.ddr)

theorem besideDies_wipeParts (l : List Nat) (s : State) : besideDies (l.foldl wipePart s) = besideDies s :=
  foldl_keeps besideDies wipePart (fun _ _ => rfl) l s

theorem besideDies_setEng (s : State) (e : Tab Engine) : besideDies { s with eng := e } = besideDies s := rfl

theorem besideDies_advanceEpochs (s : State) (ps es : List Nat) : besideDies (advanceEpochs s ps es) = besideDies s := rfl

theorem besideDies_synthsRestart (s : State) (d : Nat) : besideDies (synthsRestart s d) = besideDies s := by
  unfold synthsRestart
  refine foldl_keeps besideDies _ (fun a k => ?_) _ s
  rfl

theorem besideDies_clearQbCounts (first : Nat) (l : List Nat) (s : State) :
    besideDies (l.foldl (fun a b => clearQbCounts a (first + b)) s) = besideDies s :=
  foldl_keeps besideDies (fun a b => clearQbCounts a (first + b)) (fun _ _ => rfl) l s

/-- State `s` with die `d` wiped, its engines out, its synthesizers restarted, its epochs advanced and its queue blocks' counts at 0. -/
def dieRenewed (s : State) (d : Nat) : State :=
  let s1 := (dieParts d).foldl wipePart s
  let s2 := { s1 with eng := s1.eng.filter fun x => x.1 / 96 != d || x.2.state == .off }
  (List.range 128).foldl (fun a b => clearQbCounts a (128 * d + b)) (advanceEpochs (synthsRestart s2 d) (dieParts d) (dieEngs d))

theorem besideDies_dieRenewed (s : State) (d : Nat) : besideDies (dieRenewed s d) = besideDies s := by
  unfold dieRenewed
  extract_lets s1 s2
  calc besideDies _
      = besideDies (advanceEpochs (synthsRestart s2 d) (dieParts d) (dieEngs d)) := besideDies_clearQbCounts _ _ _
    _ = besideDies (synthsRestart s2 d) := besideDies_advanceEpochs _ _ _
    _ = besideDies s2 := besideDies_synthsRestart s2 d
    _ = besideDies s1 := besideDies_setEng s1 _
    _ = besideDies s := besideDies_wipeParts (dieParts d) s

theorem exec_dieReturnDone {d : Fin 8} {s : State} (hop : operating s = true) (hdie : dieOf s d.val = .waking) :
    exec (.dieReturnDone d) s = .next (logEv (setDie (dieRenewed s d.val) d.val .on) 0x2141 sevInfo d.val) := by
  change execDieReturnDone d s = _
  simp only [execDieReturnDone, hop, hdie, beq_self_eq_true, Bool.and_self, if_true, dieRenewed]

@[simp] theorem dieOf_setDie_same (s : State) (d : Nat) (x : DieState) : dieOf (setDie s d x) d = x := tabGet_tabPut_self _ _ _ _

/-- The end of a return leaves the die ON and the rest as the renewal left it. -/
theorem dieSetOn_keeps {s u : State} (d : Nat) (h : besideDies u = besideDies s) :
    dieOf (logEv (setDie u d .on) 0x2141 sevInfo d) d = .on ∧ (logEv (setDie u d .on) 0x2141 sevInfo d).pending = s.pending ∧
    (logEv (setDie u d .on) 0x2141 sevInfo d).fuse = s.fuse ∧ (logEv (setDie u d .on) 0x2141 sevInfo d).pwr = s.pwr ∧
    (logEv (setDie u d .on) 0x2141 sevInfo d).hub = s.hub ∧ (logEv (setDie u d .on) 0x2141 sevInfo d).ddr = s.ddr := by
  simp only [besideDies, Prod.mk.injEq] at h
  exact ⟨dieOf_setDie_same u d .on, h⟩

/-! ## STANDBY (04 R178; 17 R724) -/

/-- State `s` once the entry has saved what AON holds and every lane is DORMANT. -/
def standbySaved (s : State) : State :=
  { lanesAllDormant s with
    ddr := State.reset.ddr
    rst := { (lanesAllDormant s).rst with
      savedEvents := (s.fw.ring.take 32).map (·.2), savedDtime := s.fw.dtime, savedFreq := oGet s O_AON32K_FREQ } }

theorem exec_standbySaveDone_sleeps {s : State} (hentry : s.rst.standby = .entering) (hreal : s.rst.standbyEmul = false)
    (hfree : s.dbg.attached = false) : exec .standbySaveDone s = .next (standbySleep (standbySaved s)) := by
  change execStandbySaveDone s = _
  simp only [execStandbySaveDone, hentry, hreal, hfree, beq_self_eq_true, Bool.not_false, Bool.and_self, if_true, Bool.false_eq_true, if_false,
    standbySaved]

/-- A debugger that is attached has the sleep emulated. -/
theorem exec_standbySaveDone_emulated {s : State} (hentry : s.rst.standby = .entering) (hreal : s.rst.standbyEmul = false)
    (hdebug : s.dbg.attached = true) :
    exec .standbySaveDone s = .next (setRst (standbySaved s) { (standbySaved s).rst with standbyEmul := true }) := by
  change execStandbySaveDone s = _
  simp only [execStandbySaveDone, hentry, hreal, hdebug, beq_self_eq_true, Bool.not_false, Bool.and_self, if_true, standbySaved]

/-! ## Wake events (04 R180 to R182) -/

theorem wake_asleep {s : State} {b : Nat} (c : BitVec 8) (hvaux : s.pwr.vaux = true) (htrip : s.pwr.tripped = false)
    (hsel : s.rst.wakeSel.getLsbD b = true) (hasleep : s.rst.standby = .asleep) (hfirst : s.rst.latchedWake = 0#8) : wake s b c = wakeUp s c := by
  simp [wake, hvaux, htrip, hsel, hasleep, hfirst]

theorem exec_wakeCan {s : State} (hpin : canRxPin s = true) : exec .wakeCan s = .next (wake s 0 1#8) := by
  change execWakeCan s = _
  simp only [execWakeCan, hpin, if_true]

theorem exec_wakePin (s : State) : exec .wakePin s = .next (wake s 1 2#8) := rfl

theorem exec_wakeTimerExpiry {s : State} (hasleep : s.rst.standby = .asleep) : exec .wakeTimerExpiry s = .next (wake s 2 3#8) := by
  change execWakeTimerExpiry s = _
  simp only [execWakeTimerExpiry, hasleep, beq_self_eq_true, Bool.true_or, if_true]

theorem exec_latchedWakeRise {s : State} (hasleep : s.rst.standby = .asleep) (hlatched : s.rst.latchedWake ≠ 0#8) (hvaux : s.pwr.vaux = true)
    (htrip : s.pwr.tripped = false) : exec .latchedWakeRise s = .next (wakeUp s s.rst.latchedWake) := by
  change execLatchedWakeRise s = _
  simp only [execLatchedWakeRise, hasleep, bne_iff_ne.2 hlatched, hvaux, htrip, beq_self_eq_true, Bool.true_or, Bool.not_false, Bool.and_self, if_true]

/-! ## The boot of a wake (04 R163, R178, R179, R181) -/

theorem exec_wakeRailsReady {rails : BitVec 28} {s : State} (periods : Nat) (hwaking : s.rst.standby = .waking) (hrails : groupsIn s.pwr rails = true)
    (haux : s.pwr.rails.getLsbD 7 = true) (hporN : s.pwr.porN = true) :
    exec (.wakeRailsReady rails periods) s = .next (wakeBoot s rails periods) := by
  change execWakeRailsReady rails periods s = _
  simp only [execWakeRailsReady, hwaking, hrails, haux, hporN, beq_self_eq_true, Bool.and_self, if_true]

/-- The reset of a wake is a new one whatever the device had stood in. -/
theorem wakeBoot_cause (s : State) (rails : BitVec 28) (periods : Nat) : (wakeBoot s rails periods).rst.cause = 0x0021#16 :=
  coldReset_cause 0x0021 (inReset_of_phase_ne_held (s := setRst s { s.rst with phase := .run }) (by simp [setRst]))

@[simp] theorem wakeBoot_vbat (s : State) (rails : BitVec 28) (periods : Nat) : (wakeBoot s rails periods).vbat = s.vbat := by simp [wakeBoot]
@[simp] theorem wakeBoot_eng (s : State) (rails : BitVec 28) (periods : Nat) : (wakeBoot s rails periods).eng = State.reset.eng := by simp [wakeBoot]
@[simp] theorem wakeBoot_straps (s : State) (rails : BitVec 28) (periods : Nat) : (wakeBoot s rails periods).pwr.straps = s.pwr.straps := by
  simp [wakeBoot, keepPower]

end Sys2Proof.Machine

namespace Sys2Proof.Proofs
open Sys2Proof.Machine

/-- Settles O13: each row by its law; what a die's return leaves by the frame of its renewal, what a wake keeps by that of the cold reset. -/
theorem dieAndStandby : Obligations.DieAndStandby := by
  unfold Obligations.DieAndStandby
  refine ⟨fun d s hop hdie hfree => ⟨_, rfl, exec_dieDrainDone hop hdie hfree⟩, fun d s hop hdie hpart => exec_diePowerOffDone hop hdie hpart,
    fun d s hop hdie => ⟨_, exec_dieReturnDone hop hdie, dieSetOn_keeps d.val (besideDies_dieRenewed s d.val)⟩,
    fun s hentry hreal hfree => (exec_standbySaveDone_sleeps hentry hreal hfree).trans ?asleep,
    fun s hentry hreal hdebug => (exec_standbySaveDone_emulated hentry hreal hdebug).trans ?emulated,
    fun s b c hvaux htrip hsel hasleep hfirst => wake_asleep c hvaux htrip hsel hasleep hfirst, fun s hpin => exec_wakeCan hpin, exec_wakePin,
    fun s hasleep => exec_wakeTimerExpiry hasleep, fun s hasleep hlatched hvaux htrip => exec_latchedWakeRise hasleep hlatched hvaux htrip,
    fun rails periods s hwaking hrails haux hporN => ⟨_, exec_wakeRailsReady periods hwaking hrails haux hporN, ?woken⟩⟩
  case asleep =>
    unfold standbySleep standbySaved
    generalize lanesAllDormant s = u
    rfl
  case emulated =>
    unfold setRst standbySaved
    generalize lanesAllDormant s = u
    rfl
  case woken =>
    exact ⟨wakeBoot_cause s rails periods, rfl, rfl, rfl, rfl, rfl, rfl, wakeBoot_straps s rails periods, wakeBoot_fuse s rails periods,
      wakeBoot_vbat s rails periods, wakeBoot_eng s rails periods, by simp [wakeBoot]⟩

end Sys2Proof.Proofs
end

section
/-! PROOF. Writes of a key slot that the slot, the life cycle or a running load turns away, and those carried out (05 R236; 15 R648). -/
namespace Sys2Proof.Machine

variable {s : State} {r : Req} {len val : Nat}

/-! ## The conditions of the owning chapter (15 R648) -/

/-- The abort code of the first condition that fails; 0 when all hold. -/
def condsCode (c : Conds) : BitVec 32 :=
  if !c.value then abValue else if !c.owns then abOwn else if !c.life then abLife else if !c.cap then abCap
  else if !c.state then abState else 0#32

/-- A check that answers `code` where it fails has passed where the answer is 0. -/
theorem ite_code_eq_zero {p : Prop} [Decidable p] {code x : BitVec 32} (hcode : code ≠ 0#32) :
    (if p then code else x) = 0#32 ↔ ¬p ∧ x = 0#32 := by
  by_cases h : p <;> simp [h, hcode]

/-- A write that no other check turns away is turned away by its object's own conditions alone. -/
theorem checkWrite_eq_condsCode {ix sub : Nat} (h : checkWrite s r ix sub len val {} = 0#32) (c : Conds) :
    checkWrite s r ix sub len val c = condsCode c := by
  unfold checkWrite at h ⊢
  by_cases hpre : checkReach s r ix sub true = 0#32
  · cases hrow : objRow ix sub with
    | none =>
      simp only [hpre, hrow, ne_eq, not_true, if_false] at h
      exact absurd h (by decide)
    | some row =>
      simp (disch := decide) only [hpre, hrow, ne_eq, not_true, if_false, ite_code_eq_zero, Bool.not_true, Bool.or_false, Bool.false_or,
        Bool.not_eq_true] at h
      obtain ⟨hlen, hval, hown, hlife, -, hfree, -⟩ := h
      simp only [hpre, ne_eq, not_true, if_false, hlen, hval, hown, hlife, hfree, Bool.false_or, Bool.or_false, Bool.false_eq_true, condsCode]
  · exact absurd ((if_pos hpre).symm.trans h) hpre

theorem Accepted.of_conds {k : Nat} {c : Conds} (h : Accepted s r k len val {}) (hc : condsCode c = 0#32) : Accepted s r k len val c :=
  ⟨h.1, (checkWrite_eq_condsCode h.2 c).trans hc⟩

theorem Accepted.aborted {k : Nat} {c : Conds} {code : BitVec 32} (h : Accepted s r k len val {}) (hc : condsCode c = code)
    (hcode : code ≠ 0#32) : Aborted s r k len val c code :=
  ⟨h.1, (checkWrite_eq_condsCode h.2 c).trans hc, hcode⟩

/-! ## The event of a slot in use (05 R236) -/

theorem slotInUse_used (slot : Nat) (s : State) : slotInUse true slot abState s = logEv s 0x2309 sevWarn slot := rfl

theorem slotInUse_unused (slot : Nat) (code : BitVec 32) (s : State) : slotInUse false slot code s = s := rfl

/-- A code of another check logs no event. -/
theorem slotInUse_abLife (used : Bool) (slot : Nat) (s : State) : slotInUse used slot abLife s = s := by
  cases used <;> rfl

/-! ## KEY_PROGRAM (05 R236) -/

/-- What R236 asks of a KEY_PROGRAM write that names fuse slot `k`. -/
abbrev keyProgramConds (s : State) (k : Nat) : Conds :=
  { life := s.rst.lc.toNat ≤ 1, state := !loadUsesSlot s k && !(fuseSlot s k).fused && !(fuseSlot s k).destroyed }

section
variable {slot : BitVec 8} {key : BitVec 384} {k : Nat}

/-- The length of the write of row KEY_PROGRAM: four bytes before the key. -/
abbrev keyProgramLen (slot : BitVec 8) : Nat := progLen slot.toNat - 4 + 4

/-- The bytes of row KEY_PROGRAM as one number. -/
abbrev keyProgramVal (slot : BitVec 8) (key : BitVec 384) : Nat :=
  slot.toNat + 2 ^ 32 * leNat (beBytes (progLen slot.toNat - 4) key.toNat)

/-- The row is a write of its object under the conditions of R236. -/
theorem exec_keyProgram (r : Req) (key : BitVec 384) (s : State) (hslot : progSlot slot.toNat = some k) :
    exec (.keyProgram r slot 0#24 key) s = .next (objWriteG r O_KEY_PROGRAM (keyProgramLen slot) (keyProgramVal slot key)
      (keyProgramConds s k) (slotInUse (loadUsesSlot s k) slot.toNat)
      (fun t =>
        let v := BitVec.ofNat 384 (beNat (leBytes (progLen slot.toNat - 4) (keyProgramVal slot key / 2 ^ 32)))
        setSlot t k { fuseSlot s k with fused := true, val := v, destroyed := v == slotOnes k }) s) := by
  have hcases := progLen_cases slot.toNat
  have hval : keyProgramVal slot key = slot.toNat + 2 ^ 32 * leNat (beBytes (progLen slot.toNat - 4) key.toNat) := rfl
  have hcode : keyProgramVal slot key % 256 = slot.toNat := by omega
  have hzero : keyProgramVal slot key / 256 % 2 ^ 24 = 0 := by omega
  have hlen : progLen slot.toNat - 4 + 4 = progLen slot.toNat := by omega
  have hvalue : ((some k).isSome && keyProgramVal slot key / 256 % 2 ^ 24 == 0) = true := beq_iff_eq.2 hzero
  change Host.Outcome.next (wrKeyProgram r _ (keyProgramVal slot key) s) = _
  simp only [wrKeyProgram, hcode, hslot, hvalue, hlen, hcases, Option.getD_some, or_true, and_self, if_true]

theorem exec_keyProgram_aborted {code : BitVec 32} (hslot : progSlot slot.toNat = some k)
    (h : Aborted s r O_KEY_PROGRAM (keyProgramLen slot) (keyProgramVal slot key) (keyProgramConds s k) code) :
    exec (.keyProgram r slot 0#24 key) s = .next (slotInUse (loadUsesSlot s k) slot.toNat code (answer s code)) :=
  (exec_keyProgram r key s hslot).trans (congrArg _ (objWriteG_aborted _ _ h))

theorem exec_keyProgram_inUse (hslot : progSlot slot.toNat = some k)
    (h : Accepted s r O_KEY_PROGRAM (keyProgramLen slot) (keyProgramVal slot key) {}) (hlc : s.rst.lc.toNat ≤ 1)
    (hused : loadUsesSlot s k = true) :
    exec (.keyProgram r slot 0#24 key) s = .next (logEv (answer s abState) 0x2309 sevWarn slot.toNat) := by
  have hcode : condsCode (keyProgramConds s k) = abState := by simp [condsCode, hlc, hused]
  rw [exec_keyProgram_aborted hslot (h.aborted hcode (by decide)), hused, slotInUse_used]

/-- A slot is programmed once, and a destroyed one never. -/
theorem exec_keyProgram_spent (hslot : progSlot slot.toNat = some k)
    (h : Accepted s r O_KEY_PROGRAM (keyProgramLen slot) (keyProgramVal slot key) {}) (hlc : s.rst.lc.toNat ≤ 1)
    (hfree : loadUsesSlot s k = false) (hspent : (fuseSlot s k).fused = true ∨ (fuseSlot s k).destroyed = true) :
    exec (.keyProgram r slot 0#24 key) s = .next (answer s abState) := by
  have hcode : condsCode (keyProgramConds s k) = abState := by
    obtain hfused | hdestroyed := hspent
    · simp [condsCode, hlc, hfused]
    · simp [condsCode, hlc, hdestroyed]
  rw [exec_keyProgram_aborted hslot (h.aborted hcode (by decide)), hfree, slotInUse_unused]

theorem exec_keyProgram_blank (hslot : progSlot slot.toNat = some k)
    (h : Accepted s r O_KEY_PROGRAM (keyProgramLen slot) (keyProgramVal slot key) {}) (hlc : s.rst.lc.toNat ≤ 1)
    (hfree : loadUsesSlot s k = false) (hunfused : (fuseSlot s k).fused = false) (hintact : (fuseSlot s k).destroyed = false) :
    let v := BitVec.ofNat 384 (beNat (leBytes (progLen slot.toNat - 4) (keyProgramVal slot key / 2 ^ 32)))
    exec (.keyProgram r slot 0#24 key) s =
      .next (setSlot (answer s 0#32) k { fuseSlot s k with fused := true, val := v, destroyed := v == slotOnes k }) := by
  have hcode : condsCode (keyProgramConds s k) = 0#32 := by simp [condsCode, hlc, hfree, hunfused, hintact]
  exact (exec_keyProgram r key s hslot).trans (congrArg _ (objWriteG_accepted _ _ (h.of_conds hcode)))

theorem exec_keyProgram_lifeClosed (hslot : progSlot slot.toNat = some k)
    (h : Accepted s r O_KEY_PROGRAM (keyProgramLen slot) (keyProgramVal slot key) {}) (hlc : 2 ≤ s.rst.lc.toNat) :
    exec (.keyProgram r slot 0#24 key) s = .next (answer s abLife) := by
  have hcode : condsCode (keyProgramConds s k) = abLife := by simp [condsCode, Nat.not_le.2 hlc]
  rw [exec_keyProgram_aborted hslot (h.aborted hcode (by decide)), slotInUse_abLife]

end

/-! ## KEY_REVOKE (05 R236, R237) -/

/-- What R236 and R237 ask of a KEY_REVOKE write that names slot `k`. -/
abbrev keyRevokeConds (s : State) (k : Nat) : Conds :=
  { life := s.rst.lc == 1#3 || s.rst.lc == 2#3
    state := !loadUsesSlot s k && (fuseSlot s k).fused && !(fuseSlot s k).destroyed && ((fuseSlot s k).revoked || otherOwner s k) }

section
variable {slot : BitVec 8} {k : Nat}

theorem exec_keyRevoke_aborted {code : BitVec 32} (hslot : slot.toNat % 4 = k)
    (h : Aborted s r O_KEY_REVOKE 1 slot.toNat (keyRevokeConds s k) code) :
    exec (.keyRevoke r slot) s = .next (slotInUse (loadUsesSlot s k) k code (answer s code)) := by
  subst hslot
  change Host.Outcome.next (wrKeyRevoke r 1 slot.toNat s) = _
  simp only [wrKeyRevoke, objWriteG_aborted _ _ h]

theorem revocable_life (hlc : s.rst.lc = 1#3 ∨ s.rst.lc = 2#3) : (s.rst.lc == 1#3 || s.rst.lc == 2#3) = true := by
  simpa using hlc

theorem exec_keyRevoke_inUse (hslot : slot.toNat % 4 = k) (h : Accepted s r O_KEY_REVOKE 1 slot.toNat {})
    (hlc : s.rst.lc = 1#3 ∨ s.rst.lc = 2#3) (hused : loadUsesSlot s k = true) :
    exec (.keyRevoke r slot) s = .next (logEv (answer s abState) 0x2309 sevWarn k) := by
  have hcode : condsCode (keyRevokeConds s k) = abState := by simp [condsCode, revocable_life hlc, hused]
  rw [exec_keyRevoke_aborted hslot (h.aborted hcode (by decide)), hused, slotInUse_used]

/-- A slot that holds no key cannot be revoked. -/
theorem exec_keyRevoke_keyless (hslot : slot.toNat % 4 = k) (h : Accepted s r O_KEY_REVOKE 1 slot.toNat {})
    (hlc : s.rst.lc = 1#3 ∨ s.rst.lc = 2#3) (hfree : loadUsesSlot s k = false)
    (hkeyless : (fuseSlot s k).fused = false ∨ (fuseSlot s k).destroyed = true) :
    exec (.keyRevoke r slot) s = .next (answer s abState) := by
  have hcode : condsCode (keyRevokeConds s k) = abState := by
    obtain hunfused | hdestroyed := hkeyless
    · simp [condsCode, revocable_life hlc, hunfused]
    · simp [condsCode, revocable_life hlc, hdestroyed]
  rw [exec_keyRevoke_aborted hslot (h.aborted hcode (by decide)), hfree, slotInUse_unused]

/-- A slot already revoked stays as it is, and no token ends. -/
theorem exec_keyRevoke_again (hslot : slot.toNat % 4 = k) (h : Accepted s r O_KEY_REVOKE 1 slot.toNat {})
    (hlc : s.rst.lc = 1#3 ∨ s.rst.lc = 2#3) (hfree : loadUsesSlot s k = false) (hfused : (fuseSlot s k).fused = true)
    (hintact : (fuseSlot s k).destroyed = false) (hrevoked : (fuseSlot s k).revoked = true) :
    exec (.keyRevoke r slot) s = .next (setSlot (answer s 0#32) k (fuseSlot s k)) := by
  subst hslot
  have hcode : condsCode (keyRevokeConds s (slot.toNat % 4)) = 0#32 := by simp [condsCode, revocable_life hlc, hfree, hfused, hintact, hrevoked]
  have hsame : { fuseSlot s (slot.toNat % 4) with revoked := true } = fuseSlot s (slot.toNat % 4) := by rw [← hrevoked]
  change Host.Outcome.next (wrKeyRevoke r 1 slot.toNat s) = _
  simp only [wrKeyRevoke, objWriteG_accepted _ _ (h.of_conds hcode), hsame]
  simp only [hrevoked, Bool.not_true, Bool.and_false, Bool.false_eq_true, if_false]
  split <;> rfl

/-- The first revocation of a slot, with no debug token that could end. -/
theorem exec_keyRevoke_first (hslot : slot.toNat % 4 = k) (h : Accepted s r O_KEY_REVOKE 1 slot.toNat {})
    (hlc : s.rst.lc = 1#3 ∨ s.rst.lc = 2#3) (hfree : loadUsesSlot s k = false) (hfused : (fuseSlot s k).fused = true)
    (hintact : (fuseSlot s k).destroyed = false) (hother : otherOwner s k = true) (hdbg : s.dbg.token = none) :
    exec (.keyRevoke r slot) s = .next (setSlot (answer s 0#32) k { fuseSlot s k with revoked := true }) := by
  subst hslot
  have hcode : condsCode (keyRevokeConds s (slot.toNat % 4)) = 0#32 := by simp [condsCode, revocable_life hlc, hfree, hfused, hintact, hother]
  exact congrArg Host.Outcome.next (wrKeyRevoke_accepted hdbg (h.of_conds hcode))

theorem exec_keyRevoke_lifeClosed (h : Accepted s r O_KEY_REVOKE 1 slot.toNat {}) (hlc : s.rst.lc ≠ 1#3 ∧ s.rst.lc ≠ 2#3) :
    exec (.keyRevoke r slot) s = .next (answer s abLife) := by
  have hcode : condsCode (keyRevokeConds s (slot.toNat % 4)) = abLife := by simp [condsCode, hlc]
  rw [exec_keyRevoke_aborted rfl (h.aborted hcode (by decide)), slotInUse_abLife]

end

end Sys2Proof.Machine

namespace Sys2Proof.Proofs
open Sys2Proof.Machine

/-- Settles O57: each clause by the law of its row for the state of the slot and the life cycle that it speaks of. -/
theorem keySlotWrites : Obligations.KeySlotWrites := by
  unfold Obligations.KeySlotWrites
  refine ⟨fun r slot key k s hslot h hlc => ⟨fun hused => ?_, fun ⟨hfree, hspent⟩ => ?_, fun ⟨hfree, hunfused, hintact⟩ => ?_⟩,
    fun r slot key k s hslot h hlc => exec_keyProgram_lifeClosed hslot h hlc,
    fun r slot s h hlc => ⟨fun hused => ?_, fun ⟨hfree, hkeyless⟩ => ?_, fun ⟨hfree, hfused, hintact, hrevoked⟩ => ?_,
      fun ⟨hfree, hfused, hintact, _, hother, hdbg⟩ => ?_⟩,
    fun r slot s h hlc => exec_keyRevoke_lifeClosed h hlc⟩
  · exact exec_keyProgram_inUse hslot h hlc hused
  · exact exec_keyProgram_spent hslot h hlc hfree hspent
  · exact ⟨_, rfl, rfl, exec_keyProgram_blank hslot h hlc hfree hunfused hintact⟩
  · exact exec_keyRevoke_inUse rfl h hlc hused
  · exact exec_keyRevoke_keyless rfl h hlc hfree hkeyless
  · exact exec_keyRevoke_again rfl h hlc hfree hfused hintact hrevoked
  · exact exec_keyRevoke_first rfl h hlc hfree hfused hintact hother hdbg

end Sys2Proof.Proofs
end

section
/-! PROOF. The writing of a load, the relay, the end of a flash update and the last steps of boot: what each row answers in the state that it
speaks of (04 R169, R171; 05 R207, R230, R234, R242 to R251). -/
namespace Sys2Proof.Machine

section
variable {s : State} {l : Load} {design : List DesignItem}

/-! ## Writing (04 R169 step 9; 05 R242) -/

theorem exec_framesWritten (hload : s.ld.load = some l) (hboot : l.boot = true) (hphase : l.phase = .writing) :
    exec (.framesWritten design) s =
      .next (setRst (toWipe (writeLoad s l design) l) { (toWipe (writeLoad s l design) l).rst with phase := .stageWipe }) := by
  change execFramesWritten design s = _
  simp only [execFramesWritten, hload, hboot, hphase, beq_self_eq_true, Bool.and_self, if_true]

/-- State `s` with the partitions of load `l` isolated: open requests to them complete with NOTREADY, their epochs advance. -/
def partsIsolated (s : State) (l : Load) : State :=
  let s1 := setLd s { s.ld with load := some { l with phase := .writing }, state := 3#8 }
  advanceEpochs ((loadParts l).foldl (fun a p => setPart a p 2) (drainTxs s1 (loadParts l) [] rNotready)) (loadParts l) []

theorem exec_partialWriteStart_passed (hload : s.ld.load = some l) (hboot : l.boot = false) (hphase : l.phase = .checked)
    (hcheck : check8 s l = true) :
    exec .partialWriteStart s =
      .next (setFab (partsIsolated s l) { (partsIsolated s l).fab with written := (partsIsolated s l).fab.written &&& ~~~l.parts }) := by
  change execPartialWriteStart s = _
  simp only [execPartialWriteStart, hload, hboot, hphase, hcheck, beq_self_eq_true, Bool.not_false, Bool.and_self, if_true, partsIsolated]

theorem exec_partialWriteStart_failed (hload : s.ld.load = some l) (hboot : l.boot = false) (hphase : l.phase = .checked)
    (hcheck : check8 s l = false) : exec .partialWriteStart s = .next (abortLoad s 0x15) := by
  change execPartialWriteStart s = _
  simp only [execPartialWriteStart, hload, hboot, hphase, hcheck, beq_self_eq_true, Bool.not_false, Bool.and_self, if_true, Bool.false_eq_true,
    if_false]

/-- State `s` with the partitions of load `l` wiped, written and running, and the staging region to be wiped. -/
def partsWritten (s : State) (l : Load) (design : List DesignItem) : State :=
  toWipe (holdCheck ((loadParts l).foldl (fun a p => setPart a p 1) (writeLoad ((loadParts l).foldl wipePart s) l design))) l

theorem exec_partialWriteDone (hload : s.ld.load = some l) (hboot : l.boot = false) (hphase : l.phase = .writing) (hkind : l.kind = 2) :
    exec (.partialWriteDone design) s = .next (logEvT (partsWritten s l design) 0x230E sevInfo
      ((l.tenant.map Fin.val).getD 0 * 65536 + (loadParts l).length) ((l.tenant.map Fin.val).getD 0) 0xFFFF) := by
  change execPartialWriteDone design s = _
  simp only [execPartialWriteDone, hload, hboot, hphase, hkind, beq_self_eq_true, Bool.not_false, Bool.and_self, if_true, partsWritten]

/-! ## The end of a load (05 R207, R231) -/

theorem exec_stagingWipeDone_applies (hload : s.ld.load = some l) (hphase : l.phase = .wiping) (hclk : clocked s = true)
    (hboot : l.boot = true) (hgood : l.reason = 0) : exec .stagingWipeDone s = .next (bootApply s l) := by
  change execStagingWipeDone s = _
  simp only [execStagingWipeDone, hload, hphase, hclk, hboot, hgood, beq_self_eq_true, Bool.and_self, if_true]

theorem exec_stagingWipeDone_fallsBack (hload : s.ld.load = some l) (hphase : l.phase = .wiping) (hclk : clocked s = true)
    (hboot : l.boot = true) (hfailed : l.reason ≠ 0) : exec .stagingWipeDone s = .next (bootFallback (endLoad s) l) := by
  change execStagingWipeDone s = _
  simp only [execStagingWipeDone, hload, hphase, hclk, hboot, hfailed, beq_self_eq_true, Bool.and_self, if_true, if_false]

theorem exec_stagingWipeDone_ends (hload : s.ld.load = some l) (hphase : l.phase = .wiping) (hclk : clocked s = true)
    (hboot : l.boot = false) (hfailed : l.reason ≠ 0) : exec .stagingWipeDone s = .next (endLoad s) := by
  change execStagingWipeDone s = _
  simp only [execStagingWipeDone, hload, hphase, hclk, hboot, hfailed, beq_self_eq_true, Bool.and_self, if_true, Bool.false_eq_true, if_false]

theorem endLoad_of_no_pending (hkey : s.ld.pendingBbk = none) :
    endLoad s = setLd s { s.ld with load := none, state := 0#8, pendingBbk := none } := by
  simp only [endLoad, hkey]

/-! ## The relay (05 R244 to R247) -/

theorem exec_relayStart (hclk : clocked s = true) (hwait : s.ld.relay = .waiting) (hready : s.ld.cfgrReady = true) :
    exec .relayStart s = .next (setLd s { s.ld with relay := .running }) := by
  change execRelayStart s = _
  simp only [execRelayStart, hclk, hwait, hready, beq_self_eq_true, Bool.and_self, if_true]

theorem exec_relayDone_ready (hrun : s.ld.relay = .running) (hready : s.ld.cfgrReady = true) :
    exec .relayDone s = .next (setLd s { s.ld with relay := .off, relaySent := s.ld.relayLen }) := by
  change execRelayDone s = _
  simp only [execRelayDone, hrun, hready, beq_self_eq_true, Bool.true_or, Bool.and_self, if_true]

/-- A relay that the downstream device holds up is not done. -/
theorem exec_relayDone_heldUp (hready : s.ld.cfgrReady = false) (hsent : s.ld.relaySent ≠ s.ld.relayLen) : exec .relayDone s = .next s := by
  change execRelayDone s = _
  simp only [execRelayDone, hready, beq_eq_false_iff_ne.2 hsent, Bool.or_self, Bool.and_false, Bool.false_eq_true, if_false]

theorem exec_relayTimeout (hrelay : s.ld.relay = .running ∨ s.ld.relay = .waiting) (hready : s.ld.cfgrReady = false) :
    exec .relayTimeout s = .next (logEv (setLd s { s.ld with relay := .off }) 0x230A sevErr (s.ld.relaySent / 2 ^ 20)) := by
  have hgo : (s.ld.relay == .running || s.ld.relay == .waiting) = true := by simpa using hrelay
  change execRelayTimeout s = _
  simp only [execRelayTimeout, hgo, hready, Bool.not_false, Bool.and_self, if_true]

theorem exec_cfgrReadyChange_rise (s : State) : exec (.cfgrReadyChange true) s = .next (setLd s { s.ld with cfgrReady := true }) := rfl

theorem relayGo_of_not_valid (h : cfgrValid s = false) : relayGo s = s := by
  simp only [relayGo, h, Bool.false_eq_true, if_false]

/-- A relay that goes on takes a free value and sends on. -/
theorem relayGo_eq (s : State) :
    relayGo s = { s with freeCtr := (relayGo s).freeCtr, ld := { s.ld with relaySent := (relayGo s).ld.relaySent } } := by
  cases h : cfgrValid s
  · rw [relayGo_of_not_valid h]
  · simp only [relayGo, h, if_true]
    rfl

theorem exec_cfgrReadyChange_fall (s : State) : exec (.cfgrReadyChange false) s =
    .next { s with freeCtr := (relayGo s).freeCtr, ld := { s.ld with cfgrReady := false, relaySent := (relayGo s).ld.relaySent } } := by
  change Host.Outcome.next (setLd (relayGo s) { (relayGo s).ld with cfgrReady := false }) = _
  rw [relayGo_eq s]
  rfl

theorem relaySent_relayGo_of_valid (h : cfgrValid s = true) : (relayGo s).ld.relaySent =
    s.ld.relaySent + Config.freeNat s.freeCtr % (s.ld.relayLen - s.ld.relaySent + 1) := by
  simp only [relayGo, h, if_true]
  rfl

/-- What has been sent stays sent. -/
theorem le_relaySent_relayGo (s : State) : s.ld.relaySent ≤ (relayGo s).ld.relaySent := by
  cases h : cfgrValid s
  · rw [relayGo_of_not_valid h]
  · rw [relaySent_relayGo_of_valid h]
    exact Nat.le_add_right _ _

/-- No byte beyond the section's end is sent. -/
theorem relaySent_relayGo_le (h : cfgrValid s = true) : (relayGo s).ld.relaySent ≤ s.ld.relayLen := by
  have hmore : s.ld.relaySent < s.ld.relayLen := by
    simp only [cfgrValid, Bool.and_eq_true, decide_eq_true_eq] at h
    exact h.2
  have hrest : Config.freeNat s.freeCtr % (s.ld.relayLen - s.ld.relaySent + 1) < s.ld.relayLen - s.ld.relaySent + 1 :=
    Nat.mod_lt _ (Nat.succ_pos _)
  rw [relaySent_relayGo_of_valid h]
  omega

theorem length_relaySection (s : State) : (relaySection s).length = s.ld.relayLen := by
  unfold relaySection flashBytes
  split <;> simp

theorem relaySection_of_flash {f : FlashInfo} (hflash : s.ld.flash = some f) :
    relaySection s = flashBytes f s.ld.relayAt s.ld.relayLen := by
  simp only [relaySection, hflash]

/-! ## The end of a flash update (05 R251) -/

/-- The flash once slot `j.slot` is programmed with the image, its State field erased. -/
def fuProgrammed (f : FlashInfo) (d : Nat) (j : FuJob) : FlashInfo :=
  flashWrite (flashErase f (slotOff f d j.slot) (slotSize f d j.slot)) (slotOff f d j.slot)
    ((j.image.take 4) ++ List.replicate 4 0xFF#8 ++ j.image.drop 8)

/-- The same with the State field programmed. -/
def fuMarked (f : FlashInfo) (d : Nat) (j : FuJob) : FlashInfo := flashWrite (fuProgrammed f d j) (slotOff f d j.slot + 4) [0, 0, 0, 0]

/-- An image that reads back as it was programmed is marked complete, and the journal says so. -/
theorem exec_fuDone_flawless {j : FuJob} {f : FlashInfo} {d : Nat} (hjob : s.ld.fu = some j) (hflash : s.ld.flash = some f)
    (hdir : s.ld.dir = some d) (himage : flashBytes (fuProgrammed f d j) (slotOff f d j.slot) j.image.length = j.image)
    (hmark : flashNat (fuMarked f d j) (slotOff f d j.slot + 4) 4 = 0) :
    exec (.fuDone []) s = .next (logEv (setLd (oSet s O_FU_STATE 5)
      { s.ld with flash := some (journalPut (fuMarked f d j) d s.fw.dtime 2 j.slot j.seq), fu := none })
      0x230B sevInfo (j.slot * 65536 + j.seq % 65536)) := by
  unfold fuMarked at hmark
  unfold fuProgrammed at himage hmark
  change execFuDone [] s = _
  simp only [execFuDone, hjob, hflash, hdir, flawed, List.filter_nil, List.foldl_nil, himage, hmark, ne_eq, not_true, if_false,
    fuMarked, fuProgrammed]

end

/-! ## The release of the trees (04 R169 step 12, R171) -/

theorem sameCore_setFab (s : State) (x : Fabric) : SameCore s (setFab s x) :=
  ⟨rfl, rfl, rfl, rfl, rfl, rfl, rfl, rfl, rfl, rfl, rfl, rfl, rfl, rfl, rfl, rfl⟩

theorem sameCore_holdBack (s : State) (g : Nat) (ps : List Nat) : SameCore s (holdBack s g ps) := by
  induction ps generalizing s with
  | nil => exact .refl s
  | cons p ps ih =>
    rw [holdBack]
    split
    · exact ih s
    · exact ((sameCore_setFab s _).trans (sameCore_logEvT _ _ _ _ _ _)).trans (ih _)

theorem sameCore_holdCheck (s : State) : SameCore s (holdCheck s) := .foldl _ (fun a g => sameCore_holdBack a g _) _ s

theorem sameCore_cascBoot (s : State) : SameCore s (cascBoot s) := by
  unfold cascBoot
  split
  · dsimp only
    split
    · exact sameCore_oSet s _ _
    · exact (sameCore_oSet s _ _).trans (sameCore_logEv _ _ _ _)
  · exact sameCore_oSet s _ _
  · exact .refl s

/-- The release itself changes the reset unit alone of what the partitions' start and the device's place leave. -/
theorem sameCore_releaseTrees (s : State) : SameCore (setRst s { s.rst with treesHeld := false, phase := .run }) (releaseTrees s) :=
  (((sameCore_setFab _ _).trans (.foldl _ (fun a p => sameCore_setPart a p 1) _ _)).trans (sameCore_holdCheck _)).trans (sameCore_cascBoot _)

section
variable {s : State}

theorem exec_initDoneRelease_halts (pin : Bool) (hphase : s.rst.phase = .applied) (hclk : clocked s = true) (htrained : trainingOver s = true)
    (hmissing : requiredMissing s = true) : exec (.initDoneRelease pin) s = .next (bootHalt s) := by
  change execInitDoneRelease pin s = _
  simp only [execInitDoneRelease, hphase, hclk, htrained, hmissing, beq_self_eq_true, Bool.and_self, if_true]

/-- Where no wait for the pin is asked for, or the pin is high, the trees release at once. -/
theorem exec_initDoneRelease_runs {pin : Bool} (hphase : s.rst.phase = .applied) (hclk : clocked s = true) (htrained : trainingOver s = true)
    (hmissing : requiredMissing s = false) (hpin : oGet s O_INIT_WAIT_PIN = 0 ∨ pin = true) :
    exec (.initDoneRelease pin) s = .next (releaseTrees (setRst s { s.rst with initDone := true })) := by
  have hgo : (oGet s O_INIT_WAIT_PIN = 1 && !pin) = false := by
    obtain hno | hhigh := hpin
    · simp [hno]
    · simp [hhigh]
  change execInitDoneRelease pin s = _
  simp only [execInitDoneRelease, hphase, hclk, htrained, hmissing, hgo, beq_self_eq_true, Bool.and_self, if_true, Bool.false_eq_true, if_false]

theorem exec_initDoneRelease_waits (hphase : s.rst.phase = .applied) (hclk : clocked s = true) (htrained : trainingOver s = true)
    (hmissing : requiredMissing s = false) (hwait : oGet s O_INIT_WAIT_PIN = 1) :
    exec (.initDoneRelease false) s = .next (setRst s { s.rst with initDone := true, phase := .waitPin }) := by
  change execInitDoneRelease false s = _
  simp only [execInitDoneRelease, hphase, hclk, htrained, hmissing, hwait, beq_self_eq_true, Bool.and_self, if_true, Bool.false_eq_true, if_false,
    Bool.not_false, decide_true]
  rfl

theorem exec_initDonePinHigh (hphase : s.rst.phase = .waitPin) (hclk : clocked s = true) :
    exec .initDonePinHigh s = .next (releaseTrees s) := by
  change execInitDonePinHigh s = _
  simp only [execInitDonePinHigh, hphase, hclk, beq_self_eq_true, Bool.and_self, if_true]

end

end Sys2Proof.Machine

namespace Sys2Proof.Proofs
open Sys2Proof.Machine

/-- Settles O16: each row by its law; how far a relay has come by the law of its going on, what the trees' release leaves by its frame. -/
theorem loadWriting : Obligations.LoadWriting := by
  unfold Obligations.LoadWriting
  refine ⟨fun design s l hload hboot hphase => exec_framesWritten hload hboot hphase,
    fun s l hload hboot hphase hcheck => exec_partialWriteStart_passed hload hboot hphase hcheck,
    fun s l hload hboot hphase hcheck => exec_partialWriteStart_failed hload hboot hphase hcheck,
    fun design s l hload hboot hphase hkind => exec_partialWriteDone hload hboot hphase hkind,
    fun s l hload hphase hclk hboot hgood => exec_stagingWipeDone_applies hload hphase hclk hboot hgood,
    fun s l hload hphase hclk hboot hfailed => exec_stagingWipeDone_fallsBack hload hphase hclk hboot hfailed,
    fun s l hload hphase hclk hboot hfailed hkey =>
      (exec_stagingWipeDone_ends hload hphase hclk hboot hfailed).trans (congrArg _ (endLoad_of_no_pending hkey)),
    fun s hclk hwait hready => exec_relayStart hclk hwait hready, fun s hrun hready => exec_relayDone_ready hrun hready,
    fun s _ hready hsent => exec_relayDone_heldUp hready hsent, fun s hrelay hready => exec_relayTimeout hrelay hready,
    exec_cfgrReadyChange_rise,
    fun s => ⟨_, exec_cfgrReadyChange_fall s, le_relaySent_relayGo s, relaySent_relayGo_le, relayGo_of_not_valid⟩,
    fun s => ⟨rfl, length_relaySection s⟩, fun s f hflash => relaySection_of_flash hflash,
    fun s j f d ⟨hjob, hflash, hdir⟩ himage hmark => exec_fuDone_flawless hjob hflash hdir himage hmark,
    fun pin s hphase hclk htrained hmissing hpin => exec_initDoneRelease_runs hphase hclk htrained hmissing hpin,
    fun s hphase hclk htrained hmissing hwait => exec_initDoneRelease_waits hphase hclk htrained hmissing hwait,
    fun pin s hphase hclk htrained hmissing => exec_initDoneRelease_halts pin hphase hclk htrained hmissing,
    fun s hphase hclk => exec_initDonePinHigh hphase hclk, fun s => ⟨_, rfl, ?released⟩⟩
  case released =>
    have hrst := (sameCore_releaseTrees s).rst
    rw [setRst_rst] at hrst
    exact ⟨by rw [hrst], by rw [hrst], releaseTrees_pending s, releaseTrees_fuse s⟩

end Sys2Proof.Proofs
end

section
/-! PROOF. Accepted writes of the fabric, probe, memory count and engine command objects: the effect of each write on the answered state, whatever
path carries it (06 R275, R291 to R294; 07 R331; 08 R358; 15 R648). -/
namespace Sys2Proof.Machine

variable {s : State} {r : Req} {len val : Nat}

/-! ## Reset trees and probes (06 R275, R291, R292) -/

theorem wrGrstPulse_accepted (h : Accepted s r O_GRST_PULSE len val {}) :
    wrGrstPulse r len val s = settle (setFab (answer s 0#32) { s.fab with pulse := s.fab.pulse ||| BitVec.ofNat 8 val }) :=
  objWriteP_accepted _ h

theorem wrProbeSel_accepted {ch : Nat} (h : Accepted s r (O_PROBE_SEL ch) len val { owns := tapAllowed s r ch (val % 4096) }) :
    wrProbeSel r ch len val s =
      oSet (setFab (answer s 0#32) { s.fab with probeNew := setBit s.fab.probeNew ch true }) (O_PROBE_SEL ch) val :=
  objWriteG_accepted _ _ h

theorem wrProbeRoute_accepted {ch : Nat}
    (h : Accepted s r (O_PROBE_ROUTE ch) len val
      { value := val / 2 ^ 14 != 3 && (val / 2 ^ 14 != 1 || (104 * (ch / 8) ≤ val % 1024 && val % 1024 < 104 * (ch / 8) + 104))
        state := val / 2 ^ 14 != 1 || tabGet s.fab.spare (val % 1024) false }) :
    wrProbeRoute r ch len val s = oSet (answer s 0#32) (O_PROBE_ROUTE ch) val := by
  simp only [wrProbeRoute, objWriteG_accepted _ _ h]

/-! ## The capture (06 R293, R294) -/

/-- Arming is refused only while a capture runs or PROBE is gated; it begins with an empty buffer. -/
theorem wrCapControl_arm (hidle : oGet s O_CAP_STATE = 0 ∨ oGet s O_CAP_STATE = 3 ∨ oGet s O_CAP_STATE = 4)
    (h : Accepted s r O_CAP_CONTROL len 1 { state := enabled s unProbe }) :
    wrCapControl r len 1 s =
      oSet (oSet (setFab (answer s 0#32) { s.fab with cap := [], capWritten := 0, capAfter := 0 }) O_CAP_STATE 1) O_TRIG_INDEX 0xFFFF := by
  have hstate : (1 != 1 || (!(oGet s O_CAP_STATE == 1 || oGet s O_CAP_STATE == 2) && enabled s unProbe)) = enabled s unProbe := by
    obtain hstate | hstate | hstate := hidle <;> simp [hstate]
  simp only [wrCapControl, hstate, objWriteG_accepted _ _ h, if_true, answer_fab]

theorem wrCapControl_stop (hruns : oGet s O_CAP_STATE = 1 ∨ oGet s O_CAP_STATE = 2) (h : Accepted s r O_CAP_CONTROL len 2 {}) :
    wrCapControl r len 2 s = oSet (answer s 0#32) O_CAP_STATE 4 := by
  have hbusy : (oGet s O_CAP_STATE == 1 || oGet s O_CAP_STATE == 2) = true := by simpa using hruns
  have hstop : ¬(2 = 1) := by decide
  have hstate : (2 != 1 || (!true && enabled s unProbe)) = true := rfl
  simp only [wrCapControl, hbusy, hstate, objWriteG_accepted _ _ h, if_neg hstop, if_true]

/-! ## Counts of RAMs and queue blocks (07 R331) -/

theorem wrRamCntClear_one (hone : val ≠ 0xFF) (h : Accepted s r O_RAM_CNT_CLEAR len val {}) :
    wrRamCntClear r len val s = clearRamCounts (answer s 0#32) (val - 1) :=
  (objWriteP_accepted _ h).trans (if_neg hone)

theorem wrQbCntClear_one (hone : val ≠ 0xFFFF) (h : Accepted s r O_QB_CNT_CLEAR len val {}) :
    wrQbCntClear r len val s = clearQbCounts (answer s 0#32) val :=
  (objWriteP_accepted _ h).trans (if_neg hone)

/-! ## Engine commands (08 R358) -/

/-- A waiting engine with no debug event due stops at once. -/
theorem engHalt_waiting {e : Nat} (hwaits : (engOf s e).state = .waiting) (hdue : debugWait (engOf s e) = none) :
    engHalt s e = setEng s e { engOf s e with state := .halted } := by
  simp only [engHalt, hwaits, hdue, beq_self_eq_true, if_true]

/-- A running engine whose boundary holds neither a debug event nor an exception completes what is in flight. -/
theorem engHalt_running {e : Nat} (hruns : (engOf s e).state = .running) (hdue : debugDue (engOf s e) = none)
    (hfault : bundleFault s e ((engOf s e).frozen.getD (bundleAt (engOf s e) (engOf s e).pc.toNat)) = none) :
    engHalt s e = setEng s e { drain (engOf s e) with state := .halted, wait := 0, frozen := none, cldPaid := false } := by
  have hnotWaiting : ((engOf s e).state == .waiting) = false := by rw [hruns]; rfl
  simp only [engHalt, hnotWaiting, Bool.false_eq_true, if_false, hdue, hfault]

theorem engCommand_ready (s : State) (e : Nat) :
    engCommand s e 1 = setEng s e { engOf s e with state := .halted, pc := 0#16, dbgLogged := false } := rfl
theorem engCommand_start (s : State) (e : Nat) : engCommand s e 2 = setEng s e { engOf s e with state := .running } := rfl
theorem engCommand_halt (s : State) (e : Nat) : engCommand s e 3 = engHalt s e := rfl
theorem engCommand_clearFault (s : State) (e : Nat) :
    engCommand s e 4 = setEng s e { engOf s e with state := .halted, pc := (engOf s e).epc } := rfl
theorem engCommand_powerOff (s : State) (e : Nat) : engCommand s e 5 = setEng s e { engOf s e with power := some false } := rfl
theorem engCommand_powerOn (s : State) (e : Nat) : engCommand s e 6 = setEng s e { engOf s e with power := some true } := rfl

theorem wrEngCommand_accepted {e : Nat} (h : Accepted s r (O_ENG_COMMAND e) len val { state := engClocked s e && engPermits s e val }) :
    wrEngCommand r e len val s = engCommand (answer s 0#32) e val :=
  objWriteG_accepted _ _ h

end Sys2Proof.Machine

namespace Sys2Proof.Proofs
open Sys2Proof.Machine

/-- Settles O7: each row is the write of its object, whose effect the law of that write gives; a command of an engine by the law of that command. -/
theorem fabricWrites : Obligations.FabricWrites := by
  unfold Obligations.FabricWrites
  refine ⟨?pulse, fun r ch v s h => congrArg _ (wrProbeSel_accepted h), fun r ch v s h => congrArg _ (wrProbeRoute_accepted h),
    fun r s hidle h => congrArg _ (wrCapControl_arm hidle h), fun r s hruns h => congrArg _ (wrCapControl_stop hruns h), ?ramCounts, ?qbCounts,
    fun r e s h => congrArg _ ((wrEngCommand_accepted h).trans (engCommand_ready _ _)),
    fun r e s h => congrArg _ ((wrEngCommand_accepted h).trans (engCommand_start _ _)), ?haltWaiting, ?haltRunning,
    fun r e s h => congrArg _ ((wrEngCommand_accepted h).trans (engCommand_clearFault _ _)),
    fun r e s h => congrArg _ ((wrEngCommand_accepted h).trans (engCommand_powerOff _ _)),
    fun r e s h => congrArg _ ((wrEngCommand_accepted h).trans (engCommand_powerOn _ _))⟩
  case pulse =>
    intro r t s h
    have hwrite := wrGrstPulse_accepted h
    rw [BitVec.ofNat_toNat, BitVec.setWidth_eq] at hwrite
    exact congrArg _ hwrite
  case ramCounts => exact fun r v s h hone => congrArg _ (wrRamCntClear_one (fun hall => hone (BitVec.eq_of_toNat_eq hall)) h)
  case qbCounts => exact fun r v s h hone => congrArg _ (wrQbCntClear_one (fun hall => hone (BitVec.eq_of_toNat_eq hall)) h)
  case haltWaiting =>
    intro r e s hwaits hdue h
    exact congrArg _ ((wrEngCommand_accepted h).trans ((engCommand_halt _ _).trans (engHalt_waiting hwaits hdue)))
  case haltRunning =>
    intro r e s g hruns hdue hfault h
    exact congrArg _ ((wrEngCommand_accepted h).trans ((engCommand_halt _ _).trans (engHalt_running hruns hdue hfault)))

end Sys2Proof.Proofs
end

section
/-! PROOF. Reset trees, the frame checker and captures, and the next value of a register of the fabric (03 R143; 06 R262 to R294). -/
namespace Sys2Proof.Machine

section
variable {s : State}

/-! ## Reset trees (03 R143; 06 R274 to R278) -/

theorem exec_grstRelease_of_tree {g : Fin 8} {t : RTree} (htree : tabFind s.fab.trees g.val = some t) :
    exec (.grstRelease g) s =
      .next (if treeClkOn s t.release.val = true then setFab s { s.fab with pulse := setBit s.fab.pulse g.val false } else s) := by
  change execGrstRelease g s = _
  simp only [execGrstRelease, htree]

/-- A fabric signal of a partition that does not run is low. -/
theorem exec_grstUserAssert_logic {g : Fin 8} (level : Bool) {src : Fin 128} {x : Sig} {t : RTree} (htree : tabFind s.fab.trees g.val = some t)
    (hsrc : t.src = some (.logic src x)) :
    exec (.grstUserAssert g level) s = .next (settle (holdCheck (setUser s g.val t (level && partRuns s src.val)))) := by
  change execGrstUserAssert g level s = _
  simp only [execGrstUserAssert, htree, hsrc]

theorem exec_grstUserAssert_pin {g : Fin 8} (level : Bool) {pin : Fin 832} {t : RTree} (htree : tabFind s.fab.trees g.val = some t)
    (hsrc : t.src = some (.pin pin)) :
    exec (.grstUserAssert g level) s = .next (settle (holdCheck (setUser s g.val t level))) := by
  change execGrstUserAssert g level s = _
  simp only [execGrstUserAssert, htree, hsrc, Bool.and_true]

theorem exec_grstUserAssert_no_source {g : Fin 8} (level : Bool) {t : RTree} (htree : tabFind s.fab.trees g.val = some t) (hsrc : t.src = none) :
    exec (.grstUserAssert g level) s = .next s := by
  change execGrstUserAssert g level s = _
  simp only [execGrstUserAssert, htree, hsrc]

theorem setUser_rise (s : State) (g : Nat) (t : RTree) :
    setUser s g t true = setFab s { s.fab with user := setBit s.fab.user g true, userHold := setBit s.fab.userHold g false } := rfl

/-- The fall of a source that was up waits for the release clock where it stands. -/
theorem setUser_fall {g : Nat} (t : RTree) (hup : s.fab.user.getLsbD g = true) :
    setUser s g t false =
      setFab s { s.fab with user := setBit s.fab.user g false, userHold := setBit s.fab.userHold g (!treeClkOn s t.release.val) } := by
  simp only [setUser, hup, Bool.false_eq_true, if_false, if_true]

theorem setUser_stays_low {g : Nat} (t : RTree) (hlow : s.fab.user.getLsbD g = false) :
    setUser s g t false = setFab s { s.fab with user := setBit s.fab.user g false } := by
  simp only [setUser, hlow, Bool.false_eq_true, if_false]

/-- Where neither boot nor a pulse asserts a tree, its user source reaches the running partitions of the source's tenant. -/
theorem treeIn_of_user {g src : Nat} (p : Nat) (hsrc : treeFrom s g = some src) (hboot : s.rst.treesHeld = false)
    (hpulse : s.fab.pulse.getLsbD g = false) (hrel : s.fab.relHold.getLsbD g = false) :
    treeIn s g p =
      (partRuns s p && ((s.fab.user.getLsbD g && partRuns s src) || s.fab.userHold.getLsbD g) && partOwner s src == partOwner s p) := by
  simp only [treeIn, userOn, hsrc, hboot, hpulse, hrel, Bool.or_self, Bool.false_or, Bool.and_assoc]

theorem holdBack_first {p : Nat} (g : Nat) (hfirst : s.fab.heldBack.getLsbD p = false) :
    holdBack s g [p] =
      logEvT (setFab s { s.fab with heldBack := setBit s.fab.heldBack p true }) 0x2505 sevWarn (g * 65536 + p) (partOwner s p) 0xFFFF := by
  simp only [holdBack, hfirst, Bool.false_eq_true, if_false]

/-! ## The frame checker (06 R287 to R289) -/

theorem eccKind_of_le_two {n : Nat} (free : Nat) (hfew : n ≤ 2) : eccKind n free = n := if_pos hfew

/-- A word with at most two bad bits, of a frame that the checker reaches: clean, corrected or uncorrectable by their number. -/
theorem exec_scrubFrameCheck_reached {frame : BitVec 19} (word : Fin 512) {bad : BitVec 64} (hop : operating s = true)
    (hen : oGet s O_SCRUB_EN = 1) (hpath : pathTaken s (frame.toNat / 65536) = false) (hvalid : frameValid frame.toNat = true)
    (hlogic : frame.toNat.testBit 11 = false) (hruns : partRuns s (frameX frame.toNat) = true) (hfew : popUpTo 64 bad.toNat ≤ 2) :
    exec (.scrubFrameCheck frame word bad none) s = .next (freeStep
      (if popUpTo 64 bad.toNat = 0 then s
      else if popUpTo 64 bad.toNat = 1 then scrubCorrect s (frameX frame.toNat) frame.toNat word.val
      else scrubBad s (frameX frame.toNat) frame.toNat word.val bad)) := by
  change execScrubFrameCheck frame word bad none s = _
  simp only [execScrubFrameCheck, hop, scrubCheck, hen, hpath, hvalid, hlogic, hruns, eccKind_of_le_two _ hfew, decide_true, Bool.not_false,
    Bool.and_self, if_true]
  obtain hclean | hone | htwo : popUpTo 64 bad.toNat = 0 ∨ popUpTo 64 bad.toNat = 1 ∨ popUpTo 64 bad.toNat = 2 := by omega
  · simp [hclean]
  · simp [hone]
  · simp [htwo]

/-! ## The capture (06 R293) -/

theorem exec_captureTrigger_armed (samples : List (BitVec 64)) (hruns : capRuns s = true) (harmed : oGet s O_CAP_STATE = 1) :
    exec (.captureTrigger samples) s = .next (capFeed s samples) := by
  change execCaptureTrigger samples s = _
  simp only [execCaptureTrigger, hruns, harmed, beq_self_eq_true, Bool.and_self, if_true]

theorem exec_captureComplete_triggered (samples : List (BitVec 64)) (hruns : capRuns s = true) (htriggered : oGet s O_CAP_STATE = 2) :
    exec (.captureComplete samples) s = .next (capFeed s samples) := by
  change execCaptureComplete samples s = _
  simp only [execCaptureComplete, hruns, htriggered, beq_self_eq_true, Bool.and_self, if_true]

theorem capFeed_cons (s : State) (x : BitVec 64) (r : List (BitVec 64)) :
    capFeed s (x :: r) = capFeed (capSample s (x &&& probeMask s)) r := rfl

theorem capSample_no_trigger {y : BitVec 64} (harmed : oGet s O_CAP_STATE = 1)
    (hno : ¬(oGet s O_TRIG_POS ≤ s.fab.capWritten ∧ trigMatch s y = true)) : capSample s y = capPush s y := by
  simp only [capSample, harmed, if_true, if_neg hno]

theorem capSample_trigger {y : BitVec 64} (harmed : oGet s O_CAP_STATE = 1) (hpos : oGet s O_TRIG_POS ≤ s.fab.capWritten)
    (hmatch : trigMatch s y = true) :
    capSample s y =
      capEnd (logEv (oSet (capPush s y) O_CAP_STATE 2) 0x2501 sevInfo (min (capPush s y).fab.capWritten 0xFFFFFF)) := by
  simp only [capSample, harmed, if_true, if_pos (And.intro hpos hmatch)]

theorem capSample_triggered (y : BitVec 64) (htriggered : oGet s O_CAP_STATE = 2) : capSample s y = capEnd (capPush s y) := by
  have hnotArmed : ¬(2 = 1) := by decide
  simp only [capSample, htriggered, if_neg hnotArmed, if_true]

theorem capEnd_full (htriggered : oGet s O_CAP_STATE = 2) (hfull : 4095 ≤ s.fab.capAfter + oGet s O_TRIG_POS) :
    capEnd s = logEv (oSet (oSet s O_CAP_STATE 3) O_TRIG_INDEX (oGet s O_TRIG_POS)) 0x2502 sevInfo (oGet s O_TRIG_POS) :=
  if_pos ⟨htriggered, hfull⟩

end

/-! ## The next value of a register (06 R262) -/

section
variable (i sr async v edge en d q : Bool)

theorem regNext_held : regNext true i sr async v edge en d q = i := rfl
theorem regNext_async : regNext false i true true v edge en d q = v := rfl
theorem regNext_sync : regNext false i true false v true en d q = v := rfl
theorem regNext_enabled : regNext false i false async v true true d q = d := rfl
theorem regNext_disabled : regNext false i false async v true false d q = q := rfl
theorem regNext_no_edge : regNext false i sr false v false en d q = q := by simp [regNext]

end

/-! ## The flip-flops of a cell (06 R258, R262) -/

/-- A step that takes each entry of a table by its key. -/
theorem tabFind_map {α β : Type} (f : Nat → α → β) (t : Tab α) (k : Nat) :
    tabFind (t.map fun x => (x.1, f x.1 x.2)) k = (tabFind t k).map (f k) := by
  induction t with
  | nil => rfl
  | cons x r ih =>
    obtain ⟨a, w⟩ := x
    by_cases hkey : a = k
    · simp [tabFind, hkey]
    · simpa [tabFind, hkey] using ih

section
variable {s : State} {k : Nat} {y : Cell} {f : FfCfg}

theorem logicStep_cells (s : State) : (logicStep s).cells = s.fab.logic.cells.map fun x => (x.1, cellStep s true x.1 x.2) := rfl

theorem tabFind_cells_logicStep (hcell : tabFind s.fab.logic.cells k = some y) :
    tabFind (logicStep s).cells k = some (cellStep s true k y) := by
  rw [logicStep_cells, tabFind_map (cellStep s true), hcell, Option.map_some]

theorem cellStep_stands (e : Bool) (y : Cell) (hstands : partRuns s (keyPart (k / 16)) = false) : cellStep s e k y = y := by
  simp only [cellStep, hstands, Bool.not_false, if_true]

@[simp] theorem cellStep_cfg (s : State) (e : Bool) (k : Nat) (y : Cell) : (cellStep s e k y).cfg = y.cfg := by
  cases hruns : partRuns s (keyPart (k / 16))
  · rw [cellStep_stands e y hruns]
  · simp only [cellStep, hruns, Bool.not_true, Bool.false_eq_true, if_false]

theorem cellStep_q0 (e : Bool) (hruns : partRuns s (keyPart (k / 16)) = true) (hff : y.cfg.ff0 = some f) :
    (cellStep s e k y).q0 = ffNext s e (k / 16) (keyPart (k / 16)) f
      (sig s (keyPart (k / 16)) (if f.byp = true then y.cfg.byp else .lut (keyCell k))) y.q0 := by
  simp only [cellStep, hruns, Bool.not_true, Bool.false_eq_true, if_false, hff]

/-- A flip-flop that its tree restores takes INIT, before anything else. -/
theorem ffNext_held (e : Bool) (t : Nat) {p : Nat} (d q : Bool) (hrestore : f.restore = true) (htree : treeIn s f.tree.val p = true) :
    ffNext s e t p f d q = f.init := by
  have hheld : (f.restore && treeIn s f.tree.val p) = true := by rw [hrestore, htree]; rfl
  unfold ffNext
  split
  · exact if_pos hheld
  · rw [hheld]
    exact regNext_held ..

end

/-! ## The accumulator of a multiply cell (06 R263) -/

/-- What an accumulator would hold without a width: the base plus or minus the product. -/
def accSum (base : BitVec 58) (prod : BitVec 54) (sub : Bool) : Int := if sub = true then base.toInt - prod.toInt else base.toInt + prod.toInt

section
variable (base : BitVec 58) (prod : BitVec 54) (sub : Bool)

theorem accNext_eq : accNext base prod sub =
    (BitVec.ofInt 58 (accSum base prod sub), decide (accSum base prod sub < -2 ^ 57 ∨ 2 ^ 57 ≤ accSum base prod sub)) := rfl

theorem toInt_accNext : (accNext base prod sub).1.toInt = (accSum base prod sub).bmod (2 ^ 58) := by rw [accNext_eq, BitVec.toInt_ofInt]

/-- OVF says that the sum does not fit. -/
theorem accNext_ovf : (accNext base prod sub).2 = true ↔ ¬(-2 ^ 57 ≤ accSum base prod sub ∧ accSum base prod sub < 2 ^ 57) := by
  rw [accNext_eq, decide_eq_true_iff]
  omega

theorem toInt_accNext_of_fits (hlow : -2 ^ 57 ≤ accSum base prod sub) (hhigh : accSum base prod sub < 2 ^ 57) :
    (accNext base prod sub).1.toInt = accSum base prod sub := by
  rw [toInt_accNext]
  exact Int.bmod_eq_of_le (by simpa using hlow) (by simpa using hhigh)

theorem toInt_accNext_wraps : ((accNext base prod sub).1.toInt - accSum base prod sub) % 2 ^ 58 = 0 := by
  rw [toInt_accNext]
  exact Int.emod_eq_zero_of_dvd Int.dvd_bmod_sub_self

end

/-! ## Seams, boundaries and pins (02 R70, R72; 06 R270, R280, R281) -/

section
variable {s : State}

theorem seamStep_dormant {k : Nat} (e : Bool) (y : Seam) (hdormant : dieOf s (seamFrom k / 16) = .dormant) :
    seamStep s e k y = { y with q := false } := by
  simp only [seamStep, hdormant, beq_self_eq_true, if_true]

/-- A boundary that does not pass shows 0. -/
theorem sigVal_port_closed {k : Nat} {y : BPort} (n q : Nat) (hport : tabFind s.fab.logic.ports k = some y)
    (hclosed : passes s y.frm y.dest = false) : sigVal s (n + 1) q (.port k) = false := by
  simp only [sigVal, hport, hclosed, Bool.and_false, Bool.false_and, ite_self]

theorem padOut_no_supply {pin : Nat} (hoff : bankOn s pin = false) : padOut s pin = none := by
  simp only [padOut, hoff, Bool.not_false, if_true]

theorem pinPull_no_supply {pin : Nat} (hoff : bankOn s pin = false) : pinPull s pin = .none := by
  unfold pinPull
  split
  · rfl
  · simp only [hoff, Bool.false_and, Bool.false_eq_true, if_false]

end

end Sys2Proof.Machine

namespace Sys2Proof.Proofs
open Sys2Proof.Machine

/-- Settles O17: the rows of trees, checker and capture each by its law; of a step, the registers by the order of 06 R262 and the cell's own law. -/
theorem fabricHappenings : Obligations.FabricHappenings := by
  unfold Obligations.FabricHappenings
  refine ⟨fun g t s htree => exec_grstRelease_of_tree htree, fun g level src x t s htree hsrc => exec_grstUserAssert_logic level htree hsrc,
    fun g level pin t s htree hsrc => exec_grstUserAssert_pin level htree hsrc,
    fun g level t s htree hsrc => exec_grstUserAssert_no_source level htree hsrc,
    fun g t s => ⟨setUser_rise s g t, setUser_fall t, setUser_stays_low t⟩, fun s => rfl,
    fun g src p s hsrc hboot ⟨hpulse, hrel⟩ => treeIn_of_user p hsrc hboot hpulse hrel, fun g p s hfirst => holdBack_first g hfirst,
    fun frame word bad s hop hen hpath ⟨hvalid, hlogic⟩ hruns hfew => exec_scrubFrameCheck_reached word hop hen hpath hvalid hlogic hruns hfew,
    fun samples s hruns harmed => exec_captureTrigger_armed samples hruns harmed,
    fun samples s hruns htriggered => exec_captureComplete_triggered samples hruns htriggered, ?feed,
    fun s htriggered hfull => capEnd_full htriggered hfull, ?register, ?cell, ?accumulator,
    fun k e y s hdormant => seamStep_dormant e y hdormant, fun n q k y s hport hclosed => sigVal_port_closed n q hport hclosed,
    fun pin s hoff => ⟨padOut_no_supply hoff, pinPull_no_supply hoff⟩⟩
  case feed =>
    intro x r s y s1
    rw [capFeed_cons]
    exact ⟨fun harmed hno => by rw [capSample_no_trigger harmed hno],
      fun harmed hpos hmatch => by rw [capSample_trigger harmed hpos hmatch], fun htriggered => by rw [capSample_triggered _ htriggered]⟩
  case register =>
    exact fun i sr async v edge en d q =>
      ⟨regNext_held .., regNext_async .., regNext_sync .., regNext_enabled .., regNext_disabled .., regNext_no_edge ..⟩
  case cell =>
    intro k y s hcell
    rw [tabFind_cells_logicStep hcell]
    refine ⟨fun hstands => by rw [cellStep_stands _ y hstands],
      fun f hruns hff => ⟨_, rfl, cellStep_cfg s true k y, cellStep_q0 true hruns hff⟩, fun f hruns hff hrestore htree => ⟨_, rfl, ?_⟩⟩
    rw [cellStep_q0 true hruns hff, ffNext_held true _ _ _ hrestore htree]
  case accumulator =>
    exact fun base prod sub => ⟨fun ⟨hlow, hhigh⟩ => ⟨toInt_accNext_of_fits base prod sub hlow hhigh,
        Bool.eq_false_iff.2 fun hovf => (accNext_ovf base prod sub).1 hovf ⟨hlow, hhigh⟩⟩,
      (accNext_ovf base prod sub).2, toInt_accNext_wraps base prod sub⟩

end Sys2Proof.Proofs
end

section
/-! PROOF. Accesses of the RAMs and of the queue blocks: what each row answers in the state that it speaks of (07 R298 to R302, R308 to R329). -/
namespace Sys2Proof.Machine

/-! ## What the codes make of few errors (07 R307, R308, R316) -/

@[simp] theorem popUpTo_of_zero (n : Nat) : popUpTo n 0 = 0 := by
  induction n with
  | zero => rfl
  | succ n ih => simp [popUpTo, ih]

theorem codeKind_of_le_two {n : Nat} (blind : Bool) (free : Nat) (hfew : n ≤ 2) : codeKind n 0 blind free = n := if_pos ⟨rfl, hfew⟩

/-- At its own address a word with at most two bad bits is clean, corrected or uncorrectable by their number. -/
theorem ramJudge_of_le_two (r : RamId) {x : RamWord} (a free : Nat) (hadr : x.adr = 0#12) (hfew : popUpTo 72 x.err.toNat ≤ 2) :
    ramJudge r x a a free = popUpTo 72 x.err.toNat := by
  have hsame : popUpTo 15 (a ^^^ a ^^^ x.adr.toNat) = 0 := by simp [hadr]
  simp only [ramJudge, hsame, codeKind_of_le_two _ _ hfew]

theorem ramFixed_stored {k : Nat} (x : RamWord) (same : Bool) (free : Nat) (hk : k ≠ 1) :
    ramFixed x k same free = ramStored x &&& 0xFFFFFFFFFFFFFFFF#72 := by simp only [ramFixed, if_neg hk]

theorem ramFixed_corrected {x : RamWord} {same : Bool} (free : Nat) (hone : popUpTo 72 x.err.toNat = 1) (hsame : same = true) :
    ramFixed x 1 same free = x.val &&& 0xFFFFFFFFFFFFFFFF#72 := by simp only [ramFixed, hone, hsame, and_self, if_true]

/-! ## Reads of a RAM (07 R299, R300, R308, R309) -/

/-- A stored word with the bits flipped that an access meets. -/
def upsetWord (x : RamWord) (upset : BitVec 72) : RamWord := { x with err := x.err ^^^ upset }

section
variable {s : State} {r : RamId} {p : Port}

theorem exec_ramRead_usable (addr reach : BitVec 15) (upset : BitVec 72) (husable : portUsable s r p = true)
    (hreads : (portOf (ramOf s r) p).reads = true) :
    exec (.ramRead r p addr reach upset) s = .next (ramRead s r p addr.toNat reach.toNat upset) := by
  change execRamRead r p addr reach upset s = _
  simp only [execRamRead, husable, hreads, Bool.and_self, if_true]

theorem exec_ramRead_no_read (addr reach : BitVec 15) (upset : BitVec 72) (hreads : (portOf (ramOf s r) p).reads = false) :
    exec (.ramRead r p addr reach upset) s = .next s := by
  change execRamRead r p addr reach upset s = _
  simp only [execRamRead, hreads, Bool.and_false, Bool.false_eq_true, if_false]

/-- What a read in ECC mode at stored word `i` answers, the word judged `k`. -/
def eccReadAt (s : State) (r : RamId) (p : Port) (a i : Nat) (x : RamWord) (k : Nat) : State :=
  ramReport (freeStep (setRam s r (setOut { ramOf s r with words := tabSet (ramOf s r).words i x {} } p
    (eccOut (ramFixed x k ((a ^^^ i) == x.adr.toNat) s.freeCtr) k)))) r k a

theorem ramRead_ecc (addr reach : Nat) (upset : BitVec 72) (hecc : (ramOf s r).ecc = true) :
    let a := addr % ramDepth r
    let i := reach % ramDepth r
    let x := upsetWord (ramWord (ramOf s r) i) upset
    ramRead s r p addr reach upset = eccReadAt s r p a i x (ramJudge r x a i s.freeCtr) := by
  simp only [ramRead, eccReadAt, upsetWord, portWord, hecc, if_true]

theorem ramRead_plain (addr reach : Nat) (upset : BitVec 72) (hecc : (ramOf s r).ecc = false) :
    let w := (portOf (ramOf s r) p).width
    let i := reach / portRatio w % ramDepth r
    let x := upsetWord (ramWord (ramOf s r) i) upset
    ramRead s r p addr reach upset =
      freeStep (setRam s r (setOut { ramOf s r with words := tabSet (ramOf s r).words i x {} } p
        { data := BitVec.ofNat 72 ((ramStored x).toNat / 2 ^ portShift w reach % 2 ^ w) })) := by
  simp only [ramRead, upsetWord, portWord, hecc, Bool.false_eq_true, if_false]

/-! ## Writes of a RAM (07 R298, R301, R302, R310 to R312) -/

theorem exec_ramWrite_usable (addr reach : BitVec 15) (w : BitVec 72) (en : BitVec 8) (inj1 inj2 : Bool) {lost : Bool} (reads : Bool)
    (husable : portUsable s r p = true) (hwrites : (portOf (ramOf s r) p).writes = true) (hkept : (lost && p == .b) = false) :
    exec (.ramWrite r p addr reach w en inj1 inj2 lost reads) s =
      .next (ramWrite s r p addr.toNat reach.toNat w en.toNat 0#72 (injMask inj1 inj2) reads) := by
  change execRamWrite r p addr reach w en inj1 inj2 lost reads s = _
  simp only [execRamWrite, husable, hwrites, hkept, Bool.not_false, Bool.and_self, if_true]

theorem exec_ramWrite_no_write (addr reach : BitVec 15) (w : BitVec 72) (en : BitVec 8) (inj1 inj2 lost reads : Bool)
    (hwrites : (portOf (ramOf s r) p).writes = false) : exec (.ramWrite r p addr reach w en inj1 inj2 lost reads) s = .next s := by
  change execRamWrite r p addr reach w en inj1 inj2 lost reads s = _
  simp only [execRamWrite, hwrites, Bool.and_false, Bool.false_and, Bool.false_eq_true, if_false]

/-- Port B's write of the word that port A writes at the same edge is lost. -/
theorem exec_ramWrite_lost (s : State) (r : RamId) (addr reach : BitVec 15) (w : BitVec 72) (en : BitVec 8) (inj1 inj2 reads : Bool) :
    exec (.ramWrite r .b addr reach w en inj1 inj2 true reads) s = .next s := by
  change execRamWrite r .b addr reach w en inj1 inj2 true reads s = _
  simp only [execRamWrite, beq_self_eq_true, Bool.and_self, Bool.not_true, Bool.and_false, Bool.false_eq_true, if_false]

theorem exec_ramNarrowWrite_usable (addr reach : BitVec 15) (w : BitVec 64) (en : BitVec 8) (inj1 inj2 : Bool) (upset : BitVec 72)
    (reads : Bool) (husable : portUsable s r p = true) (hwrites : (portOf (ramOf s r) p).writes = true) :
    exec (.ramNarrowWrite r p addr reach w en inj1 inj2 upset reads) s =
      .next (ramWrite s r p addr.toNat reach.toNat (w.setWidth 72) en.toNat upset (injMask inj1 inj2) reads) := by
  change execRamNarrowWrite r p addr reach w en inj1 inj2 upset reads s = _
  simp only [execRamNarrowWrite, husable, hwrites, Bool.and_self, if_true]

theorem ramWrite_plain (addr reach : Nat) (w : BitVec 72) (en : Nat) (upset inj : BitVec 72) (reads : Bool) (hecc : (ramOf s r).ecc = false) :
    ramWrite s r p addr reach w en upset inj reads = ramPlain s r p reach w en reads := by
  simp only [ramWrite, hecc, Bool.not_false, if_true]

theorem ramWrite_full (addr reach : Nat) (w upset inj : BitVec 72) (reads : Bool) (hecc : (ramOf s r).ecc = true) :
    ramWrite s r p addr reach w 0xFF upset inj reads = ramFull s r p addr reach w inj reads := by
  simp only [ramWrite, hecc, Bool.not_true, Bool.false_eq_true, if_false, if_true]

theorem ramWrite_merge (addr reach : Nat) (w : BitVec 64) {en : BitVec 8} (upset inj : BitVec 72) (reads : Bool)
    (hecc : (ramOf s r).ecc = true) (hen : en ≠ 0xFF#8) :
    ramWrite s r p addr reach (w.setWidth 72) en.toNat upset inj reads = ramMerge s r p addr reach w en.toNat upset inj reads := by
  have hpart : en.toNat ≠ 0xFF := fun h => hen (BitVec.eq_of_toNat_eq h)
  have hdata : (w.setWidth 72).setWidth 64 = w := by simp
  simp only [ramWrite, hecc, Bool.not_true, Bool.false_eq_true, if_false, if_neg hpart, hdata]

/-- Only a port under WRITE_FIRST that also reads shows what it writes; under the other rule that reads no stored word it keeps its output. -/
theorem rdwOut_not_readFirst {c : RamPort} (reads : Bool) (old : RamOut) (new : BitVec 72) (keep : RamOut) (hrdw : c.rdw ≠ .readFirst) :
    rdwOut c reads old new keep = if reads = true ∧ c.reads = true ∧ c.rdw = .writeFirst then { data := new } else keep := by
  unfold rdwOut
  cases hc : c.rdw
  case readFirst => exact absurd hc hrdw
  all_goals cases reads <;> cases c.reads <;> rfl

/-- A full write of a port that shows no stored word meets no error and reports none. -/
theorem ramFull_not_readFirst (addr reach : Nat) (w inj : BitVec 72) (reads : Bool) (hrdw : (portOf (ramOf s r) p).rdw ≠ .readFirst) :
    let m := ramOf s r
    let c := portOf m p
    let a := addr % ramDepth r
    let i := reach % ramDepth r
    let v := w &&& 0xFFFFFFFFFFFFFFFF#72
    ramFull s r p addr reach w inj reads =
      freeStep (setRam s r (setOut (putWord m i { val := v, err := inj, adr := BitVec.ofNat 12 (a ^^^ i) }) p
        (if reads = true ∧ c.reads = true ∧ c.rdw = .writeFirst then { data := v } else outOf m p))) := by
  have hunread : (reads && (portOf (ramOf s r) p).reads && (portOf (ramOf s r) p).rdw == .readFirst) = false := by
    rw [beq_eq_false_iff_ne.2 hrdw, Bool.and_false]
  simp only [ramFull, hunread, Bool.false_eq_true, if_false, rdwOut_not_readFirst _ _ _ _ hrdw]
  rfl

/-! ## The scrubber (07 R314, R315) -/

/-- The scrubber has visited stored word `i`: it stands at the next one, with `back` to write. -/
def scrubbed (s : State) (r : RamId) (i : Nat) (x : RamWord) (back : Option (Nat × BitVec 72)) : State :=
  freeStep (setRam s r { ramOf s r with words := tabSet (ramOf s r).words i x {}, pos := (i + 1) % ramDepth r, back := back })

theorem exec_ramScrubVisit_usable (upset : BitVec 72) (husable : portUsable s r .b = true) (hecc : (ramOf s r).ecc = true)
    (hscrub : (ramOf s r).scrub = true) : exec (.ramScrubVisit r upset) s = .next (ramScrub s r upset) := by
  change execRamScrubVisit r upset s = _
  simp only [execRamScrubVisit, husable, hecc, hscrub, Bool.and_self, if_true]

/-- A visited word with at most two bad bits: one is corrected and waits for its write-back, two are reported. -/
theorem ramScrub_of_le_two (upset : BitVec 72) :
    let m := ramOf s r
    let i := m.pos % ramDepth r
    let x := upsetWord (ramWord m i) upset
    let n := popUpTo 72 x.err.toNat
    x.adr = 0#12 → n ≤ 2 →
    ramScrub s r upset =
      if n = 2 then ramUncorrectable (scrubbed s r i x m.back) r i
      else if n = 1 then scrubbed s r i x (some (i, x.val &&& 0xFFFFFFFFFFFFFFFF#72))
      else scrubbed s r i x m.back := by
  intro m i x n hadr hfew
  have hjudge : ramJudge r x i i s.freeCtr = n := ramJudge_of_le_two r i s.freeCtr hadr hfew
  have hscrub : ramScrub s r upset =
      if n = 2 then ramUncorrectable (scrubbed s r i x (if n = 1 then some (i, ramFixed x n (x.adr == 0#12) s.freeCtr) else m.back)) r i
      else scrubbed s r i x (if n = 1 then some (i, ramFixed x n (x.adr == 0#12) s.freeCtr) else m.back) := by
    rw [← hjudge]
    rfl
  rw [hscrub]
  by_cases hone : n = 1
  · have hfixed : ramFixed x 1 (x.adr == 0#12) s.freeCtr = x.val &&& 0xFFFFFFFFFFFFFFFF#72 :=
      ramFixed_corrected s.freeCtr hone (beq_iff_eq.2 hadr)
    have hnotTwo : ¬(1 = 2) := by decide
    simp only [hone, hfixed, if_neg hnotTwo, if_true]
  · simp only [if_neg hone]

theorem exec_ramScrubWriteback_pending {i : Nat} {v : BitVec 72} (husable : portUsable s r .b = true) (hback : (ramOf s r).back = some (i, v)) :
    exec (.ramScrubWriteback r) s =
      .next (ramCorrected (setRam s r { ramOf s r with words := tabSet (ramOf s r).words i { val := v } {}, back := none }) r) := by
  change execRamScrubWriteback r s = _
  simp only [execRamScrubWriteback, husable, if_true, hback]

end

/-! ## A queue block as its sides count it (07 R316, R321, R327) -/

theorem qbOf_qbPut_self (s : State) (b : Nat) (q : Qb) : qbOf (qbPut s b q) b = qbCatch (qbRclk s b) (qbWclk s b) q :=
  tabGet_tabPut_self _ _ _ _

theorem qbOf_qbPut_other (s : State) {b c : Nat} (q : Qb) (h : c ≠ b) : qbOf (qbPut s b q) c = qbOf s c := tabGet_tabPut_other _ _ _ h

theorem qbCatch_stands (q : Qb) : qbCatch false false q = q := rfl

theorem qbCatch_runs {q : Qb} (hstays : q.dropping = false) : qbCatch true true q = { q with newWords := 0, newEnds := 0, freed := 0 } := by
  simp only [qbCatch, hstays, Bool.false_and, Bool.false_eq_true, if_false, if_true]

@[simp] theorem qbSkip_nil (q : Qb) : qbSkip q [] = { q with words := [] } := rfl

theorem qbSkip_cons (q : Qb) (w : QbWord) (r : List QbWord) :
    qbSkip q (w :: r) =
      if qbEnd w.ends = true then { q with words := r, dropping := false, inside := false, pkts := q.pkts - 1 } else qbSkip q r := rfl

/-- Which words a skip leaves, and whether it has come to an end, depends on the words and on nothing that the sides count. -/
theorem qbSkip_words_dropping {q q' : Qb} (l : List QbWord) (hdropping : q.dropping = q'.dropping) :
    (qbSkip q l).words = (qbSkip q' l).words ∧ (qbSkip q l).dropping = (qbSkip q' l).dropping := by
  induction l with
  | nil => exact ⟨rfl, hdropping⟩
  | cons w r ih =>
    rw [qbSkip_cons, qbSkip_cons]
    split
    · exact ⟨rfl, rfl⟩
    · exact ih

theorem qbCatch_drops {q : Qb} (hdropping : q.dropping = true) (hflush : q.flush = 0) :
    (qbCatch true true q).words = (qbSkip q q.words).words ∧ (qbCatch true true q).dropping = (qbSkip q q.words).dropping := by
  simp only [qbCatch, hdropping, hflush, beq_self_eq_true, Bool.and_self, if_true]
  exact qbSkip_words_dropping q.words hdropping.symm

/-! ## Rows of a queue block (07 R319, R320, R323 to R328) -/

theorem qbPush_eq (q : Qb) (w : QbWord) :
    qbPush q w =
      if q.discard = true then { q with discard := !w.last }
      else if 1024 ≤ q.words.length + q.freed then q
      else { q with words := q.words ++ [w], open_ := !w.last, newWords := q.newWords + 1
                    pkts := if (q.packet && w.last) = true then q.pkts + 1 else q.pkts
                    newEnds := if (q.packet && w.last) = true then q.newEnds + 1 else q.newEnds } := by
  by_cases hdiscard : q.discard = true
  · have hsame : ({ q with discard := true } : Qb) = q := by rw [← hdiscard]
    cases hlast : w.last <;> simp [qbPush, hdiscard, hlast, hsame]
  · by_cases hfull : 1024 ≤ q.words.length + q.freed <;> simp [qbPush, hdiscard, qbFull, qbWcount, hfull]

section
variable {s : State} {b : Fin 1024}

theorem exec_qbWrite_usable (data : BitVec 128) (last : Bool) (bytes : BitVec 4) (inj1 inj2 : Bool) (adr : BitVec 10)
    (hin : qbFabricIn s b.val = true) :
    exec (.qbWrite b data last bytes inj1 inj2 adr) s =
      .next (qbPut s b.val (qbPush (qbNow s b.val)
        { data := data, last := last, bytes := bytes, err := qbInj inj1 inj2, adr := adr, ends := qbEnds last })) := by
  change execQbWrite b data last bytes inj1 inj2 adr s = _
  simp only [execQbWrite, hin, if_true]

theorem exec_qbRead_usable (upset : BitVec 142) (ends : BitVec 3) (adr : BitVec 10) (hout : qbFabricOut s b.val = true) :
    exec (.qbRead b upset ends adr) s = .next (qbRead s b.val upset ends adr) := by
  change execQbRead b upset ends adr s = _
  simp only [execQbRead, hout, if_true]

/-- The block without its oldest word, whose end mark reads `e`. -/
def qbPopped (q : Qb) (r : List QbWord) (e : Bool) : Qb :=
  { q with words := r, inside := q.packet && !e, freed := q.freed + 1, pkts := if (q.packet && e) = true then q.pkts - 1 else q.pkts }

theorem qbPop_cons {q : Qb} {w : QbWord} {r : List QbWord} (upset : BitVec 3) (hwords : q.words = w :: r) (hflush : q.flush = 0)
    (hdropping : q.dropping = false) (hcounted : q.newWords = 0) :
    qbPop q upset = some ({ w with ends := w.ends ^^^ upset }, qbPopped q r (qbEnd (w.ends ^^^ upset))) := by
  have hdelivers : ¬(qbEmpty q || q.dropping) = true := by simp [qbEmpty, qbRcount, hflush, hwords, hcounted, hdropping]
  simp only [qbPop, if_neg hdelivers, hwords, qbPopped]

theorem qbPop_none {q : Qb} (upset : BitVec 3) (h : q.dropping = true ∨ qbRcount q = 0) : qbPop q upset = none := by
  have hnothing : (qbEmpty q || q.dropping) = true := by
    obtain hdropping | hempty := h
    · rw [hdropping, Bool.or_true]
    · rw [qbEmpty, hempty, beq_self_eq_true, Bool.true_or]
  simp only [qbPop, hnothing, if_true]

/-- A word without errors is delivered as it was written, with the end mark of its three copies. -/
theorem qbDeliver_clean (w : QbWord) (one : Bool) (free : Nat) :
    qbDeliver w 0#142 0 one free = { data := w.data, last := qbEnd w.ends, bytes := w.bytes, poison := false } := by simp [qbDeliver]

theorem qbRead_none (b : Nat) (upset : BitVec 142) (ends : BitVec 3) (adr : BitVec 10) (hpop : qbPop (qbNow s b) ends = none) :
    qbRead s b upset ends adr = s := by
  simp only [qbRead, hpop]

theorem qbRead_clean {b : Nat} {ends : BitVec 3} {w : QbWord} {q : Qb} (hpop : qbPop (qbNow s b) ends = some (w, q)) (herr : w.err = 0)
    (hadr : w.adr = 0) :
    qbRead s b 0 ends 0 = freeStep (qbPut s b
      { q with out := { data := w.data, last := qbEnd w.ends, bytes := w.bytes, poison := false }, valid := true }) := by
  have hclean : ∀ blind, codeKind 0 0 blind s.freeCtr = 0 := fun blind => codeKind_of_le_two blind _ (by decide)
  simp [qbRead, hpop, herr, hadr, hclean, qbDeliver_clean, qbReport]

/-- An empty block, and one whose packet is being dropped, delivers nothing. -/
theorem exec_qbRead_nothing (b : Fin 1024) (upset : BitVec 142) (ends : BitVec 3) (adr : BitVec 10)
    (h : (qbNow s b.val).dropping = true ∨ qbRcount (qbNow s b.val) = 0) : exec (.qbRead b upset ends adr) s = .next s := by
  change execQbRead b upset ends adr s = _
  simp only [execQbRead, qbRead_none b.val upset ends adr (qbPop_none ends h), ite_self]

theorem exec_qbFlush_permitted (hout : qbFabricOut s b.val = true) (hok : (qbNow s b.val).flushOk = true) (hidle : (qbNow s b.val).flush = 0) :
    exec (.qbFlush b) s = .next (qbPut s b.val { qbNow s b.val with flush := 1, dropping := false, inside := false }) := by
  change execQbFlush b s = _
  simp only [execQbFlush, hout, hok, hidle, beq_self_eq_true, Bool.and_self, if_true]

theorem exec_qbFlushObserved_sampled (husable : qbUsable s b.val = true) (hclk : qbWclk s b.val = true) (hsampled : (qbNow s b.val).flush = 1) :
    exec (.qbFlushObserved b) s = .next (qbPut s b.val
      { qbNow s b.val with flush := 2, words := [], pkts := 0, open_ := false, newWords := 0, newEnds := 0, freed := 0
                           discard := (qbNow s b.val).packet && ((qbNow s b.val).open_ || (qbNow s b.val).discard) }) := by
  change execQbFlushObserved b s = _
  simp only [execQbFlushObserved, husable, hclk, hsampled, beq_self_eq_true, Bool.and_self, if_true]

theorem exec_qbFlushDone_observed (hout : qbFabricOut s b.val = true) (hclk : qbWclk s b.val = true) (hobserved : (qbNow s b.val).flush = 2) :
    exec (.qbFlushDone b) s = .next (qbPut s b.val { qbNow s b.val with flush := 0 }) := by
  change execQbFlushDone b s = _
  simp only [execQbFlushDone, hout, hclk, hobserved, beq_self_eq_true, Bool.and_self, if_true]

theorem exec_qbDrop_permitted (hout : qbFabricOut s b.val = true) (hok : (qbNow s b.val).dropOk = true) (hpacket : (qbNow s b.val).packet = true)
    (hinside : (qbNow s b.val).inside = true) (hidle : (qbNow s b.val).flush = 0) (hnot : (qbNow s b.val).dropping = false) :
    exec (.qbDrop b) s = .next (qbPut s b.val { qbNow s b.val with dropping := true }) := by
  change execQbDrop b s = _
  simp only [execQbDrop, hout, hok, hpacket, hinside, hidle, hnot, beq_self_eq_true, Bool.not_false, Bool.and_self, if_true]

end

end Sys2Proof.Machine

namespace Sys2Proof.Proofs
open Sys2Proof.Machine

/-- Settles O18: each row by the law of its access; a word that stands at its own address with at most two bad bits by the number of them. -/
theorem ramAccesses : Obligations.RamAccesses := by
  unfold Obligations.RamAccesses
  refine ⟨?eccRead, ?fewErrors, ?plainRead, ?fullWrite, ?plainWrite,
    fun r addr reach w en inj1 inj2 reads s => exec_ramWrite_lost s r addr reach w en inj1 inj2 reads, ?narrowWrite,
    fun r p addr reach w en inj1 inj2 lost reads upset s => ⟨fun hreads => exec_ramRead_no_read addr reach upset hreads,
      fun hwrites => exec_ramWrite_no_write addr reach w en inj1 inj2 lost reads hwrites⟩, ?scrubVisit,
    fun r i v s husable hback => exec_ramScrubWriteback_pending husable hback⟩
  case eccRead =>
    intro r p addr reach upset s m a i x k husable hreads hecc
    rw [exec_ramRead_usable addr reach upset husable hreads, ramRead_ecc addr.toNat reach.toNat upset hecc]
    rfl
  case fewErrors =>
    intro r x a f hadr hfew
    refine ⟨ramJudge_of_le_two r a f hadr hfew, ?_, fun hone => ?_, ?_⟩
    · rw [ramFixed_stored x true f (by decide)]; rfl
    · rw [ramFixed_corrected f hone rfl]; rfl
    · rw [ramFixed_stored x true f (by decide)]; rfl
  case plainRead =>
    intro r p addr reach upset s m w i x husable hreads hecc
    rw [exec_ramRead_usable addr reach upset husable hreads, ramRead_plain addr.toNat reach.toNat upset hecc]
    rfl
  case fullWrite =>
    intro r p addr reach w inj1 inj2 lost reads s m a i v e husable hwrites hkept hecc hrdw
    rw [exec_ramWrite_usable addr reach w _ inj1 inj2 reads husable hwrites hkept]
    exact congrArg _ ((ramWrite_full addr.toNat reach.toNat w 0#72 (injMask inj1 inj2) reads hecc).trans
      (ramFull_not_readFirst addr.toNat reach.toNat w (injMask inj1 inj2) reads hrdw))
  case plainWrite =>
    intro r p addr reach w en inj1 inj2 lost reads s m wd i sh old mask v husable hwrites hkept hecc
    rw [exec_ramWrite_usable addr reach w en inj1 inj2 reads husable hwrites hkept,
      ramWrite_plain addr.toNat reach.toNat w en.toNat 0#72 (injMask inj1 inj2) reads hecc]
    simp only [ramPlain, rdwOut, Bool.and_eq_true]
    rfl
  case narrowWrite =>
    intro r p addr reach w en inj1 inj2 upset reads s husable hwrites
    rw [exec_ramNarrowWrite_usable addr reach w en inj1 inj2 upset reads husable hwrites]
    split
    · next hmerge =>
      obtain ⟨hecc, hpart⟩ := hmerge
      rw [ramWrite_merge addr.toNat reach.toNat w upset (injMask inj1 inj2) reads hecc hpart]
    · rfl
  case scrubVisit =>
    intro r upset s m i x n s1 husable ⟨hecc, hscrub⟩ ⟨hadr, hfew⟩
    rw [exec_ramScrubVisit_usable upset husable hecc hscrub]
    exact congrArg _ (ramScrub_of_le_two upset hadr hfew)

/-- Settles O19: each row by its law on the block as its sides count it, which a put hands on to them. -/
theorem queueBlocks : Obligations.QueueBlocks := by
  unfold Obligations.QueueBlocks
  refine ⟨?write, fun b q s => ⟨qbOf_qbPut_self s b q, fun c h => qbOf_qbPut_other s q h, qbCatch_stands q, qbCatch_runs,
      fun ⟨hdropping, hflush⟩ => qbCatch_drops hdropping hflush⟩, fun q w r => ⟨qbSkip_cons q w r, qbSkip_nil q⟩, ?read,
    fun b upset ends adr s h => exec_qbRead_nothing b upset ends adr h,
    fun b s hout ⟨hok, hidle⟩ => exec_qbFlush_permitted hout hok hidle,
    fun b s husable hclk hsampled => exec_qbFlushObserved_sampled husable hclk hsampled,
    fun b s hout hclk hobserved => exec_qbFlushDone_observed hout hclk hobserved,
    fun b s hout ⟨hok, hpacket, hinside, hidle, hnot⟩ => exec_qbDrop_permitted hout hok hpacket hinside hidle hnot⟩
  case write =>
    intro b data last bytes inj1 inj2 adr s q w e hin
    rw [exec_qbWrite_usable data last bytes inj1 inj2 adr hin, qbPush_eq]
    rfl
  case read =>
    intro b w r ends s q e hout ⟨hflush, hdropping, hcounted⟩ hwords ⟨herr, hadr⟩
    have hpop : qbPop (qbNow s b.val) ends = _ := qbPop_cons ends hwords hflush hdropping hcounted
    rw [exec_qbRead_usable 0 ends 0 hout, qbRead_clean hpop herr hadr]
    rfl

end Sys2Proof.Proofs
end

section
/-! PROOF. The issue of a bundle, step by step: what its stores, its control operation and the end of the cycle change of the engine, and what they leave
as it was (08 R333, R334, R350 to R354; 09 R391, R416). -/
namespace Sys2Proof.Machine

/-! ## What each step of a cycle may change -/

/-- `g` with the data memories of `h`. -/
def withMemory (g h : Engine) : Engine := { g with xmem := h.xmem, ymem := h.ymem, stored := h.stored }
/-- `g` with what results land in, and what is still in flight, as in `h` (08 R353). -/
def withResults (g h : Engine) : Engine :=
  { g with
    v := h.v, a := h.a, bexp := h.bexp, fg := h.fg, sh := h.sh, ipc := h.ipc, ivec := h.ivec, pend := h.pend, irqEn := h.irqEn, timer := h.timer
    inbox := h.inbox, sstat := h.sstat, poisLogged := h.poisLogged, flight := h.flight }
/-- `g` with PC, the banks, in which the loops stand, and the loop cache of `h` (08 R340, R350). -/
def withLoops (g h : Engine) : Engine :=
  { g with
    fg := h.fg, sh := h.sh, pc := h.pc, cacheOk := h.cacheOk, cacheTag := h.cacheTag, cacheLen := h.cacheLen, capTag := h.capTag, lost := h.lost }

/-! ## Stores (08 R335, R353) -/

theorem dataWord_engStore (g : Engine) (y z : Bool) (i j : Nat) (v : BitVec 256) :
    dataWord (engStore g y i v) z j = if z = y ∧ j = i then v else dataWord g z j := dataWord_setData g y z i j v

theorem engStore_frame (g : Engine) (y : Bool) (i : Nat) (v : BitVec 256) : engStore g y i v = withMemory g (engStore g y i v) := by
  cases y <;> rfl

section
variable (g g0 : Engine)

theorem slotStore_frame (y : Bool) (t : SlotOp) : slotStore g g0 y t = withMemory g (slotStore g g0 y t) := by
  unfold slotStore
  split
  · exact engStore_frame _ _ _ _
  · rfl

theorem absStore_frame (mem : Bool) (sub reg addr : Nat) : absStore g g0 mem sub reg addr = withMemory g (absStore g g0 mem sub reg addr) := by
  unfold absStore
  split
  · exact engStore_frame _ _ _ _
  · exact engStore_frame _ _ _ _
  · rfl

theorem dataWord_slotStore_other_memory {y z : Bool} (t : SlotOp) (i : Nat) (h : z ≠ y) :
    dataWord (slotStore g g0 y t) z i = dataWord g z i := by
  unfold slotStore
  split
  · rw [dataWord_engStore, if_neg (fun hsame => h hsame.1)]
  · rfl

theorem dataWord_slotStore_unstored {y : Bool} {t : SlotOp} {i : Nat} (h : ((storeWord g0 y t).isSome && (slotAddr g0 t).1 / 32 == i) = false) :
    dataWord (slotStore g g0 y t) y i = dataWord g y i := by
  unfold slotStore
  split
  · next hstore =>
    have hother : ¬(slotAddr g0 t).1 / 32 = i := by simpa [hstore] using h
    rw [dataWord_engStore, if_neg (fun hsame => hother hsame.2.symm)]
  · rfl

theorem dataWord_absStore_unstored {mem y : Bool} {sub addr i : Nat} (reg : Nat)
    (h : (mem == y && (sub == 1 || sub == 3) && addr / 32 == i) = false) :
    dataWord (absStore g g0 mem sub reg addr) y i = dataWord g y i := by
  have hother (hsub : (sub == 1 || sub == 3) = true) : ¬(y = mem ∧ i = addr / 32) := by
    rintro ⟨rfl, rfl⟩
    simp [hsub] at h
  unfold absStore
  split
  · rw [dataWord_engStore, if_neg (hother rfl)]
  · rw [dataWord_engStore, if_neg (hother rfl)]
  · rfl

end

/-! ## Results land (08 R353, R354) -/

@[simp] theorem bankOf_setBank (g : Engine) (sh : Bool) (b : EngBank) : bankOf (setBank g sh b) sh = b := by cases sh <;> rfl
theorem setBank_results (g : Engine) (sh : Bool) (b : EngBank) : setBank g sh b = withResults g (setBank g sh b) := by cases sh <;> rfl

theorem csrLand_frame (g : Engine) (sh : Bool) (n : Nat) (v : BitVec 32) : csrLand g sh n v = withResults g (csrLand g sh n v) := by
  unfold csrLand
  split
  case h_1 | h_3 | h_4 => exact setBank_results _ _ _
  case h_9 => split <;> rfl
  all_goals rfl

theorem land_frame (g : Engine) (w : WriteBack) : land g w = withResults g (land g w) := by
  unfold land
  cases w.dest
  case s | p | m | cp | sticky => exact setBank_results _ _ _
  case csr => exact csrLand_frame _ _ _ _
  all_goals rfl

theorem withResults_trans {g h k : Engine} (hfirst : h = withResults g h) (hthen : k = withResults h k) : k = withResults g k := by
  have hboth := congrArg (withResults · k) hfirst
  exact hthen.trans hboth

theorem lands_frame (l : List WriteBack) (g : Engine) : l.foldl land g = withResults g (l.foldl land g) := by
  induction l generalizing g with
  | nil => rfl
  | cons w r ih => exact withResults_trans (land_frame g w) (ih (land g w))

/-- The results at their end have landed, older first, flags last (09 R420). -/
def landed (g : Engine) : Engine :=
  ((g.flight.filter fun w => w.left ≤ 1).filter isSticky).foldl land
    (((g.flight.filter fun w => w.left ≤ 1).filter fun w => !isSticky w).foldl land g)

/-- The results that stay in flight, one cycle closer. -/
def stillFlying (l : List WriteBack) : List WriteBack := (l.filter fun w => 1 < w.left).map fun w => { w with left := w.left - 1 }

theorem cycleEnd_eq (g : Engine) : cycleEnd g = { landed g with flight := stillFlying g.flight } := rfl

theorem landed_frame (g : Engine) : landed g = withResults g (landed g) := withResults_trans (lands_frame _ g) (lands_frame _ _)

theorem cycleEnd_frame (g : Engine) : cycleEnd g = withResults g (cycleEnd g) := by
  rw [cycleEnd_eq, landed_frame]
  rfl

/-- What reads none of the places where results land, the end of a cycle keeps. -/
theorem cycleEnd_keeps {α : Type} (f : Engine → α) (hf : ∀ g h, f (withResults g h) = f g) (g : Engine) : f (cycleEnd g) = f g := by
  rw [cycleEnd_frame, hf]

theorem cyclesPass_frame (n : Nat) (g : Engine) : cyclesPass n g = withResults g (cyclesPass n g) := by
  induction n generalizing g with
  | zero => rfl
  | succ n ih => exact withResults_trans (cycleEnd_frame g) (ih (cycleEnd g))

theorem drain_keeps {α : Type} (f : Engine → α) (hf : ∀ g h, f (withResults g h) = f g) (g : Engine) : f (drain g) = f g := by
  unfold drain
  rw [cyclesPass_frame, hf]

/-! ## Loops and the loop cache (08 R340, R350 to R352) -/

theorem setBank_loops (g : Engine) (sh : Bool) (b : EngBank) : setBank g sh b = withLoops g (setBank g sh b) := by cases sh <;> rfl

theorem beginCapture_frame (g : Engine) (b : EngBank) (l : Nat) : beginCapture g b l = withLoops g (beginCapture g b l) := by
  unfold beginCapture
  split
  · rfl
  · split <;> rfl

theorem endCapture_frame (g : Engine) (b : EngBank) (l : Nat) : endCapture g b l = withLoops g (endCapture g b l) := by
  unfold endCapture
  split <;> rfl

theorem nextIteration_frame (g : Engine) (b : EngBank) (l : Nat) : nextIteration g b l = withLoops g (nextIteration g b l) := by
  unfold nextIteration
  split
  · exact beginCapture_frame g b l
  · rfl

theorem withLoops_trans {g h k : Engine} (hfirst : h = withLoops g h) (hthen : k = withLoops h k) : k = withLoops g k := by
  have hboth := congrArg (withLoops · k) hfirst
  exact hthen.trans hboth

theorem setBank_withLoops {g h : Engine} (sh : Bool) (b : EngBank) (pc : BitVec 16) (hframe : h = withLoops g h) :
    { setBank h sh b with pc := pc } = withLoops g { setBank h sh b with pc := pc } := by
  have hbank := withLoops_trans hframe (setBank_loops h sh b)
  exact congrArg (fun k : Engine => { k with pc := pc }) hbank

theorem advancePc_frame (g : Engine) : advancePc g = withLoops g (advancePc g) := by
  unfold advancePc
  dsimp only
  split
  · rfl
  · split
    · split
      · exact withLoops_trans (setBank_withLoops _ _ _ (endCapture_frame _ _ _)) (nextIteration_frame _ _ _)
      · exact setBank_withLoops _ _ _ (endCapture_frame _ _ _)
    · rfl

theorem advancePc_keeps {α : Type} (f : Engine → α) (hf : ∀ g h, f (withLoops g h) = f g) (g : Engine) : f (advancePc g) = f g := by
  rw [advancePc_frame, hf]

theorem doLoop_frame (g : Engine) (rot count lend : Nat) : doLoop g rot count lend = withLoops g (doLoop g rot count lend) := by
  unfold doLoop
  split
  · rfl
  · refine withLoops_trans ?_ (beginCapture_frame _ _ _)
    rw [setBank_loops]
    rfl

/-! ## The steps of an issue -/

/-- The stores of bundle `b` by engine `e` are performed on `g`. -/
def withStores (s : State) (e : Nat) (b : Bundle) (g : Engine) : Engine :=
  match b with
  | .par _ _ x y => slotStore (slotStore g (engOf s e) false x) (engOf s e) true y
  | .ctl (.abs m sub r a) => absStore g (engOf s e) m sub r a
  | _ => g

/-- A result as it enters the pipeline (08 R353). -/
def launch (sh : Bool) (w : Wr) : WriteBack := { left := w.1, shadow := sh, dest := w.2 }

/-- The stores are performed and the results are in flight; PC and the loops are still those of the bundle. -/
def issueEntered (s : State) (e : Nat) (b : Bundle) : Engine :=
  let g := withStores s e b { engOf (streamMove s e b).1 e with stored := [] }
  { g with
    flight := g.flight ++ (bundleWrites s e b ++ (streamMove s e b).2).map (launch (engOf s e).shadow)
    last := (engOf s e).pc, frozen := none, cldPaid := false
    stepArm := if (engOf s e).state == .monitor then g.stepArm else false
    cycHi := match b with | .par _ (.move .csrr _ 15 _) _ _ => ((engOf s e).cycles >>> 32).setWidth 32 | _ => g.cycHi }

/-- PC, loops, banks and state are those after the bundle; its cycle has not ended. -/
def issueSteered (s : State) (e : Nat) (b : Bundle) : Engine :=
  match b with
  | .par _ _ _ _ => advancePc (issueEntered s e b)
  | .ctl c => ctlStep s e (issueEntered s e b) c

/-- The cycle counts, and the debug event of the issue stands. -/
def closeIssue (event : Option (Nat × Nat)) (g : Engine) : Engine :=
  { countCycle g with dbgEvt := event.orElse fun _ => g.dbgEvt, spIn := g.spIn - 1, spOut := g.spOut - 1 }

/-- The cycle of an issue has ended. -/
def issueClosed (s : State) (e : Nat) (b : Bundle) : Engine := closeIssue (afterIssue (engOf s e) b) (cycleEnd (issueSteered s e b))

theorem applyBundle_eq (s : State) (e : Nat) (b : Bundle) :
    applyBundle s e b = freeStep (setEng (streamMove s e b).1 e (issueClosed s e b)) := by
  cases b <;> rfl

theorem engOf_applyBundle (s : State) (e : Nat) (b : Bundle) : engOf (applyBundle s e b) e = issueClosed s e b := by
  rw [applyBundle_eq]
  exact engOf_setEng _ _ _

theorem issueClosed_keeps {α : Type} {s : State} {e : Nat} {b : Bundle} (f : Engine → α) (hf : ∀ event g, f (closeIssue event g) = f g) :
    f (issueClosed s e b) = f (cycleEnd (issueSteered s e b)) := hf _ _

theorem streamMove_of_none {b : Bundle} (s : State) (e : Nat) (h : streamOp b = none) : streamMove s e b = (s, []) := by
  unfold streamOp at h
  split at h
  · cases h
  · cases h
  next hsin hsout =>
    unfold streamMove
    split
    · exact absurd rfl (hsin _ _ _ _ _)
    · exact absurd rfl (hsout _ _ _ _ _ _ _)
    · rfl

/-- `g` with what the stores and the entry into the pipeline change, as in `h`. -/
def withIssue (g h : Engine) : Engine :=
  { g with
    xmem := h.xmem, ymem := h.ymem, stored := h.stored, flight := h.flight, last := h.last, frozen := h.frozen, cldPaid := h.cldPaid
    stepArm := h.stepArm, cycHi := h.cycHi }

theorem withStores_frame (s : State) (e : Nat) (b : Bundle) (g : Engine) : withStores s e b g = withMemory g (withStores s e b g) := by
  unfold withStores
  split
  · rw [slotStore_frame, slotStore_frame g]
    rfl
  · exact absStore_frame _ _ _ _ _ _
  · rfl

section
variable {s : State} {e : Nat} {b : Bundle}

theorem issueEntered_frame (h : streamOp b = none) : issueEntered s e b = withIssue (engOf s e) (issueEntered s e b) := by
  unfold issueEntered
  rw [streamMove_of_none s e h, withStores_frame]
  rfl

theorem issueEntered_keeps {α : Type} (f : Engine → α) (hf : ∀ g h, f (withIssue g h) = f g) (h : streamOp b = none) :
    f (issueEntered s e b) = f (engOf s e) := by
  rw [issueEntered_frame h, hf]

theorem issueEntered_flight (h : streamOp b = none) :
    (issueEntered s e b).flight = (engOf s e).flight ++ (bundleWrites s e b).map (launch (engOf s e).shadow) := by
  unfold issueEntered
  rw [streamMove_of_none s e h, withStores_frame, List.append_nil]
  rfl

theorem dataWord_issueEntered {y : Bool} {i : Nat} (h : streamOp b = none) (hstores : storesTo (engOf s e) b y i = false) :
    dataWord (issueEntered s e b) y i = dataWord (engOf s e) y i := by
  have hword : dataWord (withStores s e b { engOf s e with stored := [] }) y i = dataWord (engOf s e) y i := by
    unfold withStores
    split
    next x z =>
      cases y
      · exact (dataWord_slotStore_other_memory _ _ z i Bool.false_ne_true).trans (dataWord_slotStore_unstored _ _ hstores)
      · exact (dataWord_slotStore_unstored _ _ hstores).trans (dataWord_slotStore_other_memory _ _ x i Bool.false_ne_true.symm)
    · exact dataWord_absStore_unstored _ _ _ hstores
    · rfl
  unfold issueEntered
  rw [streamMove_of_none s e h]
  exact hword

end

/-! ## What only stores, exceptions and accesses from outside change -/

/-- Memories, EPC and the exception cause, DMA channels, breakpoints, watchpoints and DBG_CTRL of an engine; the rest as after power-on. -/
def heldPart (g : Engine) : Engine :=
  { prog := g.prog, xmem := g.xmem, ymem := g.ymem, epc := g.epc, ecause := g.ecause, dma := g.dma, bp := g.bp, wp := g.wp, dbgCtrl := g.dbgCtrl }

@[simp] theorem heldPart_setBank (g : Engine) (sh : Bool) (b : EngBank) : heldPart (setBank g sh b) = heldPart g := by cases sh <;> rfl
@[simp] theorem heldPart_cycleEnd (g : Engine) : heldPart (cycleEnd g) = heldPart g := cycleEnd_keeps heldPart (fun _ _ => rfl) g
@[simp] theorem heldPart_drain (g : Engine) : heldPart (drain g) = heldPart g := drain_keeps heldPart (fun _ _ => rfl) g
@[simp] theorem heldPart_advancePc (g : Engine) : heldPart (advancePc g) = heldPart g := advancePc_keeps heldPart (fun _ _ => rfl) g

theorem heldPart_takeBranch (g : Engine) (t : Nat) : heldPart (takeBranch g t) = heldPart g := by
  have hrest : ∀ (k : Engine) (pc : BitVec 16) (n : Nat), heldPart { k with pc := pc, wait := n } = heldPart k := fun _ _ _ => rfl
  exact (hrest _ _ _).trans (heldPart_setBank _ _ _)

theorem heldPart_doLoop (g : Engine) (rot count lend : Nat) : heldPart (doLoop g rot count lend) = heldPart g := by
  have hloops : ∀ g h, heldPart (withLoops g h) = heldPart g := fun _ _ => rfl
  rw [doLoop_frame, hloops]

theorem heldPart_doDret (g : Engine) : heldPart (doDret g) = heldPart g := by
  have hrest : ∀ (k : Engine) (sh : Bool) (pc : BitVec 16) (st : EngState) (n : Nat) (arm : Bool),
      heldPart { k with shadow := sh, pc := pc, state := st, wait := n, stepArm := arm } = heldPart k := fun _ _ _ _ _ _ => rfl
  unfold doDret
  exact (hrest _ _ _ _ _ _).trans ((heldPart_setBank _ _ _).trans (heldPart_drain g))

theorem heldPart_doWait (s : State) (e : Nat) (g : Engine) : heldPart (doWait s e g) = heldPart g := by
  have hrest : ∀ (k : Engine) (st : EngState), heldPart { k with state := st } = heldPart k := fun _ _ => rfl
  unfold doWait
  dsimp only
  split
  · exact heldPart_advancePc g
  · exact (hrest _ _).trans ((heldPart_drain _).trans (heldPart_advancePc g))

theorem heldPart_ctlStep (s : State) (e : Nat) (g : Engine) (c : CtlOp) : heldPart (ctlStep s e g c) = heldPart g := by
  have hrest : ∀ (k : Engine) (st : EngState) (n : Nat), heldPart { k with state := st, wait := n } = heldPart k := fun _ _ _ => rfl
  unfold ctlStep
  split
  case h_1 => exact heldPart_doLoop _ _ _ _
  case h_2 =>
    split
    · exact heldPart_takeBranch _ _
    · exact heldPart_advancePc g
  case h_3 => exact heldPart_doWait s e g
  case h_4 => rfl
  case h_5 => exact heldPart_doDret g
  case h_6 => exact heldPart_advancePc _
  case h_7 => exact (hrest _ _ _).trans (heldPart_drain _)
  case h_8 => exact heldPart_advancePc g

theorem heldPart_issueClosed (s : State) (e : Nat) (b : Bundle) : heldPart (issueClosed s e b) = heldPart (issueEntered s e b) := by
  have hsteered : heldPart (issueSteered s e b) = heldPart (issueEntered s e b) := by
    unfold issueSteered
    split
    · exact heldPart_advancePc _
    · exact heldPart_ctlStep _ _ _ _
  have hclosed := issueClosed_keeps (s := s) (e := e) (b := b) heldPart (fun _ _ => rfl)
  rw [hclosed, heldPart_cycleEnd, hsteered]

end Sys2Proof.Machine

namespace Sys2Proof.Proofs
open Sys2Proof.Machine

/-- Settles O29: the issue sets the one engine's record, and of that record only the stores reach what the statement lists. -/
theorem engineFrame : Obligations.EngineFrame := by
  unfold Obligations.EngineFrame
  intro e b s g t hstream
  have hstate : t = freeStep (setEng s e (issueClosed s e b)) := by
    have heq := applyBundle_eq s e b
    rwa [streamMove_of_none s e hstream] at heq
  have heng : engOf t e = issueClosed s e b := engOf_applyBundle s e b
  have hheld : heldPart (engOf t e) = heldPart (issueEntered s e b) := heng ▸ heldPart_issueClosed s e b
  refine ⟨?state, ?others, ?prog, ?epc, ?ecause, ?dma, ?bp, ?wp, ?dbgCtrl, ?memories⟩
  case state => rw [hstate]; rfl
  case others =>
    intro f hf
    rw [hstate]
    exact engOf_setEng_other s _ hf
  case prog => exact (congrArg Engine.prog hheld).trans (issueEntered_keeps Engine.prog (fun _ _ => rfl) hstream)
  case epc => exact (congrArg Engine.epc hheld).trans (issueEntered_keeps Engine.epc (fun _ _ => rfl) hstream)
  case ecause => exact (congrArg Engine.ecause hheld).trans (issueEntered_keeps Engine.ecause (fun _ _ => rfl) hstream)
  case dma => exact (congrArg Engine.dma hheld).trans (issueEntered_keeps Engine.dma (fun _ _ => rfl) hstream)
  case bp => exact (congrArg Engine.bp hheld).trans (issueEntered_keeps Engine.bp (fun _ _ => rfl) hstream)
  case wp => exact (congrArg Engine.wp hheld).trans (issueEntered_keeps Engine.wp (fun _ _ => rfl) hstream)
  case dbgCtrl => exact (congrArg Engine.dbgCtrl hheld).trans (issueEntered_keeps Engine.dbgCtrl (fun _ _ => rfl) hstream)
  case memories =>
    intro y i hstores
    exact (congrArg (dataWord · y i) hheld).trans (dataWord_issueEntered hstream hstores)

end Sys2Proof.Proofs
end

section
/-! PROOF. When the results of a bundle land: what is in flight after its cycle, and what the scalars and pointers of its bank hold (08 R353, R354;
09 R416, R420). -/
namespace Sys2Proof.Machine

/-! ## Register files -/

section
variable {α : Type} {n : Nat} [NeZero n]

theorem vecGet_vecSet_self (v : Vector α n) (i : Nat) (x : α) : vecGet (vecSet v i x) i = x := by
  simp [vecGet, vecSet]

theorem vecGet_vecSet_other (v : Vector α n) {i j : Nat} (x : α) (hi : i < n) (hj : j < n) (h : i ≠ j) : vecGet (vecSet v i x) j = vecGet v j := by
  simp only [vecGet, vecSet, Fin.val_ofNat, Fin.getElem_fin, Nat.mod_eq_of_lt hi, Nat.mod_eq_of_lt hj]
  exact Vector.getElem_set_ne _ _ h

end

/-! ## The bank in which a result lands (08 R367) -/

theorem bankOf_congr {g h : Engine} (sh : Bool) (hfg : h.fg = g.fg) (hsh : h.sh = g.sh) : bankOf h sh = bankOf g sh := by
  simp only [bankOf, hfg, hsh]

section
variable {α : Type} (f : EngBank → α) (sh : Bool)

/-- Setting a bank keeps what the new contents keep. -/
theorem bankOf_setBank_keeps {g : Engine} {sh' : Bool} {b : EngBank} (h : f b = f (bankOf g sh')) :
    f (bankOf (setBank g sh' b) sh) = f (bankOf g sh) := by
  cases sh' <;> cases sh
  · exact h
  · rfl
  · rfl
  · exact h

/-- A control register has its own place in a bank: the other registers do not read CSTAT, LCNT0 and LCNT1. -/
theorem csrLand_keeps (hcstat : ∀ b c, f { b with cstat := c } = f b) (hlcnt : ∀ b c, f { b with lcnt := c } = f b) (g : Engine) (sh' : Bool)
    (n : Nat) (v : BitVec 32) : f (bankOf (csrLand g sh' n v) sh) = f (bankOf g sh) := by
  unfold csrLand
  split
  case h_1 => exact bankOf_setBank_keeps f sh (hcstat _ _)
  case h_3 | h_4 => exact bankOf_setBank_keeps f sh (hlcnt _ _)
  case h_9 => split <;> exact congrArg f (bankOf_congr sh rfl rfl)
  all_goals exact congrArg f (bankOf_congr sh rfl rfl)

end

theorem land_keeps_scalar {w : WriteBack} {k : Nat} (hk : k < 16) (h : ∀ n x, w.dest = .s n x → n < 16 ∧ n ≠ k) (g : Engine) (sh : Bool) :
    vecGet (bankOf (land g w) sh).s k = vecGet (bankOf g sh).s k := by
  unfold land
  cases hdest : w.dest
  case s n x =>
    obtain ⟨hn, hne⟩ := h n x hdest
    exact bankOf_setBank_keeps (fun b => vecGet b.s k) sh (vecGet_vecSet_other _ x hn hk hne)
  case csr => exact csrLand_keeps (fun b => vecGet b.s k) sh (fun _ _ => rfl) (fun _ _ => rfl) _ _ _ _
  case p | m | cp | sticky => exact bankOf_setBank_keeps (fun b => vecGet b.s k) sh rfl
  all_goals exact congrArg (fun b : EngBank => vecGet b.s k) (bankOf_congr sh rfl rfl)

theorem land_keeps_pointer {w : WriteBack} {k : Nat} (hk : k < 8) (h : ∀ n x, w.dest = .p n x → n < 8 ∧ n ≠ k) (g : Engine) (sh : Bool) :
    vecGet (bankOf (land g w) sh).p k = vecGet (bankOf g sh).p k := by
  unfold land
  cases hdest : w.dest
  case p n x =>
    obtain ⟨hn, hne⟩ := h n x hdest
    exact bankOf_setBank_keeps (fun b => vecGet b.p k) sh (vecGet_vecSet_other _ x hn hk hne)
  case csr => exact csrLand_keeps (fun b => vecGet b.p k) sh (fun _ _ => rfl) (fun _ _ => rfl) _ _ _ _
  case s | m | cp | sticky => exact bankOf_setBank_keeps (fun b => vecGet b.p k) sh rfl
  all_goals exact congrArg (fun b : EngBank => vecGet b.p k) (bankOf_congr sh rfl rfl)

theorem land_scalar (g : Engine) (l : Nat) (sh : Bool) (k : Nat) (x : BitVec 32) :
    vecGet (bankOf (land g (launch sh (l, .s k x))) sh).s k = x :=
  (congrArg (fun b : EngBank => vecGet b.s k) (bankOf_setBank g sh _)).trans (vecGet_vecSet_self _ k x)

theorem land_pointer (g : Engine) (l : Nat) (sh : Bool) (k : Nat) (x : BitVec 16) :
    vecGet (bankOf (land g (launch sh (l, .p k x))) sh).p k = x :=
  (congrArg (fun b : EngBank => vecGet b.p k) (bankOf_setBank g sh _)).trans (vecGet_vecSet_self _ k x)

/-! ## Conflicts (09 R416) -/

/-- Without a conflict no later result of the same latency names the register of a result. -/
theorem conflicts_split {l : List Wr} {t : Nat} {d : Dest} {r : Nat × Nat} (hfree : conflicts l = false) (hmem : (t, d) ∈ l)
    (hreg : destReg d = some r) : ∃ before after, l = before ++ (t, d) :: after ∧ ∀ x ∈ after, x.1 = t → destReg x.2 ≠ some r := by
  induction l with
  | nil => cases hmem
  | cons w l ih =>
    obtain ⟨hhead, htail⟩ := Bool.or_eq_false_iff.1 hfree
    obtain rfl | hmem := List.mem_cons.1 hmem
    · refine ⟨[], l, rfl, fun x hx ht hsame => ?_⟩
      have hmeets : l.any (fun x => x.1 == t && destReg x.2 == destReg d) = true :=
        List.any_eq_true.2 ⟨x, hx, by simp [ht, hsame, hreg]⟩
      rw [hreg] at hhead hmeets
      rw [hmeets] at hhead
      cases hhead
    · obtain ⟨before, after, rfl, hlater⟩ := ih htail hmem
      exact ⟨w :: before, after, rfl, hlater⟩

theorem not_sticky_of_reg {w : WriteBack} {r : Nat × Nat} (hreg : destReg w.dest = some r) : isSticky w = false := by
  unfold isSticky
  split
  next hdest => simp [hdest, destReg] at hreg
  next hdest => simp [hdest, destReg] at hreg
  · rfl

/-! ## Latencies (09 R397 to R408) -/

theorem latency_ovfIf {l : Nat} {c : Bool} (hl : 1 ≤ l) : ∀ w ∈ ovfIf l c, 1 ≤ w.1 := by
  unfold ovfIf
  split <;> simp [hl]

theorem latency_moveWrites (s : State) (e : Nat) (op : MoveOp) (d a b : Nat) : ∀ w ∈ moveWrites s e op d a b, 1 ≤ w.1 := by
  cases op
  case anarrow => exact List.forall_mem_cons.2 ⟨Nat.le_add_left 1 1, latency_ovfIf (by decide)⟩
  all_goals simp [moveWrites, wrV]

theorem latency_mWrites (s : State) (e : Nat) (m : MOp) : ∀ w ∈ mWrites s e m, 1 ≤ w.1 := by
  cases m
  case none => simp [mWrites]
  case mac => exact List.forall_mem_cons.2 ⟨Nat.le_add_left 1 2, latency_ovfIf (by decide)⟩
  case valu | vperm => exact List.forall_mem_cons.2 ⟨Nat.le_add_left 1 1, latency_ovfIf (by decide)⟩
  case vfp op d a b high =>
    simp only [mWrites, vfpWrites]
    cases vfpHalf op <;> simp
  case salu => simp [mWrites]
  case move => exact latency_moveWrites s e _ _ _ _

theorem latency_slotWrites (g : Engine) (y : Bool) (t : SlotOp) : ∀ w ∈ slotWrites g y t, 1 ≤ w.1 := by
  simp only [slotWrites, List.forall_mem_append]
  refine ⟨⟨?post, ?store⟩, ?load⟩
  case post => split <;> simp
  case store =>
    split
    · refine List.forall_mem_append.2 ⟨latency_ovfIf (by decide), ?_⟩
      split <;> simp
    · simp
  case load => cases t <;> simp [wrV]

theorem latency_bundleWrites_par (s : State) (e : Nat) (p : Option (Nat × Nat)) (m : MOp) (x y : SlotOp) :
    ∀ w ∈ bundleWrites s e (.par p m x y), 1 ≤ w.1 := by
  simp only [bundleWrites, List.forall_mem_append]
  refine ⟨⟨⟨⟨?coefficient, latency_mWrites s e m⟩, latency_slotWrites _ _ x⟩, latency_slotWrites _ _ y⟩, ?stream⟩
  case coefficient => split <;> simp [wrV]
  case stream => split <;> simp

/-! ## The end of the cycle of a parallel bundle -/

section
variable {s : State} {e : Nat} {p : Option (Nat × Nat)} {m : MOp} {x y : SlotOp}

theorem issueClosed_flight_par (h : streamOp (.par p m x y) = none) :
    (issueClosed s e (.par p m x y)).flight =
      stillFlying ((engOf s e).flight ++ (bundleWrites s e (.par p m x y)).map (launch (engOf s e).shadow)) := by
  have hflight : (issueSteered s e (.par p m x y)).flight = (issueEntered s e (.par p m x y)).flight :=
    advancePc_keeps Engine.flight (fun _ _ => rfl) _
  rw [← issueEntered_flight h, ← hflight]
  exact issueClosed_keeps Engine.flight (fun _ _ => rfl)

theorem mem_stillFlying {l : List WriteBack} {w : WriteBack} (hmem : w ∈ l) (hleft : 1 < w.left) : { w with left := w.left - 1 } ∈ stillFlying l :=
  List.mem_map.2 ⟨w, List.mem_filter.2 ⟨hmem, decide_eq_true hleft⟩, rfl⟩

/-- What the banks show once the results at their end have landed, when the last of them that may change it gives `v`. -/
theorem landed_eq_of_last {α : Type} {f : Engine → α} {g : Engine} {before after : List WriteBack} {w : WriteBack} {v : α}
    (hflight : g.flight = before ++ w :: after) (hdue : w.left ≤ 1) (hplain : isSticky w = false) (hgives : ∀ k, f (land k w) = v)
    (hlater : ∀ x ∈ after, x.left ≤ 1 → ∀ k, f (land k x) = f k) (hsticky : ∀ x, isSticky x = true → ∀ k, f (land k x) = f k) :
    f (landed g) = v := by
  have hkeeps : ∀ (l : List WriteBack) (k : Engine), (∀ x ∈ l, ∀ k, f (land k x) = f k) → f (l.foldl land k) = f k := by
    intro l
    induction l with
    | nil => exact fun _ _ => rfl
    | cons x l ih =>
      intro k hl
      rw [List.foldl_cons, ih _ fun z hz => hl z (List.mem_cons_of_mem x hz), hl x List.mem_cons_self]
  unfold landed
  rw [hkeeps _ _ fun x hx => hsticky x (List.mem_filter.1 hx).2, hflight]
  simp only [List.filter_append, List.filter_cons, hdue, hplain, decide_true, Bool.not_false, if_true, List.foldl_append, List.foldl_cons]
  rw [hkeeps, hgives]
  intro x hx
  obtain ⟨hx, -⟩ := List.mem_filter.1 hx
  obtain ⟨hx, hleft⟩ := List.mem_filter.1 hx
  exact hlater x hx (of_decide_eq_true hleft)

/-- What a result with latency 1 gives its register stands in the bank after the cycle, where the bundle has no conflict. -/
theorem bank_issueClosed_par {α : Type} {f : EngBank → α} {d : Dest} {r : Nat × Nat} {v : α} (hstream : streamOp (.par p m x y) = none)
    (hfree : conflicts (bundleWrites s e (.par p m x y)) = false) (hmem : (1, d) ∈ bundleWrites s e (.par p m x y)) (hreg : destReg d = some r)
    (hgives : ∀ k, f (bankOf (land k (launch (engOf s e).shadow (1, d))) (engOf s e).shadow) = v)
    (hother : ∀ z ∈ bundleWrites s e (.par p m x y), destReg z.2 ≠ some r →
      ∀ k, f (bankOf (land k (launch (engOf s e).shadow z)) (engOf s e).shadow) = f (bankOf k (engOf s e).shadow))
    (hsticky : ∀ z, isSticky z = true → ∀ k, f (bankOf (land k z) (engOf s e).shadow) = f (bankOf k (engOf s e).shadow)) :
    f (bankOf (issueClosed s e (.par p m x y)) (engOf s e).shadow) = v := by
  obtain ⟨before, after, hwrites, hafter⟩ := conflicts_split hfree hmem hreg
  have hflight : (issueSteered s e (.par p m x y)).flight =
      ((engOf s e).flight ++ before.map (launch (engOf s e).shadow)) ++ launch (engOf s e).shadow (1, d) ::
        after.map (launch (engOf s e).shadow) := by
    have hsteered : (issueSteered s e (.par p m x y)).flight = (issueEntered s e (.par p m x y)).flight :=
      advancePc_keeps Engine.flight (fun _ _ => rfl) _
    rw [hsteered, issueEntered_flight hstream, hwrites, List.map_append, List.map_cons, List.append_assoc]
  have hclosed := issueClosed_keeps (s := s) (e := e) (b := .par p m x y) (fun k => f (bankOf k (engOf s e).shadow)) (fun _ _ => rfl)
  refine hclosed.trans ?_
  rw [cycleEnd_eq]
  refine landed_eq_of_last (f := fun k => f (bankOf k (engOf s e).shadow)) hflight (Nat.le_refl 1) (not_sticky_of_reg hreg) hgives ?_ hsticky
  intro w hw hleft
  obtain ⟨z, hz, rfl⟩ := List.mem_map.1 hw
  have hin : z ∈ bundleWrites s e (.par p m x y) := by
    rw [hwrites]
    exact List.mem_append_right _ (List.mem_cons_of_mem _ hz)
  have hlatency : z.1 = 1 := Nat.le_antisymm hleft (latency_bundleWrites_par s e p m x y z hin)
  exact hother z hin (hafter z hz hlatency)

end

end Sys2Proof.Machine

namespace Sys2Proof.Proofs
open Sys2Proof.Machine

/-- Settles O30: what flies on by the pipeline's step, what lands in a scalar or a pointer because no later result of the cycle names it. -/
theorem engineLanding : Obligations.EngineLanding := by
  unfold Obligations.EngineLanding
  intro e p m x y s b g t hstream hfree ⟨hscalars, hpointers⟩
  have ht : t = issueClosed s e b := engOf_applyBundle s e b
  have hflight : t.flight = stillFlying (g.flight ++ (bundleWrites s e b).map (launch g.shadow)) := ht ▸ issueClosed_flight_par hstream
  refine ⟨?results, ?older, ?scalar, ?pointer⟩
  case results =>
    intro l d hmem hl
    rw [hflight]
    exact mem_stillFlying (w := launch g.shadow (l, d)) (List.mem_append_right _ (List.mem_map.2 ⟨_, hmem, rfl⟩)) hl
  case older =>
    intro w hw hleft
    rw [hflight]
    exact mem_stillFlying (List.mem_append_left _ hw) hleft
  case scalar =>
    intro k v hmem
    have hk := hscalars 1 k v hmem
    rw [ht]
    refine bank_issueClosed_par (f := fun c => vecGet c.s k) hstream hfree hmem rfl (fun i => land_scalar i 1 g.shadow k v) ?_ ?_
    · refine fun z hz hne i => land_keeps_scalar hk (fun n a hdest => ⟨hscalars z.1 n a ?_, fun hn => hne ?_⟩) i _
      · rwa [← hdest]
      · rw [show z.2 = .s n a from hdest, hn]; rfl
    · refine fun z hz i => land_keeps_scalar hk (fun n a hdest => ?_) i _
      simp [isSticky, hdest] at hz
  case pointer =>
    intro k v hmem
    have hk := hpointers 1 k v hmem
    rw [ht]
    refine bank_issueClosed_par (f := fun c => vecGet c.p k) hstream hfree hmem rfl (fun i => land_pointer i 1 g.shadow k v) ?_ ?_
    · refine fun z hz hne i => land_keeps_pointer hk (fun n a hdest => ⟨hpointers z.1 n a ?_, fun hn => hne ?_⟩) i _
      · rwa [← hdest]
      · rw [show z.2 = .p n a from hdest, hn]; rfl
    · refine fun z hz i => land_keeps_pointer hk (fun n a hdest => ?_) i _
      simp [isSticky, hdest] at hz

end Sys2Proof.Proofs
end

section
/-! PROOF. The boundary before a bundle: what is judged there and in which order (08 R338 to R341, R363, R365, R369, R372, R379; 09 R421). -/
namespace Sys2Proof.Machine

/-! ## What the words noted for the external port do not bear on (08 R335) -/

/-- The state in which engine `e` has stored nothing yet in its cycle. -/
def nothingStored (s : State) (e : Nat) : State := toEng s e { engOf s e with stored := [] }

section
variable (s : State) (e : Nat)

theorem engOf_nothingStored : engOf (nothingStored s e) e = { engOf s e with stored := [] } := engOf_toEng _ _ _

theorem nothingStored_eq : nothingStored s e = { s with eng := (nothingStored s e).eng } := by
  unfold nothingStored toEng
  split <;> rfl

theorem streamBlock_nothingStored (out : Bool) : streamBlock (nothingStored s e) e out = streamBlock s e out := by
  rw [nothingStored_eq]
  rfl

theorem irqPend_nothingStored : irqPend (nothingStored s e) e = irqPend s e := by
  unfold nothingStored toEng
  split
  · rfl
  · simp only [irqPend, spHolds, spAccepts, linkOpen, engOf_setEng]
    rfl

theorem irqDue_nothingStored : irqDue (nothingStored s e) e = irqDue s e := by
  simp only [irqDue, irqActive, irqPend_nothingStored, engOf_nothingStored]

theorem csrRead_nothingStored (n : Nat) : csrRead (nothingStored s e) e n = csrRead s e n := by
  simp only [csrRead, sstatRead, irqPend_nothingStored, streamBlock_nothingStored, engOf_nothingStored]
  rfl

theorem mWrites_nothingStored (m : MOp) : mWrites (nothingStored s e) e m = mWrites s e m := by
  have hfree : (nothingStored s e).freeCtr = s.freeCtr := by rw [nothingStored_eq]
  cases m
  case none => rfl
  case move op d a b =>
    simp only [mWrites, moveWrites, csrRead_nothingStored, engOf_nothingStored]
    rfl
  all_goals
    simp only [mWrites, hfree, engOf_nothingStored]
    rfl

theorem bundleWrites_nothingStored (b : Bundle) : bundleWrites (nothingStored s e) e b = bundleWrites s e b := by
  simp only [bundleWrites, mWrites_nothingStored, engOf_nothingStored]
  rfl

theorem bundleFault_nothingStored (w : BitVec 64) : bundleFault (nothingStored s e) e w = bundleFault s e w := by
  simp only [bundleFault, valueIllegal, bundleWrites_nothingStored, streamBlock_nothingStored, engOf_nothingStored]
  rfl

end

/-! ## The order at a boundary (08 R363, R365, R372) -/

section
variable {s : State} {e : Nat} {w : BitVec 64}

theorem boundary_debug {c i : Nat} (h : debugDue (engOf s e) = some (c, i)) : boundary s e w = debugEntry s e c i := by
  simp only [boundary, h]

theorem boundary_interrupt (hdebug : debugDue (engOf s e) = none) (hirq : irqDue s e = true) :
    boundary s e w = setEng s e (irqEntry (engOf s e)) := by
  simp only [boundary, hdebug, hirq, if_true]

theorem boundary_issue (hdebug : debugDue (engOf s e) = none) (hirq : irqDue s e = false) : boundary s e w = issueWord s e w := by
  simp only [boundary, hdebug, hirq, Bool.false_eq_true, if_false]

theorem issueWord_fault {c : Nat} (h : bundleFault s e w = some c) : issueWord s e w = engException s e c := by
  simp only [issueWord, h]

theorem issueWord_blocked {b : Bundle} (hfault : bundleFault s e w = none) (hdec : decBundle w = some b) (hblocked : streamBlocked s e b = true) :
    issueWord s e w = linkRefusal (setEng s e { freezeCycle (engOf s e) with frozen := some w }) e b := by
  simp only [issueWord, hfault, hdec, hblocked, if_true]

/-! ## The row of a bundle at a boundary with no cycle left to pass -/

theorem issueRow_idle (h : (engClocked s e && engIssues (engOf s e) && (engOf s e).frozen.isNone) = false) : issueRow e w s = s := by
  simp only [issueRow, h, Bool.false_eq_true, if_false]

/-- The engine comes to the boundary before a bundle, and no cycle of a branch, an entry or a port's rate is left to pass. -/
structure AtBoundary (s : State) (e : Nat) : Prop where
  clocked : engClocked s e = true
  issues : engIssues (engOf s e) = true
  unfrozen : (engOf s e).frozen = none
  wait : (engOf s e).wait = 0
  spIn : (engOf s e).spIn = 0
  spOut : (engOf s e).spOut = 0

/-- Nothing is taken before the bundle `w` (08 R363; 09 R421). -/
def quietBefore (s : State) (e : Nat) (w : BitVec 64) : Bool := (debugDue (engOf s e)).isNone && !irqDue s e && (bundleFault s e w).isNone

/-- A coefficient load in the bundle `w` owes its freeze cycle (08 R339, R340). -/
def owesFreeze (g : Engine) (w : BitVec 64) : Bool := hasCld w && !fromCache g && !g.cldPaid

/-- A debug event, an interrupt or an exception is judged in the cycle that begins at the boundary. -/
theorem issueRow_taken (h : AtBoundary s e) (htaken : quietBefore s e w = false) : issueRow e w s = boundary (nothingStored s e) e w := by
  obtain ⟨hclk, hissues, hfrozen, hwait, -, -⟩ := h
  unfold quietBefore at htaken
  unfold nothingStored
  simp only [issueRow, hclk, hissues, hfrozen, passWait_ready hwait, toEng_self, htaken, Option.isNone_none, Bool.and_self, Bool.not_false, if_true,
    Bool.false_eq_true, if_false, List.range_zero, List.foldl_nil]

theorem issueRow_owing (h : AtBoundary s e) (hquiet : quietBefore s e w = true) (howes : owesFreeze (engOf s e) w = true) :
    issueRow e w s = boundary (toEng s e (freezeCycle (engOf s e))) e w := by
  obtain ⟨hclk, hissues, hfrozen, hwait, hin, hout⟩ := h
  have hrateIn : (freezeCycle (engOf s e)).spIn = 0 := by simp [freezeCycle, hin]
  have hrateOut : (freezeCycle (engOf s e)).spOut = 0 := by simp [freezeCycle, hout]
  unfold quietBefore at hquiet
  unfold owesFreeze at howes
  simp only [issueRow, hclk, hissues, hfrozen, passWait_ready hwait, toEng_self, hquiet, howes, Option.isNone_none, Bool.and_self, Bool.not_true,
    if_true, Bool.false_eq_true, if_false, hrateIn, hrateOut]
  rcases (decBundle w).bind streamOp with _ | _ | _ <;> rfl

theorem issueRow_ready (h : AtBoundary s e) (hquiet : quietBefore s e w = true) (howes : owesFreeze (engOf s e) w = false) :
    issueRow e w s = boundary s e w := by
  obtain ⟨hclk, hissues, hfrozen, hwait, hin, hout⟩ := h
  unfold quietBefore at hquiet
  unfold owesFreeze at howes
  simp only [issueRow, hclk, hissues, hfrozen, passWait_ready hwait, toEng_self, hquiet, howes, Option.isNone_none, Bool.and_self, Bool.not_true,
    if_true, Bool.false_eq_true, if_false, hin, hout]
  rcases (decBundle w).bind streamOp with _ | _ | _ <;> exact congrArg (boundary · e w) (toEng_self s e)

end

end Sys2Proof.Machine

namespace Sys2Proof.Proofs
open Sys2Proof.Machine

/-- Settles O28: ADD's row by whether anything is taken before the bundle; what is taken, by the boundary's order. -/
theorem engineBoundary : Obligations.EngineBoundary := by
  unfold Obligations.EngineBoundary
  refine ⟨?idle, ?atBoundary⟩
  case idle =>
    intro e d a b rest s g hidle
    exact congrArg Host.Outcome.next (issueRow_idle hidle)
  case atBoundary =>
    intro e d a b rest s w g s1 ⟨hclk, hissues, hfrozen⟩ ⟨hwait, hin, hout⟩
    have hat : AtBoundary s e := ⟨hclk, hissues, hfrozen, hwait, hin, hout⟩
    have hs1 : engOf s1 e = { g with stored := [] } := engOf_nothingStored s e
    have hdebug1 : debugDue (engOf s1 e) = debugDue g := by rw [hs1]; rfl
    have hirq1 : irqDue s1 e = irqDue s e := irqDue_nothingStored s e
    have hfault1 : bundleFault s1 e w = bundleFault s e w := bundleFault_nothingStored s e w
    refine ⟨?debug, ?interrupt, ?fault, ?coefficient, ?stream⟩
    case debug =>
      intro c i hdue
      have htaken : quietBefore s e w = false := by simp [quietBefore, show debugDue (engOf s e) = some (c, i) from hdue]
      exact congrArg Host.Outcome.next ((issueRow_taken hat htaken).trans (boundary_debug (hdebug1.trans hdue)))
    case interrupt =>
      intro hnone hirq
      have htaken : quietBefore s e w = false := by simp [quietBefore, hirq]
      have hentry := boundary_interrupt (w := w) (hdebug1.trans hnone) (hirq1.trans hirq)
      rw [hs1] at hentry
      exact congrArg Host.Outcome.next ((issueRow_taken hat htaken).trans hentry)
    case fault =>
      intro c hnone hirq hfault
      have htaken : quietBefore s e w = false := by simp [quietBefore, hfault]
      have hissue := boundary_issue (w := w) (hdebug1.trans hnone) (hirq1.trans hirq)
      exact congrArg Host.Outcome.next ((issueRow_taken hat htaken).trans (hissue.trans (issueWord_fault (hfault1.trans hfault))))
    case coefficient =>
      intro hnone hirq hfault hcld hcache hpaid
      have hquiet : quietBefore s e w = true := by simp [quietBefore, show debugDue (engOf s e) = none from hnone, hirq, hfault]
      have howes : owesFreeze g w = true := by simp [owesFreeze, hcld, hcache, hpaid]
      exact congrArg Host.Outcome.next (issueRow_owing hat hquiet howes)
    case stream =>
      intro bb hnone hirq hfault hcld hdec hblocked
      have hquiet : quietBefore s e w = true := by simp [quietBefore, show debugDue (engOf s e) = none from hnone, hirq, hfault]
      have howes : owesFreeze g w = false := by simp [owesFreeze, hcld]
      exact congrArg Host.Outcome.next ((issueRow_ready hat hquiet howes).trans ((boundary_issue hnone hirq).trans (issueWord_blocked hfault hdec hblocked)))

end Sys2Proof.Proofs
end

section
/-! PROOF. Control bundles: which operation each control word carries, and what it makes of PC, the loops, the state and the memories of its engine
(08 R340, R341, R350, R351, R361, R368, R376; 09 R409 to R415). -/
namespace Sys2Proof.Machine

/-! ## Fields and bits -/

theorem getLsbD_ofNat_eq {n i : Nat} (w : Nat) (hi : i < w) : (BitVec.ofNat w n).getLsbD i = decide (n / 2 ^ i % 2 = 1) := by
  rw [BitVec.getLsbD_ofNat, decide_eq_true hi, Bool.true_and, Nat.testBit_eq_decide_div_mod_eq]

theorem whenOk_eq_some {α : Type} {c : Bool} {x y : α} : whenOk c x = some y ↔ c = true ∧ x = y := by
  cases c <;> simp [whenOk]

theorem fld_putFld_self (c : BitVec 32) (v : Nat) : fld (putFld c 20 2 v) 20 2 = v % 4 := by
  have hc := c.isLt
  simp only [putFld, fld, BitVec.toNat_ofNat]
  omega

theorem fld_putFld_above {lo n : Nat} (hlo : lo = 26 ∧ n = 2 ∨ lo = 22 ∧ n = 4) (c : BitVec 32) (v : Nat) : fld (putFld c lo n v) 20 2 = fld c 20 2 := by
  have hc := c.isLt
  obtain ⟨rfl, rfl⟩ | ⟨rfl, rfl⟩ := hlo <;>
    · simp only [putFld, fld, BitVec.toNat_ofNat]
      omega

theorem getLsbD_setBit_true {w : Nat} (x : BitVec w) (i : Nat) {j : Nat} (h : x.getLsbD j = true) : (setBit x i true).getLsbD j = true := by
  simp [setBit, h]

theorem getLsbD_setBit_self {w : Nat} (x : BitVec w) {i : Nat} (hi : i < w) : (setBit x i true).getLsbD i = true := by
  have hbit : (BitVec.ofNat w (2 ^ i)).getLsbD i = true := by rw [BitVec.getLsbD_ofNat, Nat.testBit_two_pow_self, decide_eq_true hi, Bool.and_self]
  simp only [setBit, if_true, BitVec.getLsbD_or, hbit, Bool.or_true]

/-! ## The control words (09 R391, R409 to R415) -/

/-- The rows of a control word: where the bundle issues, it carries the operation that its word decodes to. -/
theorem issueRow_ctl {s : State} {e : Nat} {w : BitVec 64} {c : CtlOp} (hdec : ∀ b, decBundle w = some b → b = .ctl c) (h : Issues s e w) :
    decBundle w = some (.ctl c) ∧ issueRow e w s = applyBundle s e (.ctl c) := by
  obtain ⟨b, hb, hrow⟩ := issueRow_issues h
  obtain rfl := hdec b hb
  exact ⟨hb, hrow⟩

section
variable {w : BitVec 64} {b : Bundle}

theorem decBundle_loop (hcls : fld w 60 4 = 6) (h : decBundle w = some b) :
    b = .ctl (.loop (fld w 58 2) (w.getLsbD 57) (fld w 53 4) (fld w 32 16) (fld w 16 16)) := by
  simp only [decBundle, hcls, Nat.lt_irrefl, if_false, if_true] at h
  exact (whenOk_eq_some.1 h).2.symm

theorem decBundle_branch (hcls : fld w 60 4 = 7) (h : decBundle w = some b) :
    b = .ctl (.branch (fld w 56 4) (fld w 52 4) (fld w 48 4) (fld w 44 4) (fld w 16 16)) := by
  rw [decBundle, hcls] at h
  exact (whenOk_eq_some.1 h).2.symm

theorem decBundle_simm (hcls : fld w 60 4 = 8) (h : decBundle w = some b) : b = .ctl (.simm (fld w 57 3) (fld w 53 4) (fld w 0 32)) := by
  rw [decBundle, hcls] at h
  exact (whenOk_eq_some.1 h).2.symm

theorem decBundle_vimm (hcls : fld w 60 4 = 9) (h : decBundle w = some b) : b = .ctl (.vimm (fld w 55 5) (fld w 53 2) (fld w 0 32)) := by
  rw [decBundle, hcls] at h
  exact (whenOk_eq_some.1 h).2.symm

theorem decBundle_sirq (hcls : fld w 60 4 = 10) (hop : fld w 52 8 = 6) (h : decBundle w = some b) : b = .ctl (.sys (.sirq (fld w 48 4))) := by
  rw [decBundle, hcls] at h
  have hsys : decSys w = some b := h
  rw [decSys, hop] at hsys
  exact (whenOk_eq_some.1 hsys).2.symm

theorem decBundle_abs (hcls : fld w 60 4 = 11) (h : decBundle w = some b) :
    b = .ctl (.abs (w.getLsbD 59) (fld w 56 3) (fld w 51 5) (fld w 16 16)) := by
  rw [decBundle, hcls] at h
  exact (whenOk_eq_some.1 h).2.symm

end

section
variable {n : Nat} {b : Bundle}

theorem decBundle_loopWord {rot a count last : Nat} {cs : Bool} (hrot : rot < 4) (ha : a < 16) (hcount : count < 65536) (hlast : last < 65536)
    (hn : n = 6 * 2 ^ 60 + rot * 2 ^ 58 + cs.toNat * 2 ^ 57 + a * 2 ^ 53 + count * 2 ^ 32 + last * 2 ^ 16)
    (h : decBundle (BitVec.ofNat 64 n) = some b) : b = .ctl (.loop rot cs a count last) := by
  have hcs := cs.toNat_lt
  have hword : n < 2 ^ 64 := by omega
  have hbit : (BitVec.ofNat 64 n).getLsbD 57 = cs := by
    rw [getLsbD_ofNat_eq 64 (by decide), show n / 2 ^ 57 % 2 = cs.toNat by omega]
    cases cs <;> rfl
  refine (decBundle_loop (by rw [fld_ofNat _ _ _ _ hword]; omega) h).trans ?_
  simp only [fld_ofNat _ _ _ _ hword, hbit, Bundle.ctl.injEq, CtlOp.loop.injEq, true_and]
  omega

/-- The word of a branch: condition, the two scalars compared, the link register, the target. -/
def branchWord (c a b l t : Nat) : Nat := 7 * 2 ^ 60 + c * 2 ^ 56 + a * 2 ^ 52 + b * 2 ^ 48 + l * 2 ^ 44 + t * 2 ^ 16

theorem decBundle_branchWord {c x y l t : Nat} (hc : c < 16) (hx : x < 16) (hy : y < 16) (hl : l < 16) (ht : t < 65536)
    (hn : n = branchWord c x y l t) (h : decBundle (BitVec.ofNat 64 n) = some b) : b = .ctl (.branch c x y l t) := by
  unfold branchWord at hn
  have hword : n < 2 ^ 64 := by omega
  refine (decBundle_branch (by rw [fld_ofNat _ _ _ _ hword]; omega) h).trans ?_
  simp only [fld_ofNat _ _ _ _ hword, Bundle.ctl.injEq, CtlOp.branch.injEq]
  omega

theorem decBundle_simmWord {k i imm : Nat} (hk : k < 8) (hi : i < 16) (himm : imm < 2 ^ 32)
    (hn : n = 8 * 2 ^ 60 + k * 2 ^ 57 + i * 2 ^ 53 + imm) (h : decBundle (BitVec.ofNat 64 n) = some b) : b = .ctl (.simm k i imm) := by
  have hword : n < 2 ^ 64 := by omega
  refine (decBundle_simm (by rw [fld_ofNat _ _ _ _ hword]; omega) h).trans ?_
  simp only [fld_ofNat _ _ _ _ hword, Bundle.ctl.injEq, CtlOp.simm.injEq]
  omega

theorem decBundle_vimmWord {v wc imm : Nat} (hv : v < 32) (hwc : wc < 4) (himm : imm < 2 ^ 32)
    (hn : n = 9 * 2 ^ 60 + v * 2 ^ 55 + wc * 2 ^ 53 + imm) (h : decBundle (BitVec.ofNat 64 n) = some b) : b = .ctl (.vimm v wc imm) := by
  have hword : n < 2 ^ 64 := by omega
  refine (decBundle_vimm (by rw [fld_ofNat _ _ _ _ hword]; omega) h).trans ?_
  simp only [fld_ofNat _ _ _ _ hword, Bundle.ctl.injEq, CtlOp.vimm.injEq]
  omega

theorem decBundle_sirqWord {k : Nat} (hk : k < 16) (hn : n = 10 * 2 ^ 60 + 6 * 2 ^ 52 + k * 2 ^ 48)
    (h : decBundle (BitVec.ofNat 64 n) = some b) : b = .ctl (.sys (.sirq k)) := by
  have hword : n < 2 ^ 64 := by omega
  refine (decBundle_sirq (by rw [fld_ofNat _ _ _ _ hword]; omega) (by rw [fld_ofNat _ _ _ _ hword]; omega) h).trans ?_
  simp only [fld_ofNat _ _ _ _ hword, Bundle.ctl.injEq, CtlOp.sys.injEq, SysOp.sirq.injEq]
  omega

theorem decBundle_absWord {y : Bool} {sub r addr : Nat} (hsub : sub < 8) (hr : r < 32) (haddr : addr < 65536)
    (hn : n = 11 * 2 ^ 60 + y.toNat * 2 ^ 59 + sub * 2 ^ 56 + r * 2 ^ 51 + addr * 2 ^ 16)
    (h : decBundle (BitVec.ofNat 64 n) = some b) : b = .ctl (.abs y sub r addr) := by
  have hy := y.toNat_lt
  have hword : n < 2 ^ 64 := by omega
  have hbit : (BitVec.ofNat 64 n).getLsbD 59 = y := by
    rw [getLsbD_ofNat_eq 64 (by decide), show n / 2 ^ 59 % 2 = y.toNat by omega]
    cases y <;> rfl
  refine (decBundle_abs (by rw [fld_ofNat _ _ _ _ hword]; omega) h).trans ?_
  simp only [fld_ofNat _ _ _ _ hword, hbit, Bundle.ctl.injEq, CtlOp.abs.injEq, true_and]
  omega

end

/-! ## PC after a bundle that does not branch (08 R351) -/

/-- The address that follows a bundle at `pc`: the start of the innermost loop where the bundle ends its body and iterations remain. -/
def nextPc (b : EngBank) (pc : BitVec 16) : BitVec 16 :=
  match loopTop b with
  | none => pc + 8#16
  | some l => if vecGet b.lend l = pc ∧ 1 < (vecGet b.lcnt l).toNat then vecGet b.lstart l else pc + 8#16

theorem beginCapture_pc (g : Engine) (b : EngBank) (l : Nat) : (beginCapture g b l).pc = g.pc := by
  unfold beginCapture
  split
  · rfl
  · split <;> rfl

theorem nextIteration_pc (g : Engine) (b : EngBank) (l : Nat) : (nextIteration g b l).pc = g.pc := by
  unfold nextIteration
  split
  · exact beginCapture_pc g b l
  · rfl

theorem advancePc_pc (g : Engine) : (advancePc g).pc = nextPc (actBank g) g.pc := by
  cases hloop : loopTop (actBank g) with
  | none => simp only [advancePc, nextPc, hloop]
  | some l =>
    simp only [advancePc, nextPc, hloop]
    by_cases hend : vecGet (actBank g).lend l = g.pc
    · by_cases hcount : 1 < (vecGet (actBank g).lcnt l).toNat
      · simp only [hend, hcount, and_self, if_true, nextIteration_pc]
      · simp only [hend, hcount, and_false, if_true, if_false]
    · simp only [hend, false_and, if_false]

/-! ## What stands after a control bundle -/

section
variable {s : State} {e : Nat} {c : CtlOp}

/-- What neither the landing of results nor the count of the cycle touches is as the control operation leaves it. -/
theorem applied_ctl {α : Type} (f : Engine → α) (hland : ∀ g h, f (withResults g h) = f g) (hclose : ∀ event g, f (closeIssue event g) = f g) :
    f (engOf (applyBundle s e (.ctl c)) e) = f (ctlStep s e (issueEntered s e (.ctl c)) c) := by
  rw [engOf_applyBundle, issueClosed_keeps f hclose, cycleEnd_keeps f hland]
  rfl

theorem applied_ctl_pc : (engOf (applyBundle s e (.ctl c)) e).pc = (ctlStep s e (issueEntered s e (.ctl c)) c).pc :=
  applied_ctl Engine.pc (fun _ _ => rfl) (fun _ _ => rfl)
theorem applied_ctl_wait : (engOf (applyBundle s e (.ctl c)) e).wait = (ctlStep s e (issueEntered s e (.ctl c)) c).wait :=
  applied_ctl Engine.wait (fun _ _ => rfl) (fun _ _ => rfl)
theorem applied_ctl_state : (engOf (applyBundle s e (.ctl c)) e).state = (ctlStep s e (issueEntered s e (.ctl c)) c).state :=
  applied_ctl Engine.state (fun _ _ => rfl) (fun _ _ => rfl)
theorem applied_ctl_shadow : (engOf (applyBundle s e (.ctl c)) e).shadow = (ctlStep s e (issueEntered s e (.ctl c)) c).shadow :=
  applied_ctl Engine.shadow (fun _ _ => rfl) (fun _ _ => rfl)

/-! What a control operation meets is what the engine held before the bundle, the stores and the results of the bundle apart. -/

@[simp] theorem entered_ctl_pc : (issueEntered s e (.ctl c)).pc = (engOf s e).pc := issueEntered_keeps Engine.pc (fun _ _ => rfl) rfl
@[simp] theorem entered_ctl_ipc : (issueEntered s e (.ctl c)).ipc = (engOf s e).ipc := issueEntered_keeps Engine.ipc (fun _ _ => rfl) rfl
@[simp] theorem entered_ctl_state : (issueEntered s e (.ctl c)).state = (engOf s e).state := issueEntered_keeps Engine.state (fun _ _ => rfl) rfl
@[simp] theorem entered_ctl_bank : actBank (issueEntered s e (.ctl c)) = actBank (engOf s e) := issueEntered_keeps actBank (fun _ _ => rfl) rfl
@[simp] theorem entered_ctl_scalar (n : Nat) : rdS (issueEntered s e (.ctl c)) n = rdS (engOf s e) n := by rw [rdS, entered_ctl_bank, rdS]
@[simp] theorem entered_ctl_next : (advancePc (issueEntered s e (.ctl c))).pc = (advancePc (engOf s e)).pc := by
  rw [advancePc_pc, advancePc_pc, entered_ctl_bank, entered_ctl_pc]

/-! ## Branches (08 R341; 09 R411) -/

theorem takeBranch_pc (g : Engine) (t : Nat) : (takeBranch g t).pc = BitVec.ofNat 16 t := rfl
theorem takeBranch_wait (g : Engine) (t : Nat) : (takeBranch g t).wait = 2 := rfl

section
variable {k x y l t : Nat}

theorem applied_branch_taken (h : branchTaken k (rdS (engOf s e) x) (rdS (engOf s e) y) = true) :
    (engOf (applyBundle s e (.ctl (.branch k x y l t))) e).pc = BitVec.ofNat 16 (branchTarget (engOf s e) k x t) ∧
      (engOf (applyBundle s e (.ctl (.branch k x y l t))) e).wait = 2 := by
  have htaken : branchTaken k (rdS (issueEntered s e (.ctl (.branch k x y l t))) x) (rdS (issueEntered s e (.ctl (.branch k x y l t))) y) = true := by
    rw [entered_ctl_scalar, entered_ctl_scalar, h]
  rw [applied_ctl_pc, applied_ctl_wait, ctlStep, if_pos htaken, takeBranch_pc, takeBranch_wait, branchTarget, entered_ctl_scalar]
  exact ⟨rfl, rfl⟩

theorem applied_branch_not_taken (h : branchTaken k (rdS (engOf s e) x) (rdS (engOf s e) y) = false) :
    (engOf (applyBundle s e (.ctl (.branch k x y l t))) e).pc = (advancePc (engOf s e)).pc := by
  have hnot : ¬ branchTaken k (rdS (issueEntered s e (.ctl (.branch k x y l t))) x) (rdS (issueEntered s e (.ctl (.branch k x y l t))) y) = true := by
    rw [entered_ctl_scalar, entered_ctl_scalar, h]
    exact Bool.false_ne_true
  rw [applied_ctl_pc, ctlStep, if_neg hnot, entered_ctl_next]

end

/-! ## Loops (08 R350; 09 R409) -/

theorem loopFault_of_issues {w : BitVec 64} {b : Bundle} (hdec : decBundle w = some b) (h : bundleFault s e w = none) :
    loopFault (engOf s e) b = false := by
  simp only [bundleFault, hdec] at h
  by_contra hloop
  rw [Bool.not_eq_false] at hloop
  simp only [hloop, if_true] at h
  split at h
  · cases h
  · split at h <;> cases h

/-- The bank whose loops have one level more: the body after `pc`, up to `last`, `count` times (08 R350). -/
def pushedLoop (b : EngBank) (pc : BitVec 16) (rot count last : Nat) : EngBank :=
  { b with
    lcnt := vecSet b.lcnt (csDepth b.cstat) (BitVec.ofNat 16 count), lstart := vecSet b.lstart (csDepth b.cstat) (pc + 8#16)
    lend := vecSet b.lend (csDepth b.cstat) (BitVec.ofNat 16 last), rot := setBit b.rot (csDepth b.cstat) (rot != 0)
    cstat := if rot = 0 then putFld b.cstat 20 2 (csDepth b.cstat + 1)
      else putFld (putFld (putFld b.cstat 20 2 (csDepth b.cstat + 1)) 26 2 rot) 22 4 0 }

section
variable (g : Engine) {rot count last : Nat}

theorem doLoop_skipped (hcount : count = 0) : doLoop g rot count last = { g with pc := BitVec.ofNat 16 (last + 8) } := if_pos hcount

theorem doLoop_entered (hcount : count ≠ 0) :
    doLoop g rot count last = beginCapture { setBank g g.shadow (pushedLoop (actBank g) g.pc rot count last) with pc := g.pc + 8#16 }
      (pushedLoop (actBank g) g.pc rot count last) (csDepth (actBank g).cstat) := if_neg hcount

theorem actBank_beginCapture (b : EngBank) (l : Nat) : actBank (beginCapture g b l) = actBank g := by
  unfold beginCapture
  split
  · rfl
  · split <;> rfl

theorem actBank_doLoop (hcount : count ≠ 0) : actBank (doLoop g rot count last) = pushedLoop (actBank g) g.pc rot count last := by
  have hbank : ∀ b, actBank { setBank g g.shadow b with pc := g.pc + 8#16 } = b := by
    intro b
    cases hsh : g.shadow <;> simp [actBank, bankOf, setBank, hsh]
  rw [doLoop_entered g hcount, actBank_beginCapture, hbank]

end

theorem csDepth_pushedLoop {b : EngBank} (pc : BitVec 16) (rot count last : Nat) (hdepth : csDepth b.cstat < 2) :
    csDepth (pushedLoop b pc rot count last).cstat = csDepth b.cstat + 1 := by
  have hfits : (csDepth b.cstat + 1) % 4 = csDepth b.cstat + 1 := by omega
  unfold pushedLoop
  dsimp only
  split
  · exact (fld_putFld_self _ _).trans hfits
  · rw [csDepth, fld_putFld_above (.inr ⟨rfl, rfl⟩), fld_putFld_above (.inl ⟨rfl, rfl⟩)]
    exact (fld_putFld_self _ _).trans hfits

/-! ## Control bundles without a result in flight -/

theorem cycleEnd_of_empty {g : Engine} (h : g.flight = []) : cycleEnd g = { g with flight := [] } := by
  rw [cycleEnd_eq, landed, h]
  rfl

section
variable (hempty : (engOf s e).flight = []) (hresults : bundleWrites s e (.ctl c) = [])
include hempty hresults

theorem entered_ctl_flight : (issueEntered s e (.ctl c)).flight = [] := by
  rw [issueEntered_flight rfl, hempty, hresults]
  rfl

end

theorem applied_loop_bank {rot count last a x : Nat} {cs : Bool} (hempty : (engOf s e).flight = [])
    (hcount : (if cs = true then (rdS (engOf s e) a).toNat % 65536 else x) = count) (hpos : count ≠ 0) :
    actBank (engOf (applyBundle s e (.ctl (.loop rot cs a x last))) e) = pushedLoop (actBank (engOf s e)) (engOf s e).pc rot count last := by
  have hstep : issueSteered s e (.ctl (.loop rot cs a x last)) = doLoop (issueEntered s e (.ctl (.loop rot cs a x last))) rot count last := by
    rw [← hcount]
    simp only [issueSteered, ctlStep, entered_ctl_scalar]
  have hflight : (issueSteered s e (.ctl (.loop rot cs a x last))).flight = [] := by
    rw [hstep, doLoop_frame]
    exact entered_ctl_flight hempty rfl
  have hbank : ∀ (g : Engine) (l : List WriteBack), actBank { g with flight := l } = actBank g := fun _ _ => rfl
  rw [engOf_applyBundle, issueClosed_keeps actBank (fun _ _ => rfl), cycleEnd_of_empty hflight, hbank, hstep, actBank_doLoop _ hpos,
    entered_ctl_bank, entered_ctl_pc]

theorem applied_loop_pc {rot count last a x : Nat} {cs : Bool} (hcount : (if cs = true then (rdS (engOf s e) a).toNat % 65536 else x) = count) :
    (engOf (applyBundle s e (.ctl (.loop rot cs a x last))) e).pc = if count = 0 then BitVec.ofNat 16 (last + 8) else (engOf s e).pc + 8#16 := by
  rw [applied_ctl_pc, ctlStep, entered_ctl_scalar, hcount]
  split
  next hzero => rw [doLoop_skipped _ hzero]
  next hpos => rw [doLoop_entered _ hpos, beginCapture_pc, entered_ctl_pc]

/-! ## System operations (08 R361, R368, R376; 09 R414) -/

theorem applied_wait_row : (engOf (applyBundle s e (.ctl (.sys .wait))) e).state =
      (if (engOf s e).state = .monitor ∨ irqActive s e = true then (engOf s e).state else .waiting) ∧
    (engOf (applyBundle s e (.ctl (.sys .wait))) e).pc = (advancePc (engOf s e)).pc := by
  have hkept : (advancePc (issueEntered s e (.ctl (.sys .wait)))).state = (engOf s e).state :=
    (advancePc_keeps Engine.state (fun _ _ => rfl) _).trans entered_ctl_state
  rw [applied_ctl_state, applied_ctl_pc, ctlStep, doWait, entered_ctl_state]
  by_cases hstays : (engOf s e).state = .monitor ∨ irqActive s e = true
  · have hguard : ((engOf s e).state == .monitor || irqActive s e) = true := by simpa using hstays
    rw [if_pos hguard, if_pos hstays]
    exact ⟨hkept, entered_ctl_next⟩
  · have hguard : ¬((engOf s e).state == .monitor || irqActive s e) = true := by simpa using hstays
    rw [if_neg hguard, if_neg hstays]
    have hrest : ∀ (k : Engine) (st : EngState), { k with state := st }.pc = k.pc := fun _ _ => rfl
    exact ⟨rfl, (hrest _ _).trans ((drain_keeps Engine.pc (fun _ _ => rfl) _).trans entered_ctl_next)⟩

theorem applied_reti : (engOf (applyBundle s e (.ctl (.sys .reti))) e).shadow = false ∧
    (engOf (applyBundle s e (.ctl (.sys .reti))) e).pc = (engOf s e).ipc ∧ (engOf (applyBundle s e (.ctl (.sys .reti))) e).wait = 2 := by
  rw [applied_ctl_shadow, applied_ctl_pc, applied_ctl_wait]
  exact ⟨rfl, entered_ctl_ipc, rfl⟩

theorem applied_stop : (engOf (applyBundle s e (.ctl (.sys .stop))) e).state = .halted ∧
    (engOf (applyBundle s e (.ctl (.sys .stop))) e).pc = (engOf s e).pc + 8#16 := by
  have hrest : ∀ (k : Engine) (st : EngState) (n : Nat), { k with state := st, wait := n }.pc = k.pc := fun _ _ _ => rfl
  rw [applied_ctl_state, applied_ctl_pc, ctlStep, hrest, drain_keeps Engine.pc (fun _ _ => rfl), entered_ctl_pc]
  exact ⟨rfl, rfl⟩

theorem readSave_congr {g h : Engine} (hwords : ∀ i, dataWord g false i = dataWord h false i) : readSave g = readSave h := by
  simp only [readSave, hwords]

theorem readSave_entered_dret : readSave (drain (issueEntered s e (.ctl (.sys .dret)))) = readSave (engOf s e) :=
  readSave_congr fun i => (drain_keeps (dataWord · false i) (fun _ _ => rfl) _).trans (dataWord_issueEntered rfl rfl)

theorem applied_dret : (engOf (applyBundle s e (.ctl (.sys .dret))) e).state = .running ∧
    (engOf (applyBundle s e (.ctl (.sys .dret))) e).pc = BitVec.ofNat 16 (readSave (engOf s e) / 2 ^ 992 % 65536 / 8 * 8) ∧
    (engOf (applyBundle s e (.ctl (.sys .dret))) e).wait = 5 ∧
    (engOf (applyBundle s e (.ctl (.sys .dret))) e).shadow = (readSave (engOf s e) / 2 ^ 1016 % 2 == 1) := by
  rw [applied_ctl_state, applied_ctl_pc, applied_ctl_wait, applied_ctl_shadow, ← readSave_entered_dret]
  exact ⟨rfl, rfl, rfl, rfl⟩

theorem applied_bkpt (h : (engOf s e).state ≠ .monitor) :
    (engOf (applyBundle s e (.ctl (.sys .bkpt))) e).dbgEvt = some (if (engOf s e).stepArm then 4 else 6, 0) := by
  have hstate : ((engOf s e).state == .monitor) = false := beq_eq_false_iff_ne.2 h
  have hevent : afterIssue (engOf s e) (.ctl (.sys .bkpt)) = some (if (engOf s e).stepArm then 4 else 6, 0) := by
    cases harm : (engOf s e).stepArm <;> simp [afterIssue, hstate, harm]
  rw [engOf_applyBundle, issueClosed, hevent]
  rfl

theorem applied_sirq {n : Nat} (hn : n < 16) (hempty : (engOf s e).flight = []) :
    (engOf (applyBundle s e (.ctl (.sys (.sirq n)))) e).pend.getLsbD n = true := by
  have hflight : (issueSteered s e (.ctl (.sys (.sirq n)))).flight = [] :=
    (advancePc_keeps Engine.flight (fun _ _ => rfl) _).trans (entered_ctl_flight hempty rfl)
  have hpend : (issueSteered s e (.ctl (.sys (.sirq n)))).pend.getLsbD n = true := by
    have hkept : (issueSteered s e (.ctl (.sys (.sirq n)))).pend = setBit (issueEntered s e (.ctl (.sys (.sirq n)))).pend n true :=
      advancePc_keeps Engine.pend (fun _ _ => rfl) _
    rw [hkept]
    exact getLsbD_setBit_self _ hn
  rw [engOf_applyBundle, issueClosed, cycleEnd_of_empty hflight]
  simp only [closeIssue, countCycle]
  split
  · exact getLsbD_setBit_true _ _ hpend
  · exact hpend

/-- The other control operations go on to the next bundle. -/
theorem applied_next {g : Engine} (hstep : ctlStep s e (issueEntered s e (.ctl c)) c = advancePc g) (hbank : actBank g = actBank (engOf s e))
    (hpc : g.pc = (engOf s e).pc) : (engOf (applyBundle s e (.ctl c)) e).pc = (advancePc (engOf s e)).pc := by
  rw [applied_ctl_pc, hstep, advancePc_pc, advancePc_pc, hbank, hpc]

/-! ## Absolute accesses (09 R415) -/

section
variable {y : Bool} {sub r addr : Nat}

/-- What an absolute access leaves in a word of a data memory. -/
theorem dataWord_applied_abs (z : Bool) (i : Nat) : dataWord (engOf (applyBundle s e (.ctl (.abs y sub r addr))) e) z i =
    dataWord (absStore { engOf s e with stored := [] } (engOf s e) y sub r addr) z i := by
  have hheld := congrArg (dataWord · z i) (heldPart_issueClosed s e (.ctl (.abs y sub r addr)))
  rw [engOf_applyBundle]
  exact hheld

theorem dataWord_applied_absSst : dataWord (engOf (applyBundle s e (.ctl (.abs y 1 r addr))) e) y (addr / 32) =
    putWord32 (dataWord (engOf s e) y (addr / 32)) (addr / 4 % 8) (rdS (engOf s e) r) := by
  rw [dataWord_applied_abs, absStore, dataWord_engStore, if_pos ⟨rfl, rfl⟩]

theorem dataWord_applied_absVst : dataWord (engOf (applyBundle s e (.ctl (.abs y 3 r addr))) e) y (addr / 32) = rdV (engOf s e) r := by
  rw [dataWord_applied_abs, absStore, dataWord_engStore, if_pos ⟨rfl, rfl⟩]

end

end

/-! ## The rows -/

section
variable {s : State} {e n : Nat} {c : CtlOp}

/-- A row of a control word: where its bundle issues, the row performs the operation the word carries. -/
theorem exec_ctlWord {i : Instr} (hexec : exec i s = .next (issueRow e (BitVec.ofNat 64 n) s))
    (hdec : ∀ b, decBundle (BitVec.ofNat 64 n) = some b → b = .ctl c) (h : Issues s e (BitVec.ofNat 64 n)) {P : Bundle → Prop} (hP : P (.ctl c)) :
    ∃ b, decBundle (BitVec.ofNat 64 n) = some b ∧ exec i s = .next (applyBundle s e b) ∧ P b := by
  obtain ⟨hb, hrow⟩ := issueRow_ctl hdec h
  exact ⟨_, hb, hexec.trans (congrArg Host.Outcome.next hrow), hP⟩

theorem eq_of_decBundle {w : BitVec 64} {b b' : Bundle} (hword : decBundle w = some b') (h : decBundle w = some b) : b = b' :=
  Option.some.inj (h.symm.trans hword)

/-- What a LOOP with iterations pushes, seen field by field (08 R350). -/
theorem applied_loop_level {rot count last a x : Nat} {cs : Bool} (hempty : (engOf s e).flight = [])
    (hcount : (if cs = true then (rdS (engOf s e) a).toNat % 65536 else x) = count) (hpos : count ≠ 0)
    (hdepth : csDepth (actBank (engOf s e)).cstat < 2) {k : EngBank} (hk : k = actBank (engOf (applyBundle s e (.ctl (.loop rot cs a x last))) e)) :
    csDepth k.cstat = csDepth (actBank (engOf s e)).cstat + 1 ∧ vecGet k.lcnt (csDepth (actBank (engOf s e)).cstat) = BitVec.ofNat 16 count ∧
      vecGet k.lstart (csDepth (actBank (engOf s e)).cstat) = (engOf s e).pc + 8#16 ∧
      vecGet k.lend (csDepth (actBank (engOf s e)).cstat) = BitVec.ofNat 16 last := by
  rw [hk, applied_loop_bank hempty hcount hpos]
  exact ⟨csDepth_pushedLoop _ _ _ _ hdepth, vecGet_vecSet_self _ _ _, vecGet_vecSet_self _ _ _, vecGet_vecSet_self _ _ _⟩

theorem applied_fixedBranch {k x y l : Nat} (hfixed : k ≠ 10) (htaken : branchTaken k (rdS (engOf s e) x) (rdS (engOf s e) y) = true)
    (target : BitVec 16) : (engOf (applyBundle s e (.ctl (.branch k x y l target.toNat))) e).pc = target ∧
      (engOf (applyBundle s e (.ctl (.branch k x y l target.toNat))) e).wait = 2 := by
  have heffect := applied_branch_taken (l := l) (t := target.toNat) htaken
  rwa [branchTarget, if_neg hfixed, BitVec.ofNat_toNat, BitVec.setWidth_eq] at heffect

/-- A branch to a fixed target that the condition `P` takes. -/
theorem exec_condBranch {i : Instr} {k x y : Nat} {target : BitVec 16} {P : Prop} (hexec : exec i s = .next (issueRow e (BitVec.ofNat 64 n) s))
    (hk : k < 10) (hx : x < 16) (hy : y < 16) (hn : n = branchWord k x y 0 target.toNat)
    (htaken : branchTaken k (rdS (engOf s e) x) (rdS (engOf s e) y) = true ↔ P) (h : Issues s e (BitVec.ofNat 64 n)) :
    ∃ b, decBundle (BitVec.ofNat 64 n) = some b ∧ exec i s = .next (applyBundle s e b) ∧
      (P → (engOf (applyBundle s e b) e).pc = target ∧ (engOf (applyBundle s e b) e).wait = 2) ∧
      (¬P → (engOf (applyBundle s e b) e).pc = (advancePc (engOf s e)).pc) :=
  exec_ctlWord hexec (fun _ => decBundle_branchWord (by omega) hx hy (by decide) target.isLt hn) h
    ⟨fun hP => applied_fixedBranch (by omega) (htaken.2 hP) target, fun hP => applied_branch_not_taken (Bool.eq_false_iff.2 (mt htaken.1 hP))⟩

theorem applied_jr {x y l t : Nat} : (engOf (applyBundle s e (.ctl (.branch 10 x y l t))) e).pc = (rdS (engOf s e) x).setWidth 16 ∧
    (engOf (applyBundle s e (.ctl (.branch 10 x y l t))) e).wait = 2 := by
  have heffect := applied_branch_taken (s := s) (e := e) (k := 10) (x := x) (y := y) (l := l) (t := t) rfl
  have htarget : BitVec.ofNat 16 (branchTarget (engOf s e) 10 x t) = (rdS (engOf s e) x).setWidth 16 := by
    apply BitVec.eq_of_toNat_eq
    simp only [branchTarget, if_true, BitVec.toNat_ofNat, BitVec.toNat_setWidth]
    omega
  rwa [htarget] at heffect

/-- A control operation that steers nothing goes on to the next bundle. -/
theorem applied_plain (hstep : ctlStep s e (issueEntered s e (.ctl c)) c = advancePc (issueEntered s e (.ctl c))) :
    (engOf (applyBundle s e (.ctl c)) e).pc = (advancePc (engOf s e)).pc :=
  applied_next hstep entered_ctl_bank entered_ctl_pc

end

end Sys2Proof.Machine

namespace Sys2Proof.Proofs
open Sys2Proof.Machine

/-- Settles O26, row by row: each control word decodes to its operation, whose effect on PC, loops, state and registers stands above. -/
theorem controlResults : Obligations.ControlResults := by
  unfold Obligations.ControlResults
  refine ⟨?loop, ?b, ?beq, ?bne, ?blt, ?bge, ?bltu, ?bgeu, ?beqz, ?bnez, ?call, ?jr, ?simmS, ?simmM, ?simmCp, ?simmP, ?vimm, ?wait, ?reti, ?dret,
    ?bkpt, ?bxclr, ?sirq, ?stop, ?absSld, ?absSst, ?absVld, ?absVst⟩
  case beq =>
    intro e a b t s w g h
    exact exec_condBranch (k := 1) rfl (by decide) a.isLt b.isLt (by unfold branchWord; omega) beq_iff_eq h
  case bne =>
    intro e a b t s w g h
    exact exec_condBranch (k := 2) rfl (by decide) a.isLt b.isLt (by unfold branchWord; omega) bne_iff_ne h
  case blt =>
    intro e a b t s w g h
    exact exec_condBranch (k := 3) rfl (by decide) a.isLt b.isLt (by unfold branchWord; omega) decide_eq_true_iff h
  case bge =>
    intro e a b t s w g h
    exact exec_condBranch (k := 4) rfl (by decide) a.isLt b.isLt (by unfold branchWord; omega) decide_eq_true_iff h
  case bltu =>
    intro e a b t s w g h
    exact exec_condBranch (k := 5) rfl (by decide) a.isLt b.isLt (by unfold branchWord; omega) decide_eq_true_iff h
  case bgeu =>
    intro e a b t s w g h
    exact exec_condBranch (k := 6) rfl (by decide) a.isLt b.isLt (by unfold branchWord; omega) decide_eq_true_iff h
  case beqz =>
    intro e a t s w g h
    exact exec_condBranch (k := 7) (y := 0) rfl (by decide) a.isLt (by decide) (by unfold branchWord; omega) beq_iff_eq h
  case bnez =>
    intro e a t s w g h
    exact exec_condBranch (k := 8) (y := 0) rfl (by decide) a.isLt (by decide) (by unfold branchWord; omega) bne_iff_ne h
  case loop =>
    intro e rot cs a count last s w g c n k h
    have hdec : ∀ b, decBundle w = some b → b = .ctl (.loop rot.toNat cs a.toNat count.toNat last.toNat) :=
      fun _ => decBundle_loopWord rot.isLt a.isLt count.isLt last.isLt rfl
    obtain ⟨hb, hrow⟩ := issueRow_ctl hdec h
    obtain ⟨-, -, -, -, -, -, hfault, -⟩ := h
    have hdepth : csDepth c < 2 := by
      have hloop := loopFault_of_issues hb hfault
      simp only [loopFault, Bool.or_eq_false_iff, decide_eq_false_iff_not, not_le] at hloop
      obtain ⟨⟨⟨hshallow, -⟩, -⟩, -⟩ := hloop
      exact hshallow
    have hpc := applied_loop_pc (s := s) (e := e) (rot := rot.toNat) (last := last.toNat) (a := a.toNat) (x := count.toNat) (cs := cs) (count := n) rfl
    have hlast : BitVec.ofNat 16 last.toNat = last := by rw [BitVec.ofNat_toNat, BitVec.setWidth_eq]
    refine ⟨_, hb, congrArg Host.Outcome.next hrow, fun hzero => ?_, fun hpos => ?_, fun hpos hempty => ?_⟩
    · rw [hpc, if_pos hzero, BitVec.ofNat_add, hlast]
    · rw [hpc, if_neg hpos]
    · have hlevel := applied_loop_level (rot := rot.toNat) (last := last.toNat) (count := n) hempty rfl hpos hdepth rfl
      rwa [hlast] at hlevel
  case b =>
    intro e t s w h
    exact exec_ctlWord rfl (fun _ => decBundle_branchWord (c := 0) (x := 0) (y := 0) (l := 0) (by decide) (by decide) (by decide) (by decide) t.isLt
      (by unfold branchWord; omega)) h (applied_fixedBranch (by decide) rfl t)
  case call =>
    intro e l t s w g h
    exact exec_ctlWord rfl (fun _ => decBundle_branchWord (c := 9) (x := 0) (y := 0) (by decide) (by decide) (by decide) l.isLt t.isLt
      (by unfold branchWord; omega)) h ⟨applied_fixedBranch (by decide) rfl t, List.mem_singleton_self _⟩
  case jr =>
    intro e a s w g h
    exact exec_ctlWord rfl (fun _ => decBundle_branchWord (c := 10) (y := 0) (l := 0) (t := 0) (by decide) a.isLt (by decide) (by decide) (by decide)
      (by unfold branchWord; omega)) h applied_jr
  case simmS =>
    intro e i imm s w g h
    refine exec_ctlWord rfl (fun _ => decBundle_simmWord (k := 0) (by decide) i.isLt imm.isLt rfl) h ⟨?_, applied_plain rfl⟩
    simp [bundleWrites]
  case simmM =>
    intro e i imm s w g h
    refine exec_ctlWord rfl (fun _ => decBundle_simmWord (k := 1) (by decide) i.isLt imm.isLt rfl) h ⟨?_, applied_plain rfl⟩
    simp [bundleWrites]
  case simmCp =>
    intro e i imm s w g h
    refine exec_ctlWord rfl (fun _ => decBundle_simmWord (k := 2) (by decide) i.isLt imm.isLt rfl) h ⟨?_, applied_plain rfl⟩
    simp [bundleWrites]
  case simmP =>
    intro e i imm s w g h
    refine exec_ctlWord rfl (fun _ => decBundle_simmWord (k := 3) (by decide) i.isLt imm.isLt rfl) h ⟨?_, applied_plain rfl⟩
    simp [bundleWrites]
  case vimm =>
    intro e v wc imm s w g h
    exact exec_ctlWord rfl (fun _ => decBundle_vimmWord v.isLt wc.isLt imm.isLt rfl) h ⟨List.mem_singleton_self _, applied_plain rfl⟩
  case wait =>
    intro e s w g h
    exact exec_ctlWord rfl (fun _ => eq_of_decBundle (by decide +kernel)) h applied_wait_row
  case reti =>
    intro e s w g h
    exact exec_ctlWord rfl (fun _ => eq_of_decBundle (by decide +kernel)) h applied_reti
  case dret =>
    intro e s w g h
    exact exec_ctlWord rfl (fun _ => eq_of_decBundle (by decide +kernel)) h applied_dret
  case bkpt =>
    intro e s w g h
    exact exec_ctlWord rfl (fun _ => eq_of_decBundle (by decide +kernel)) h ⟨applied_bkpt, applied_plain rfl⟩
  case bxclr =>
    intro e s w g h
    exact exec_ctlWord (c := .sys .bxclr) rfl (fun _ => eq_of_decBundle (by decide +kernel)) h ⟨List.mem_singleton_self _, applied_plain rfl⟩
  case sirq =>
    intro e n s w g h
    exact exec_ctlWord rfl (fun _ => decBundle_sirqWord n.isLt rfl) h ⟨applied_sirq n.isLt, applied_next rfl entered_ctl_bank entered_ctl_pc⟩
  case stop =>
    intro e s w g h
    exact exec_ctlWord rfl (fun _ => eq_of_decBundle (by decide +kernel)) h applied_stop
  case absSld =>
    intro e y r addr s w g q h
    have hr : r.toNat < 32 := by omega
    exact exec_ctlWord rfl (fun _ => decBundle_absWord (sub := 0) (by decide) hr addr.isLt rfl) h ⟨List.mem_singleton_self _, applied_plain rfl⟩
  case absSst =>
    intro e y r addr s w g q h
    have hr : r.toNat < 32 := by omega
    exact exec_ctlWord rfl (fun _ => decBundle_absWord (sub := 1) (by decide) hr addr.isLt rfl) h ⟨dataWord_applied_absSst, applied_plain rfl⟩
  case absVld =>
    intro e y v addr s w g q h
    exact exec_ctlWord rfl (fun _ => decBundle_absWord (sub := 2) (by decide) v.isLt addr.isLt rfl) h ⟨List.mem_singleton_self _, applied_plain rfl⟩
  case absVst =>
    intro e y v addr s w g q h
    exact exec_ctlWord rfl (fun _ => decBundle_absWord (sub := 3) (by decide) v.isLt addr.isLt rfl) h ⟨dataWord_applied_absVst, applied_plain rfl⟩

end Sys2Proof.Proofs
end

section
/-! PROOF. The happenings of an engine, and the register commands: a window write of 4 bytes reaches the one slot it names (08 R358 to R383). -/
namespace Sys2Proof.Machine

/-! ## A register write of 4 bytes (08 R382) -/

/-- A slot of an engine's registers outside the register image, in 8-byte steps. -/
def PlainSlot (o : Nat) : Prop := o % 8 = 0 ∧ (o < 0x200 ∨ o = 0xC00)

/-- The byte enables of a 4-byte write at the start of a slot. -/
def lowBytes (o : Nat) : Nat := 15 * 2 ^ (o % 64)

section
variable {o : Nat}

theorem slot_of_plain (ho : PlainSlot o) : ∃ j < 8, o % 64 = 8 * j := ⟨o % 64 / 8, by obtain ⟨hstep, -⟩ := ho; omega⟩

theorem regSizeOk_lowBytes (ho : PlainSlot o) : regSizeOk (lowBytes o) = true := by
  obtain ⟨j, hj, hslot⟩ := slot_of_plain ho
  have hfour : (List.range 16).any (fun k => lowBytes o == 15 * 2 ^ (4 * k)) = true := by
    refine List.any_eq_true.2 ⟨2 * j, List.mem_range.2 (by omega), ?_⟩
    rw [lowBytes, hslot, show 8 * j = 4 * (2 * j) by omega, beq_self_eq_true]
  rw [regSizeOk, hfour, Bool.or_true, Bool.true_or]

theorem slots_lowBytes : ∀ j < 8, (List.range 8).filter (fun i => 15 * 2 ^ (8 * j) / 2 ^ (8 * i) % 256 != 0) = [j] := by decide

theorem late_or_not (late : Nat → Bool) (o : Nat) : ([o].filter fun x => !late x) ++ [o].filter late = [o] := by
  cases hlate : late o <;> simp [hlate]

theorem lineSlots_lowBytes (ho : PlainSlot o) : lineSlots (o / 64 * 64) (lowBytes o) = [o] := by
  obtain ⟨j, hj, hslot⟩ := slot_of_plain ho
  have hself : o / 64 * 64 + 8 * j = o := by omega
  simp only [lineSlots, lowBytes, hslot, slots_lowBytes j hj, List.map_cons, List.map_nil, hself]
  exact late_or_not _ o

theorem imageTouched_lowBytes (ho : PlainSlot o) : imageTouched (o / 64 * 64) (lowBytes o) = false := by
  obtain ⟨hstep, hwhere⟩ := ho
  refine List.any_eq_false.2 fun i _ => ?_
  rw [Bool.and_eq_true, not_and, lowBytes, Nat.testBit_mul_two_pow, Bool.and_eq_true, decide_eq_true_eq]
  rintro ⟨hlow, hbit⟩
  have hnear : i - o % 64 < 4 := by
    by_contra hfar
    rw [Nat.testBit_lt_two_pow (x := 15) (Nat.lt_of_lt_of_le (by decide : 15 < 2 ^ 4) (Nat.pow_le_pow_right (by decide) (by omega)))] at hbit
    cases hbit
  simp only [imageByte, Bool.or_eq_true, Bool.and_eq_true, decide_eq_true_eq]
  omega

theorem byteMask_lowBytes : byteMask 8 (lowBytes o / 2 ^ (o % 64) % 256) = 0xFFFFFFFF := by
  rw [lowBytes, Nat.mul_div_cancel _ (Nat.two_pow_pos _)]
  decide

theorem fld_lowBytes (ho : PlainSlot o) (v : BitVec 32) :
    fld (BitVec.ofNat 512 (v.toNat * 2 ^ (8 * (o % 64)))) (8 * (o % 64)) 64 = v.toNat := by
  obtain ⟨j, hj, hslot⟩ := slot_of_plain ho
  have hv := v.isLt
  have hfits : v.toNat * 2 ^ (8 * (o % 64)) < 2 ^ 512 :=
    calc v.toNat * 2 ^ (8 * (o % 64)) < 2 ^ 32 * 2 ^ (8 * (o % 64)) := Nat.mul_lt_mul_of_pos_right hv (Nat.two_pow_pos _)
      _ = 2 ^ (32 + 8 * (o % 64)) := (Nat.pow_add ..).symm
      _ ≤ 2 ^ 512 := Nat.pow_le_pow_right (by decide) (by omega)
  rw [fld_ofNat _ _ _ _ hfits, Nat.mul_div_cancel _ (Nat.two_pow_pos _), Nat.mod_eq_of_lt (Nat.lt_trans hv (by decide))]

end

section
variable {s : State} {e o : Nat}

/-- A register write of 4 bytes at an open engine whose hubs are clocked is the write of its slot. -/
theorem winReg_write (ho : PlainSlot o) (v : BitVec 32) (hclk : engClocked s e = true)
    (hopen : (engOf s e).state ≠ .off ∧ (engOf s e).state ≠ .notready) {s1 : State} {accepted : Bool}
    (hslot : engSlotWrite s e o v.toNat 0xFFFFFFFF = (s1, accepted)) :
    winReg s e o false true v.toNat = { s1 with ans := { answered := true, resp := if accepted then rOk else rSlverr } } := by
  have hready : ((engOf s e).state == .off || (engOf s e).state == .notready) = false := by simp [hopen.1, hopen.2]
  obtain ⟨-, hwhere⟩ := id ho
  have hline : (0x300000 + o / 64 * 64) % 0x1000 = o / 64 * 64 := by omega
  have hwrite : winWrite s e (0x300000 + o / 64 * 64) (lowBytes o) (BitVec.ofNat 512 (v.toNat * 2 ^ (8 * (o % 64)))) =
      (s1, if accepted then rOk else rSlverr) := by
    rw [winWrite, winRegion_registers (by omega)]
    simp [hready, regSizeOk_lowBytes ho, hline, imageTouched_lowBytes ho, lineSlots_lowBytes ho, byteMask_lowBytes, fld_lowBytes ho, hslot]
  unfold winReg
  simp only [hclk, Bool.not_true, Bool.false_eq_true, if_false, if_true]
  rw [← lowBytes, hwrite]

/-! ## What the slots take (08 R363, R366, R373, R380 to R383) -/

theorem and_fullMask (v : BitVec 32) : v.toNat &&& 0xFFFFFFFF = v.toNat := Nat.and_two_pow_sub_one_of_lt_two_pow (n := 32) v.isLt

theorem natMerge_fullMask {old : Nat} (hold : old < 2 ^ 32) (v : BitVec 32) : natMerge old v.toNat 0xFFFFFFFF = v.toNat := by
  rw [natMerge, and_fullMask, Nat.and_two_pow_sub_one_of_lt_two_pow (n := 32) hold, Nat.xor_self, Nat.zero_or]

theorem ofNat_masked {w : Nat} (v : BitVec 32) (m : Nat) : BitVec.ofNat w (v.toNat &&& m) = v.setWidth w &&& BitVec.ofNat w m := by
  rw [BitVec.ofNat_and, BitVec.ofNat_toNat]

theorem engSlotWrite_pendClear (v : BitVec 32) : engSlotWrite s e 0x028 v.toNat 0xFFFFFFFF =
    (setEng s e { engOf s e with pend := (engOf s e).pend &&& ~~~(v.setWidth 16 &&& 0x7F80#16) }, true) := by
  have hlaw : engSlotWrite s e 0x028 v.toNat 0xFFFFFFFF =
      (setEng s e { engOf s e with pend := (engOf s e).pend &&& ~~~BitVec.ofNat 16 (v.toNat &&& 0xFFFFFFFF &&& 0x7F80) }, true) := rfl
  rw [hlaw, and_fullMask, ofNat_masked]

theorem engSlotWrite_pendSet (v : BitVec 32) : engSlotWrite s e 0x038 v.toNat 0xFFFFFFFF =
    (setEng s e { engOf s e with pend := (engOf s e).pend ||| (v.setWidth 16 &&& 0x3F00#16) }, true) := by
  have hlaw : engSlotWrite s e 0x038 v.toNat 0xFFFFFFFF =
      (setEng s e { engOf s e with pend := (engOf s e).pend ||| BitVec.ofNat 16 (v.toNat &&& 0xFFFFFFFF &&& 0x3F00) }, true) := rfl
  rw [hlaw, and_fullMask, ofNat_masked]

theorem engSlotWrite_sstat (v : BitVec 32) : engSlotWrite s e 0x068 v.toNat 0xFFFFFFFF =
    (if v.getLsbD 5 then setEng s e { engOf s e with sstat := setBit (engOf s e).sstat 5 false, poisLogged := false } else s, true) := by
  have hlaw : engSlotWrite s e 0x068 v.toNat 0xFFFFFFFF = if (v.toNat &&& 0xFFFFFFFF).testBit 5 then
      (setEng s e { engOf s e with sstat := setBit (engOf s e).sstat 5 false, poisLogged := false }, true) else (s, true) := rfl
  rw [hlaw, and_fullMask, BitVec.testBit_toNat]
  split <;> rfl

theorem engSlotWrite_dbgCtrl (v : BitVec 32) : engSlotWrite s e 0xC00 v.toNat 0xFFFFFFFF =
    (setEng s e { engOf s e with dbgCtrl := v.setWidth 4 &&& 0xC#4, haltReq := (engOf s e).haltReq || v.getLsbD 1 }, true) := by
  have hlaw : engSlotWrite s e 0xC00 v.toNat 0xFFFFFFFF =
      (setEng s e { engOf s e with
        dbgCtrl := BitVec.ofNat 4 (natMerge (engOf s e).dbgCtrl.toNat v.toNat 0xFFFFFFFF &&& 0xC)
        haltReq := (engOf s e).haltReq || (v.toNat &&& 0xFFFFFFFF).testBit 1 }, true) := rfl
  have hold : (engOf s e).dbgCtrl.toNat < 2 ^ 32 := Nat.lt_trans (BitVec.isLt _) (by decide)
  rw [hlaw, and_fullMask, BitVec.testBit_toNat, natMerge_fullMask hold, ofNat_masked]

section
variable (c : Fin 4) (v : BitVec 32)

theorem engSlotWrite_dmaCtrl : engSlotWrite s e (0x100 + 64 * c) v.toNat 0xFFFFFFFF = dmaCtrlWrite s e c v.toNat 0xFFFFFFFF := by
  have hin : 0x100 ≤ 0x100 + 64 * c.val ∧ 0x100 + 64 * c.val < 0x200 := by omega
  have hchan : (0x100 + 64 * c.val - 0x100) / 64 = c := by omega
  have hreg : (0x100 + 64 * c.val - 0x100) % 64 = 0 := by omega
  simp only [engSlotWrite, if_pos hin, hchan, hreg]

theorem engSlotWrite_dmaStatus : engSlotWrite s e (0x128 + 64 * c) v.toNat 0xFFFFFFFF =
    (setDma s e c { dmaOf s e c with
      done := (dmaOf s e c).done && !v.getLsbD 30, error := (dmaOf s e c).error && !v.getLsbD 29
      aborted := (dmaOf s e c).aborted && !v.getLsbD 28 }, true) := by
  have hin : 0x100 ≤ 0x128 + 64 * c.val ∧ 0x128 + 64 * c.val < 0x200 := by omega
  have hchan : (0x128 + 64 * c.val - 0x100) / 64 = c := by omega
  have hreg : (0x128 + 64 * c.val - 0x100) % 64 = 0x28 := by omega
  simp only [engSlotWrite, if_pos hin, hchan, hreg, and_fullMask, BitVec.testBit_toNat]

theorem dmaOf_setDma (d : Dma) : dmaOf (setDma s e c d) e c = d := by
  rw [dmaOf, setDma, engOf_setEng]
  exact vecGet_vecSet_self _ _ _

/-- A channel that is not busy has nothing to settle. -/
theorem dmaSettle_idle {d : Dma} (h : d.busy = false) : dmaSettle (setDma s e c d) e c = setDma s e c d := by
  simp only [dmaSettle, dmaOf_setDma, h, Bool.false_and, Bool.false_eq_true, if_false]

/-- The channel after a write of 4 bytes to its DMA_CTRL, before anything settles or starts. -/
def ctrlWritten (d : Dma) (v : BitVec 32) : Dma :=
  { d with ctrl := maskMerge d.ctrl (v.setWidth 10) 0x3F9#10, abort := d.abort || (v.getLsbD 30 && d.busy) }

theorem dmaCtrlWrite_law : dmaCtrlWrite s e c v.toNat 0xFFFFFFFF =
    if (v.getLsbD 31 && (dmaOf s e c).busy) = true then (s, false)
    else (if v.getLsbD 31 = true then dmaStart (dmaSettle (setDma s e c (ctrlWritten (dmaOf s e c) v)) e c) e c
      else dmaSettle (setDma s e c (ctrlWritten (dmaOf s e c) v)) e c, true) := by
  simp only [dmaCtrlWrite, and_fullMask, BitVec.testBit_toNat, BitVec.ofNat_toNat, ctrlWritten]
  rfl

theorem ctrlWritten_or {m : BitVec 32} (d : Dma) (h : m.setWidth 10 = 0#10) : ctrlWritten d (v ||| m) =
    { d with ctrl := maskMerge d.ctrl (v.setWidth 10) 0x3F9#10, abort := d.abort || ((v ||| m).getLsbD 30 && d.busy) } := by
  rw [ctrlWritten, BitVec.setWidth_or, h, BitVec.or_zero]

end

end

/-! ## Lines of a transfer (08 R381) -/

theorem dmaLine_written {s : State} {e c k : Nat} {t : Tx} (hgone : t.gone = false) (hok : t.resp = rOk) (hwrite : cmdReads t.cmd = false) :
    dmaLine s e c k t = dmaSettle (setDma (dropTx s k) e c { dmaOf s e c with
      flight := (dmaOf s e c).flight.filter (· != t.tag), lines := (dmaOf s e c).lines + 1#11 }) e c := by
  have hcurrent : ¬(0 : Nat) = rEpoch := by decide
  have hkept : dmaOf (dropTx s k) e c = dmaOf s e c := rfl
  simp only [dmaLine, hgone, hok, hwrite, Bool.and_false, Bool.false_eq_true, if_false, if_neg hcurrent, hkept, ne_eq,
    not_true_eq_false, decide_false, Bool.false_and, if_true]

section
variable {s : State} {e : Fin 768}

theorem exec_dmaLineResponse {c : Fin 4} {txn : BitVec 16} {t : Tx} (hfind : tabFind s.vent.txs (txKey (.eng e c) txn.toNat) = some t)
    (hclk : engClocked s e = true) (hinit : t.init = .eng e c) (hphase : t.phase = .rsp) (hlost : t.lost = false)
    (horder : inOrder s (txKey (.eng e c) txn.toNat) t = true) :
    exec (.dmaLineResponse e c txn) s = .next (dmaLine s e c (txKey (.eng e c) txn.toNat) t) := by
  change execDmaLineResponse e c txn s = _
  have hgo : (engClocked s e && t.init == .eng e c && t.phase == .rsp && !t.lost && inOrder s (txKey (.eng e c) txn.toNat) t) = true := by
    simp [hclk, hinit, hphase, hlost, horder]
  simp only [execDmaLineResponse, hfind, if_pos hgo]

/-! ## Happenings (08 R358, R361, R363, R366, R372, R373, R379) -/

theorem exec_engInterruptEntry (hclk : engClocked s e = true) (hissues : engIssues (engOf s e) = true) (hquiet : debugDue (engOf s e) = none)
    (hirq : irqDue s e = true) : exec (.engInterruptEntry e) s = .next (setEng s e (irqEntry (cyclesPass (engOf s e).wait (engOf s e)))) := by
  change execEngInterruptEntry e s = _
  have hgo : (engClocked s e && engIssues (engOf s e) && (debugDue (engOf s e)).isNone && irqDue s e) = true := by
    simp [hclk, hissues, hquiet, hirq]
  simp only [execEngInterruptEntry, if_pos hgo]

theorem exec_engWake (hclk : engClocked s e = true) (hwaits : (engOf s e).state = .waiting) (hirq : irqActive s e = true) :
    exec (.engWake e) s = .next (engWake s e) := by
  change execEngWake e s = _
  have hgo : (engClocked s e && (engOf s e).state == .waiting && irqActive s e) = true := by simp [hclk, hwaits, hirq]
  simp only [execEngWake, if_pos hgo]

theorem exec_engTimerMatch (hclk : engClocked s e = true) (hissues : engIssues (engOf s e) = true) (hmatch : (engOf s e).cycles = (engOf s e).timer) :
    exec (.engTimerMatch e) s = .next (setEng s e { engOf s e with pend := setBit (engOf s e).pend 7 true }) := by
  change execEngTimerMatch e s = _
  have hgo : (engClocked s e && engIssues (engOf s e) && (engOf s e).cycles == (engOf s e).timer) = true := by simp [hclk, hissues, hmatch]
  simp only [execEngTimerMatch, if_pos hgo]

theorem exec_engDebugEntry_running {c i : Nat} (hclk : engClocked s e = true) (hruns : (engOf s e).state = .running)
    (hdue : debugDue (engOf s e) = some (c, i)) :
    exec (.engDebugEntry e) s = .next (debugEntry (setEng s e { cyclesPass (engOf s e).wait (engOf s e) with wait := 0 }) e c i) := by
  change execEngDebugEntry e s = _
  simp [execEngDebugEntry, hclk, hruns, hdue]

theorem exec_engDebugEntry_waiting {c i : Nat} (hclk : engClocked s e = true) (hwaits : (engOf s e).state = .waiting)
    (hends : debugWait (engOf s e) = some (c, i)) : exec (.engDebugEntry e) s = .next (debugEntry s e c i) := by
  change execEngDebugEntry e s = _
  simp [execEngDebugEntry, hclk, hwaits, hends]

theorem exec_engStreamUnfreeze {w : BitVec 64} (hfrozen : (engOf s e).frozen = some w) (hclk : engClocked s e = true)
    (hissues : engIssues (engOf s e) = true) :
    exec (.engStreamUnfreeze e) s = .next (boundary (setEng s e { engOf s e with spIn := 0, spOut := 0 }) e w) := by
  change execEngStreamUnfreeze e s = _
  simp only [execEngStreamUnfreeze, hfrozen]
  rw [if_pos]
  rw [hclk]
  exact hissues

/-! ## Register commands (08 R373, R380, R381) -/

section
variable {c : Fin 4} {v : BitVec 32} (hclk : engClocked s e = true) (hopen : (engOf s e).state ≠ .off ∧ (engOf s e).state ≠ .notready)
include hclk hopen

theorem exec_dbgHaltReq : exec (.dbgHaltReq e v) s = .next { setEng s e { engOf s e with dbgCtrl := v.setWidth 4 &&& 0xC#4, haltReq := true } with
    ans := { answered := true, resp := rOk } } := by
  have hctrl : (v ||| 2#32).setWidth 4 &&& 0xC#4 = v.setWidth 4 &&& 0xC#4 := by
    rw [BitVec.setWidth_or, BitVec.and_or_distrib_right]
    exact BitVec.or_zero
  have hhalt : (v ||| 2#32).getLsbD 1 = true := by rw [BitVec.getLsbD_or]; exact Bool.or_true _
  have hslot := engSlotWrite_dbgCtrl (s := s) (e := e) (v ||| 2#32)
  rw [hctrl, hhalt, Bool.or_true] at hslot
  exact congrArg Host.Outcome.next (winReg_write ⟨by decide, .inr rfl⟩ (v ||| 2#32) hclk hopen hslot)

theorem winReg_dmaCtrl {s1 : State} {accepted : Bool} (hslot : dmaCtrlWrite s e c v.toNat 0xFFFFFFFF = (s1, accepted)) :
    winReg s e (0x100 + 64 * c) false true v.toNat = { s1 with ans := { answered := true, resp := if accepted then rOk else rSlverr } } :=
  winReg_write ⟨by omega, by omega⟩ v hclk hopen ((engSlotWrite_dmaCtrl c v).trans hslot)

theorem exec_dmaStart_idle (hidle : (dmaOf s e c).busy = false) :
    exec (.dmaStart e c v) s = .next { dmaStart (setDma s e c { dmaOf s e c with
      ctrl := maskMerge (dmaOf s e c).ctrl (v.setWidth 10) 0x3F9#10 }) e c with ans := { answered := true, resp := rOk } } := by
  have hstart : (v ||| 0x80000000#32).getLsbD 31 = true := by rw [BitVec.getLsbD_or]; exact Bool.or_true _
  have hkept : ((dmaOf s e c).abort || ((v ||| 0x80000000#32).getLsbD 30 && (dmaOf s e c).busy)) = (dmaOf s e c).abort := by
    rw [hidle, Bool.and_false, Bool.or_false]
  have hslot := dmaCtrlWrite_law (s := s) (e := e) c (v ||| 0x80000000#32)
  rw [hstart, hidle, Bool.and_false, if_neg Bool.false_ne_true, if_pos rfl, dmaSettle_idle c (d := ctrlWritten (dmaOf s e c) _) hidle,
    ctrlWritten_or v _ (by decide), hkept] at hslot
  exact congrArg Host.Outcome.next (winReg_dmaCtrl hclk hopen hslot)

theorem exec_dmaStart_busy (hbusy : (dmaOf s e c).busy = true) :
    exec (.dmaStart e c v) s = .next { s with ans := { answered := true, resp := rSlverr } } := by
  have hstart : (v ||| 0x80000000#32).getLsbD 31 = true := by rw [BitVec.getLsbD_or]; exact Bool.or_true _
  have hslot := dmaCtrlWrite_law (s := s) (e := e) c (v ||| 0x80000000#32)
  rw [hstart, hbusy, Bool.and_true, if_pos rfl] at hslot
  exact congrArg Host.Outcome.next (winReg_dmaCtrl hclk hopen hslot)

theorem exec_dmaAbort (hnoStart : v.getLsbD 31 = false) :
    exec (.dmaAbort e c v) s = .next { dmaSettle (setDma s e c { dmaOf s e c with
      ctrl := maskMerge (dmaOf s e c).ctrl (v.setWidth 10) 0x3F9#10, abort := (dmaOf s e c).abort || (dmaOf s e c).busy }) e c with
      ans := { answered := true, resp := rOk } } := by
  have hstart : (v ||| 0x40000000#32).getLsbD 31 = false := by rw [BitVec.getLsbD_or, hnoStart]; rfl
  have habort : (v ||| 0x40000000#32).getLsbD 30 = true := by rw [BitVec.getLsbD_or]; exact Bool.or_true _
  have hslot := dmaCtrlWrite_law (s := s) (e := e) c (v ||| 0x40000000#32)
  rw [hstart, Bool.false_and, if_neg Bool.false_ne_true, if_neg Bool.false_ne_true, ctrlWritten_or v _ (by decide), habort, Bool.true_and] at hslot
  exact congrArg Host.Outcome.next (winReg_dmaCtrl hclk hopen hslot)

end
end

end Sys2Proof.Machine

namespace Sys2Proof.Proofs
open Sys2Proof.Machine

/-- Settles O27: a happening by the guard of its row, a register command by the law of the slot it writes. -/
theorem engineRows : Obligations.EngineRows := by
  unfold Obligations.EngineRows
  refine ⟨?powerOff, ?powerOn, fun e s => exec_engInterruptEntry, fun e s => exec_engWake, fun e s => exec_engTimerMatch,
    fun e c i s => exec_engDebugEntry_running, ?debugWaiting, fun e w s => exec_engStreamUnfreeze, fun e v s => exec_dbgHaltReq, ?pendClear, ?irqSet,
    ?poison, fun e c v s => exec_dmaStart_idle, fun e c v s => exec_dmaStart_busy, fun e c v s => exec_dmaAbort, ?status, ?line⟩
  case powerOff =>
    intro e s h
    change execEngPowerOffDone e s = _
    simp only [execEngPowerOffDone, h, beq_self_eq_true, if_true]
  case powerOn =>
    intro e s h
    change execEngPowerOnDone e s = _
    simp only [execEngPowerOnDone, h, beq_self_eq_true, if_true]
  case debugWaiting =>
    intro e c i s g hclk hwaits hevent
    have hends : debugWait g = some (c, i) := by
      obtain hraised | ⟨hnone, hhalt, rfl, rfl⟩ := hevent
      · rw [debugWait, hraised]
      · rw [debugWait, hnone, hhalt]; rfl
    exact exec_engDebugEntry_waiting hclk hwaits hends
  case pendClear =>
    intro e v s g hclk hopen
    exact congrArg Host.Outcome.next (winReg_write ⟨by decide, .inl (by decide)⟩ v hclk hopen (engSlotWrite_pendClear v))
  case irqSet =>
    intro e v s g hclk hopen
    exact congrArg Host.Outcome.next (winReg_write ⟨by decide, .inl (by decide)⟩ v hclk hopen (engSlotWrite_pendSet v))
  case poison =>
    intro e v s g hclk hopen
    exact congrArg Host.Outcome.next (winReg_write ⟨by decide, .inl (by decide)⟩ v hclk hopen (engSlotWrite_sstat v))
  case status =>
    intro e c v s d hclk hopen
    exact congrArg Host.Outcome.next (winReg_write ⟨by omega, by omega⟩ v hclk hopen (engSlotWrite_dmaStatus c v))
  case line =>
    intro e c txn t s k d s2 hfind hclk htx hstands
    obtain ⟨hinit, hphase, hok, hwrite⟩ := htx
    obtain ⟨hlost, hgone, horder⟩ := hstands
    rw [exec_dmaLineResponse hfind hclk hinit hphase hlost horder, dmaLine_written hgone hok hwrite]

end Sys2Proof.Proofs
end

section
/-! PROOF. A SOUT into a queue block whose sides are clocked: what the block holds after the issue (07 R321; 09 R408). -/
namespace Sys2Proof.Machine

/-- Engine 0 runs, and queue block 0, empty, takes what it sends; power, clocks and resets are up, and partition 0 runs. -/
def streaming : State := { State.reset with
  pwr := { State.reset.pwr with porN := true, effReset := false, rails := 0xFFFFFFF#28, vccioUnused := 0 }
  clk := { State.reset.clk with locked := true, accepted := true, mode := .ref, inBand := true, clkEn := 0x3FFFFFFFFF#38, clkRun := 0x3FFFFFFFFF#38 }
  rst := { State.reset.rst with phase := .run, treesHeld := false }
  eng := [(0, { state := .running })]
  mem := { State.reset.mem with links := [(0, 1), (1, 1)], qbs := [(0, { prod := .engine 0, cons := .engine 0 })] }
  obj := [(O_PART_STATE 0, 1)] }

/-- A bundle whose one operation is a SOUT: the upper half of V1, as the last word of a packet. -/
def soutBundle : Bundle := .par none .none (.sout 1 true true 15) .none

end Sys2Proof.Machine

namespace Sys2Proof.Proofs
open Sys2Proof.Machine

/-- Refutes O25: SOUT puts its word where both sides of the block are clocked, so that the consumer's side has counted it (no word is new to it),
while the last clause leaves it uncounted. -/
theorem not_slotResults : ¬ Obligations.SlotResults := by
  unfold Obligations.SlotResults
  intro h
  obtain ⟨-, -, -, -, -, -, -, -, -, -, -, -, -, -, hsout⟩ := h
  obtain ⟨b, hdec, -, hblock⟩ := hsout 0 1 true true 15 0 0 streaming (by decide +kernel) (by decide +kernel)
  obtain rfl : b = soutBundle := eq_of_decBundle (by decide +kernel) hdec
  have hcounted : (qbOf (applyBundle streaming 0 soutBundle) 0).newWords = 0 := by decide +kernel
  have huncounted : (qbOf (applyBundle streaming 0 soutBundle) 0).newWords = 1 := (congrArg Qb.newWords hblock).trans (by decide +kernel)
  exact absurd (hcounted.symm.trans huncounted) (by decide)

end Sys2Proof.Proofs
end

section
/-! PROOF. The M operations on vectors and accumulators: which operation the word of a row carries, and the results that its bundle sends
(09 R387, R388, R395 to R402; 08 R346). -/
namespace Sys2Proof.Machine

/-! ## Rows that carry an M operation (09 R393, R395) -/

/-- The bundle that word `w` of a row spells issues, and the results `l` are among those it sends. -/
def RowSends (row : Instr) (s : State) (e : Nat) (w : BitVec 64) (l : List Wr) : Prop :=
  ∃ bb, decBundle w = some bb ∧ exec row s = .next (applyBundle s e bb) ∧ l ⊆ bundleWrites s e bb

section
variable {s : State} {e : Nat} {row : Instr} {w : BitVec 64}

/-- The first result of a row stands among those of its bundle. -/
theorem RowSends.first {x : Wr} {l : List Wr} (h : RowSends row s e w (x :: l)) :
    ∃ bb, decBundle w = some bb ∧ exec row s = .next (applyBundle s e bb) ∧ x ∈ bundleWrites s e bb := by
  obtain ⟨bb, hbb, hnext, hsent⟩ := h
  exact ⟨bb, hbb, hnext, hsent List.mem_cons_self⟩

theorem RowSends.both {x y : Wr} (h : RowSends row s e w [x, y]) :
    ∃ bb, decBundle w = some bb ∧ exec row s = .next (applyBundle s e bb) ∧ x ∈ bundleWrites s e bb ∧ y ∈ bundleWrites s e bb := by
  obtain ⟨bb, hbb, hnext, hsent⟩ := h
  exact ⟨bb, hbb, hnext, hsent List.mem_cons_self, hsent (List.mem_cons_of_mem _ List.mem_cons_self)⟩

/-- A row that raises OVF where a lane spills (09 R388). -/
theorem RowSends.withOvf {x : Wr} {k : Nat} {spills : Bool} {P : Prop} (h : RowSends row s e w (x :: ovfIf k spills)) (hP : P → spills = true) :
    ∃ bb, decBundle w = some bb ∧ exec row s = .next (applyBundle s e bb) ∧ x ∈ bundleWrites s e bb ∧
      (P → (k, .sticky 8#32) ∈ bundleWrites s e bb) := by
  obtain ⟨bb, hbb, hnext, hsent⟩ := h
  refine ⟨bb, hbb, hnext, hsent List.mem_cons_self, fun hp => hsent (List.mem_cons_of_mem _ ?_)⟩
  rw [ovfIf, if_pos (hP hp)]
  exact List.mem_singleton_self _

theorem mWrites_subset_bundleWrites (p : Option (Nat × Nat)) (o : MOp) (x y : SlotOp) : mWrites s e o ⊆ bundleWrites s e (.par p o x y) := by
  intro wr hwr
  simp only [bundleWrites, List.mem_append]
  exact .inl (.inl (.inl (.inr hwr)))

/-- Where the bundle of an M operation's row issues, it sends the results of that operation. -/
theorem rowSends_mWrites {rest : BitVec 64} {cls m : Nat} {o : MOp} (hexec : exec row s = .next (issueRow e w s)) (hw : w = withM rest cls m)
    (hcls : cls < 6) (hm : m < 2 ^ 23) (hdec : ∀ o', decM cls (BitVec.ofNat 23 m) = some o' → o' = o) (h : Issues s e w) :
    RowSends row s e w (mWrites s e o) := by
  obtain ⟨bb, hbb, hrow⟩ := issueRow_issues h
  obtain ⟨p, o', x, y, rfl, ho⟩ := decBundle_withM hcls hm (hw ▸ hbb)
  obtain rfl := hdec o' ho
  exact ⟨_, hbb, hexec.trans (congrArg Host.Outcome.next hrow), mWrites_subset_bundleWrites p _ x y⟩

theorem any_spills {n k : Nat} {r : Nat → Int} (h : ∃ i, i < n ∧ fitsS k (r i) = false) :
    ((List.range n).any fun i => !fitsS k (r i)) = true := by
  obtain ⟨i, hi, hspill⟩ := h
  exact List.any_eq_true.2 ⟨i, List.mem_range.2 hi, by rw [hspill]; rfl⟩

end

/-! ## The operation that a field of format V names (09 R396 to R402)

`hdec` says which operation `o` the class's decoder names for opcode `k`, under a condition `c` on the other fields: a field that decodes
carries `o`. -/

section
variable {k : Nat} {d a b : BitVec 5} {wc : BitVec 2} {f c : Bool} {o o' : MOp}

theorem toNat_beq_one (f : Bool) : (f.toNat == 1) = f := by cases f <;> rfl

theorem decM_eq_mac (hk : 0 < k ∧ k < 128) (hdec : decMac k d.toNat a.toNat b.toNat f = whenOk c o)
    (h : decM 0 (BitVec.ofNat 23 (fmtV k d.toNat a.toNat b.toNat f.toNat)) = some o') : o' = o := by
  have hmac := decM_mac hk.2 d.isLt a.isLt b.isLt f.toNat_lt hk.1.ne' h
  rw [toNat_beq_one, hdec] at hmac
  exact (whenOk_eq_some.1 hmac).2.symm

theorem decM_eq_valu (hk : 0 < k ∧ k < 32) (hdec : decValu k wc.toNat d.toNat a.toNat b.toNat f = whenOk c o)
    (h : decM 1 (BitVec.ofNat 23 (fmtV (4 * k + wc.toNat) d.toNat a.toNat b.toNat f.toNat)) = some o') : o' = o := by
  obtain ⟨-, hvalu⟩ := decM_valu hk.2 wc.isLt d.isLt a.isLt b.isLt f.toNat_lt hk.1.ne' h
  rw [toNat_beq_one, hdec] at hvalu
  exact (whenOk_eq_some.1 hvalu).2.symm

theorem decM_eq_vperm (hk : 0 < k ∧ k < 32) (hdec : decVperm k wc.toNat d.toNat a.toNat b.toNat = whenOk c o)
    (h : decM 2 (BitVec.ofNat 23 (fmtV (4 * k + wc.toNat) d.toNat a.toNat b.toNat 0)) = some o') : o' = o := by
  obtain ⟨-, hvperm⟩ := decM_vperm hk.2 wc.isLt d.isLt a.isLt b.isLt hk.1.ne' h
  exact (whenOk_eq_some.1 (hdec.symm.trans hvperm)).2.symm

theorem decM_eq_vfp (hk : 0 < k ∧ k < 128) (hdec : decVfp k d.toNat a.toNat b.toNat f = whenOk c o)
    (h : decM 3 (BitVec.ofNat 23 (fmtV k d.toNat a.toNat b.toNat f.toNat)) = some o') : o' = o := by
  have hvfp := decM_vfp hk.2 d.isLt a.isLt b.isLt f.toNat_lt hk.1.ne' h
  rw [toNat_beq_one, hdec] at hvfp
  exact (whenOk_eq_some.1 hvfp).2.symm

end

/-! ## Vector ALU (09 R399) -/

/-- Lane `i` of the second operand of a vector ALU operation: of a scalar with the F flag, its lane 0. -/
def valuOperand (g : Engine) (f : Bool) (n b i : Nat) : Nat := if f then lane (rdS g b) n 0 else lane (rdV g b) n i

theorem signed_valuOperand (g : Engine) (f : Bool) (n b i : Nat) :
    signed n (valuOperand g f n b i) = if f then slane (rdS g b) n 0 else slane (rdV g b) n i := apply_ite (signed n) _ _ _

/-- Lane `i` of the exact result of a vector ALU operation, and whether mark S applies. -/
def valuResult (g : Engine) (op : ValuOp) (wc d a b : Nat) (f : Bool) (free i : Nat) : Int × Bool :=
  valuLane op (laneBits wc) (csRnd (actBank g).cstat) (lane (rdV g d) (laneBits wc) i) (lane (rdV g a) (laneBits wc) i)
    (valuOperand g f (laneBits wc) b i) b (free + i)

/-- A result, or the free value in its place where it does not fit its lane (log entry 12). -/
def orFree (n free : Nat) (x : Int) : Int := if fitsS n x then x else (Config.freeNat free : Int)

theorem wrapTo_orFree (n free : Nat) (x : Int) : wrapTo n (orFree n free x) = if fitsS n x then wrapTo n x else wrapTo n (Config.freeNat free) :=
  apply_ite (wrapTo n) _ _ _

section
variable {g : Engine} {op : ValuOp} {wc d a b : Nat} {f : Bool} {free : Nat} {r : Nat → Int}

theorem valuWrites_marked (hlane : ∀ i, valuResult g op wc d a b f free i = (r i, true)) :
    valuWrites g op wc d a b f free = wrV g 2 d (vecOf (laneBits wc) fun i => markS (csSat (actBank g).cstat) (laneBits wc) (r i)) ::
      ovfIf 2 ((List.range (256 / laneBits wc)).any fun i => !fitsS (laneBits wc) (r i)) := by
  simp only [valuResult, valuOperand] at hlane
  simp only [valuWrites, hlane, if_true, Bool.true_and]

theorem valuWrites_plain (hlane : ∀ i, valuResult g op wc d a b f free i = (r i, false)) :
    valuWrites g op wc d a b f free = [wrV g 2 d (vecOf (laneBits wc) fun i => wrapTo (laneBits wc) (r i))] := by
  simp only [valuResult, valuOperand] at hlane
  simp [valuWrites, hlane, ovfIf]

end

section
variable {s : State} {e k : Nat} {w rest : BitVec 64} {row : Instr} {op : ValuOp} {d a b : BitVec 5} {wc : BitVec 2} {f c : Bool} {r : Nat → Int}
  (hexec : exec row s = .next (issueRow e w s)) (hw : w = withM rest 1 (fmtV (4 * k + wc.toNat) d.toNat a.toNat b.toNat f.toNat))
  (hk : 0 < k ∧ k < 32) (hdec : decValu k wc.toNat d.toNat a.toNat b.toNat f = whenOk c (.valu op wc.toNat d.toNat a.toNat b.toNat f))
include hexec hw hk hdec

theorem rowSends_valuWrites (h : Issues s e w) :
    RowSends row s e w (valuWrites (engOf s e) op wc.toNat d.toNat a.toNat b.toNat f s.freeCtr) :=
  rowSends_mWrites hexec hw (by decide) (fmtV_lt (by omega) d.isLt a.isLt b.isLt f.toNat_lt) (fun _ => decM_eq_valu hk hdec) h

/-- A vector ALU row with mark S. -/
theorem rowSends_valu_marked (hlane : ∀ i, valuResult (engOf s e) op wc.toNat d.toNat a.toNat b.toNat f s.freeCtr i = (r i, true))
    (h : Issues s e w) : RowSends row s e w (wrV (engOf s e) 2 d.toNat (vecOf (laneBits wc.toNat) fun i =>
      markS (csSat (actBank (engOf s e)).cstat) (laneBits wc.toNat) (r i)) ::
      ovfIf 2 ((List.range (256 / laneBits wc.toNat)).any fun i => !fitsS (laneBits wc.toNat) (r i))) := by
  rw [← valuWrites_marked hlane]
  exact rowSends_valuWrites hexec hw hk hdec h

/-- A vector ALU row without a mark. -/
theorem rowSends_valu_plain (hlane : ∀ i, valuResult (engOf s e) op wc.toNat d.toNat a.toNat b.toNat f s.freeCtr i = (r i, false))
    (h : Issues s e w) : RowSends row s e w [wrV (engOf s e) 2 d.toNat (vecOf (laneBits wc.toNat) fun i => wrapTo (laneBits wc.toNat) (r i))] := by
  rw [← valuWrites_plain hlane]
  exact rowSends_valuWrites hexec hw hk hdec h

end

/-! ## Multiply-accumulate (09 R397, R398; 08 R346) -/

/-- Sixteen accumulator lanes. -/
abbrev accLanes (f : Nat → Nat) : BitVec 768 := BitVec.ofNat 768 (packLanes 48 ((List.range 16).map f))

/-- The exact sum in accumulator lane `i`, where the operation writes the lane. -/
def macResult (g : Engine) (op : MacOp) (d a b : Nat) (z : Bool) (i : Nat) : Option Int :=
  (macAddend op (rdV g a) (rdV g b) (slane (rdS g b) 16 0) (vecGet g.a a) i).map fun x =>
    (if z || op == .ald then 0 else slane (accChain g d) 48 i) + (if op == .ald then x * 2 ^ b else x)

/-- A lane that is written and does not fit. -/
def macSpill (x : Option Int) : Bool :=
  match x with
  | some x => !fitsS 48 x
  | none => false

section
variable {g : Engine} {op : MacOp} {d a b : Nat} {z : Bool} {r : Nat → Int}

/-- All operations but ALD add to the old lane. -/
theorem macResult_add (hop : op ≠ .ald) (i : Nat) : macResult g op d a b z i =
    (macAddend op (rdV g a) (rdV g b) (slane (rdS g b) 16 0) (vecGet g.a a) i).map fun x => (if z then 0 else slane (accChain g d) 48 i) + x := by
  have hald : (op == .ald) = false := beq_eq_false_iff_ne.2 hop
  simp only [macResult, hald, Bool.or_false, Bool.false_eq_true, if_false]

theorem macResult_ite (hop : op ≠ .ald) {i : Nat} {P : Prop} [Decidable P] {x : Int}
    (hadd : macAddend op (rdV g a) (rdV g b) (slane (rdS g b) 16 0) (vecGet g.a a) i = if P then some x else none) :
    macResult g op d a b z i = if P then some ((if z then 0 else slane (accChain g d) 48 i) + x) else none := by
  rw [macResult_add hop, hadd]
  exact apply_ite (Option.map _) _ _ _

theorem macResult_ald (i : Nat) : macResult g .ald d a b z i = some (slane (rdV g a) 16 i * 2 ^ b) := by
  simp [macResult, macAddend]

theorem macWrites_eq : macWrites g op d a b z =
    (3, .a d (accLanes fun i => ((macResult g op d a b z i).map (markS (csSat (actBank g).cstat) 48)).getD 0)
        (accLanes fun i => if (macResult g op d a b z i).isSome then 2 ^ 48 - 1 else 0)) ::
      ovfIf 3 ((List.range 16).any fun i => macSpill (macResult g op d a b z i)) := rfl

/-- An operation that writes every lane. -/
theorem macWrites_all (hlane : ∀ i, macResult g op d a b z i = some (r i)) :
    macWrites g op d a b z = (3, .a d (accLanes fun i => markS (csSat (actBank g).cstat) 48 (r i)) (accLanes fun _ => 2 ^ 48 - 1)) ::
      ovfIf 3 ((List.range 16).any fun i => !fitsS 48 (r i)) := by
  simp only [macWrites_eq, hlane, Option.map_some, Option.getD_some, Option.isSome_some, if_true, macSpill]

/-- An operation that writes the lanes in `P`. -/
theorem macWrites_lanes {P : Nat → Prop} [DecidablePred P] (hlane : ∀ i, macResult g op d a b z i = if P i then some (r i) else none) :
    macWrites g op d a b z = (3, .a d (accLanes fun i => if P i then markS (csSat (actBank g).cstat) 48 (r i) else 0)
        (accLanes fun i => if P i then 2 ^ 48 - 1 else 0)) :: ovfIf 3 ((List.range 16).any fun i => if P i then !fitsS 48 (r i) else false) := by
  have hval (i : Nat) : ((if P i then some (r i) else none).map (markS (csSat (actBank g).cstat) 48)).getD 0 =
      if P i then markS (csSat (actBank g).cstat) 48 (r i) else 0 := by split <;> rfl
  have hmask (i : Nat) : (if (if P i then some (r i) else none).isSome then 2 ^ 48 - 1 else 0) = if P i then 2 ^ 48 - 1 else 0 := by split <;> rfl
  have hspill (i : Nat) : macSpill (if P i then some (r i) else none) = if P i then !fitsS 48 (r i) else false := by split <;> rfl
  simp only [macWrites_eq, hlane, hval, hmask, hspill]

theorem any_lanes_spill {P : Nat → Prop} [DecidablePred P] (h : ∃ i, i < 16 ∧ P i ∧ fitsS 48 (r i) = false) :
    ((List.range 16).any fun i => if P i then !fitsS 48 (r i) else false) = true := by
  obtain ⟨i, hi, hP, hspill⟩ := h
  exact List.any_eq_true.2 ⟨i, List.mem_range.2 hi, by rw [if_pos hP, hspill]; rfl⟩

end

section
variable {s : State} {e k : Nat} {w rest : BitVec 64} {row : Instr} {op : MacOp} {d a b : BitVec 5} {z c : Bool} {r : Nat → Int}
  (hexec : exec row s = .next (issueRow e w s)) (hw : w = withM rest 0 (fmtV k d.toNat a.toNat b.toNat z.toNat))
  (hk : 0 < k ∧ k < 128) (hdec : decMac k d.toNat a.toNat b.toNat z = whenOk c (.mac op d.toNat a.toNat b.toNat z))
include hexec hw hk hdec

theorem rowSends_macWrites (h : Issues s e w) : RowSends row s e w (macWrites (engOf s e) op d.toNat a.toNat b.toNat z) :=
  rowSends_mWrites hexec hw (by decide) (fmtV_lt hk.2 d.isLt a.isLt b.isLt z.toNat_lt) (fun _ => decM_eq_mac hk hdec) h

/-- A multiply-accumulate row that writes every lane. -/
theorem rowSends_mac_all (hlane : ∀ i, macResult (engOf s e) op d.toNat a.toNat b.toNat z i = some (r i)) (h : Issues s e w) :
    RowSends row s e w ((3, .a d.toNat (accLanes fun i => markS (csSat (actBank (engOf s e)).cstat) 48 (r i)) (accLanes fun _ => 2 ^ 48 - 1)) ::
      ovfIf 3 ((List.range 16).any fun i => !fitsS 48 (r i))) := by
  rw [← macWrites_all hlane]
  exact rowSends_macWrites hexec hw hk hdec h

/-- A multiply-accumulate row that writes the lanes in `P`. -/
theorem rowSends_mac_lanes {P : Nat → Prop} [DecidablePred P]
    (hlane : ∀ i, macResult (engOf s e) op d.toNat a.toNat b.toNat z i = if P i then some (r i) else none) (h : Issues s e w) :
    RowSends row s e w ((3, .a d.toNat (accLanes fun i => if P i then markS (csSat (actBank (engOf s e)).cstat) 48 (r i) else 0)
        (accLanes fun i => if P i then 2 ^ 48 - 1 else 0)) :: ovfIf 3 ((List.range 16).any fun i => if P i then !fitsS 48 (r i) else false)) := by
  rw [← macWrites_lanes hlane]
  exact rowSends_macWrites hexec hw hk hdec h

end

/-! ## Permutations (09 R400) -/

/-- Width of the lanes a permutation writes: unpacking doubles it, packing halves it. -/
def vpermBits (op : VpermOp) (n : Nat) : Nat :=
  match op with
  | .vunpl => 2 * n
  | .vunph => 2 * n
  | .vpack => n / 2
  | _ => n

/-- A lane under its mark: 0 none, 1 S, 2 N (09 R388). -/
def putMark (sat : Bool) (mark n : Nat) (x : Int) : Nat :=
  match mark with
  | 1 => markS sat n x
  | 2 => markN n x
  | _ => wrapTo n x

/-- Lane `i` of a permutation as an exact value, with its mark. -/
def vpermResult (g : Engine) (op : VpermOp) (wc a b i : Nat) : Int × Nat := vpermLane op (laneBits wc) b (rdV g a) (rdV g b) i

theorem vpermWrites_eq {g : Engine} {op : VpermOp} {wc d a b mark : Nat} {r : Nat → Int} (hlane : ∀ i, vpermResult g op wc a b i = (r i, mark)) :
    vpermWrites g op wc d a b =
      wrV g 2 d (vecOf (vpermBits op (laneBits wc)) fun i => putMark (csSat (actBank g).cstat) mark (vpermBits op (laneBits wc)) (r i)) ::
        ovfIf 2 ((List.range (256 / vpermBits op (laneBits wc))).any fun i => mark != 0 && !fitsS (vpermBits op (laneBits wc)) (r i)) := by
  simp only [vpermResult] at hlane
  simp only [vpermWrites, hlane]
  rfl

/-- A permutation's row; OVF needs a mark. -/
theorem rowSends_vperm {s : State} {e k mark : Nat} {w rest : BitVec 64} {row : Instr} {op : VpermOp} {d a b : BitVec 5} {wc : BitVec 2} {c : Bool}
    {r : Nat → Int} (hexec : exec row s = .next (issueRow e w s)) (hw : w = withM rest 2 (fmtV (4 * k + wc.toNat) d.toNat a.toNat b.toNat 0))
    (hk : 0 < k ∧ k < 32) (hdec : decVperm k wc.toNat d.toNat a.toNat b.toNat = whenOk c (.vperm op wc.toNat d.toNat a.toNat b.toNat))
    (hlane : ∀ i, vpermResult (engOf s e) op wc.toNat a.toNat b.toNat i = (r i, mark)) (h : Issues s e w) :
    RowSends row s e w (wrV (engOf s e) 2 d.toNat (vecOf (vpermBits op (laneBits wc.toNat)) fun i =>
      putMark (csSat (actBank (engOf s e)).cstat) mark (vpermBits op (laneBits wc.toNat)) (r i)) ::
      ovfIf 2 ((List.range (256 / vpermBits op (laneBits wc.toNat))).any fun i => mark != 0 && !fitsS (vpermBits op (laneBits wc.toNat)) (r i))) := by
  rw [← vpermWrites_eq hlane]
  exact rowSends_mWrites hexec hw (by decide) (fmtV_lt (by omega) d.isLt a.isLt b.isLt (by decide)) (fun _ => decM_eq_vperm hk hdec) h

/-! ## fp32 (09 R401, R402) -/

/-- Lane `i` of an fp32 operation, with the flags it raises. -/
def vfpResult (g : Engine) (op : VfpOp) (d a b free i : Nat) : Nat × Nat :=
  fpLane op (lane (rdV g d) 32 i) (lane (rdV g a) 32 i) (lane (rdV g b) 32 i) (free + i)

section
variable {g : Engine} {op : VfpOp} {d a b free : Nat} {high : Bool} {r : Nat → Nat × Nat}

/-- A fused operation: one half, latency 3. -/
theorem vfpWrites_half (hop : vfpHalf op = true) (hlane : ∀ i, vfpResult g op d a b free i = r i) : vfpWrites g op d a b high free =
    [(3, .v (physV (actBank g).cstat d) (vecOf 32 fun i => (r i).1) (vecOf 32 fun i => if (if high then 4 ≤ i else i < 4) then 2 ^ 32 - 1 else 0)),
     (3, .sticky (BitVec.ofNat 32 (16 * (List.range 8).foldl (fun f i => if (if high then 4 ≤ i else i < 4) then f ||| (r i).2 else f) 0)))] := by
  simp only [vfpResult] at hlane
  cases high <;> simp [vfpWrites, hop, hlane]

/-- The others: every lane, latency 2. -/
theorem vfpWrites_whole (hop : vfpHalf op = false) (hlane : ∀ i, vfpResult g op d a b free i = r i) : vfpWrites g op d a b high free =
    [(2, .v (physV (actBank g).cstat d) (vecOf 32 fun i => (r i).1) (vecOf 32 fun _ => 2 ^ 32 - 1)),
     (2, .sticky (BitVec.ofNat 32 (16 * (List.range 8).foldl (fun f i => f ||| (r i).2) 0)))] := by
  simp only [vfpResult] at hlane
  simp [vfpWrites, hop, hlane]

end

section
variable {s : State} {e k : Nat} {w rest : BitVec 64} {row : Instr} {op : VfpOp} {d a b : BitVec 5} {high c : Bool} {r : Nat → Nat × Nat}
  (hexec : exec row s = .next (issueRow e w s)) (hw : w = withM rest 3 (fmtV k d.toNat a.toNat b.toNat high.toNat))
  (hk : 0 < k ∧ k < 128) (hdec : decVfp k d.toNat a.toNat b.toNat high = whenOk c (.vfp op d.toNat a.toNat b.toNat high))
include hexec hw hk hdec

theorem rowSends_vfpWrites (h : Issues s e w) : RowSends row s e w (vfpWrites (engOf s e) op d.toNat a.toNat b.toNat high s.freeCtr) :=
  rowSends_mWrites hexec hw (by decide) (fmtV_lt hk.2 d.isLt a.isLt b.isLt high.toNat_lt) (fun _ => decM_eq_vfp hk hdec) h

theorem rowSends_vfp_half (hop : vfpHalf op = true) (hlane : ∀ i, vfpResult (engOf s e) op d.toNat a.toNat b.toNat s.freeCtr i = r i)
    (h : Issues s e w) : RowSends row s e w
      [(3, .v (physV (actBank (engOf s e)).cstat d.toNat) (vecOf 32 fun i => (r i).1)
        (vecOf 32 fun i => if (if high then 4 ≤ i else i < 4) then 2 ^ 32 - 1 else 0)),
       (3, .sticky (BitVec.ofNat 32 (16 * (List.range 8).foldl (fun f i => if (if high then 4 ≤ i else i < 4) then f ||| (r i).2 else f) 0)))] := by
  rw [← vfpWrites_half hop hlane]
  exact rowSends_vfpWrites hexec hw hk hdec h

theorem rowSends_vfp_whole (hop : vfpHalf op = false) (hlane : ∀ i, vfpResult (engOf s e) op d.toNat a.toNat b.toNat s.freeCtr i = r i)
    (h : Issues s e w) : RowSends row s e w
      [(2, .v (physV (actBank (engOf s e)).cstat d.toNat) (vecOf 32 fun i => (r i).1) (vecOf 32 fun _ => 2 ^ 32 - 1)),
       (2, .sticky (BitVec.ofNat 32 (16 * (List.range 8).foldl (fun f i => f ||| (r i).2) 0)))] := by
  rw [← vfpWrites_whole (high := high) hop hlane]
  exact rowSends_vfpWrites hexec hw hk hdec h

end

end Sys2Proof.Machine

namespace Sys2Proof.Proofs
open Sys2Proof.Machine

/-- Settles O20, row by row: each word decodes to its operation, whose lanes are the exact result under its mark. -/
theorem valuResults : Obligations.ValuResults := by
  unfold Obligations.ValuResults
  refine ⟨?vadd, ?vsub, ?vhadd, ?vhsub, ?vmin, ?vmax, ?vabs, ?vneg, ?vand, ?vor, ?vxor, ?vsra, ?vsrl, ?vshl, ?vcmpgt, ?vcmpeq, ?vsel⟩
  case vadd =>
    intro e d a b wc f rest s w g c n x y r h
    exact RowSends.withOvf (rowSends_valu_marked rfl rfl (by decide) rfl
      (fun i => congrArg (fun y => (x i + y, true)) (signed_valuOperand ..)) h) any_spills
  case vsub =>
    intro e d a b wc f rest s w g c n x y r h
    exact RowSends.withOvf (rowSends_valu_marked rfl rfl (by decide) rfl
      (fun i => congrArg (fun y => (x i - y, true)) (signed_valuOperand ..)) h) any_spills
  case vhadd =>
    intro e d a b wc f rest s w g c n x y r h
    exact RowSends.first (rowSends_valu_plain rfl rfl (by decide) rfl
      (fun i => congrArg (fun y => (rndShift (csRnd c) (x i + y) 1, false)) (signed_valuOperand ..)) h)
  case vhsub =>
    intro e d a b wc f rest s w g c n x y r h
    obtain ⟨bb, hbb, hnext, hsent⟩ := RowSends.first (rowSends_valu_plain (k := 4) (row := .vhsub e d a b wc f rest)
      (r := fun i => orFree (laneBits wc.toNat) (s.freeCtr + i) (r i)) rfl rfl (by decide) rfl
      (fun i => congrArg (fun y => (orFree n (s.freeCtr + i) (rndShift (csRnd c) (x i - y) 1), false)) (signed_valuOperand ..)) h)
    simp only [wrapTo_orFree] at hsent
    exact ⟨bb, hbb, hnext, _, hsent⟩
  case vmin =>
    intro e d a b wc f rest s w g c n x y r h
    exact RowSends.first (rowSends_valu_plain rfl rfl (by decide) rfl
      (fun i => congrArg (fun y => (min (x i) y, false)) (signed_valuOperand ..)) h)
  case vmax =>
    intro e d a b wc f rest s w g c n x y r h
    exact RowSends.first (rowSends_valu_plain rfl rfl (by decide) rfl
      (fun i => congrArg (fun y => (max (x i) y, false)) (signed_valuOperand ..)) h)
  case vabs =>
    intro e d a wc rest s w g c n x r h
    exact RowSends.withOvf (rowSends_valu_marked (b := 0) (f := false) rfl rfl (by decide) rfl (fun _ => rfl) h) any_spills
  case vneg =>
    intro e d a wc rest s w g c n x r h
    exact RowSends.withOvf (rowSends_valu_marked (b := 0) (f := false) rfl rfl (by decide) rfl (fun _ => rfl) h) any_spills
  case vand =>
    intro e d a b f rest s w g c n x y r h
    exact RowSends.first (rowSends_valu_plain (k := 9) (wc := 0) rfl rfl (by decide) rfl (fun _ => rfl) h)
  case vor =>
    intro e d a b f rest s w g c n x y r h
    exact RowSends.first (rowSends_valu_plain (k := 10) (wc := 0) rfl rfl (by decide) rfl (fun _ => rfl) h)
  case vxor =>
    intro e d a b f rest s w g c n x y r h
    exact RowSends.first (rowSends_valu_plain (k := 11) (wc := 0) rfl rfl (by decide) rfl (fun _ => rfl) h)
  case vsra =>
    intro e d a sh wc rest s w g c n x r h
    exact RowSends.first (rowSends_valu_plain (f := false) rfl rfl (by decide) rfl (fun _ => rfl) h)
  case vsrl =>
    intro e d a sh wc rest s w g c n r h
    exact RowSends.first (rowSends_valu_plain (f := false) rfl rfl (by decide) rfl (fun _ => rfl) h)
  case vshl =>
    intro e d a sh wc rest s w g c n x r h
    exact RowSends.withOvf (rowSends_valu_marked (f := false) rfl rfl (by decide) rfl (fun _ => rfl) h) any_spills
  case vcmpgt =>
    intro e d a b wc f rest s w g c n x y r h
    exact RowSends.first (rowSends_valu_plain rfl rfl (by decide) rfl
      (fun i => congrArg (fun y => (if y < x i then -1 else 0, false)) (signed_valuOperand ..)) h)
  case vcmpeq =>
    intro e d a b wc f rest s w g c n x y r h
    exact RowSends.first (rowSends_valu_plain rfl rfl (by decide) rfl
      (fun i => congrArg (fun y => (if x i = y then -1 else 0, false)) (signed_valuOperand ..)) h)
  case vsel =>
    intro e d a b rest s w g c n x y z r h
    exact RowSends.first (rowSends_valu_plain (k := 17) (wc := 0) (f := false) rfl rfl (by decide) rfl (fun _ => rfl) h)

/-- Settles O21, row by row: the lanes written hold the old lane plus the exact addend. -/
theorem macResults : Obligations.MacResults := by
  unfold Obligations.MacResults
  refine ⟨?vmacH, ?vmsuH, ?vmacB, ?vmsuB, ?cmacL, ?cmacH, ?cmacjL, ?cmacjH, ?vmacsH, ?aadd, ?ald⟩
  case vmacH =>
    intro e d a b z rest s w g c u base v r h
    exact RowSends.withOvf (rowSends_mac_all rfl rfl (by decide) rfl (macResult_add (by decide)) h) any_spills
  case vmsuH =>
    intro e d a b z rest s w g c u base v r h
    exact RowSends.withOvf (rowSends_mac_all rfl rfl (by decide) rfl (macResult_add (by decide)) h) any_spills
  case vmacB =>
    intro e d a b z rest s w g c u base v r h
    exact RowSends.withOvf (rowSends_mac_all rfl rfl (by decide) rfl (macResult_add (by decide)) h) any_spills
  case vmsuB =>
    intro e d a b z rest s w g c u base v r h
    exact RowSends.withOvf (rowSends_mac_all rfl rfl (by decide) rfl (macResult_add (by decide)) h) any_spills
  case cmacL =>
    intro e d a b z rest s w g c u base v r h
    exact RowSends.withOvf (rowSends_mac_lanes rfl rfl (by decide) rfl (fun _ => macResult_ite (by decide) rfl) h)
      fun ⟨i, hi, hspill⟩ => any_lanes_spill ⟨i, hi.trans (by decide), hi, hspill⟩
  case cmacH =>
    intro e d a b z rest s w g c u base v r h
    exact RowSends.withOvf (rowSends_mac_lanes rfl rfl (by decide) rfl (fun _ => macResult_ite (by decide) rfl) h)
      fun ⟨i, hi, hlt, hspill⟩ => any_lanes_spill ⟨i, hlt, hi, hspill⟩
  case cmacjL =>
    intro e d a b z rest s w g c u base v r h
    exact RowSends.withOvf (rowSends_mac_lanes rfl rfl (by decide) rfl (fun _ => macResult_ite (by decide) rfl) h)
      fun ⟨i, hi, hspill⟩ => any_lanes_spill ⟨i, hi.trans (by decide), hi, hspill⟩
  case cmacjH =>
    intro e d a b z rest s w g c u base v r h
    exact RowSends.withOvf (rowSends_mac_lanes rfl rfl (by decide) rfl (fun _ => macResult_ite (by decide) rfl) h)
      fun ⟨i, hi, hlt, hspill⟩ => any_lanes_spill ⟨i, hlt, hi, hspill⟩
  case vmacsH =>
    intro e d a b z rest s w g c u base r h
    exact RowSends.withOvf (rowSends_mac_all rfl rfl (by decide) rfl (macResult_add (by decide)) h) any_spills
  case aadd =>
    intro e d a z rest s w g c base r h
    exact RowSends.withOvf (rowSends_mac_all (b := 0) rfl rfl (by decide) rfl (macResult_add (by decide)) h) any_spills
  case ald =>
    intro e d a sh rest s w g c r h
    exact RowSends.withOvf (rowSends_mac_all (z := false) rfl rfl (by decide) rfl macResult_ald h) any_spills

/-- Settles O22, row by row: each lane is the lane that its permutation names. -/
theorem vpermResults : Obligations.VpermResults := by
  unfold Obligations.VpermResults
  refine ⟨?vmulj, ?vmulnj, ?vconj, ?vsplat, ?vrot, ?vilvl, ?vilvh, ?vevn, ?vodd, ?vunpl, ?vunph, ?vpack⟩
  case vmulj =>
    intro e d a rest s w g c n x r h
    exact RowSends.withOvf (rowSends_vperm (op := .vmulj) (mark := 1) (k := 1) (b := 0) (wc := 1) rfl rfl (by decide) rfl
      (fun _ => (apply_ite (Prod.mk · 1) _ _ _).symm) h) any_spills
  case vmulnj =>
    intro e d a rest s w g c n x r h
    exact RowSends.withOvf (rowSends_vperm (op := .vmulnj) (mark := 1) (k := 2) (b := 0) (wc := 1) rfl rfl (by decide) rfl
      (fun _ => (apply_ite (Prod.mk · 1) _ _ _).symm) h) any_spills
  case vconj =>
    intro e d a rest s w g c n x r h
    exact RowSends.withOvf (rowSends_vperm (op := .vconj) (mark := 1) (k := 3) (b := 0) (wc := 1) rfl rfl (by decide) rfl
      (fun _ => (apply_ite (Prod.mk · 1) _ _ _).symm) h) any_spills
  case vsplat =>
    intro e d a k wc rest s w g c n x r h
    exact RowSends.first (rowSends_vperm (op := .vsplat) (mark := 0) rfl rfl (by decide) rfl (fun _ => rfl) h)
  case vrot =>
    intro e d a k wc rest s w g c n x r h
    exact RowSends.first (rowSends_vperm (op := .vrot) (mark := 0) rfl rfl (by decide) rfl (fun _ => rfl) h)
  case vilvl =>
    intro e d a b wc rest s w g c n x y r h
    exact RowSends.first (rowSends_vperm (op := .vilvl) (mark := 0) rfl rfl (by decide) rfl (fun _ => rfl) h)
  case vilvh =>
    intro e d a b wc rest s w g c n x y r h
    exact RowSends.first (rowSends_vperm (op := .vilvh) (mark := 0) rfl rfl (by decide) rfl (fun _ => rfl) h)
  case vevn =>
    intro e d a b wc rest s w g c n x y r h
    exact RowSends.first (rowSends_vperm (op := .vevn) (mark := 0) rfl rfl (by decide) rfl (fun _ => rfl) h)
  case vodd =>
    intro e d a b wc rest s w g c n x y r h
    exact RowSends.first (rowSends_vperm (op := .vodd) (mark := 0) rfl rfl (by decide) rfl (fun _ => rfl) h)
  case vunpl =>
    intro e d a wc rest s w g c n x r h
    exact RowSends.first (rowSends_vperm (op := .vunpl) (mark := 0) (b := 0) rfl rfl (by decide) rfl (fun _ => rfl) h)
  case vunph =>
    intro e d a wc rest s w g c n x r h
    exact RowSends.first (rowSends_vperm (op := .vunph) (mark := 0) (b := 0) rfl rfl (by decide) rfl (fun _ => rfl) h)
  case vpack =>
    intro e d a b wc rest s w g c n x y r h
    exact RowSends.withOvf (rowSends_vperm (op := .vpack) (mark := 2) rfl rfl (by decide) rfl (fun _ => rfl) h) any_spills

/-- Settles O23, row by row: the lanes and the flags are those of the operation on each lane. -/
theorem vfpResults : Obligations.VfpResults := by
  unfold Obligations.VfpResults
  refine ⟨?vfma, ?vfms, ?vfmul, ?vfadd, ?vfsub, ?vfmin, ?vfmax, ?vfabs, ?vfneg, ?vfcmpgt, ?vcvtf, ?vcvti⟩
  case vfma =>
    intro e d a b high rest s w g c x y u r h
    exact RowSends.both (rowSends_vfp_half (op := .vfma) rfl rfl (by decide) rfl rfl (fun _ => rfl) h)
  case vfms =>
    intro e d a b high rest s w g c x y u r h
    exact RowSends.both (rowSends_vfp_half (op := .vfms) rfl rfl (by decide) rfl rfl (fun _ => rfl) h)
  case vfmul =>
    intro e d a b high rest s w g c x y r h
    exact RowSends.both (rowSends_vfp_half (op := .vfmul) rfl rfl (by decide) rfl rfl (fun _ => rfl) h)
  case vfadd =>
    intro e d a b rest s w g c x y r h
    exact RowSends.both (rowSends_vfp_whole (op := .vfadd) (high := false) rfl rfl (by decide) rfl rfl (fun _ => rfl) h)
  case vfsub =>
    intro e d a b rest s w g c x y r h
    exact RowSends.both (rowSends_vfp_whole (op := .vfsub) (high := false) rfl rfl (by decide) rfl rfl (fun _ => rfl) h)
  case vfmin =>
    intro e d a b rest s w g c x y r h
    exact RowSends.both (rowSends_vfp_whole (op := .vfmin) (high := false) rfl rfl (by decide) rfl rfl (fun _ => rfl) h)
  case vfmax =>
    intro e d a b rest s w g c x y r h
    exact RowSends.both (rowSends_vfp_whole (op := .vfmax) (high := false) rfl rfl (by decide) rfl rfl (fun _ => rfl) h)
  case vfabs =>
    intro e d a rest s w g c p x r h
    exact RowSends.both (rowSends_vfp_whole (op := .vfabs) (b := 0) (high := false) rfl rfl (by decide) rfl rfl (fun _ => rfl) h)
  case vfneg =>
    intro e d a rest s w g c p x r h
    exact RowSends.both (rowSends_vfp_whole (op := .vfneg) (b := 0) (high := false) rfl rfl (by decide) rfl rfl (fun _ => rfl) h)
  case vfcmpgt =>
    intro e d a b rest s w g c x y r h
    exact RowSends.both (rowSends_vfp_whole (op := .vfcmpgt) (high := false) rfl rfl (by decide) rfl rfl (fun _ => rfl) h)
  case vcvtf =>
    intro e d a rest s w g c p r h
    exact RowSends.both (rowSends_vfp_whole (op := .vcvtf) (b := 0) (high := false) rfl rfl (by decide) rfl rfl (fun _ => rfl) h)
  case vcvti =>
    intro e d a rest s w g c x r h
    exact RowSends.both (rowSends_vfp_whole (op := .vcvti) (b := 0) (high := false) rfl rfl (by decide) rfl rfl (fun _ => rfl) h)

end Sys2Proof.Proofs
end

section
/-! PROOF. The interleaving of a device address over the channels of a set: the xor of its groups, the set bit of the mask that they name, and the
channel address (10 R460). -/
namespace Sys2Proof.Machine

/-! ## The groups of an address -/

/-- The groups are folded from the lowest up. -/
theorem foldl_groups (k n a x : Nat) :
    (List.range n).foldl (fun b i => b ^^^ (x / 2 ^ (k * i) % 2 ^ k)) a = a ^^^ xorGroups k n x := by
  induction n generalizing a x with
  | zero => simp [xorGroups]
  | succ n ih =>
    have hshift (i : Nat) : x / 2 ^ (k * (i + 1)) = x / 2 ^ k / 2 ^ (k * i) := by
      rw [Nat.div_div_eq_div_mul, ← Nat.pow_add, Nat.mul_succ, Nat.add_comm]
    simp only [List.range_succ_eq_map, List.foldl_cons, List.foldl_map, Nat.succ_eq_add_one, hshift, ih, xorGroups, Nat.mul_zero,
      Nat.pow_zero, Nat.div_one, Nat.xor_assoc]

theorem xorGroups_lt (k n x : Nat) : xorGroups k n x < 2 ^ k := by
  induction n generalizing x with
  | zero => exact Nat.two_pow_pos k
  | succ n ih => exact Nat.xor_lt_two_pow (Nat.mod_lt _ (Nat.two_pow_pos k)) (ih _)

/-! ## The set bits of a mask -/

theorem popUpTo_eq_length (n v : Nat) : popUpTo n v = ((List.range n).filter v.testBit).length := by
  induction n generalizing v with
  | zero => rfl
  | succ n ih =>
    have hshift : v.testBit ∘ Nat.succ = (v / 2).testBit := funext fun i => Nat.testBit_succ v i
    rw [popUpTo, ih, List.range_succ_eq_map, List.filter_cons, List.filter_map, hshift, Nat.testBit_zero]
    obtain h | h := Nat.mod_two_eq_zero_or_one v <;> simp [h, Nat.add_comm]

/-- The place of a number in the rising list of those below `n` that satisfy `p` is the count of those below it. -/
theorem of_getElem?_filter_range {p : Nat → Bool} {n m c : Nat} (h : ((List.range n).filter p)[m]? = some c) :
    c < n ∧ p c = true ∧ ((List.range c).filter p).length = m := by
  induction n with
  | zero => simp at h
  | succ n ih =>
    rw [List.range_succ, List.filter_append, List.getElem?_append] at h
    split at h
    next hlow =>
      obtain ⟨hlt, hp, hcount⟩ := ih h
      exact ⟨hlt.trans n.lt_succ_self, hp, hcount⟩
    next hhigh =>
      cases hp : p n
      · simp [hp] at h
      · simp only [List.filter_cons, hp, if_true, List.filter_nil, List.getElem?_singleton, Option.ite_none_right_eq_some, Option.some_inj] at h
        obtain ⟨hlast, rfl⟩ := h
        exact ⟨n.lt_succ_self, hp, by omega⟩

theorem nthBit_spec {mask m : Nat} (h : m < ((List.range 16).filter mask.testBit).length) :
    nthBit mask m < 16 ∧ mask.testBit (nthBit mask m) = true ∧ ((List.range (nthBit mask m)).filter mask.testBit).length = m := by
  apply of_getElem?_filter_range
  simp [nthBit, List.getElem?_eq_getElem h]

/-! ## The channel and the channel address -/

theorem isetK_of_length {mask k : Nat} (h : ((List.range 16).filter mask.testBit).length = 2 ^ k) : isetK mask = k := by
  rw [isetK, popUpTo_eq_length, h, Nat.log2_two_pow]

/-- One group of no bits is 0, so a set of one channel needs no case of its own. -/
theorem chanOf_eq {mask k dpa : Nat} (hk : isetK mask = k) (hdpa : dpa < 2 ^ 52) : chanOf mask dpa = nthBit mask (xorGroups k 44 (dpa / 2 ^ 8)) := by
  have hgroup : dpa / 256 % 2 ^ 44 = dpa / 2 ^ 8 := by omega
  have hnone (hzero : k = 0) : xorGroups k 44 (dpa / 2 ^ 8) = 0 := by
    have := xorGroups_lt k 44 (dpa / 2 ^ 8)
    subst hzero; omega
  simp only [chanOf, hk, hgroup]
  split
  next hzero => rw [hnone hzero]
  next => rfl

/-- Addresses of one run of 256 bytes share their channel. -/
theorem chanOf_congr {mask a b : Nat} (h : a / 256 = b / 256) : chanOf mask a = chanOf mask b := by
  simp only [chanOf, h]

end Sys2Proof.Machine

namespace Sys2Proof.Proofs
open Sys2Proof.Machine

/-- Settles O59: the folded groups are an index into the set bits of the mask, for there are 2^k of these and the groups have k bits. -/
theorem interleaveChannel : Obligations.InterleaveChannel := by
  unfold Obligations.InterleaveChannel
  refine ⟨?channel, fun x line s => ⟨rfl, rfl⟩, by decide⟩
  case channel =>
    intro mask k dpa m c _ hcount hdpa
    have hk := isetK_of_length hcount
    have hm : m = xorGroups k 44 (dpa / 2 ^ 8) := (foldl_groups k 44 0 _).trans (Nat.zero_xor _)
    have hc : c = nthBit mask m := hm ▸ chanOf_eq hk hdpa
    obtain ⟨hlt, hset, hbelow⟩ : nthBit mask m < 16 ∧ mask.testBit (nthBit mask m) = true ∧ _ :=
      nthBit_spec (hcount ▸ hm ▸ xorGroups_lt k 44 _)
    rw [hc]
    refine ⟨hlt, hset, hbelow, ?address, fun j hj => ?run⟩
    case address => simp only [chanAddr, hk, Nat.reducePow]
    case run =>
      rw [← hc]
      exact chanOf_congr (by omega)

end Sys2Proof.Proofs
end

section
/-! PROOF. Accepted writes of the address map, endpoint, tenant, owner, quota and guest gate objects: the effect of each write on the answered state,
whatever path carries it (01 R36 to R39; 10 R427, R452, R456; 11 R488, R503, R506, R514, R517; 15 R648). -/
namespace Sys2Proof.Machine

variable {s : State} {r : Req} {len val : Nat}

/-! ## The address map (10 R452, R456) -/

theorem wrSamEntry_accepted {e : Nat} (h : Accepted s r (samKey e) len val { value := samValueOk val, state := samStateOk s e val }) :
    wrSamEntry r e len val s = samStore (answer s 0#32) e val :=
  objWriteG_accepted _ _ h

/-- Every subindex of the two entry objects lies below SAM_STALE. -/
theorem samKey_ne_stale {e : Nat} (he : e < 256) : samKey e ≠ O_SAM_STALE := by
  unfold samKey O_SAM_ENTRY_LO O_SAM_ENTRY_HI O_SAM_STALE
  split <;> omega

@[simp] theorem samStore_fw (s : State) (e v : Nat) : (samStore s e v).fw = (logEv s 0x2801 sevWarn e).fw := rfl
@[simp] theorem samStore_cache (s : State) (e v : Nat) : (samStore s e v).vent.cache = s.vent.cache := rfl
@[simp] theorem samStore_eng (s : State) (e v : Nat) : (samStore s e v).eng = s.eng := rfl
@[simp] theorem samStore_hub (s : State) (e v : Nat) : (samStore s e v).hub = s.hub := rfl

theorem oGet_samStore_self {e : Nat} (s : State) (v : Nat) (he : e < 256) : oGet (samStore s e v) (samKey e) = v := by
  simp only [samStore, oGet_logEv, oGet_setVent, oGet_oSet_other _ _ (samKey_ne_stale he), oGet_oSet_self]

theorem wrSamInvalidate_accepted (h : Accepted s r O_SAM_INVALIDATE len val {}) :
    wrSamInvalidate r len val s = unanswered (beginInval (answer s 0#32) (if val = 0xFFFF then none else some val)) :=
  objWriteP_accepted _ h

/-! ## Soft endpoints (10 R427) -/

/-- What a write of EP_BIND holds: an ID, a partition and an operation, side by side. -/
theorem epBind_fields (id : BitVec 16) (part : BitVec 8) {val op : Nat} (hval : val = id.toNat + part.toNat * 65536 + op * 2 ^ 24) (hop : op < 256) :
    val % 65536 = id.toNat ∧ val / 65536 % 256 = part.toNat ∧ val / 2 ^ 24 % 256 = op := by
  have := id.isLt
  have := part.isLt
  omega

theorem wrEpBind_bind {id : BitVec 16} {part : BitVec 8} (hval : val = id.toNat + part.toNat * 65536 + 1 * 2 ^ 24)
    (hid : 0x500 ≤ id.toNat) (htop : id.toNat ≤ 0x3FFF) (hpart : part.toNat < 128)
    (h : Accepted s r O_EP_BIND len val
      { owns := actor s r == 0 || (part.toNat < 128 && partOwner s part.toNat == actor s r)
        cap := s.vent.soft.length < 15104
        state := (softPart s id.toNat).isNone }) :
    wrEpBind r len val s = setVent (answer s 0#32) { s.vent with soft := tabPut s.vent.soft id.toNat part.toNat } := by
  obtain ⟨hidOf, hpartOf, hopOf⟩ := epBind_fields id part hval (by omega)
  simp only [wrEpBind, hidOf, hpartOf, hopOf]
  refine (objWriteG_accepted _ _ ?_).trans rfl
  simpa [hid, htop, hpart] using h

theorem wrEpBind_release {id : BitVec 16} {part : BitVec 8} (hval : val = id.toNat + part.toNat * 65536 + 2 * 2 ^ 24) (hpart : part.toNat < 128)
    (h : Accepted s r O_EP_BIND len val
      { owns := actor s r == 0 || (part.toNat < 128 && partOwner s part.toNat == actor s r)
        state := softPart s id.toNat == some part.toNat }) :
    wrEpBind r len val s = setVent (answer s 0#32) { s.vent with soft := tabDel s.vent.soft id.toNat } := by
  obtain ⟨hidOf, hpartOf, hopOf⟩ := epBind_fields id part hval (by omega)
  simp only [wrEpBind, hidOf, hpartOf, hopOf]
  refine (objWriteG_accepted _ _ ?_).trans rfl
  simpa [hpart] using h

/-! ## Tenant reset and owners (01 R36 to R39, R44; 11 R501) -/

theorem accessMap_answer (s : State) (c : BitVec 32) (path addr n i : Nat) : accessMap (answer s c) path addr n i = accessMap s path addr n i := by
  induction n generalizing i with
  | zero => rfl
  | succ n ih => simp only [accessMap, oGet_answer, ih]

/-- The answer has no part in the requester's role. -/
theorem roleOf_answer (s : State) (c : BitVec 32) (r : Req) : roleOf (answer s c) r = roleOf s r := by
  unfold roleOf
  simp only [accessMap_answer, oGet_answer]
  rfl

theorem wrTenantReset_accepted
    (h : Accepted s r 0x292001 len val { value := val ≤ 15, owns := (match r.view with | some w => w.toNat == val | none => true) }) :
    wrTenantReset r len val s = startReset (answer s 0#32) val (match roleOf s r with | .tenant _ => 1 | _ => 2) := by
  rw [← roleOf_answer s 0#32 r]
  exact objWriteG_accepted _ _ h

@[simp] theorem planTime_answer (s : State) (c : BitVec 32) : planTime (answer s c) = planTime s := rfl
@[simp] theorem reassignBlocked_answer (s : State) (c : BitVec 32) (k owner : Nat) :
    reassignBlocked (answer s c) k owner = reassignBlocked s k owner := rfl

section Owner
variable {k : Nat} (h : Accepted s r (ownerKey k) len val { value := val ≤ 15, state := (tabFind s.ten.reassign k).isNone })
  (hnew : oGet s (ownerKey k) ≠ val)
include h hnew

/-- While the tenant plan is applied the owner changes at once (log entry 54). -/
theorem wrOwner_planTime (hplan : planTime s = true) : wrOwner r k len val s = oSet (answer s 0#32) (ownerKey k) val := by
  simp only [wrOwner, objWriteG_accepted _ _ h, oGet_answer, if_neg hnew, planTime_answer, hplan, if_true]

theorem wrOwner_starts (hplan : planTime s = false) (hfree : reassignBlocked s k val = false) :
    wrOwner r k len val s = reassignStart (answer s 0#32) k val := by
  simp only [wrOwner, objWriteG_accepted _ _ h, oGet_answer, if_neg hnew, planTime_answer, hplan, reassignBlocked_answer, hfree, Bool.false_eq_true, if_false]

end Owner

/-! ## Fault records (11 R503, R517) -/

section FaultClear
variable {t : Nat} (h : Accepted s r (O_FAULT_CLEAR t) len val {})
include h

theorem wrFaultClear_left {new : Nat} (hnew : oGet s (O_FAULT_RECORD t) ^^^ (oGet s (O_FAULT_RECORD t) &&& val) = new) (hleft : new ≠ 0) :
    wrFaultClear r t len val s = oSet (answer s 0#32) (O_FAULT_RECORD t) new := by
  simp only [wrFaultClear, objWriteP_accepted _ h, oGet_answer, hnew, if_neg hleft]

theorem wrFaultClear_none (hnew : oGet s (O_FAULT_RECORD t) ^^^ (oGet s (O_FAULT_RECORD t) &&& val) = 0) :
    wrFaultClear r t len val s = oSet (oSet (answer s 0#32) (O_FAULT_RECORD t) 0) (O_FAULT_INFO t) 0 := by
  simp only [wrFaultClear, objWriteP_accepted _ h, oGet_answer, hnew, if_true]

end FaultClear

/-! ## The host quota (11 R488) -/

section Quota
variable (h : Accepted s r O_HOST_QUOTA_MIB len val { value := val % 16 == 0 && val ≤ 256, state := s.hub.evicting.isNone })
include h

theorem wrHostQuotaMib_larger (hfits : s.hub.quota ≤ val) :
    wrHostQuotaMib r len val s = oSet (setHub (answer s 0#32) { s.hub with quota := val }) O_HOST_QUOTA_MIB val :=
  (objWriteG_accepted _ _ h).trans (if_pos hfits)

theorem wrHostQuotaMib_smaller (hless : val < s.hub.quota) :
    wrHostQuotaMib r len val s = unanswered (setHub s { s.hub with evicting := some val }) :=
  (objWriteG_accepted _ _ h).trans (if_neg (Nat.not_le.2 hless))

end Quota

/-! ## Guest gates (11 R506, R514) -/

theorem wrGgControl_enable {g : Nat}
    (h : Accepted s r (O_GG_CONTROL g) len 1 { state := s.fuse.sites.getLsbD g && (enabled s (unGuest g) && gateState s g == 0 && s.rst.lc.toNat ≤ 2) }) :
    wrGgControl r g len 1 s = oSet (answer s 0#32) (O_GG_STATE g) 1 := by
  unfold wrGgControl
  exact objWriteG_accepted _ _ h

theorem wrGgControl_release {g : Nat}
    (h : Accepted s r (O_GG_CONTROL g) len 2 { state := s.fuse.sites.getLsbD g && (gateState s g == 3 && (gate s g).walked) }) :
    wrGgControl r g len 2 s =
      logEv (oSet (oSet (setGate (answer s 0#32) g { gate s g with walked := false }) (O_GG_VIOL_COUNT g) 0) (O_GG_STATE g) 1) 0x290C sevInfo g := by
  unfold wrGgControl
  exact objWriteG_accepted _ _ h

/-- From every state of the gate (log entry 51). -/
theorem wrGgControl_holdReset {g : Nat} (h : Accepted s r (O_GG_CONTROL g) len 3 { state := s.fuse.sites.getLsbD g }) :
    wrGgControl r g len 3 s = oSet (muteGuest (answer s 0#32) g) (O_GG_STATE g) 0 := by
  rw [← Bool.and_true (s.fuse.sites.getLsbD g)] at h
  unfold wrGgControl
  exact objWriteG_accepted _ _ h

end Sys2Proof.Machine

namespace Sys2Proof.Proofs
open Sys2Proof.Machine

/-- Settles O8: each row is the write of its object, whose effect the law of that write gives. -/
theorem tenantWrites : Obligations.TenantWrites := by
  unfold Obligations.TenantWrites
  refine ⟨fun r e v s h => congrArg _ (wrSamEntry_accepted h),
    fun s e v he => ⟨_, rfl, oGet_samStore_self s v he, samStore_fw s e v, samStore_cache s e v, samStore_eng s e v, samStore_hub s e v⟩,
    fun r v s h => congrArg _ (wrSamInvalidate_accepted h), ?bind, ?release,
    fun r v s h => congrArg _ (wrTenantReset_accepted h),
    fun r p v s h hnew hplan hfree => congrArg _ (wrOwner_starts h hnew hplan hfree),
    fun r e v s h hnew hplan => congrArg _ (wrOwner_planTime h hnew hplan),
    fun r e v s h hnew hplan hfree => congrArg _ (wrOwner_starts h hnew hplan hfree),
    ?faultLeft, ?faultNone,
    fun r v s h hfits => congrArg _ (wrHostQuotaMib_larger h hfits), fun r v s h hless => congrArg _ (wrHostQuotaMib_smaller h hless),
    fun r g s h => congrArg _ (wrGgControl_enable h), fun r g s h => congrArg _ (wrGgControl_release h),
    fun r g s h => congrArg _ (wrGgControl_holdReset h)⟩
  case bind =>
    intro r id part s val hrange h
    obtain ⟨hid, htop, hpart⟩ := hrange
    exact congrArg _ (wrEpBind_bind (by omega) hid htop hpart h)
  case release =>
    intro r id part s val hpart h
    exact congrArg _ (wrEpBind_release (by omega) hpart h)
  case faultLeft =>
    intro r t v s new h hleft
    exact congrArg _ (wrFaultClear_left h rfl hleft)
  case faultNone =>
    intro r t v s new h hnone
    exact congrArg _ (wrFaultClear_none h hnone)

end Sys2Proof.Proofs
end

section
/-! PROOF. A request from its row to its target: what the gateway lets pass and what it answers itself, how a header arrives, and what an access point
makes of the requests and the write data of its logic (01 R29, R54; 10 R428, R431, R435, R438, R453, R462). -/
namespace Sys2Proof.Machine

/-! ## Where requests are answered (04 R178) -/

theorem serving_of_operating {s : State} (h : operating s = true) : serving s = true := by simp [serving, h]
theorem serving_of_entering {s : State} (h : entering s = true) : serving s = true := by simp [serving, h]
theorem entering_of_operating {s : State} (h : operating s = true) : entering s = false := by
  obtain ⟨-, -, -, hstandby, -⟩ := (operating_iff s).1 h
  simp [entering, hstandby]

/-! ## The request rows (10 R433) -/

/-- The five rows are one operation with their commands; only reads bring upsets. -/
theorem exec_requestRows {s : State} {h : VHdr} (up : Fin 16) {go : Nat → Nat → State} (hs : serving s = true)
    (hrow : ∀ cmd u, ventRow s h cmd u = go cmd u) :
    exec (.rd h up) s = .next (go 1 up) ∧ exec (.rdp h up) s = .next (go 2 up) ∧ exec (.wr h) s = .next (go 0x10 0) ∧
      exec (.wrp h) s = .next (go 0x11 0) ∧ exec (.msg h) s = .next (go 0x20 0) := by
  have hserved (cmd u : Nat) : (if serving s then ventRow s h cmd u else s) = go cmd u := by rw [if_pos hs, hrow]
  exact ⟨congrArg _ (hserved 1 up), congrArg _ (hserved 2 up), congrArg _ (hserved 0x10 0), congrArg _ (hserved 0x11 0), congrArg _ (hserved 0x20 0)⟩

theorem pointOf_rowHdr_mgmt {h : VHdr} (hinit : h.init = .mgmt) (cmd : Nat) : pointOf (rowHdr h cmd).init = none :=
  congrArg pointOf hinit

section Mgmt
variable {s : State} {h : VHdr} (hinit : h.init = .mgmt) (hfree : tabFind s.vent.txs (txKey h.init h.txn.toNat) = none)
include hinit hfree

theorem ventRow_mgmt_injects (hent : entering s = false) (cmd up : Nat) : ventRow s h cmd up = inject s (rowHdr h cmd) h.pk up := by
  rw [hinit] at hfree
  simp [ventRow, hinit, hfree, hent]

theorem ventRow_mgmt_entering (hent : entering s = true) (cmd up : Nat) : ventRow s h cmd up = answerHere s s (rowHdr h cmd) none rGated := by
  rw [hinit] at hfree
  simp [ventRow, hinit, hfree, hent]

/-- The core's requests pass the gateway, with initiator code 1 (01 R32). -/
theorem inject_mgmt (cmd : Nat) (p : Pkt) (up : Nat) : inject s (rowHdr h cmd) p up = injectGate s 1 (rowHdr h cmd) p up := by
  have hinit' : (rowHdr h cmd).init = .mgmt := hinit
  have hfree' : tabFind s.vent.txs (txKey .mgmt (rowHdr h cmd).txn) = none := hinit ▸ hfree
  simp [inject, hinit', hfree', pointOf, gwCode]

end Mgmt

/-! ## Order at the source (01 R54; 10 R440) -/

/-- Only the messages of an initiator that is no injection point wait for each other, and only on a route. -/
theorem behind_of_no_point {s : State} {h : Hdr} {r : Option Route} (hpoint : pointOf h.init = none) (hmsg : h.cmd ≠ 0x20 ∨ r = none) :
    behind s h r = false := by
  obtain hcmd | rfl := hmsg
  · simp [behind, hpoint, hcmd]
  · simp [behind, hpoint]

theorem answerHere_of_not_behind {s s1 : State} {h : Hdr} {r : Option Route} (code : Nat) (hfirst : behind s h r = false) :
    answerHere s s1 h r code = noInject s1 h code := by
  simp [answerHere, hfirst]

/-! ## Trackers and the gateway (01 R29, R31; 10 R438, R453) -/

theorem grant_now {s : State} {i : Init} (go : State → State) (hlimit : trackersHeld s i < trackerLimit i) (hleft : trackersGranted s < 64512)
    (hturn : trkTurn s (srcPort i) = true) : grant s i go = go (setVent s { s.vent with trkWait := s.vent.trkWait.filter (· != srcPort i) }) := by
  simp [grant, Nat.not_le.2 hlimit, hleft, hturn]

section Gate
variable {s : State} {h : Hdr} {code : Nat} {p : Pkt} {up : Nat} (hdevice : h.addr < controlBase)
include hdevice

theorem injectGate_uncovered (hroute : liveRoute s h.addr = none) : injectGate s code h p up = noInject s h rDecerr := by
  simp only [injectGate, if_neg (Nat.not_le.2 hdevice), hroute]

theorem injectGate_admitted {r : Route} (hroute : liveRoute s h.addr = some r)
    (hadmits : gwAdmits s h.init (samKind r.raw) (samForm r.raw h.addr / 64) h.cmd none = true) (hfirst : behind s h (some r) = false)
    (hroom : inFull s r = false) : injectGate s code h p up = grant s h.init fun a => travel a h r p up := by
  simp only [injectGate, if_neg (Nat.not_le.2 hdevice), hroute, hadmits, hfirst, hroom, Bool.not_true, Bool.or_self, Bool.false_eq_true, if_false]

end Gate

/-! ## How a header arrives (10 R428, R431, R435) -/

section Travel
variable {s : State} {h : Hdr} {p : Pkt} (r : Route) (up : Nat)

theorem travel_uncorrectable (hbad : p.herr = 2) :
    travel s h r p up = headerLost (headerBad s p 0 (srcPort h.init) (takerPort r h.addr)) h (takerPort r h.addr) := by
  simp only [travel, hbad, if_true]

variable (hread : p.herr ≠ 2)
include hread

theorem travel_fine (hodd : p.odd = .fine) :
    travel s h r p up = arrive (headerOk s p) h r (judge s h.init h.cmd h.addr h.hint r) up := by
  simp only [travel, if_neg hread, hodd]
  cases pointOf h.init <;> rfl

theorem travel_misaddressed {q : Fin 512} (hpoint : pointOf h.init = none) (hodd : p.odd = .misaddressed q) :
    travel s h r p up = refused (headerOk s p) h q.val rDecerr := by
  simp only [travel, if_neg hread, hpoint, hodd]

theorem travel_reserved {c : BitVec 8} {v : BitVec 3} (hpoint : pointOf h.init = none) (hodd : p.odd = .reserved c v) :
    travel s h r p up =
      (if v = 0#3 then refused (packetOdd (headerOk s p) c.toNat v.toNat (takerPort r h.addr)) h (takerPort r h.addr) rSlverr
        else headerLost (packetOdd (headerOk s p) c.toNat v.toNat (takerPort r h.addr)) h (takerPort r h.addr)) := by
  simp only [travel, if_neg hread, hpoint, hodd]

end Travel

/-! ## Access points (10 R435, R462; 01 R39, R54; 04 R173) -/

section AccessPoint
variable {s : State} {p : Nat} {q : ApReq}

/-- A request that the access point does not refuse itself waits for its row. -/
theorem apFlush_waits (hqueue : tabGet s.vent.apq p [] = [q]) (hcode : q.code = none) : apFlush s p = s := by
  simp [apFlush, apDrain, hqueue, hcode]

/-- A refused one is answered once no open request of the partition is to its line. -/
theorem apFlush_answers {c : Nat} (hqueue : tabGet s.vent.apq p [] = [q]) (hcode : q.code = some c)
    (hline : (s.vent.txs.any fun x => !x.2.gone && x.1 / 65536 == apPort p && x.2.addr / 64 == q.addr / 64) = false) :
    apFlush s p = apGive (setVent s { s.vent with apq := tabSet s.vent.apq p [] [] }) p q.tag c 0#512 := by
  simp only [apFlush, apDrain, hqueue, hcode, hline, List.length_singleton, Bool.false_eq_true, if_false]

end AccessPoint

section Logic
variable {s : State} {p : Fin 128} (hs : serving s = true) (hruns : partRuns s p = true)
include hs hruns

theorem exec_apRequest_taken {tag : BitVec 8} (cmd : BitVec 8) (addr : BitVec 52) (be : BitVec 64) (len : BitVec 5) (aux : BitVec 64)
    (qos hint : BitVec 2) (htag : tagBusy s p tag.toNat = false) :
    exec (.apRequest p cmd addr be len aux tag qos hint) s = .next (apRequest s p
      { cmd := cmd.toNat, addr := addr.toNat, be := be, len := len.toNat, aux := aux, tag := tag.toNat, hint := hint.toNat, wbase := 0, qos := qos }) := by
  refine congrArg _ (if_pos ?_)
  simp [hs, hruns, htag]

theorem exec_apWriteData_taken (data : BitVec 512) (last : Bool) (hwanted : tabGet s.vent.wrecv p 0 < tabGet s.vent.wneed p 0) :
    exec (.apWriteData p data last) s = .next (setVent s { s.vent with
      wrecv := tabPut s.vent.wrecv p (tabGet s.vent.wrecv p 0 + 1)
      wlast := setBit s.vent.wlast p last
      wdata := if flitWanted s p (tabGet s.vent.wrecv p 0) then tabPut s.vent.wdata (p * 2 ^ 40 + tabGet s.vent.wrecv p 0) data else s.vent.wdata }) := by
  refine congrArg _ (if_pos ?_)
  simp [hs, hruns, hwanted]

end Logic

end Sys2Proof.Machine

namespace Sys2Proof.Proofs
open Sys2Proof.Machine

/-- Settles O31: the five rows by the way of the core's request through the gateway, the header by the law of each arrival, the access point by its queue. -/
theorem requestHeaders : Obligations.RequestHeaders := by
  unfold Obligations.RequestHeaders
  refine ⟨?travels, ?uncovered, ?gated, ?arrives, ?request, ?data⟩
  case travels =>
    intro h up r s x s1 go hinit hop hfree hgrant hroute hadmits hmsg
    obtain ⟨hlimit, hleft, hturn⟩ := hgrant
    obtain ⟨hdevice, hroute, hroom⟩ := hroute
    refine exec_requestRows up (serving_of_operating hop) fun cmd u => ?_
    have hinit' : (x cmd).init = .mgmt := hinit
    have hfirst : behind s (x cmd) (some r) = false := by
      by_cases hcmd : cmd = 0x20
      · exact hcmd ▸ hmsg
      · exact behind_of_no_point (pointOf_rowHdr_mgmt hinit cmd) (.inl hcmd)
    rw [ventRow_mgmt_injects hinit hfree (entering_of_operating hop), inject_mgmt hinit hfree,
      injectGate_admitted hdevice hroute (by rw [hinit']; exact hadmits) hfirst hroom, hinit']
    exact grant_now _ hlimit hleft hturn
  case uncovered =>
    intro h up s no hinit hop hfree hroute
    obtain ⟨hdevice, hroute⟩ := hroute
    refine exec_requestRows up (go := fun cmd _ => no cmd rDecerr) (serving_of_operating hop) fun cmd u => ?_
    rw [ventRow_mgmt_injects hinit hfree (entering_of_operating hop), inject_mgmt hinit hfree, injectGate_uncovered hdevice hroute]
  case gated =>
    intro h up s no hinit hent hfree
    refine exec_requestRows up (go := fun cmd _ => no cmd) (serving_of_entering hent) fun cmd u => ?_
    rw [ventRow_mgmt_entering hinit hfree hent, answerHere_of_not_behind _ (behind_of_no_point (pointOf_rowHdr_mgmt hinit cmd) (.inr rfl))]
  case arrives =>
    exact fun s h r p u => ⟨travel_uncorrectable r u, travel_fine r u, fun q hread => travel_misaddressed r u hread,
      fun c v hread => travel_reserved r u hread⟩
  case request =>
    intro p cmd addr be len aux tag qos hint s base code q s1 hs hruns htag
    have hqueue (hempty : tabGet s.vent.apq p [] = []) : tabGet s1.vent.apq p [] = [q] := by simp [s1, hempty]
    refine ⟨exec_apRequest_taken hs hruns cmd addr be len aux qos hint htag, fun hempty hcode => apFlush_waits (hqueue hempty) hcode,
      fun c hempty hcode hline => apFlush_answers (hqueue hempty) hcode hline⟩
  case data =>
    intro p data last s n hs hruns hwanted
    exact exec_apWriteData_taken hs hruns data last hwanted

end Sys2Proof.Proofs
end

section
/-! PROOF. What moves an open transaction: the packet that each row takes, what its loss leaves, the answers from outside and the timeout, and how
fetches, invalidations and token buckets go on (01 R49; 10 R431 to R440, R448, R454, R456, R462, R464). -/
namespace Sys2Proof.Machine

/-! ## A packet, and its loss (10 R431, R435) -/

section Packet
variable {s : State} {p : Pkt} {vn cmd src at_ : Nat} {lose : Bool → State → State} {take : State → State}

theorem packet_uncorrectable (hbad : p.herr = 2) : packet s p vn cmd src at_ lose take = lose false (headerBad s p vn src at_) := by
  simp only [packet, hbad, if_true]

theorem packet_fine (hway : p.herr ≠ 2 ∧ p.odd = .fine) : packet s p vn cmd src at_ lose take = take (headerOk s p) := by
  simp only [packet, if_neg hway.1, hway.2]

theorem packet_reserved {c : BitVec 8} {v : BitVec 3} (hway : p.herr ≠ 2 ∧ p.odd = .reserved c v) :
    packet s p vn cmd src at_ lose take = lose (v == 0#3) (packetOdd (headerOk s p) c.toNat v.toNat at_) := by
  simp only [packet, if_neg hway.1, hway.2]

end Packet

/-- Its timeout alone ends the transaction. -/
theorem loseTx_silent (k : Nat) (t : Tx) (s : State) : loseTx k t false s = putTx s k { t with lost := true } := by
  simp only [loseTx, Bool.false_eq_true, if_false]

/-! ## The packet that each row takes (10 R437, R440) -/

section Rows
variable {i : Init} {txn : BitVec 16} {t : Tx} {s : State} (hs : serving s = true) (htx : tabFind s.vent.txs (txKey i txn.toNat) = some t)
include hs htx

section InOrder
variable (hopen : t.init = i ∧ t.lost = false ∧ inOrder s (txKey i txn.toNat) t = true)
include hopen

theorem exec_pull_packet (pk : Pkt) (hphase : t.phase = .pull) :
    exec (.pull i txn pk) s = .next (packet (fromRemote s t.target 2 pk 1) pk 2 0x81 t.at_ (srcPort i) (loseTx (txKey i txn.toNat) t)
      fun s => pull (sendBack s t 0x81 2 0 []) (txKey i txn.toNat) t) := by
  obtain ⟨hinit, hlost, horder⟩ := hopen
  change execPull i txn pk s = _
  simp [execPull, hs, htx, hphase, hinit, hlost, horder]

theorem exec_rsp_packet (code : BitVec 4) (line : BitVec 512) (pk : Pkt) (hphase : t.phase = .rsp) :
    exec (.rsp i txn code line pk) s = .next (packet s pk 2 0x80 t.at_ (srcPort i) (loseTx (txKey i txn.toNat) t)
      fun s => respond s (txKey i txn.toNat) t) := by
  obtain ⟨hinit, hlost, horder⟩ := hopen
  change execRsp i txn code line pk s = _
  simp [execRsp, hs, htx, hphase, hinit, hlost, horder]

theorem exec_epochResponse_open (hphase : t.phase = .rsp) (hresp : t.resp = rEpoch) :
    exec (.epochResponse i txn) s = .next (respond s (txKey i txn.toNat) t) := by
  obtain ⟨hinit, hlost, horder⟩ := hopen
  change execEpochResponse i txn s = _
  simp [execEpochResponse, hs, htx, hphase, hinit, hlost, horder, hresp]

theorem exec_data_packet_of_read (data : List (BitVec 512)) (poison : Bool) (up : Fin 16) (pk : Pkt) (hphase : t.phase = .data)
    (hreads : cmdReads t.cmd = true) :
    exec (.data i txn data poison up pk) s = .next (packet s pk 3 0x90 t.at_ (srcPort i) (loseTx (txKey i txn.toNat) t)
      fun s => deliver s (txKey i txn.toNat) t (if poison then rPoison else t.resp) (t.data.headD 0#512)) := by
  obtain ⟨hinit, hlost, horder⟩ := hopen
  change execData i txn data poison up pk s = _
  simp [execData, hs, htx, hphase, hinit, hlost, horder, hreads]

theorem exec_data_packet_of_write {data : List (BitVec 512)} (poison : Bool) (up : Fin 16) (pk : Pkt) (hphase : t.phase = .data)
    (hwrites : cmdReads t.cmd = false) (hlen : (dataOf t data).length = t.len) :
    exec (.data i txn data poison up pk) s = .next (packet (fromLink s i 3 pk (1 + t.len)) pk 3 0x90 (srcPort i) t.at_ (loseTx (txKey i txn.toNat) t)
      fun s => writeAt s (txKey i txn.toNat) t (dataOf t data) poison up) := by
  obtain ⟨hinit, hlost, horder⟩ := hopen
  change execData i txn data poison up pk s = _
  simp [execData, hs, htx, hphase, hinit, hlost, horder, hwrites, hlen]

end InOrder

/-! ## Answers from a host and from another device (10 R437) -/

theorem exec_rsp_of_host (code : BitVec 4) (line : BitVec 512) (pk : Pkt) {p hpa : Nat} (hinit : t.init = i) (hlost : t.lost = false)
    (htarget : t.target = .host p hpa) (hphase : t.phase = .atTarget) :
    exec (.rsp i txn code line pk) s = .next (outsideAnswer s (txKey i txn.toNat) t code.toNat line) := by
  change execRsp i txn code line pk s = _
  simp [execRsp, hs, htx, hphase, hinit, hlost, htarget]

/-- The answer to a write comes alone, in place of its PULL or after its data. -/
theorem exec_rsp_packet_of_remote (code : BitVec 4) (line : BitVec 512) (pk : Pkt) {d a : Nat} {c : Bool} (hinit : t.init = i) (hlost : t.lost = false)
    (hwrites : cmdReads t.cmd = false) (htarget : t.target = .remote d a c) (hphase : t.phase = .atTarget ∨ t.phase = .pull) :
    exec (.rsp i txn code line pk) s = .next (packet (fromRemote s t.target 2 pk 1) pk 2 0x80 t.at_ (srcPort i) (loseTx (txKey i txn.toNat) t)
      fun s => outsideAnswer (if t.phase = .pull then dropHeld s t else s) (txKey i txn.toNat) t code.toNat line) := by
  change execRsp i txn code line pk s = _
  obtain hphase | hphase := hphase <;> simp [execRsp, hs, htx, hphase, hinit, hlost, hwrites, htarget]

/-! ## The timeout (10 R439) -/

theorem exec_reqTimeout_tracked (hinit : t.init = i) (htracked : t.tracked = true) :
    exec (.reqTimeout i txn) s = .next (reqTimeout s (txKey i txn.toNat) t) := by
  change execReqTimeout i txn s = _
  simp [execReqTimeout, hs, htx, hinit, htracked]

end Rows

/-! ## What a row does with its transaction (01 R49; 10 R437, R448, R464) -/

section Transaction
variable {s : State} {k : Nat} {t : Tx}

/-- PULL goes back over a link only to an initiator in another device. -/
theorem sendBack_of_not_casc (cmd vn resp : Nat) (data : List (BitVec 512)) (hhere : (match t.init with | .casc _ _ _ => true | _ => false) = false) :
    sendBack s t cmd vn resp data = s := by
  unfold sendBack
  split
  next hcasc => simp [hcasc] at hhere
  next => rfl

theorem pull_gone (hgone : t.gone = true) : pull s k t = dropTx (dropHeld s t) k := by simp only [pull, hgone, if_true]

theorem pull_not_gone (hgone : t.gone = false) :
    pull s k t = (match heldData s t with
      | none => s
      | some d => match takeTokens s t.init (1 + t.len) with
        | none => s
        | some s2 => putTx (dropHeld s2 t) k { t with phase := .data, data := d }) :=
  if_neg (by simp [hgone])

theorem bringsData_of_epoch (hresp : t.resp = rEpoch) : bringsData t = false := by simp [bringsData, hresp]

theorem respond_delivers (hbare : bringsData t = false) (hkeep : t.resp ≠ rEpoch ∨ t.gone = true) : respond s k t = deliver s k t t.resp 0#512 := by
  have hstays : ¬(t.resp = rEpoch && !t.gone) = true := by
    obtain h | h := hkeep <;> simp [h]
  simp only [respond, hbare, Bool.false_eq_true, if_false, if_neg hstays]

theorem respond_epoch (hresp : t.resp = rEpoch) (hgone : t.gone = false) : respond s k t = deliver (refreshEpoch s t) k t rEpoch 0#512 := by
  simp [respond, bringsData_of_epoch hresp, hresp, hgone]

/-- Only a channel and the Goith port leave the response where it is until their own command. -/
theorem respond_brings (hdata : bringsData t = true) (htakes : (match t.init with | .eng _ _ | .dbg _ => true | _ => false) = false) :
    respond s k t = putTx s k { t with phase := .data } := by
  simp only [respond, hdata, if_true]
  split
  next hinit => simp [hinit] at htakes
  next hinit => simp [hinit] at htakes
  next => rfl

end Transaction

/-! ## The answer of a partition's logic (10 R462) -/

theorem exec_apInboundAnswer_open {p : Fin 128} {id : BitVec 8} {b : Inbound} {k : Nat} {t : Tx} {s : State} (resp : BitVec 4) (data : BitVec 512)
    (hs : serving s = true) (hruns : partRuns s p = true) (hin : tabFind s.vent.inb (p * 256 + id.toNat) = some b) (hfor : b.tx = some k)
    (htx : tabFind s.vent.txs k = some t) :
    exec (.apInboundAnswer p id resp data) s = .next (txAnswer (setVent s { s.vent with inb := tabDel s.vent.inb (p * 256 + id.toNat) }) k t
      (if 10 ≤ resp.toNat then rSlverr else resp.toNat) [data &&& beMask t.cmd t.be]) := by
  change execApInboundAnswer p id resp data s = _
  simp [execApInboundAnswer, hs, hruns, hin, hfor, htx]

/-! ## Fetches (10 R454, R464) -/

theorem exec_mgmt_taken {pk : Pkt} {s : State} (point : Fin 224) (tenant : Fin 16) (addr : BitVec 52) (body : Mgmt) (hop : operating s = true)
    (hway : pk.herr ≠ 2 ∧ pk.odd = .fine) :
    exec (.mgmt point tenant addr body pk) s =
      .next (match body with | .fetch => fetchReturn (headerOk s pk) point tenant addr.toNat | _ => headerOk s pk) := by
  refine congrArg _ ((if_pos hop).trans ((packet_fine hway).trans ?_))
  cases body <;> rfl

section Fetch
variable {s : State} {pt t a : Nat} {f : Fetch}
  (hfetch : s.vent.fetch.find? (fun f => f.point == pt && f.tenant == t && f.addr == a && !f.absent) = some f)
include hfetch

theorem fetchReturn_stale (hstale : f.stale = true) : fetchReturn s pt t a = setVent s { s.vent with fetch := s.vent.fetch.erase f } := by
  simp only [fetchReturn, hfetch, hstale, if_true]

theorem fetchReturn_absent (hstale : f.stale = false) (hnone : samFetch s t a = none) :
    fetchReturn s pt t a = setVent s { s.vent with fetch := { f with absent := true } :: s.vent.fetch.erase f } := by
  simp only [fetchReturn, hfetch, hstale, hnone, Bool.false_eq_true, if_false]

theorem fetchReturn_cached {r : Route} (hstale : f.stale = false) (hsome : samFetch s t a = some r) :
    fetchReturn s pt t a = setVent s { s.vent with
      fetch := s.vent.fetch.erase f
      cache := tabPut s.vent.cache pt ((cacheOf r t :: tabGet s.vent.cache pt []).take 16) } := by
  simp only [fetchReturn, hfetch, hstale, hsome, Bool.false_eq_true, if_false]

end Fetch

/-! ## Invalidations (10 R456, R464) -/

theorem exec_samInvalidateDone_running {s : State} (hinval : s.vent.inval ≠ []) :
    exec .samInvalidateDone s = .next (answer (setVent (s.vent.inval.foldl invalDone s)
      { (s.vent.inval.foldl invalDone s).vent with inval := [] }) 0#32) :=
  congrArg _ (if_neg (by simpa using hinval))

/-! ## Token buckets (10 R448, R464) -/

@[simp] theorem tokenRefill_obj (s : State) : (tokenRefill s).obj = s.obj := rfl
@[simp] theorem tokenRefill_eng (s : State) : (tokenRefill s).eng = s.eng := rfl
@[simp] theorem tokenRefill_txs (s : State) : (tokenRefill s).vent.txs = s.vent.txs := rfl
theorem tokenRefill_tokLevel (s : State) : (tokenRefill s).vent.tokLevel =
    (List.range 16).map fun n => (n, min (oGet s (O_TB_BURST n)) (tabGet s.vent.tokLevel n 65535 + tabGet s.vent.rate n 0)) := rfl
theorem tokenRefill_rate (s : State) :
    (tokenRefill s).vent.rate = ((List.range 16).map fun n => (n, oGet s (O_TB_RATE n))).filter fun x => x.2 != 0 := rfl

/-- A key that is dropped because its value is 0 still reads as 0. -/
theorem tabGet_filter_map (l : List Nat) (f : Nat → Nat) (k : Nat) :
    tabGet ((l.map fun n => (n, f n)).filter fun x => x.2 != 0) k 0 = if k ∈ l then f k else 0 := by
  induction l with
  | nil => rfl
  | cons n l ih =>
    by_cases hkey : n = k
    · subst hkey
      by_cases hzero : f n = 0
      · simpa [hzero] using ih
      · simp [hzero, tabGet, tabFind]
    · by_cases hzero : f n = 0
      · simpa [hzero, Ne.symm hkey] using ih
      · simpa [hzero, Ne.symm hkey, tabGet, tabFind, hkey] using ih

theorem tabGet_tokenRefill_rate (s : State) {n : Nat} (hn : n < 16) : tabGet (tokenRefill s).vent.rate n 0 = oGet s (O_TB_RATE n) := by
  rw [tokenRefill_rate, tabGet_filter_map, if_pos (List.mem_range.2 hn)]

end Sys2Proof.Machine

namespace Sys2Proof.Proofs
open Sys2Proof.Machine

/-- Settles O32: each row by the packet that it takes, which is taken, lost or turned away by its header alone. -/
theorem transactionPhases : Obligations.TransactionPhases := by
  unfold Obligations.TransactionPhases
  refine ⟨?pulls, fun k t s => ⟨pull_gone, pull_not_gone⟩, ?responds, ?host, ?remote, ?uncorrectable, ?reserved, ?data, ?timeout, ?inbound, ?mgmt,
    ?fetch, ?invalidated, ?refill⟩
  case pulls =>
    intro i txn pk t s k s1 hs htx hopen hway
    obtain ⟨rfl, hphase, hlost, horder⟩ := hopen
    -- The clause reads as (row ∧ initiator here) → …, so its row stands as a hypothesis; the row holds as well.
    have hrow : exec (.pull t.init txn pk) s = .next (pull (sendBack s1 t 0x81 2 0 []) k t) ∧
        ((match t.init with | .casc _ _ _ => true | _ => false) = false → sendBack s1 t 0x81 2 0 [] = s1) :=
      ⟨(exec_pull_packet hs htx ⟨rfl, hlost, horder⟩ pk hphase).trans (congrArg _ (packet_fine hway)),
        fun hhere => sendBack_of_not_casc _ _ _ _ hhere⟩
    exact fun hclause => hrow.2 hclause.2
  case responds =>
    intro i txn code line pk t s k hs htx hopen hway
    obtain ⟨hinit, hphase, hlost, horder⟩ := hopen
    exact ⟨(exec_rsp_packet hs htx ⟨hinit, hlost, horder⟩ code line pk hphase).trans (congrArg _ (packet_fine hway)),
      exec_epochResponse_open hs htx ⟨hinit, hlost, horder⟩ hphase, respond_delivers,
      fun hresp hgone => ⟨bringsData_of_epoch hresp, respond_epoch hresp hgone⟩, fun hdata htakes => respond_brings hdata (hinit ▸ htakes)⟩
  case host =>
    intro i txn code line pk t p hpa s k hs htx hopen hwaits
    obtain ⟨hinit, hlost⟩ := hopen
    obtain ⟨htarget, hphase⟩ := hwaits
    exact exec_rsp_of_host hs htx code line pk hinit hlost htarget hphase
  case remote =>
    intro i txn code line pk t d a c s k u hs htx hopen htarget hphase hway
    obtain ⟨hinit, hlost, hwrites⟩ := hopen
    exact (exec_rsp_packet_of_remote hs htx code line pk hinit hlost hwrites htarget hphase).trans (congrArg _ (packet_fine hway))
  case uncorrectable =>
    intro i txn code line data poison up pk t s k gone hs htx hopen hbad
    have hlost (u : State) (vn cmd src at_ : Nat) (take : State → State) :
        packet u pk vn cmd src at_ (loseTx k t) take = gone (headerBad u pk vn src at_) :=
      (packet_uncorrectable hbad).trans (loseTx_silent k t _)
    exact ⟨fun hphase => (exec_rsp_packet hs htx hopen code line pk hphase).trans (congrArg _ (hlost ..)),
      fun hphase => (exec_pull_packet hs htx hopen pk hphase).trans (congrArg _ (hlost ..)),
      fun hphase hreads => (exec_data_packet_of_read hs htx hopen data poison up pk hphase hreads).trans (congrArg _ (hlost ..)),
      fun hphase hwrites hlen => (exec_data_packet_of_write hs htx hopen poison up pk hphase hwrites hlen).trans (congrArg _ (hlost ..))⟩
  case reserved =>
    intro i txn code line data poison up pk c v t s k odd hs htx hopen hway
    refine ⟨fun hphase => (exec_rsp_packet hs htx hopen code line pk hphase).trans (congrArg _ (packet_reserved hway)),
      fun hphase => (exec_pull_packet hs htx hopen pk hphase).trans (congrArg _ (packet_reserved hway)),
      fun hphase hwrites hlen =>
        (exec_data_packet_of_write hs htx hopen poison up pk hphase hwrites hlen).trans (congrArg _ (packet_reserved hway)),
      fun hv u => ?_⟩
    rw [beq_eq_false_iff_ne.2 hv, loseTx_silent]
  case data =>
    intro i txn data poison up pk t s k d hs htx hopen hway
    obtain ⟨hinit, hphase, hlost, horder⟩ := hopen
    have hd : dataOf t data = d := by subst hinit; rfl
    refine ⟨fun hreads => (exec_data_packet_of_read hs htx ⟨hinit, hlost, horder⟩ data poison up pk hphase hreads).trans
      (congrArg _ (packet_fine hway)), fun hwrites hlen => ?_⟩
    rw [exec_data_packet_of_write hs htx ⟨hinit, hlost, horder⟩ poison up pk hphase hwrites (hd ▸ hlen), packet_fine hway, hd]
  case timeout =>
    intro i txn t s k d s1 s2 t1 hs htx hopen
    obtain ⟨rfl, htracked⟩ := hopen
    exact exec_reqTimeout_tracked hs htx rfl htracked
  case inbound =>
    intro p id resp data b k t s s1 hs hruns hin hwaits
    obtain ⟨hfor, htx⟩ := hwaits
    exact exec_apInboundAnswer_open resp data hs hruns hin hfor htx
  case mgmt => exact fun point tenant addr body pk s hop hway => exec_mgmt_taken point tenant addr body hop hway
  case fetch =>
    intro pt t a f r s v hfetch
    exact ⟨fetchReturn_stale hfetch, fetchReturn_absent hfetch, fetchReturn_cached hfetch⟩
  case invalidated =>
    intro s u hinval
    exact exec_samInvalidateDone_running hinval
  case refill =>
    intro s hop
    exact ⟨tokenRefill s, congrArg _ (if_pos hop), tokenRefill_tokLevel s, fun n hn => tabGet_tokenRefill_rate s hn, tokenRefill_obj s,
      tokenRefill_eng s, tokenRefill_fuse s, tokenRefill_txs s⟩

end Sys2Proof.Proofs
end

section
/-! PROOF. The step, and what every command has in common: a next state that keeps the commands that wait (01 R54; 15 R643). -/
namespace Sys2Proof.Machine

/-- Where the outcome is a next state, the waiting commands are those there were. -/
def QueueOutcome (s : State) (o : Host.Outcome State Fault Refusal) : Prop := ∀ t, o = .next t → t.pending = s.pending

theorem QueueOutcome.next {s t : State} (h : t.pending = s.pending) : QueueOutcome s (.next t) := by
  rintro _ ⟨⟩
  exact h

/-- A choice between two states keeps the waiting commands where both do. -/
theorem pending_ite {c : Prop} [Decidable c] {s a b : State} (ha : a.pending = s.pending) (hb : b.pending = s.pending) :
    (if c then a else b).pending = s.pending := by
  split
  · exact ha
  · exact hb

/-! ## Rows that reach their operation through a value they compute -/

theorem queueOutcome_flashDirectoryRead (x0 x1 : FlashChip) (firstFails copyFails : Bool) (s : State) :
    QueueOutcome s (execFlashDirectoryRead x0 x1 firstFails copyFails s) := by
  refine .next (pending_ite ?_ rfl)
  dsimp only
  split
  · simp
  · exact pending_ite (by simp) (by simp)

theorem queueOutcome_apInboundAnswer (p : Fin 128) (id : BitVec 8) (resp : BitVec 4) (data : BitVec 512) (s : State) :
    QueueOutcome s (execApInboundAnswer p id resp data s) := by
  refine .next (pending_ite rfl ?_)
  split
  · rfl
  · dsimp only
    split <;> simp

theorem queueOutcome_timePeriod (s : State) : QueueOutcome s (execTimePeriod s) := by
  refine .next (pending_ite ?_ rfl)
  rw [foldl_pending _ _ _ fun a d => by split <;> simp, setCasc_pending]

theorem queueOutcome_mack (seq : BitVec 32) (s : State) : QueueOutcome s (execMack seq s) := by
  refine .next (pending_ite ?_ rfl)
  dsimp only
  split
  · rfl
  · exact pending_ite (by simp) (by simp)

theorem queueOutcome_mirrorRecord (seq : BitVec 32) (line : BitVec 46) (data : BitVec 512) (synced : Bool) (s : State) :
    QueueOutcome s (execMirrorRecord seq line data synced s) := by
  refine .next (pending_ite ?_ rfl)
  extract_lets _ _ s0 s1
  have hs1 : s1.pending = s.pending := by
    refine pending_ite (pending_ite ?_ (gwEvent_pending s 0 4)) rfl
    split <;> simp [s0]
  exact pending_ite (by simp [hs1]) hs1

/-! ## The dispatch -/

theorem exec_next (c : Instr) (s : State) : ∃ t, exec c s = .next t := by
  cases c <;> exact ⟨_, rfl⟩

/-- Every command keeps the waiting commands, for the operation that it runs does. -/
theorem exec_queueOutcome (c : Instr) (s : State) : QueueOutcome s (exec c s) := by
  cases c
  case flashDirectoryRead => exact queueOutcome_flashDirectoryRead _ _ _ _ s
  case apInboundAnswer => exact queueOutcome_apInboundAnswer _ _ _ _ s
  case timePeriod => exact queueOutcome_timePeriod s
  case mack => exact queueOutcome_mack _ s
  case mirrorRecord => exact queueOutcome_mirrorRecord _ _ _ _ s
  all_goals refine .next ?_
  case bootWaitEnd | flashReadTimeout | streamHeader | ream | sealRecord | framesWritten | stagingWipeDone | lcGroupsBlown | lcKeysDestroyed
    | followOnLoadStart | partialWriteStart | partialWriteDone | fuDone | grstRelease | grstUserAssert | ramScrubWriteback | engDebugEntry
    | engStreamUnfreeze | dmaLineResponse | rsp | pull | data | mgmt | epochResponse | reqTimeout | tenantResetDrainDone | tenantResetWipeDone
    | reassignStart | ownerChange | cxlMemrd | cxlMemwr | ddrSizingDone | ddrWalkUnit | timeEcho | assign | getMeasurements | emcySend
    | segmentTimeout | paramStoreDone | dbgTokenVerified | dbgTokenExpiry | registerWrite | hostQuotaEvictionDone | trainingAreaStoreDone
    | paramEraseDone =>
    (repeat' split) <;> simp
  all_goals simp

/-! ## The step -/

theorem step_of_front {c : Instr} {q : List Instr} {s : State} (h : s.pending = c :: q) : step s = exec c { s with pending := q } := by
  simp only [step, h]

theorem step_of_empty {s : State} (h : s.pending = []) : step s = .next (idleTick s) := by
  simp only [step, h]

end Sys2Proof.Machine

namespace Sys2Proof.Proofs
open Sys2Proof.Machine

/-- Settles O51: the step by what stands at the front of the queue. -/
theorem stepRunsFront : Obligations.StepRunsFront := by
  unfold Obligations.StepRunsFront
  exact ⟨fun c q s => step_of_front (s := { s with pending := c :: q }) rfl, fun s hempty => step_of_empty hempty⟩

/-- Settles O52: every arm of the dispatch is a next state. -/
theorem everyCommandCompletes : Obligations.EveryCommandCompletes := by
  unfold Obligations.EveryCommandCompletes
  exact exec_next

/-- Settles O54: the command keeps the queue's rest, which the step has left it. -/
theorem queueKept : Obligations.QueueKept := by
  unfold Obligations.QueueKept
  refine ⟨fun c s t h => exec_queueOutcome c s t h, fun c q s t hfront hstep => ?_⟩
  rw [step_of_front hfront] at hstep
  exact exec_queueOutcome c _ t hstep

end Sys2Proof.Proofs
end

section
/-! PROOF. Routes, membership, source counts and time of a cascade (14 R607, R611 to R617). -/
namespace Sys2Proof.Machine

/-! ## Routes by the dimensions alone (14 R607) -/

/-- The hop of `hopFrom` in a torus of `dx` by `dy`. -/
def torusHop (dx dy at_ dev : Nat) : Option (Nat × Nat) :=
  let x := at_ % dx
  let y := at_ / dx
  let hx := (dev % dx + dx - x) % dx
  let hy := (dev / dx + dy - y % dy) % dy
  if hx ≠ 0 then (if 2 * hx ≤ dx then some ((x + 1) % dx + y * dx, 1) else some ((x + dx - 1) % dx + y * dx, 3))
  else if hy ≠ 0 then (if 2 * hy ≤ dy then some (x + (y + 1) % dy * dx, 2) else some (x + (y + dy - 1) % dy * dx, 0))
  else none

/-- The last port of `lastPort` in a torus of `dx` by `dy`. -/
def torusLastPort (dx dy : Nat) : Nat → Nat → Nat → Option Nat
  | 0, _, _ => none
  | k + 1, at_, dev =>
    match torusHop dx dy at_ dev with
    | none => none
    | some (d, out) => if d = dev then some ((out + 2) % 4) else torusLastPort dx dy k d dev

theorem hopFrom_eq_torusHop (s : State) (at_ dev : Nat) : hopFrom s at_ dev = torusHop (cascDx s) (cascDy s) at_ dev := rfl

theorem lastPort_eq_torusLastPort (s : State) (n at_ dev : Nat) : lastPort s n at_ dev = torusLastPort (cascDx s) (cascDy s) n at_ dev := by
  induction n generalizing at_ with
  | zero => rfl
  | succ k ih =>
    rw [lastPort, torusLastPort, hopFrom_eq_torusHop]
    cases torusHop (cascDx s) (cascDy s) at_ dev with
    | none => rfl
    | some hop => exact if_congr Iff.rfl rfl (ih _)

/-! ## Source counts (14 R611) -/

/-- 512 for each other member of the set `m` whose route to device `me` ends through each port. -/
def torusCounts (dx dy me m : Nat) : List (Nat × Nat) :=
  (List.range 4).map fun p => (p, 512 * ((List.range 16).filter fun d => d != me && m.testBit d && torusLastPort dx dy 5 d me == some p).length)

theorem setMembers_srcCount (s : State) (m : Nat) :
    (setMembers s m).casc.srcCount = torusCounts (cascDx s) (cascDy s) (strapCascId s) m := by
  have hdim : oGet (oSet s O_CASC_MEMBERS m) O_CASC_DIM = oGet s O_CASC_DIM := oGet_oSet_other s m (by decide)
  have hx : cascDx (oSet s O_CASC_MEMBERS m) = cascDx s := congrArg (· / 16) hdim
  have hy : cascDy (oSet s O_CASC_MEMBERS m) = cascDy s := congrArg (· % 16) hdim
  have hme : strapCascId (oSet s O_CASC_MEMBERS m) = strapCascId s := rfl
  simp [setMembers, setSourceCounts, torusCounts, lastPort_eq_torusLastPort, hx, hy, hme, List.filter_filter, Bool.and_comm, Bool.and_assoc]

theorem tabGet_torusCounts (dx dy me m : Nat) (p : Fin 4) : tabGet (torusCounts dx dy me m) p 0 =
    512 * ((List.range 16).filter fun d => d != me && m.testBit d && torusLastPort dx dy 5 d me == some p.val).length := by
  fin_cases p <;> rfl

/-- In a full 4 × 4 torus every device has the same counts. -/
theorem torusCounts_full : ∀ me < 16, torusCounts 4 4 me 0xFFFF = [(0, 4096), (1, 512), (2, 2048), (3, 1024)] := by decide

theorem strapCascId_lt (s : State) : strapCascId s < 16 := Nat.mod_lt _ (by decide)

/-! ## Enumeration and admission (14 R612 to R614) -/

section Master
variable {s : State} (hruns : cascRuns s = true) (hmaster : strapCascId s = 0)
include hruns hmaster

theorem exec_enumRound_master (hport : ∃ p, p < 4 ∧ linkChecked s p = true) :
    let s1 := masterBack s
    let m := oGet s1 O_CASC_MEMBERS
    let s2 := setMembers (oSet s1 O_CASC_STATE 2) (if m.testBit 0 then m else m + 1)
    let m2 := oGet s2 O_CASC_MEMBERS
    exec .enumRound s = .next (setCasc s2 { s2.casc with
      polled := (List.range 16).foldl (fun b d => setBit b d (d < cascDx s2 * cascDy s2 && !m2.testBit d && routeWhole s2 5 0 d)) 0#16 }) :=
  congrArg _ (if_pos (by simp [hruns, hmaster, hport]))

theorem exec_enumAnswer_polled {dev : Fin 16} (part : BitVec 16) (id : BitVec 4) (dim : BitVec 8) (group : BitVec 64) (lc : BitVec 3) (st : BitVec 8)
    (t : BitVec 64) (hpolled : s.casc.polled.getLsbD dev = true) :
    let s0 := setCasc s { s.casc with polled := setBit s.casc.polled dev false }
    let s1 := if st = 3#8 then raiseDtime s0 dev t.toNat else s0
    let why := enumReason s1 part.toNat id.toNat dim.toNat group.toNat lc.toNat
    let s2 := if why = 0 then setCasc s1 { s1.casc with assigned := setBit s1.casc.assigned dev true } else logEv s1 0x2C07 sevWarn (dev * 256 + why)
    exec (.enumAnswer dev part id dim group lc st t) s = .next (if s2.casc.polled = 0#16 then masterBack s2 else s2) :=
  congrArg _ (if_pos (by simp only [hruns, hmaster, hpolled, beq_self_eq_true, Bool.and_self]))

theorem exec_cascAdmit_master {dev : Fin 16} (hassigned : s.casc.assigned.getLsbD dev = true) :
    let m := oGet s O_CASC_MEMBERS
    exec (.cascAdmit dev) s = .next (logEv (setMembers (setCasc s { s.casc with assigned := setBit s.casc.assigned dev false })
      (if m.testBit dev then m else m + 2 ^ dev.val)) 0x2C01 sevInfo dev) :=
  congrArg _ ((if_neg (by simp [hruns])).trans ((if_pos hmaster).trans (if_pos hassigned)))

end Master

section Member
variable {s : State} (hruns : cascRuns s = true) (hmember : strapCascId s ≠ 0)
include hruns hmember

theorem exec_enum_answers (hstate : oGet s O_CASC_STATE ≠ 0) :
    exec .enum s = .next (setCasc s { s.casc with answered := s.casc.answered + 1, answer := some (enumAnswerOf s) }) :=
  congrArg _ (if_pos (by simp [hruns, hmember, hstate]))

theorem exec_assign_member (m : BitVec 16) (hplaced : cascPlaced s = true) (hstate : oGet s O_CASC_STATE = 2) :
    exec (.assign m) s = .next (setMembers s m.toNat) := by
  refine congrArg _ ((if_pos (by simp [hruns, hmember, hplaced])).trans ?_)
  simp only [hstate]

theorem exec_assign_joining (m : BitVec 16) (hplaced : cascPlaced s = true) (hstate : oGet s O_CASC_STATE = 1 ∨ oGet s O_CASC_STATE = 3) :
    exec (.assign m) s = .next (setMembers (setCasc s { s.casc with aligning := true, aligned := false, off20 := 0 }) m.toNat) := by
  refine congrArg _ ((if_pos (by simp [hruns, hmember, hplaced])).trans ?_)
  obtain h | h := hstate <;> simp only [h]

theorem exec_cascAdmit_device {dev : Fin 16} (hdev : strapCascId s = dev) (haligned : s.casc.aligning = true ∧ s.casc.aligned = true) :
    let m := oGet s O_CASC_MEMBERS
    exec (.cascAdmit dev) s = .next (logEv (setMembers (oSet (setCasc s { s.casc with aligning := false, aligned := false }) O_CASC_STATE 2)
      (if m.testBit dev then m else m + 2 ^ dev.val)) 0x2C01 sevInfo dev) :=
  congrArg _ ((if_neg (by simp [hruns])).trans ((if_neg hmember).trans (if_pos (by simp [hdev, haligned]))))

theorem exec_masterLostTimeout_member (hstate : oGet s O_CASC_STATE = 2) : exec .masterLostTimeout s =
    .next (logEv (oSet (setCasc s { s.casc with steer := 0, off20 := 0 }) O_CASC_STATE 3) 0x2C04 sevErr ((parentPort s).getD 0)) :=
  congrArg _ (if_pos (by simp [hruns, hmember, hstate]))

end Member

/-! ## DTIME across the cascade (14 R616, R617) -/

section Time
variable {s : State} {p : Fin 4} (hruns : cascRuns s = true)
include hruns

theorem exec_timePeriod_runs (hstate : oGet s O_CASC_STATE = 2 ∨ oGet s O_CASC_STATE = 3) : exec .timePeriod s =
    .next ((childrenOf s).foldl (fun a d => match cascNext a d with | some p => pushMsg a p 4 0 | none => a)
      (setCasc s { s.casc with timesSent := s.casc.timesSent + (childrenOf s).length })) :=
  congrArg _ (if_pos (by simp [hruns, hstate]))

variable (hlink : linkChecked s p = true)
include hlink

theorem exec_time_fromParent (t : BitVec 64) (hparent : parentPort s = some p.val) (htakes : s.casc.aligning = true ∨ oGet s O_CASC_STATE = 2) :
    exec (.time p t) s = .next (pushMsg (setCport s p { cport s p with timeRx := some (t.toNat, s.fw.dtime) }) p 5 s.fw.dtime) :=
  congrArg _ (if_pos (by simp [hruns, hlink, hparent, htakes]))

theorem exec_timeEcho_noted (trip turn : BitVec 56) {t own : Nat} (hnoted : (cport s p).timeRx = some (t, own)) :
    let off := timeOffset t own trip.toNat turn.toNat
    let s1 := setCport s p { cport s p with timeRx := none }
    let s2 := oSet (oSet s1 (O_CASC_LINK_DELAY p) (min ((trip.toNat - turn.toNat) / 2000) 0xFFFF)) O_DTIME_OFFSET ((off % 2 ^ 32).toNat)
    exec (.timeEcho p trip turn) s = .next (if s2.casc.aligning = true ∧ s2.casc.aligned = false then stepTime s2 off
      else if s2.casc.aligning = true ∨ oGet s2 O_CASC_STATE = 2 then steerTime s2 off else s2) := by
  refine congrArg _ ((if_pos (by simp [hruns, hlink])).trans ?_)
  rw [hnoted]
  exact if_congr (by simp) rfl (if_congr (by simp) rfl rfl)

end Time

end Sys2Proof.Machine

namespace Sys2Proof.Proofs
open Sys2Proof.Machine

/-- Settles O60: the counts are those of the torus of the device's dimensions, which are the same from each place of the full 4 × 4 torus. -/
theorem sourceCounts : Obligations.SourceCounts := by
  unfold Obligations.SourceCounts
  refine ⟨?counts, ?full, ?assign⟩
  case counts =>
    intro m p s ends
    simp only [setMembers_srcCount, tabGet_torusCounts, ends, lastPort_eq_torusLastPort]
  case full =>
    intro s hdim
    rw [setMembers_srcCount, hdim.1, hdim.2, torusCounts_full _ (strapCascId_lt s)]
  case assign =>
    intro s s1 hruns hdim hstate
    have hplaced : cascPlaced s = true := by simp [cascPlaced, hdim, strapCascId_lt]
    exact exec_assign_joining hruns.1 hruns.2 0xFFFF#16 hplaced (.inl hstate)

/-- Settles O42: each row by its law, for the master or for a member. -/
theorem cascadeMembership : Obligations.CascadeMembership := by
  unfold Obligations.CascadeMembership
  exact ⟨fun s h hport => exec_enumRound_master h.1 h.2 hport,
    fun s hruns h => exec_enum_answers hruns h.1 h.2,
    fun dev part id dim group lc st t s h hpolled => exec_enumAnswer_polled h.1 h.2 part id dim group lc st t hpolled,
    fun m s h hmember => ⟨exec_assign_member h.1 hmember m h.2, exec_assign_joining h.1 hmember m h.2⟩,
    fun dev s hruns h => exec_cascAdmit_master hruns h.1 h.2,
    fun dev s h haligned => exec_cascAdmit_device h.1 h.2.1 h.2.2 haligned,
    fun s hruns h => exec_masterLostTimeout_member hruns h.1 h.2,
    fun s hruns hstate => exec_timePeriod_runs hruns hstate,
    fun p t s h hparent htakes => exec_time_fromParent h.1 h.2 t hparent htakes,
    fun p trip turn t own s h hnoted => exec_timeEcho_noted h.1 h.2 trip turn hnoted⟩

end Sys2Proof.Proofs
end

section
/-! PROOF. The twin pair: heartbeat, takeover, witness and the mirror (14 R620 to R632). -/
namespace Sys2Proof.Machine

variable {s : State}

/-! ## Heartbeat and takeover (14 R622, R628) -/

section Runs
variable (hruns : twinRuns s = true)
include hruns

theorem exec_hbEdgeMissed_runs (first : Bool) :
    let s0 := if first = true ∧ s.twin.linkOk = false ∧ s.twin.missed ≠ 0 ∧ s.twin.hbLost = false then goStale s else s
    let n := if first = true then 1 else s0.twin.missed + 1
    let s1 := setTwin s0 { s0.twin with missed := n, hbLost := 3 ≤ n }
    let s2 := logEv s1 0x2C11 sevErr (twinState s1)
    exec (.hbEdgeMissed first) s = .next (if n = 3 then (if s2.twin.linkOk = false then splitResolve s2
      else if twinState s2 = 3 then pushMsg (setTwin s2 { s2.twin with sent := true }) 3 6 0 else s2) else s1) := by
  refine congrArg _ ((if_pos hruns).trans ?_)
  simp [and_assoc]

theorem exec_hbGone_standby (hstate : twinState s = 3) : exec .hbGone s = .next (becomeActive s 3) :=
  congrArg _ (if_pos (by simp [hruns, hstate]))

theorem exec_takeover_linked (hlink : s.twin.linkOk = true) :
    let s1 := if twinState s = 5 then s else fenceDevice s 1
    exec .takeover s = .next (pushMsg (setTwin s1 { s1.twin with fenceAcked := s1.twin.fenceAcked + 1, partner := 4 }) 3 7 0) :=
  congrArg _ (if_pos (by simp [hruns, hlink]))

section Asked
variable (hstate : twinState s = 3) (hlink : s.twin.linkOk = true) (hsent : s.twin.sent = true)
include hstate hlink hsent

theorem exec_fenceAck_asked : exec .fenceAck s = .next (becomeActive (setTwin s { s.twin with partner := 5 }) 2) :=
  congrArg _ (if_pos (by simp [hruns, hstate, hlink, hsent]))

theorem exec_takeoverAckTimeout_asked : exec .takeoverAckTimeout s = .next (portDown (setTwin s { s.twin with sent := false }) 3 3) :=
  congrArg _ (if_pos (by simp [hruns, hstate, hlink, hsent]))

end Asked

/-! ## The witness and a device alone (14 R621, R629) -/

theorem exec_witnessGnt_rises :
    let s1 := setTwin s { s.twin with gnt := true }
    exec (.witnessGnt true) s = .next (if s.twin.request = false then s1 else if twinState s = 3 then becomeActive s1 4
      else if twinState s = 1 ∧ s.twin.soloOver = true ∧ s.twin.linkOk = false then becomeActive s1 (if strapSecondary s = true then 4 else 1) else s1) := by
  refine congrArg _ ((if_pos hruns).trans ?_)
  simp [and_assoc]

theorem exec_witnessGnt_falls :
    let s0 := setTwin s { s.twin with gnt := false }
    exec (.witnessGnt false) s = .next
      (if twinState s = 4 ∧ oGet s O_WITNESS_EN = 1 ∧ s.twin.hbLost = true ∧ s.twin.linkOk = false then fenceDevice s0 2 else s0) := by
  refine congrArg _ ((if_pos hruns).trans ?_)
  simp [and_assoc]

theorem exec_witnessTimeout_asked (hstate : twinState s = 3) (hasked : s.twin.request = true) (hgnt : s.twin.gnt = false) :
    exec .witnessTimeout s = .next (logEv (setTwin s { s.twin with request := false }) 0x2C12 sevErr 2) :=
  congrArg _ (if_pos (by simp [hruns, hstate, hasked, hgnt]))

theorem exec_twinSoloTimeout_alone (hstate : twinState s = 1) (hlink : s.twin.linkOk = false) :
    let s1 := setTwin s { s.twin with soloOver := true }
    exec .twinSoloTimeout s = .next (if oGet s O_WITNESS_EN = 1 then
        (if s.twin.gnt = true then becomeActive s1 (if strapSecondary s = true then 4 else 1) else setTwin s1 { s1.twin with request := true })
      else if strapSecondary s = true then s1 else becomeActive s1 1) :=
  congrArg _ (if_pos (by simp [hruns, hstate, hlink]))

end Runs

theorem exec_witnessGnt_stopped (level : Bool) (hstopped : twinRuns s = false) :
    exec (.witnessGnt level) s = .next (setTwin s { s.twin with gnt := level }) :=
  congrArg _ (if_neg (by simp [hstopped]))

/-! ## The mirror (14 R625, R632) -/

section Mirror
variable (hruns : twinRuns s = true) (hlink : s.twin.linkOk = true)
include hruns hlink

section Record
variable {seq : BitVec 32} (line : BitVec 46) (data : BitVec 512) (synced : Bool) (hstate : twinState s = 2 ∨ twinState s = 3)
include hstate

theorem exec_mirrorRecord_next (hseq : seq.toNat = (s.twin.applied + 1) % 2 ^ 32) :
    let s0 := pushMsg (setTwin s { s.twin with applied := s.twin.applied + 1 }) 3 8 ((s.twin.applied + 1) % 2 ^ 32)
    let s1 := if mirrorAdmits s line.toNat = true then
        (match refOfLine s0 line.toNat with | some m => memWrite s0 m data false 0 0 | none => s0) else gwEvent s 0 4
    exec (.mirrorRecord seq line data synced) s = .next
      (if synced = true ∧ twinState s1 = 2 then setTwinState (setTwin s1 { s1.twin with intact := false }) 3 else s1) := by
  refine congrArg _ ((if_pos (by simp [hruns, hlink, hstate])).trans ?_)
  simp only [hseq, beq_self_eq_true, Bool.true_or, Bool.and_true, if_true, Bool.and_eq_true, decide_eq_true_eq] <;> rfl

theorem exec_mirrorRecord_other (hseq : seq.toNat ≠ (s.twin.applied + 1) % 2 ^ 32) :
    exec (.mirrorRecord seq line data synced) s = .next (if synced = true ∧ seq.toNat = s.twin.applied % 2 ^ 32 ∧ twinState s = 2 then
      setTwinState (setTwin s { s.twin with intact := false }) 3 else s) := by
  refine congrArg _ ((if_pos (by simp [hruns, hlink, hstate])).trans ?_)
  simp only [beq_eq_false_iff_ne.2 hseq, Bool.false_or, Bool.false_eq_true, if_false, Bool.and_eq_true, beq_iff_eq, decide_eq_true_eq, and_assoc]

end Record

/-- A record that no MACK names stays; one that it names takes all up to it with it (log entry 102). -/
theorem exec_mack_active {seq : BitVec 32} {hit : Option MirrorRec} (hactive : twinState s = 4) :
    (s.twin.unacked.find? fun r => r.seq % 2 ^ 32 == seq.toNat) = hit →
    let s1 := match hit with
      | some r => releaseWaits (setTwin s { s.twin with acked := r.seq, unacked := s.twin.unacked.filter fun u => r.seq < u.seq }) r.seq
      | none => s
    let upTo := (hit.map (·.seq)).getD 0
    let done := s1.twin.copies.filter fun c => c.2 ≤ upTo
    let dirty := done.foldl (fun d c => clearGranule d c.1) s1.twin.dirty
    let left := s1.twin.copies.filter fun c => !decide (c.2 ≤ upTo)
    let s2 := setTwin s1 { s1.twin with dirty := dirty, copies := left, copied := s1.twin.copied + done.length }
    exec (.mack seq) s = .next (if hit.isNone = true then s else if s2.twin.partner = 2 ∧ rangeCount dirty = 0 then
      logEv (setTwin s2 { s2.twin with partner := 3 }) 0x2C13 sevInfo (min s2.twin.copied 0xFFFFFF) else s2) := by
  intro hhit
  refine congrArg _ ((if_pos (by simp [hruns, hlink, hactive])).trans ?_)
  cases hit with
  | none => simp only [hhit, Option.isNone_none, if_true]
  | some r =>
    have hlater (n : Nat) : decide (r.seq < n) = !decide (n ≤ r.seq) := by rw [← decide_not, decide_eq_decide, Nat.not_le]
    simp only [hhit, hlater, Option.isNone_some, Option.map_some, Option.getD_some, Bool.false_eq_true, if_false]

end Mirror

end Sys2Proof.Machine

namespace Sys2Proof.Proofs
open Sys2Proof.Machine

/-- Settles O43: each row by its law; MACK by whether a record that waits has its number. -/
theorem twinPair : Obligations.TwinPair := by
  unfold Obligations.TwinPair
  refine ⟨fun first s hruns => exec_hbEdgeMissed_runs hruns first, fun s hruns hstate => exec_hbGone_standby hruns hstate,
    fun s hruns hlink => exec_takeover_linked hruns hlink,
    fun s h hasked => ⟨exec_fenceAck_asked h.1 h.2 hasked.1 hasked.2, exec_takeoverAckTimeout_asked h.1 h.2 hasked.1 hasked.2⟩,
    fun s hruns => ⟨exec_witnessGnt_rises hruns, exec_witnessGnt_falls hruns⟩,
    fun level s hstopped => exec_witnessGnt_stopped level hstopped,
    fun s h hasked => exec_witnessTimeout_asked h.1 h.2 hasked.1 hasked.2,
    fun s h hlink => exec_twinSoloTimeout_alone h.1 h.2 hlink,
    fun seq line data synced s h hstate hseq => exec_mirrorRecord_next h.1 h.2 line data synced hstate hseq,
    fun seq line data synced s h hstate hseq => exec_mirrorRecord_other h.1 h.2 line data synced hstate hseq,
    fun seq s h hlink => exec_mack_active h.1 hlink h.2 rfl⟩

end Sys2Proof.Proofs
end

section
/-! PROOF. What happens on a serial lane: adaptation, its PLL, the transmitted and received words, the checker (13 R572 to R590). -/
namespace Sys2Proof.Machine

variable {s : State} {l : Fin 128}

/-! ## Adaptation and the PLL (13 R572, R575) -/

theorem adaptStep_eq (s : State) (l : Nat) (x : Lane) :
    adaptStep s l x = { x with adapt := if (oGet s (O_LANE_CTRL l)).testBit 7 then x.adapt else x.adapt + 1 } := by
  unfold adaptStep
  split <;> rfl

section Works
variable (hworks : laneWorks s l = true)
include hworks

theorem exec_laneAdapted_asked (hasked : laneAsked s l = true) (hlock : (sline s l).pllLost = false) :
    let x := sline s l
    let s1 := setLane (setStat s l (lStat s l ||| 0x1E#16)) l { x with adapt := if (oGet s (O_LANE_CTRL l)).testBit 7 then x.adapt else x.adapt + 1 }
    exec (.laneAdapted l) s = .next (if laneFree s l = true then oSet s1 (O_LANE_STATE l) 0 else s1) := by
  refine congrArg _ ((if_pos (by simp [hworks, hasked, hlock])).trans ?_)
  rw [adaptStep_eq]

theorem exec_lanePllUnlock_locked (hnow : laneNow s l ≠ 2) (hlock : (sline s l).pllLost = false) :
    exec (.lanePllUnlock l) s = .next (pllUnlock s l) :=
  congrArg _ (if_pos (by simp [hworks, hnow, hlock]))

theorem exec_lanePllRelock_lost (hlost : (sline s l).pllLost = true) :
    exec (.lanePllRelock l) s = .next (setLane (setStat s l (lStat s l ||| 2#16)) l { sline s l with pllLost := false }) :=
  congrArg _ (if_pos (by simp [hworks, hlost]))

/-! ## The signal and the checker (13 R579, R589) -/

theorem exec_laneSignalLoss_works (hnow : laneNow s l ≠ 2) :
    let s1 := setStat s l ((lStat s l &&& 0xFFF3#16) ||| 0x40#16)
    exec (.laneSignalLoss l) s = .next (if 96 ≤ l.val ∧ (lStat s l).getLsbD 6 = false then logEv s1 0x2B07 sevWarn l else s1) :=
  congrArg _ ((if_pos (by simp [hworks, hnow])).trans (if_congr (by simp) rfl rfl))

theorem exec_laneSignalReturn_works (hnow : laneNow s l ≠ 2) : exec (.laneSignalReturn l) s =
    .next (freeStep (setLane (setStat s l (lStat s l ||| 0xC#16)) l { sline s l with slip := Config.freeNat s.freeCtr % slineBits s l })) :=
  congrArg _ (if_pos (by simp [hworks, hnow]))

theorem exec_prbsLock_checks {lock : Bool} (bits errs : BitVec 48) (hnow : lock = false ∨ laneNow s l = 0)
    (hchecks : (oGet s (O_PRBS_CTRL l)).testBit 7 = true) :
    let s1 := if (lStat s l).getLsbD 8 = true then
        oBump (oBump s (O_PRBS_BITS l) bits.toNat (2 ^ 48 - 1)) (O_PRBS_ERRORS l) errs.toNat (2 ^ 48 - 1) else s
    exec (.prbsLock l lock bits errs) s = .next (setStat s1 l (setBit (lStat s1 l) 8 lock)) :=
  congrArg _ (if_pos (by simp [hworks, hnow, hchecks]))

/-- An enabled generator does not stop the taking of words (log entry 101). -/
theorem exec_laneTxUnderflow_empty (hfabric : 96 ≤ l.val) (hnow : laneNow s l = 0) (hlock : (sline s l).pllLost = false) (hempty : (sline s l).txq = []) :
    let s1 := setStat (laneSend s l (idleWord &&& onesBelow (slineBits s l))) l (lStat s l ||| 0x80#16)
    exec (.laneTxUnderflow l) s = .next (if (lStat s l).getLsbD 7 = true then s1 else logEv s1 0x2B06 sevWarn l) :=
  congrArg _ (if_pos (by simp [hworks, hfabric, laneSends, hnow, hlock, hempty]))

end Works

/-! ## User logic (13 R576) -/

section Logic
variable (hlogic : laneLogic s l = true)
include hlogic

theorem exec_laneTxWrite_logic (w : BitVec 256) : exec (.laneTxWrite l w) s = .next (if 64 ≤ (sline s l).txq.length then s
    else setLane s l { sline s l with txq := (sline s l).txq ++ [w &&& onesBelow (slineBits s l)] }) := by
  by_cases hfull : 64 ≤ (sline s l).txq.length
  · exact congrArg _ ((if_neg (by simp [hfull])).trans (if_pos hfull).symm)
  · exact congrArg _ ((if_pos (by simpa [hlogic] using hfull)).trans (if_neg hfull).symm)

theorem exec_laneRxSlip_logic (early : Bool) (hnow : laneNow s l = 0) (hready : (lStat s l).getLsbD 2 = true) :
    exec (.laneRxSlip l early) s = .next (if early then s else
      setLane s l { sline s l with slip := ((sline s l).slip + if 5 ≤ oGet s (O_LANE_RATE l) then 2 else 1) % slineBits s l }) := by
  cases early with
  | true => exact congrArg _ (if_neg (by simp))
  | false => exact congrArg _ (if_pos (by simp only [hlogic, hnow, hready, beq_self_eq_true, Bool.not_false, Bool.and_self]))

end Logic

end Sys2Proof.Machine

namespace Sys2Proof.Proofs
open Sys2Proof.Machine

/-- Settles O39: each row by its law; what the lane's user does at an unlock by whose lane it is. -/
theorem laneEvents : Obligations.LaneEvents := by
  unfold Obligations.LaneEvents
  exact ⟨fun l s h hlock => exec_laneAdapted_asked h.1 h.2 hlock,
    fun l s h hlock => exec_lanePllUnlock_locked h.1 h.2 hlock,
    fun l s hworks hlost => exec_lanePllRelock_lost hworks hlost,
    fun l w s hlogic => exec_laneTxWrite_logic hlogic w,
    fun l s h hempty => exec_laneTxUnderflow_empty h.2.1 h.1 h.2.2 hempty.1 hempty.2,
    fun l early s h hready => exec_laneRxSlip_logic h.1 early h.2 hready,
    fun l s hworks hnow => ⟨exec_laneSignalLoss_works hworks hnow, exec_laneSignalReturn_works hworks hnow⟩,
    fun l lock bits errs s h hchecks => exec_prbsLock_checks h.1 bits errs h.2 hchecks⟩

end Sys2Proof.Proofs
end

section
/-! PROOF. Bring-up of a cascade or twin port: its start and end, the frames of training, the steps between rates (13 R581 to R587). -/
namespace Sys2Proof.Machine

variable {s : State} {p : Fin 4}

/-! ## Start and end (13 R581, R587) -/

theorem exec_cascPortStart_stopped (hwants : portWants s p = true) (hstate : trainState s p = 0) :
    exec (.cascPortStart p) s = .next (startPort s p) :=
  congrArg Host.Outcome.next (if_pos (by simp [hwants, hstate]))

theorem exec_cascPortRestart_down (hwants : portWants s p = true) (hstate : trainState s p = 5) :
    exec (.cascPortRestart p) s = .next (startPort s p) :=
  congrArg Host.Outcome.next (if_pos (by simp [hwants, hstate]))

theorem exec_cascPortDown_may (r : Fin 5) (hmay : portsMay s = true) :
    exec (.cascPortDown p r) s = .next (if r = 0 then portsSettle s else portDown s p r) :=
  congrArg _ (if_congr (by simp) rfl (if_pos hmay))

/-! ## CAPS frames (13 R582, R583) -/

/-- A lane's receiver that finds SYNC inverted takes the opposite polarity. -/
def polarised (s : State) (p : Fin 4) (lane : Fin 8) (inv : Bool) : State := if inv then setRxInvert s (64 + 8 * p + lane) else s

section Caps
variable (hmay : portsMay s = true) (hstate : trainState s p = 1 ∨ trainState s p = 2) (lane : Fin 8) {x : BitVec 64} (inv : Bool)
include hmay hstate

theorem exec_capsFrame_bad (f : BitVec 4) :
    exec (.capsFrame p lane f x false inv) s =
      .next (setBup (polarised s p lane inv) p
        { bup (polarised s p lane inv) p with seen := tabPut (bup (polarised s p lane inv) p).seen lane 0 }) :=
  congrArg _ ((if_pos (by simp [hmay, hstate])).trans (if_pos (by simp)))

variable (hzero : x.toNat % 2 ^ 24 = 0)
include hzero

theorem exec_capsFrame_misplaced {f : BitVec 4} (hlane : f.toNat ≠ lane) :
    let s1 := polarised s p lane inv
    exec (.capsFrame p lane f x true inv) s = .next (portHeld (oSet (oSet s1 (O_CASC_TRAIN_STATE p) 1) (O_CASC_LANE_FAIL p)
      (setBit (BitVec.ofNat 8 (oGet s1 (O_CASC_LANE_FAIL p))) lane true).toNat) p 3) :=
  congrArg _ ((if_pos (by simp [hmay, hstate])).trans ((if_neg (by simpa using hzero)).trans (if_pos hlane)))

theorem exec_capsFrame_valid {f : BitVec 4} (hlane : f.toNat = lane) :
    exec (.capsFrame p lane f x true inv) s = .next (capsFrame (polarised s p lane inv) p lane x.toNat) :=
  congrArg _ ((if_pos (by simp [hmay, hstate])).trans ((if_neg (by simpa using hzero)).trans (if_neg (not_not.2 hlane))))

end Caps

theorem capsReason_eq (s : State) (x : Nat) : capsReason s x =
    if bitsAt x 38 2 ≠ strapMode s then 1 else if bitsAt x 48 16 ≠ oGet s O_PART_ID % 65536 ∨ bitsAt x 40 8 ≠ 1 then 2 else 0 :=
  if_congr Iff.rfl rfl (if_congr (by simp) rfl rfl)

theorem capsFrame_eq (s : State) (p i x : Nat) :
    let b := bup s p
    let fl := setBit (BitVec.ofNat 8 (oGet s (O_CASC_LANE_FAIL p))) i false
    let why := capsReason s x
    let b1 := { b with seen := if why = 0 then tabPut b.seen i (tabGet b.seen i 0 + 1) else [], ack := b.ack || (why == 0 && x.testBit 30) }
    let s2 := oSet (setBup (oSet (oSet s (O_CASC_LANE_FAIL p) fl.toNat) (O_CASC_PARTNER_CAPS p) x) p b1) (O_CASC_TRAIN_STATE p) (if fl = 0#8 then 2 else 1)
    capsFrame s p i x = if why ≠ 0 then portHeld s2 p why
      else if b1.ack = true ∧ (List.range 8).all (fun k => 8 ≤ tabGet b1.seen k 0) = true ∧ b1.next = 0 then
        portStep (setBup s2 p { b1 with common := commonRates b1.offer x }) p
      else s2 := by
  refine if_congr Iff.rfl rfl (if_congr ?_ rfl rfl)
  simp only [Bool.and_eq_true, decide_eq_true_eq, and_assoc]

/-! ## EQ frames (13 R584, R585) -/

theorem exec_eqFrame_valid {lane : Fin 8} {x : BitVec 64} (hmay : portsMay s = true) (hstate : trainState s p = 3) (hzero : bitsAt x.toNat 8 24 = 0) :
    exec (.eqFrame p lane (BitVec.ofNat 4 lane) x true) s = .next (eqFrame s p lane x.toNat) := by
  have hlane : lane.val % 16 = lane := Nat.mod_eq_of_lt (by omega)
  exact congrArg _ (if_pos (by simp [hmay, hstate, hzero, hlane]))

theorem eqFrame_eq (s : State) (p : Nat) (lane : Fin 8) (x : Nat) :
    let l := 64 + 8 * p + lane.val
    let s1 := oSet s (O_LANE_TXEQ l) (tapsAfter (oGet s (O_LANE_TXEQ l)) (x % 256))
    let b := bup s1 p
    let s2 := setBup s1 p { b with partner := if bitsAt x 48 8 = 1 then (if lane = 0 then b.partner + 1 else b.partner) else 0 }
    let n := bitsAt x 40 8
    eqFrame s p lane x = if n ≠ 0 ∧ n < b.rate ∧ b.fallback = none then fallBack s2 p
      else if b.passed = true ∧ 4 ≤ (bup s2 p).partner ∧ b.next = 0 then portStep s2 p else s2 := by
  have hpartner (b : Bringup) : (if !(bitsAt x 48 8 == 1) then 0 else if lane.val = 0 then b.partner + 1 else b.partner) =
      if bitsAt x 48 8 = 1 then (if lane = 0 then b.partner + 1 else b.partner) else 0 := by
    by_cases hpass : bitsAt x 48 8 = 1 <;> simp [hpass]
  simp only [eqFrame, hpartner, Option.isNone_iff_eq_none, Bool.and_eq_true, decide_eq_true_eq, and_assoc]

/-! ## Steps between rates (13 R585, R586) -/

theorem measureOk_iff (rate errors bits : Nat) : measureOk rate errors bits = true ↔ if rate < 5 then errors = 0 else errors * 100000 ≤ bits := by
  unfold measureOk
  split <;> simp

section Steps
variable (hmay : portsMay s = true)
include hmay

theorem exec_bringupRateSwitch_named (hstate : trainState s p = 2 ∨ trainState s p = 3) (hnext : (bup s p).next ≠ 0) :
    let b := bup s p
    let s1 := oSet (setBup s p { b with rate := b.next, next := 0, measuring := b.fallback.isSome, failed := 0, passed := false, partner := 0 })
      (O_CASC_TRAIN_STATE p) 3
    exec (.bringupRateSwitch p) s = .next ((portLanes p).foldl (fun a l => if b.fallback.isSome = true then
      oSet (oSet a (O_LANE_RATE l) b.next) (O_LANE_TXEQ l) (tabGet b.taps l 0x24F) else oSet a (O_LANE_RATE l) b.next) s1) :=
  congrArg _ (if_pos (by simp [hmay, hstate, hnext]))

variable (hstate : trainState s p = 3)
include hstate

theorem exec_bringupAdaptEnd_adapting (hnext : (bup s p).next = 0) (hmeasuring : (bup s p).measuring = false) (hpassed : (bup s p).passed = false) :
    exec (.bringupAdaptEnd p) s = .next (setBup s p { bup s p with measuring := true }) :=
  congrArg _ (if_pos (by simp [hmay, hstate, hnext, hmeasuring, hpassed]))

theorem exec_bringupMeasureEnd_measuring (errors bits : Nat) (hmeasuring : (bup s p).measuring = true) :
    let b := bup s p
    let s1 := setBup s p { b with measuring := false, passed := true, taps := (portLanes p).map fun l => (l, oGet s (O_LANE_TXEQ l)) }
    exec (.bringupMeasureEnd p errors bits) s = .next (if (if b.rate < 5 then errors = 0 else errors * 100000 ≤ bits) then
        (if b.fallback.isSome = true then portUp s p else if 4 ≤ b.partner then portStep s1 p else s1)
      else if b.fallback.isSome = true then portDown s p 2
      else if b.failed = 0 then setBup s p { b with measuring := false, failed := 1 } else fallBack s p) :=
  congrArg _ ((if_pos (by simp [hmay, hstate, hmeasuring])).trans (if_congr (measureOk_iff ..) rfl rfl))

end Steps

end Sys2Proof.Machine

namespace Sys2Proof.Proofs
open Sys2Proof.Machine

/-- Settles O40: each row by its law; a valid frame by what it finds of the partner. -/
theorem portBringup : Obligations.PortBringup := by
  unfold Obligations.PortBringup
  refine ⟨fun p s hwants => ⟨exec_cascPortStart_stopped hwants, exec_cascPortRestart_down hwants⟩,
    fun p r s hmay => exec_cascPortDown_may r hmay, ?caps, ?eq,
    fun p s h hnext => exec_bringupRateSwitch_named h.1 h.2 hnext,
    fun p s h hb => exec_bringupAdaptEnd_adapting h.1 h.2 hb.1 hb.2.1 hb.2.2,
    fun p errors bits s h hmeasuring => exec_bringupMeasureEnd_measuring h.1 h.2 errors bits hmeasuring⟩
  case caps =>
    intro p lane f x inv s0 s b t fl why b1 s2 h hzero
    have hwhy : capsReason s x.toNat = why := capsReason_eq s x.toNat
    refine ⟨exec_capsFrame_bad h.1 h.2 lane inv f, exec_capsFrame_misplaced h.1 h.2 lane inv hzero, fun hlane => ?_⟩
    have hvalid := capsFrame_eq s p lane x.toNat
    rw [hwhy] at hvalid
    exact (exec_capsFrame_valid h.1 h.2 lane inv hzero hlane).trans (congrArg _ hvalid)
  case eq =>
    intro p lane x s l s1 b b1 s2 n h hzero
    exact (exec_eqFrame_valid h.1 h.2 hzero).trans (congrArg _ (eqFrame_eq s p lane x.toNat))

end Sys2Proof.Proofs
end

section
/-! PROOF. The link layer of a cascade or twin port: codewords, the checks of the partner, sessions (14 R598 to R606). -/
namespace Sys2Proof.Machine

variable {s : State} {p : Fin 4}

/-! ## Codewords (14 R602, R603) -/

section Up
variable (hmay : portsMay s = true) (hup : trainState s p = 4)
include hmay hup

theorem exec_codewordReceive_up (fec : Fin 3) (ok : Bool) (seq ack : BitVec 16) (ackv nak : Bool) (back : BitVec 80) :
    exec (.codewordReceive p fec ok seq ackv ack nak back) s = .next (codeword s p fec ok seq.toNat ackv ack.toNat nak back) :=
  congrArg Host.Outcome.next (if_pos (by simp [hmay, hup]))

theorem exec_linkLostTimeout_up : exec (.linkLostTimeout p) s = .next (portDown s p 3) :=
  congrArg Host.Outcome.next (if_pos (by simp [hmay, hup]))

end Up

/-- A codeword in error or out of sequence brings nothing (log entry 57); the next one is taken, and its NAK replays. -/
theorem codeword_eq (s : State) (p : Nat) (fec : Fin 3) (ok : Bool) (seq : Nat) (ackv : Bool) (ack : Nat) (nak : Bool) (back : BitVec 80) :
    let s0 := if fec = 1 then oBump s (O_CASC_FEC_CORRECTED p) 1 (2 ^ 32 - 1) else s
    let x := cport s0 p
    let room := List.zipWith min linkRoom (x.credits.mapIdx fun i n => n + bitsAt back.toNat (8 * i) 8)
    let s1 := setCport s0 p
      { x with bad := false, heard := true, rxSeq := seq, rxCount := x.rxCount + 1, txAck := if ackv then ack else x.txAck, credits := room }
    codeword s p fec ok seq ackv ack nak back = if fec = 2 ∨ ok = false then setCport s0 p { x with bad := true }
      else if seq ≠ (x.rxSeq + 1) % 65536 then s0 else if nak = true then linkReplay s1 p else s1 := by
  have hcorrected : (if fec.val = 1 then oBump s (O_CASC_FEC_CORRECTED p) 1 (2 ^ 32 - 1) else s) =
      if fec = 1 then oBump s (O_CASC_FEC_CORRECTED p) 1 (2 ^ 32 - 1) else s := if_congr (by simp [Fin.ext_iff]) rfl rfl
  simp only [codeword, hcorrected]
  exact if_congr (by simp [Fin.ext_iff]) rfl rfl

/-! ## The checks of the partner (14 R598, R605, R624) -/

section Checks
variable (hlive : linkLive s p = true) (hstate : oGet s (O_CASC_LINK_STATE p) = 2)
include hlive hstate

theorem exec_hello_checking (nonce : BitVec 64) (intact : Bool) (partner : Fin 6) (differ : BitVec 8) :
    let s0 := setCport s p { cport s p with peer := some nonce.toNat, txCount := 0, rxCount := 0 }
    let s1 := pushMsg s0 p 2 (keyConfirm s0 p (lowerEnd s0 p))
    let s2 := setTwin s1 { s1.twin with peerIntact := intact, partner := partner, windowsOk := differ == 0#8 }
    exec (.hello p nonce intact partner differ) s =
      .next (if strapMode s = 2 then (if differ = 0#8 then s2 else logEv s2 0x2C15 sevErr differ.toNat) else s1) :=
  congrArg Host.Outcome.next (if_pos (by simp [hlive, hstate]))

theorem exec_kconf_checking (v : BitVec 64) (hpeer : (cport s p).peer.isSome = true) :
    let s1 := oSet s (O_CASC_LINK_STATE p) 3
    exec (.kconf p v) s = .next (if v.toNat = keyConfirm s p (!lowerEnd s p) then
      (if strapMode s = 2 then twinLinkPassed s1 else setCasc s1 { s1.casc with allDown := none }) else linkRefused s p 0x2C03 (p * 65536)) :=
  congrArg Host.Outcome.next (if_pos (by simp [hlive, hstate, hpeer]))

end Checks

/-! ## Sessions (14 R606) -/

section Session
variable (hchecked : linkChecked s p = true) (hmay : portsMay s = true)
include hchecked hmay

theorem exec_rekey_checked (idx : BitVec 32) :
    let n := ((cport s p).session + 1) % 2 ^ 32
    exec (.rekey p idx) s = .next (if idx.toNat = n then setCport s p { cport s p with session := n, rxCount := 0, txCount := 0 } else s) := by
  refine congrArg Host.Outcome.next ?_
  by_cases hnext : idx.toNat = ((cport s p).session + 1) % 2 ^ 32
  · rw [if_pos (by simp only [hchecked, hmay, hnext, beq_self_eq_true, Bool.and_self]), if_pos hnext, hnext]
    rfl
  · rw [if_neg (by simpa [hchecked, hmay] using hnext), if_neg hnext]

theorem exec_tweakCountLimit_checked : exec (.tweakCountLimit p) s =
    .next (if (cport s p).msgs.any (fun m => m.1 == 3) = true then s else pushMsg s p 3 (((cport s p).session + 1) % 2 ^ 32)) := by
  refine congrArg Host.Outcome.next ?_
  cases (cport s p).msgs.any fun m => m.1 == 3
  · exact if_pos (by simp only [hchecked, hmay, Bool.not_false, Bool.and_self])
  · exact if_neg (by simp only [Bool.not_true, Bool.and_false, Bool.false_eq_true, not_false_eq_true])

end Session

end Sys2Proof.Machine

namespace Sys2Proof.Proofs
open Sys2Proof.Machine

/-- Settles O41: a codeword by whether it is the next in sequence, every other row by its law. -/
theorem cascadeLinks : Obligations.CascadeLinks := by
  unfold Obligations.CascadeLinks
  exact ⟨fun p fec ok seq ack ackv nak back s h => (exec_codewordReceive_up h.1 h.2 fec ok seq ack ackv nak back).trans
      (congrArg Host.Outcome.next (codeword_eq ..)),
    fun p s h => exec_linkLostTimeout_up h.1 h.2,
    fun p nonce intact partner differ s hlive hstate => exec_hello_checking hlive hstate nonce intact partner differ,
    fun p v s hlive h => exec_kconf_checking hlive h.1 v h.2,
    fun p idx s hchecked hmay => ⟨exec_rekey_checked hchecked hmay idx, exec_tweakCountLimit_checked hchecked hmay⟩⟩

end Sys2Proof.Proofs
end

section
/-! PROOF. Accepted writes of the lane, twin, CAN, store, time, scheduler, pin and debug objects: the effect of each write on the answered state, whatever
path carries it (12 R562; 13 R574, R590, R593; 14 R633, R634; 15 R650, R662, R671, R673; 16 R692, R697; 17 R728, R729). -/
namespace Sys2Proof.Machine

variable {s : State} {r : Req} {len val : Nat}

/-! ## Counts of the channels and the lanes (12 R562; 13 R593) -/

theorem wrEccCntClear_one (hone : val ≠ 0xFF) (h : Accepted s r O_ECC_CNT_CLEAR len val {}) :
    wrEccCntClear r len val s = clearEcc (answer s 0#32) (val - 1) :=
  (objWriteP_accepted _ h).trans (if_neg hone)

theorem wrPrbsClear_one (hone : val ≠ 0xFF) (h : Accepted s r O_PRBS_CLEAR len val {}) :
    wrPrbsClear r len val s = oSet (oSet (answer s 0#32) (O_PRBS_BITS (val - 1)) 0) (O_PRBS_ERRORS (val - 1)) 0 := by
  refine (objWriteP_accepted _ h).trans ?_
  rw [if_neg hone]
  rfl

/-! ## Lane states and injection (13 R574, R590) -/

section Lane
variable {l : Nat}

theorem wrLaneStateReq_on
    (h : Accepted s r (O_LANE_STATE_REQ l) len 0 { state := laneFree s l && (match laneUser l with | .fabric d => dieOf s d == .on | _ => true) }) :
    wrLaneStateReq r l len 0 s = setLane (answer s 0#32) l { sline s l with goal := 0 } := by
  refine (objWriteG_accepted _ _ ?_).trans (if_pos rfl)
  cases huser : laneUser l <;> simpa [huser] using h

/-- The partition of a lane need be ready only where the lane is to be ON. -/
theorem wrLaneStateReq_off (hoff : val ≠ 0) (h : Accepted s r (O_LANE_STATE_REQ l) len val { state := laneFree s l }) :
    wrLaneStateReq r l len val s = laneSet (answer s 0#32) l val := by
  refine (objWriteG_accepted _ _ ?_).trans (if_neg hoff)
  cases huser : laneUser l <;> simpa [huser, bne_iff_ne.2 hoff] using h

theorem wrErrInject_accepted (h : Accepted s r (O_ERR_INJECT l) len val { state := laneNow s l == 0 && (sline s l).inject == 0 }) :
    wrErrInject r l len val s = setLane (answer s 0#32) l { sline s l with inject := val } :=
  objWriteG_accepted _ _ h

end Lane

/-! ## The twin pair (14 R633, R634) -/

theorem wrTwinForce_ungranted (h : Accepted s r O_TWIN_FORCE_ACTIVE len val
      { state := twinRuns s && twinState s == 1 && !(s.twin.linkOk && s.twin.partner == 4) && (oGet s O_WITNESS_EN != 1 || s.twin.gnt) }) :
    wrTwinForce r len val false s = becomeActive (answer s 0#32) 6 := by
  rw [← Bool.or_false (oGet s O_WITNESS_EN != 1)] at h
  exact objWriteG_accepted _ _ h

theorem wrTwinRelease_accepted (h : Accepted s r O_TWIN_RELEASE len val { state := twinState s == 5 }) :
    wrTwinRelease r len val s = setTwinState { answer s 0#32 with twin := { s.twin with intact := false } } 1 :=
  objWriteG_accepted _ _ h

/-! ## CAN and stored parameters (15 R650, R662) -/

/-- In bus-off too (log entry 103). -/
theorem wrCanApply_accepted (h : Accepted s r O_CAN_APPLY len val {}) : wrCanApply r len val s = canRestart (answer s 0#32) :=
  objWriteP_accepted _ h

theorem wrStoreOp_accepted {k want : Nat} (eff : State → State) (h : Accepted s r k len val {}) (hwant : storeRefused s want val = false)
    (hidle : serviceBusy s = false) : wrStoreOp r k want len val eff s = eff (answer s 0#32) := by
  simp [wrStoreOp, h.1, h.2, hwant, hidle]

/-! ## DTIME and the scheduler (15 R671 to R673) -/

theorem wrDtimeSet_accepted (h : Accepted s r O_DTIME_SET len val { value := s.fw.dtime < val, state := oGet s O_CASC_STATE == 0 }) :
    wrDtimeSet r len val s = logEv (stepDtime (answer s 0#32) val) 0x2F05 sevInfo (min ((val - s.fw.dtime) / 1000000) 0xFFFFFF) :=
  objWriteG_accepted _ _ h

@[simp] theorem schedRoom_answer (s : State) (c : BitVec 32) : schedRoom (answer s c) = schedRoom s := by
  simp only [schedRoom, schedEntry, oGet_answer]

theorem wrSchedAdd_accepted {i : Nat} (hroom : schedRoom s = some i) (h : Accepted s r O_SCHED_ADD len val { value := schedOk val }) :
    wrSchedAdd r len val s = oSet (schedPut (answer s 0#32) i val) O_SCHED_LAST (i + 1) := by
  have h' : Accepted s r O_SCHED_ADD len val { value := schedOk val, cap := (schedRoom s).isSome } := by simpa [hroom] using h
  refine (objWriteG_accepted _ _ h').trans ?_
  simp only [schedRoom_answer, hroom]

@[simp] theorem schedEntry_schedPut (s : State) (i x : Nat) : schedEntry (schedPut s i x) i = x := by simp [schedEntry, schedPut]

/-! ## Pins and analogue inputs (16 R692, R697) -/

theorem wrMioStatus_clear {p : Nat} (h : Accepted s r (O_MIO_STATUS p) len 1 {}) :
    wrMioStatus r p len 1 s = oSet (answer s 0#32) (O_MIO_STATUS p) 0 :=
  objWriteG_accepted _ _ h

theorem wrAninRange_switches {i : Nat} (hrange : val ≠ 0) (hnew : aninRange s i ≠ val) (h : Accepted s r (O_ANIN_RANGE i) len val {}) :
    wrAninRange r i len val s = { oSet (answer s 0#32) (O_ANIN_RANGE i) val with
      mio := { s.mio with range := tabPut s.mio.range i val, narrow := tabDel s.mio.narrow i, ranged := setBit s.mio.ranged i true } } :=
  (objWriteP_accepted _ h).trans ((if_neg hrange).trans (if_neg hnew))

/-! ## Debug tokens (17 R728, R729) -/

theorem wrDbgToken_accepted {t : BitVec 1664} (h : Accepted s r O_DBG_TOKEN len t.toNat
      { value := bitsAt t.toNat 16 16 == 0 && bitsAt t.toNat 840 56 == 0, life := s.rst.lc == 2#3 }) :
    wrDbgToken r len t.toNat s = { answer s 0#32 with dbg := { s.dbg with verifying := some t } } := by
  refine (objWriteG_accepted _ _ h).trans ?_
  rw [BitVec.ofNat_toNat, BitVec.setWidth_eq]
  rfl

theorem wrDbgEnd_accepted (h : Accepted s r O_DBG_END len val {}) : wrDbgEnd r len val s = endToken (answer s 0#32) 2 :=
  objWriteP_accepted _ h

/-- An 8-bit code other than all ones names one unit. -/
theorem toNat_ne_allOnes {v : BitVec 8} (h : v ≠ 0xFF#8) : v.toNat ≠ 0xFF := fun hv => h (BitVec.eq_of_toNat_eq hv)

end Sys2Proof.Machine

namespace Sys2Proof.Proofs
open Sys2Proof.Machine

/-- Settles O9: each row is the write of its object, whose effect the law of that write gives. -/
theorem linkWrites : Obligations.LinkWrites := by
  unfold Obligations.LinkWrites
  exact ⟨fun r v s h hone => congrArg Host.Outcome.next (wrEccCntClear_one (toNat_ne_allOnes hone) h),
    fun r l s h => congrArg Host.Outcome.next (wrLaneStateReq_on h),
    fun r l s h => congrArg Host.Outcome.next (wrLaneStateReq_off (by decide) h),
    fun r l s h => congrArg Host.Outcome.next (wrLaneStateReq_off (by decide) h),
    fun r v s h hone => congrArg Host.Outcome.next (wrPrbsClear_one (toNat_ne_allOnes hone) h),
    fun r l n s h => congrArg Host.Outcome.next (wrErrInject_accepted h),
    fun r s h => congrArg Host.Outcome.next (wrTwinForce_ungranted h),
    fun r s h => congrArg Host.Outcome.next (wrTwinRelease_accepted h),
    fun r v s h => congrArg Host.Outcome.next (wrCanApply_accepted h),
    fun r v s h hwant hidle => congrArg Host.Outcome.next (wrStoreOp_accepted _ h hwant hidle),
    fun r v s h hwant hidle => congrArg Host.Outcome.next (wrStoreOp_accepted _ h hwant hidle)⟩

/-- Settles O10: each row is the write of its object, whose effect the law of that write gives. -/
theorem deviceWrites : Obligations.DeviceWrites := by
  unfold Obligations.DeviceWrites
  exact ⟨fun r v s h => congrArg Host.Outcome.next (wrDtimeSet_accepted h), fun s v => ⟨_, rfl⟩,
    fun r v s i hroom h => congrArg Host.Outcome.next (wrSchedAdd_accepted hroom h),
    fun s i x => ⟨_, rfl, schedEntry_schedPut s i x, rfl, rfl, rfl⟩,
    fun r pin s h => congrArg Host.Outcome.next (wrMioStatus_clear h),
    fun r i v s h hrange hnew => congrArg Host.Outcome.next (wrAninRange_switches hrange hnew h),
    fun r t s h => congrArg Host.Outcome.next (wrDbgToken_accepted h),
    fun r v s h => congrArg Host.Outcome.next (wrDbgEnd_accepted h)⟩

end Sys2Proof.Proofs
end

section
/-! PROOF. An advance that is requested of a region while it is walked: the region's record is rewritten with it (12 R547, R554). -/
namespace Sys2Proof.Machine

@[simp] theorem chan_setChan (s : State) (c : Nat) (x : Chan) : chan (setChan s c x) c = x := tabGet_tabPut_self ..

/-- The pending advance is written down in the region's record. -/
theorem recs_requestAdvance_walking {s : State} {c r : Nat} (hepoch : (region (chan s c) r).epoch ≠ 0xFFFFFFFF#32)
    (hwalking : (region (chan s c) r).state = 2) : (tabFind (chan (requestAdvance s c r) c).recs r).isSome = true := by
  have hstored : requestAdvance s c r = storeRec (setChan s c (setRegion (chan s c) r { region (chan s c) r with state := 3 })) c r := by
    simp only [requestAdvance, if_neg hepoch, hwalking]
  simp [hstored, storeRec]

/-- Region 0 of channel 0 is being walked; none of the channel's records has been rewritten. -/
def walking : State := setChan State.reset 0 { regions := [(0, { state := 2 })], walk := some 0 }

theorem chan_walking : chan walking 0 = { regions := [(0, { state := 2 })], walk := some 0 } := chan_setChan ..

end Sys2Proof.Machine

namespace Sys2Proof.Proofs
open Sys2Proof.Machine

/-- Refutes O38: an advance requested of a region that is walked rewrites the region's record (R547), which the last clause leaves as it was. -/
theorem not_channelHappenings : ¬ Obligations.ChannelHappenings := by
  unfold Obligations.ChannelHappenings
  intro h
  obtain ⟨-, -, -, -, -, -, -, -, -, -, hadvance⟩ := h
  have hregion : region (chan walking 0) 0 = { state := 2 } := by rw [chan_walking]; rfl
  have hepoch : (region (chan walking 0) 0).epoch ≠ 0xFFFFFFFF#32 := by rw [hregion]; decide
  have hwalking : (region (chan walking 0) 0).state = 2 := by rw [hregion]
  obtain ⟨-, -, -, hpending⟩ := hadvance 0 0 0 walking hepoch
  have hnoRecord : requestAdvance walking 0 0 =
      setChan walking 0 (setRegion (chan walking 0) 0 { region (chan walking 0) 0 with state := 3 }) := hpending hwalking
  have hrecord := recs_requestAdvance_walking hepoch hwalking
  rw [hnoRecord, chan_setChan] at hrecord
  have hnone : (setRegion (chan walking 0) 0 { region (chan walking 0) 0 with state := 3 }).recs = [] := by rw [chan_walking]; rfl
  simp [hnone] at hrecord

end Sys2Proof.Proofs
end

section
/-! PROOF. Snoops of agents and their answers, the flows of a line, and host snoops of the slices (11 R470 to R489). -/
namespace Sys2Proof.Machine

variable {s : State} {pk : Pkt}

@[simp] theorem headerOk_hub (s : State) (pk : Pkt) : (headerOk s pk).hub = s.hub := by
  unfold headerOk
  split <;> rfl

/-! ## Snoops (11 R478, R481) -/

/-- The port or the gate of an agent carries a snoop out. -/
def agentSnooped (s : State) (a : Nat) (n : Snoop) : State :=
  if a < 4 then setCxl s a { cxl s a with bi := some n } else setGate s (a - 4) { gate s (a - 4) with snp := some n }

theorem snoopSend_due {a line : Nat} {inv : Bool} {f : Flow} (hflow : tabFind s.hub.flows line = some f) (hdue : f.toSend.getLsbD a = true)
    (hinv : f.inv = inv) (hway : pk.herr ≠ 2 ∧ pk.odd = .fine) :
    snoopSend s a line inv pk = agentSnooped (headerOk (setFlow s line { f with toSend := setBit f.toSend a false, sent := setBit f.sent a true }) pk) a
      { inv := inv, line := line, txn := f.trk } := by
  have hgo : ¬(f.inv != inv || !f.toSend.getLsbD a) = true := by rw [hinv, hdue]; simp
  simp only [snoopSend, hflow]
  rw [if_neg hgo, packet_fine hway]
  rfl

/-! ## Answers (11 R478, R481, R482) -/

/-- The flow of a line once agent `a` has answered its snoop: a shared copy is kept only after SNP_DATA. -/
def answered (f : Flow) (a : Nat) (shared : Bool) (d : Option (BitVec 512)) : Flow :=
  { f with
    sent := setBit f.sent a false
    toSend := setBit f.toSend a false
    kept := if shared && !f.inv then setBit f.kept a true else f.kept
    dirty := d.orElse fun _ => f.dirty }

/-- The flow ends with its last answer. -/
def flowAnswered (s : State) (line : Nat) (f : Flow) : State :=
  if f.sent = 0#6 && f.toSend = 0#6 then finishFlow s f else setFlow s line f

section Answer
variable {a line : Nat} {txn : BitVec 16} {f : Flow} (shared : Bool) (d : Option (BitVec 512))

theorem snoopAnswer_open (hflow : tabFind s.hub.flows line = some f) (hopen : f.sent.getLsbD a = true) :
    snoopAnswer s a line shared d = flowAnswered s line (answered f a shared d) := by
  have hasked : ¬(!(f.sent ||| f.toSend).getLsbD a) = true := by rw [BitVec.getLsbD_or, hopen]; simp
  simp only [snoopAnswer, hflow]
  rw [if_neg hasked]
  cases d <;> rfl

theorem snoopResponse_open (hflow : tabFind s.hub.flows line = some f) (hopen : f.sent.getLsbD a = true) (htxn : f.trk = txn) :
    snoopResponse s a line txn shared d = flowAnswered s line (answered f a shared d) := by
  simp only [snoopResponse, hflow]
  rw [if_pos (by simp only [hopen, htxn, beq_self_eq_true, Bool.and_self]), snoopAnswer_open shared d hflow hopen]

theorem snoopResponse_stray
    (hstray : ∀ f, tabFind s.hub.flows line = some f → (f.sent.getLsbD a && f.trk == txn) = false) :
    snoopResponse s a line txn shared d = s := by
  unfold snoopResponse
  cases hflow : tabFind s.hub.flows line with
  | none => rfl
  | some f => exact if_neg (by simp only [hstray f hflow, Bool.false_eq_true, not_false_eq_true])

variable (cmd : Nat)

theorem srsp_lost (hbad : pk.herr = 2) : srsp s pk cmd a line txn shared d = headerBad s pk 2 (agentPort a) (linePort line) :=
  packet_uncorrectable hbad

theorem srsp_taken (hway : pk.herr ≠ 2 ∧ pk.odd = .fine) : srsp s pk cmd a line txn shared d = snoopResponse (headerOk s pk) a line txn shared d :=
  packet_fine hway

theorem hostBirsp_open {p : Nat} (hsecure : (cxl s p).insecure = false) (hflow : tabFind s.hub.flows line = some f) (hopen : f.sent.getLsbD p = true)
    (htxn : f.trk = txn) : hostBirsp s p line txn shared d =
      flowAnswered (setCxl s p { cxl s p with fold := tabDel (cxl s p).fold line }) line
        (answered f p shared (d.orElse fun _ => tabFind (cxl s p).fold line)) := by
  have hgo : ¬(cxl s p).insecure = true := by simp [hsecure]
  unfold hostBirsp
  exact (if_neg hgo).trans (snoopResponse_open shared _ hflow hopen htxn)

theorem hostBirsp_insecure {p : Nat} (hinsecure : (cxl s p).insecure = true) : hostBirsp s p line txn shared d = s :=
  if_pos hinsecure

end Answer

theorem snoopTimeout_open {a line : Nat} {f : Flow} (hflow : tabFind s.hub.flows line = some f) (hopen : f.sent.getLsbD a = true) :
    let owns := f.owned && f.pres.getLsbD a
    let s1 := if a < 4 then oBump (setCxl s a { cxl s a with fold := tabDel (cxl s a).fold line }) (O_SNOOP_FAILS a) 1 (2 ^ 32 - 1)
      else setGate s (a - 4) { gate s (a - 4) with snoopFails := min ((gate s (a - 4)).snoopFails + 1) (2 ^ 32 - 1) }
    let s2 := logEv s1 0x2904 sevErr (a + if owns then 256 else 0)
    snoopTimeout s a line = snoopAnswer (if owns then poisonLine (logEv s2 0x2905 sevErr (a + 256)) line (a + 256) else s2) a line false none := by
  have hasked : ¬(!f.sent.getLsbD a) = true := by rw [hopen]; simp
  simp only [snoopTimeout, hflow]
  rw [if_neg hasked]

/-! ## The flows of a line (11 R470, R475) -/

section Resume
variable {line : Nat}

theorem lineResume_next {r : FlowReq} {q : List FlowReq} (hidle : tabFind s.hub.flows line = none) (hwaits : tabGet s.hub.waiting line [] = r :: q)
    (hfree : ddrHeld s r.ref.chan r.ref.n = false ∨ (sliceGet s line).isSome = true) :
    lineResume s line = beginFlow { s with hub := { s.hub with waiting := tabSet s.hub.waiting line q [] } } r := by
  have hgo : ¬(ddrHeld s r.ref.chan r.ref.n && (sliceGet s line).isNone) = true := by
    obtain h | h := hfree
    · simp [h]
    · obtain ⟨x, hx⟩ := Option.isSome_iff_exists.1 h
      simp [hx]
  simp only [lineResume, hidle, hwaits]
  exact if_neg hgo

/-- A flow that found no way in its set tries again (log entry 51). -/
theorem lineResume_running {f : Flow} (hflow : tabFind s.hub.flows line = some f) :
    lineResume s line = if f.noWay = true ∧ f.toSend = 0#6 then finishFlow s { f with noWay := false } else s := by
  simp only [lineResume, hflow]
  exact if_congr (by simp) rfl rfl

end Resume

/-! ## Host snoops of the slices (11 R487 to R489) -/

section Host
variable {p line : Nat} (cmd : Nat) {kind : Nat}

theorem hsnp_lost (hsecure : (cxl s p).insecure = false) (hbad : pk.herr = 2) :
    hsnp s pk cmd p line kind = headerBad s pk 1 (cxlPort p) (slicePort (hostSlice p (line * 64))) :=
  (if_neg (by simp [hsecure])).trans (packet_uncorrectable hbad)

theorem hsnp_taken (hsecure : (cxl s p).insecure = false) (hway : pk.herr ≠ 2 ∧ pk.odd = .fine) :
    hsnp s pk cmd p line kind = hostSnoop (headerOk s pk) p line kind :=
  (if_neg (by simp [hsecure])).trans (packet_fine hway)

/-- The lines that the slices hold after a host snoop that finds `h`: without it, with its clean copy, as they were. -/
def hostLinesAfter (s : State) (p line kind : Nat) (h : HostLine) : List HostLine :=
  match kind with
  | 0 => s.hub.hlines.filter fun x => !(x.port == p && x.line == line)
  | 1 => { h with dirty := false, excl := false } :: s.hub.hlines.filter fun x => !(x.port == p && x.line == line)
  | _ => s.hub.hlines

theorem hostSnoop_found {h : HostLine} (hfound : hostFind s p line = some h) :
    hostSnoop (headerOk s pk) p line kind = setCxl { headerOk s pk with hub := { s.hub with hlines := hostLinesAfter s p line kind h } } p
      { cxl s p with hsnp :=
        { hit := true, dirty := h.dirty, kept := kind, data := if h.dirty then h.data else 0#512, poison := h.dirty && h.poison } } := by
  have hfound' : hostFind (headerOk s pk) p line = some h := by rw [← hfound]; simp only [hostFind, headerOk_hub]
  simp only [hostSnoop, hfound', headerOk_hub]
  rfl

theorem exec_hostQuotaEvictionDone_evicting {q : Nat} (hevicting : s.hub.evicting = some q) :
    let s1 := hostTrim s q s.hub.hlines.length
    exec .hostQuotaEvictionDone s = .next (answer (oSet { s1 with hub := { s1.hub with quota := q, evicting := none } } O_HOST_QUOTA_MIB q) 0#32) := by
  change execHostQuotaEvictionDone s = _
  simp only [execHostQuotaEvictionDone, hevicting]
  rfl

end Host

end Sys2Proof.Machine

namespace Sys2Proof.Proofs
open Sys2Proof.Machine

/-- Settles O34: a snoop and its answers by the flow of their line, a host snoop by the line that its slice holds. -/
theorem snoopFlows : Obligations.SnoopFlows := by
  unfold Obligations.SnoopFlows
  refine ⟨?sent, ?response, ?stray, ?lost, ?birsp, ?insecure, ?timeout, ?next, ?again, ?host, ?quota⟩
  case sent =>
    intro a line pk f s s1 n out hop hflow hdue hway
    exact ⟨fun hinv => congrArg Host.Outcome.next ((if_pos hop).trans (snoopSend_due hflow hdue hinv hway)),
      fun hinv => congrArg Host.Outcome.next ((if_pos hop).trans (snoopSend_due hflow hdue hinv hway))⟩
  case response =>
    intro a line txn data pk f s s1 f1 t hflow hopen hway
    have hflow' : tabFind s1.hub.flows line.toNat = some f := by simpa [s1] using hflow
    have hrow (cmd : Nat) (shared : Bool) (d : Option (BitVec 512)) : srsp s pk cmd a line.toNat txn shared d = t shared d :=
      (srsp_taken shared d cmd hway).trans (snoopResponse_open shared d hflow' hopen.1 hopen.2)
    exact ⟨congrArg Host.Outcome.next (hrow ..), congrArg Host.Outcome.next (hrow ..), congrArg Host.Outcome.next (hrow ..),
      congrArg Host.Outcome.next (hrow ..)⟩
  case stray =>
    intro a line txn data pk s s1 hstray hway
    have hstray' (f : Flow) (hflow : tabFind s1.hub.flows line.toNat = some f) : (f.sent.getLsbD a && f.trk == txn) = false := by
      rw [headerOk_hub] at hflow
      simpa only [hflow] using hstray
    have hrow (cmd : Nat) (shared : Bool) (d : Option (BitVec 512)) : srsp s pk cmd a line.toNat txn shared d = s1 :=
      (srsp_taken shared d cmd hway).trans (snoopResponse_stray shared d hstray')
    exact ⟨congrArg Host.Outcome.next (hrow ..), congrArg Host.Outcome.next (hrow ..), congrArg Host.Outcome.next (hrow ..),
      congrArg Host.Outcome.next (hrow ..)⟩
  case lost =>
    intro a p line txn data pk s lost lostH hbad
    have hrow (cmd : Nat) (shared : Bool) (d : Option (BitVec 512)) : srsp s pk cmd a line.toNat txn shared d = lost := srsp_lost shared d cmd hbad
    refine ⟨congrArg Host.Outcome.next (hrow ..), congrArg Host.Outcome.next (hrow ..), congrArg Host.Outcome.next (hrow ..),
      congrArg Host.Outcome.next (hrow ..), fun hlive hsecure => ?_⟩
    exact ⟨congrArg Host.Outcome.next ((if_pos hlive).trans (hsnp_lost _ hsecure hbad)),
      congrArg Host.Outcome.next ((if_pos hlive).trans (hsnp_lost _ hsecure hbad)),
      congrArg Host.Outcome.next ((if_pos hlive).trans (hsnp_lost _ hsecure hbad))⟩
  case birsp =>
    intro p line txn shared data f s x s1 d f1 hsecure hflow hopen
    exact congrArg Host.Outcome.next (hostBirsp_open shared data hsecure hflow hopen.1 hopen.2)
  case insecure =>
    intro p line txn shared data s hinsecure
    exact congrArg Host.Outcome.next (hostBirsp_insecure shared data hinsecure)
  case timeout =>
    intro a line f s owns s1 s2 hflow hopen
    exact congrArg Host.Outcome.next (snoopTimeout_open hflow hopen)
  case next =>
    intro line r q s hop hidle hwaits hfree
    exact congrArg Host.Outcome.next ((if_pos hop).trans (lineResume_next hidle hwaits hfree))
  case again =>
    intro line f s hop hflow
    exact congrArg Host.Outcome.next ((if_pos hop).trans (lineResume_running hflow))
  case host =>
    intro p line pk h s s1 r t hlive hfound hway
    obtain ⟨hop, hup, hsecure⟩ := hlive
    have hlive : cxlLive s p = true := by simp only [cxlLive, hop, hup, Bool.and_self]
    have hrow (cmd kind : Nat) : hsnp s pk cmd p line.toNat kind = t (hostLinesAfter s p line.toNat kind h) kind :=
      (hsnp_taken cmd hsecure hway).trans (hostSnoop_found hfound)
    exact ⟨congrArg Host.Outcome.next ((if_pos hlive).trans (hrow ..)), congrArg Host.Outcome.next ((if_pos hlive).trans (hrow ..)),
      congrArg Host.Outcome.next ((if_pos hlive).trans (hrow ..))⟩
  case quota =>
    intro q s s1 hevicting
    exact exec_hostQuotaEvictionDone_evicting hevicting

end Sys2Proof.Proofs
end

section
/-! PROOF. A host's requests at a CXL port, its link events, and the requests that pass a guest's gate (11 R483, R491 to R516). -/
namespace Sys2Proof.Machine

variable {s : State}

/-! ## Requests of a host (11 R483, R494, R496) -/

section Host
variable {p : Fin 4}

section Mem
variable (hopen : memOpen s p = true) (tag : BitVec 16) (dpa : BitVec 52) (bad : Bool) (up : Fin 16)
include hopen

/-- The flow of a read is that of its snoop type, and of no snoop where the lines of its decoder are never recorded (log entry 52). -/
theorem exec_cxlMemrd_open (snp : Fin 4) :
    let q (k : FlowKind) : HostReq := { port := p, tag := tag.toNat, addr := hostAddr s p (dpa.toNat / 64 * 64), kind := k, io := false, data := 0#512,
                                        mask := ~~~0#512, up := up.val }
    exec (.cxlMemrd p tag dpa snp bad up) s = .next (match hdmFind (cxl s p) dpa.toNat with
      | none => hostRefused s (q .rdCur)
      | some d => hostRequest s (q (if d.db = true ∧ snp.val = 1 then .rdOwn else if d.db = true ∧ snp.val = 2 then .rdShared else .rdCur)) bad) := by
  refine congrArg Host.Outcome.next ((if_neg (by simp [hopen])).trans ?_)
  cases hdmFind (cxl s p) dpa.toNat with
  | none => rfl
  | some d =>
    cases hdb : d.db with
    | false => simp [hdb]
    | true => fin_cases snp <;> simp [hdb]

theorem exec_cxlMemwr_open (mv : Fin 3) (be : BitVec 64) (data : BitVec 512) :
    let q (rec_ : Bool) : HostReq := { port := p, tag := tag.toNat, addr := hostAddr s p (dpa.toNat / 64 * 64), kind := .hostWrite mv rec_, io := false,
                                       data := data, mask := BitVec.ofNat 512 (byteMask 64 be.toNat), up := up.val }
    exec (.cxlMemwr p tag dpa mv be data bad up) s = .next (match hdmFind (cxl s p) dpa.toNat with
      | none => hostRefused s (q true)
      | some d => hostRequest s (q d.db) bad) := by
  refine congrArg Host.Outcome.next ((if_neg (by simp [hopen])).trans ?_)
  cases hdmFind (cxl s p) dpa.toNat <;> rfl

end Mem

section Live
variable (hlive : cxlLive s p = true)
include hlive

theorem exec_cxlIoRequest_live (tag : BitVec 16) (write : Bool) (x : BitVec 52) (be : BitVec 64) (data : BitVec 512) (up : Fin 16) :
    let q : HostReq := { port := p, tag := tag.toNat, addr := hostAddr s p (x.toNat / 64 * 64), kind := if write then .hostWrite 0 false else .rdCur,
                         io := true, data := data, mask := BitVec.ofNat 512 (byteMask 64 be.toNat), up := up.val }
    exec (.cxlIoRequest p tag write x be data up) s = .next
      (if oGet s (O_PORT_MODE p) = 4 ∧ 2 ^ oGet s (O_PCIE_BAR2_LOG2 p) ≤ x.toNat then hostRefused s q else hostRequest s q false) :=
  congrArg Host.Outcome.next ((if_neg (by simp [hlive])).trans (if_congr (by simp) rfl rfl))

theorem mailbox_type3 (hmode : oGet s (O_PORT_MODE p) = 3) (cmd : Nat) :
    mailbox s p cmd = freeStep (setCxl s p { cxl s p with mbox := some (cmd, s.freeCtr) }) :=
  if_pos (by simp [hlive, hmode])

theorem exec_hdmDecoderCommit_live (dec : Fin 8) (db : Bool) (base size : BitVec 52) (ways : Fin 5) (gran : Fin 7)
    (hmode : oGet s (O_PORT_MODE p) = 3 ∨ (oGet s (O_PORT_MODE p) = 2 ∧ db = true)) :
    let x := cxl s p
    let refuse := (db && !x.flit256) || hdmOverlap s p base.toNat size.toNat db
    let d : HdmDec := { committed := !refuse, error := refuse, db := db, base := base.toNat, size := size.toNat, ways := ways.val, gran := gran.val }
    let s1 := setCxl s p { x with decoders := tabPut x.decoders dec d }
    exec (.hdmDecoderCommit p dec db base size ways gran) s = .next (if refuse then cxlEv s1 0x290B sevWarn (p * 65536 + dec) p else s1) :=
  congrArg Host.Outcome.next (if_pos (by simp [hlive, hmode]))

/-! ## Link events of a port (11 R492, R497, R498) -/

theorem exec_cxlLinkRetrain_live : exec (.cxlLinkRetrain p) s = .next (setCxl s p { cxl s p with retrain := true }) :=
  congrArg Host.Outcome.next (if_pos hlive)

theorem exec_cxlLinkRetrainDone_retraining (hretrain : (cxl s p).retrain = true) : exec (.cxlLinkRetrainDone p) s =
    .next ((cxl s p).wait.foldl (fun a h => answerHost a p h) (setCxl s p { cxl s p with retrain := false, wait := [] })) :=
  congrArg Host.Outcome.next (if_pos (by simp [hlive, hretrain]))

theorem exec_ideMacFail_streaming {lines : List (BitVec 46)} (hmem : (cxl s p).ideMem = true) (hlines : lines.length ≤ 32) :
    let d := p * 65536 + lines.length
    let s1 := setCxl s p { cxl s p with insecure := true, ideMem := false }
    exec (.ideMacFail p lines) s =
      .next (cxlEv (poisonReads (poisonWrites (lines.foldl (fun a l => poisonLine a l.toNat d) s1) p lines) p) 0x290A sevErr d p) :=
  congrArg Host.Outcome.next (if_pos (by simp [hlive, hmem, hlines]))

end Live

theorem exec_cxlLinkDown_up (hup : s.hub.cxlUp.getLsbD p = true) : exec (.cxlLinkDown p) s = .next (cxlDown s p) :=
  congrArg Host.Outcome.next (if_pos hup)

theorem exec_cxlLinkUp_admitted {rate : BitVec 3} {width : BitVec 5} {f l : Bool} (i : Bool) (hop : operating s = true)
    (henabled : enabled s (unCxl p) = true) (hmode : oGet s (O_PORT_MODE p) ≠ 0) (hdown : s.hub.cxlUp.getLsbD p = false)
    (hrate : 1 ≤ rate.toNat ∧ rate.toNat ≤ oGet s (O_PORT_MAX_RATE p) ∧ (f = true ∨ (l = false ∧ rate.toNat ≤ 5)))
    (hpin : cxlRefOk s p = true) (hwidth : (width = 4#5 ∨ width = 8#5 ∨ width = 16#5) ∧ width.toNat ≤ oGet s (O_PORT_MAX_WIDTH p)) :
    let s1 : State := { s with hub := { s.hub with cxlUp := setBit s.hub.cxlUp p true } }
    let s2 := setCxl s1 p { cxl s1 p with
      rate := rate.toNat, width := width.toNat, flit256 := f, lopt := l, ideLink := i, retrain := false, insecure := false, ideMem := false, wait := [],
      decoders := (cxl s1 p).decoders.filter fun d => f || !d.2.db }
    exec (.cxlLinkUp p rate width f l i) s = .next (cxlEv s2 0x2908 sevInfo (p * 65536 + rate.toNat * 256 + width.toNat) p) := by
  obtain ⟨hlow, hhigh, hflits⟩ := hrate
  have hformat : (if f then true else !l && rate.toNat ≤ 5) = true := by
    obtain hf | ⟨hl, hr⟩ := hflits
    · simp [hf]
    · simp [hl, hr]
  refine congrArg Host.Outcome.next (if_pos ?_)
  simp only [hop, henabled, hdown, hpin, hformat, Bool.true_and, Bool.and_true, Bool.not_false, Bool.and_eq_true, decide_eq_true_eq, bne_iff_ne,
    Bool.or_eq_true, beq_iff_eq, or_assoc]
  exact ⟨⟨⟨⟨hmode, hlow⟩, hhigh⟩, hwidth.1⟩, hwidth.2⟩

end Host

/-! ## Guest gates (11 R506 to R514) -/

section Guest
variable {g : Fin 2}

theorem exec_ggLinkUp_training (hop : operating s = true) (henabled : enabled s (unGuest g) = true) (hstate : gateState s g = 1) :
    exec (.ggLinkUp g) s = .next (oSet s (O_GG_STATE g) 2) :=
  congrArg Host.Outcome.next (if_pos (by simp [hop, henabled, hstate]))

theorem exec_ggQuarantineWalkDone_walking (hstate : gateState s g = 3) (hwalked : (gate s g).walked = false) :
    let d := dropAgent s (4 + g)
    let n := d.2 + (gate s g).lost
    let s1 := if n = 0 then d.1 else logEv d.1 0x2905 sevErr (4 + g + min n 0xFFFF * 256)
    exec (.ggQuarantineWalkDone g) s = .next (setGate s1 g { gate s1 g with walked := true }) :=
  congrArg Host.Outcome.next (if_pos (by simp [hstate, hwalked]))

/-- Once a request has reached its gate: the gate's clock, its tokens, its windows, the permissions and the classes of the window, in this order
(log entry 49). -/
theorem guestRequest_active (tag : Nat) (q : GuestReq) (hserving : serving s = true) (hstate : gateState s g = 2)
    (hflows : flowsOf s (isGuest g) < 128) (hfree : outsideFree s (.gate g 0) = true) :
    guestRequest s g tag q =
      if entering s = true then answerGuest s g { tag := tag, resp := rGated }
      else if enabled s (unGuest g) = false then answerGuest (answerGated s (unGuest g)) g { tag := tag, resp := rGated }
      else if (gate s g).tokens < q.flits * (guestParts q).length then violation s g tag q.cls 0x7F 4
      else match ggFind s g q.addr q.len with
        | none => violation s g tag q.cls 0x7F 1
        | some w =>
          if (q.needR = true ∧ (ggRaw s g w).testBit 127 = false) ∨ (q.needW = true ∧ (ggRaw s g w).testBit 126 = false)
            ∨ (q.needC = true ∧ (ggRaw s g w).testBit 125 = false) then violation s g tag q.cls w 2
          else if (ggRaw s g w).testBit (112 + q.cls) = false then violation s g tag q.cls w 3
          else (guestParts q).foldl (fun b p =>
            guestRun b g (ggRaw s g w % 16) (if (guestParts q).length = 1 then .guest g tag else .half g tag) p) s := by
  have hreaches : ¬(!serving s || gateState s g ≠ 2 || 128 ≤ flowsOf s (isGuest g) || !outsideFree s (.gate (Fin.ofNat 2 g) 0)) = true := by
    simp [hserving, hstate, hflows, hfree]
  refine (if_neg hreaches).trans (if_congr Iff.rfl rfl (if_congr (by simp) rfl (if_congr Iff.rfl rfl ?_)))
  cases ggFind s g q.addr q.len with
  | none => rfl
  | some w => exact if_congr (by simp [or_assoc]) rfl (if_congr (by simp) rfl rfl)

/-- The parts of an access of at most 64 bytes: at most two, each within a line, together the whole. -/
theorem guestParts_cover {q : GuestReq} (hlen : q.len ≤ 64) :
    (guestParts q).length ≤ 2 ∧ (q.addr % 64 + q.len ≤ 64 → guestParts q = [q]) ∧ ((guestParts q).map (·.len)).sum = q.len ∧
      ∀ p ∈ guestParts q, p.addr % 64 + p.len ≤ 64 := by
  by_cases hone : q.len ≤ 64 - q.addr % 64
  · have hparts : guestParts q = [q] := if_pos hone
    rw [hparts]
    refine ⟨by simp, fun _ => rfl, by simp, ?_⟩
    simp only [List.mem_singleton, forall_eq]
    omega
  · have hparts : guestParts q = [{ q with len := 64 - q.addr % 64 },
        { q with addr := q.addr + (64 - q.addr % 64), len := q.len - (64 - q.addr % 64) }] := if_neg hone
    rw [hparts]
    refine ⟨by simp, fun hwithin => by omega, ?_, ?_⟩
    · simp only [List.map_cons, List.map_nil, List.sum_cons, List.sum_nil]
      omega
    · simp only [List.mem_cons, List.not_mem_nil, or_false, forall_eq_or_imp, forall_eq]
      omega

end Guest

end Sys2Proof.Machine

namespace Sys2Proof.Proofs
open Sys2Proof.Machine

/-- Settles O35: each row by its law; the memory device's commands are one operation. -/
theorem hostRequests : Obligations.HostRequests := by
  unfold Obligations.HostRequests
  refine ⟨fun p tag dpa snp bad up s hopen => exec_cxlMemrd_open hopen tag dpa bad up snp,
    fun p tag dpa mv be data bad up s hopen => exec_cxlMemwr_open hopen tag dpa bad up mv be data,
    fun p tag write x be data up s hlive => exec_cxlIoRequest_live hlive tag write x be data up, fun p s hlive hmode => ?_,
    fun p dec db base size ways gran s hlive hmode => exec_hdmDecoderCommit_live hlive dec db base size ways gran hmode⟩
  have hrow := mailbox_type3 hlive hmode
  exact ⟨congrArg Host.Outcome.next (hrow 0), congrArg Host.Outcome.next (hrow 1), congrArg Host.Outcome.next (hrow 2),
    congrArg Host.Outcome.next (hrow 3), congrArg Host.Outcome.next (hrow 4)⟩

/-- Settles O36: each row by its law; the requests of a guest are one operation, whatever they ask. -/
theorem linksAndGuests : Obligations.LinksAndGuests := by
  unfold Obligations.LinksAndGuests
  refine ⟨fun p rate width f l i s h hport hrate hpin hwidth => exec_cxlLinkUp_admitted i h.1 h.2 hport.1 hport.2 hrate hpin hwidth,
    fun p s hup => exec_cxlLinkDown_up hup, fun p s hlive => exec_cxlLinkRetrain_live hlive,
    fun p s hlive hretrain => exec_cxlLinkRetrainDone_retraining hlive hretrain,
    fun p lines s hlive hmem hlines => exec_ideMacFail_streaming hlive hmem hlines,
    fun g s h hstate => exec_ggLinkUp_training h.1 h.2 hstate,
    fun g s hstate hwalked => exec_ggQuarantineWalkDone_walking hstate hwalked, ?requests, fun q hlen => guestParts_cover hlen⟩
  case requests =>
    intro g tag a len line data dirty up s raw goes out hserving hstate hflows hfree
    have hrow (q : GuestReq) : guestRequest s g tag.toNat q = out q := guestRequest_active tag.toNat q hserving hstate hflows hfree
    exact ⟨congrArg Host.Outcome.next (hrow _), congrArg Host.Outcome.next (hrow _), congrArg Host.Outcome.next (hrow _),
      congrArg Host.Outcome.next (hrow _), congrArg Host.Outcome.next (hrow _), congrArg Host.Outcome.next (hrow _),
      congrArg Host.Outcome.next (hrow _)⟩

end Sys2Proof.Proofs
end

section
/-! PROOF. MCTP object messages, event messages and control commands (15 R651 to R657, R668). -/
namespace Sys2Proof.Machine

variable {s : State}

/-! ## Messages that carry an access (15 R653, R657) -/

/-- What a message meets before its access, in the order of R653 and R657. -/
theorem mctpIn_eq (m : Mctp) (len : Nat) (go : State → State) (s : State) :
    mctpIn m len go s = if pathOpen s (mctpReq m) = false then unanswered s
      else if m.lost = true then logEv (unanswered s) 0x1003 sevWarn (pathCode (mctpReq m).path * 65536 + m.eid.toNat)
      else if m.waiting = 4 then answer s 0x0A000003#32
      else if m.vendor.toNat ≠ oGet s O_MCTP_VENDOR_IANA ∨ m.unused ≠ 0#64 ∨ 4076 < len then answer s 0x05040001#32 else go s :=
  if_congr (by simp) rfl rfl

/-- A message that passes every check of R653 and R657 reaches its access. -/
theorem mctpIn_accepted {m : Mctp} {len : Nat} (hopen : pathOpen s (mctpReq m) = true) (hlost : m.lost = false) (hwaiting : m.waiting ≠ 4)
    (hvendor : m.vendor.toNat = oGet s O_MCTP_VENDOR_IANA) (hunused : m.unused = 0#64) (hlen : len ≤ 4076) (go : State → State) :
    mctpIn m len go s = go s := by
  simp [mctpIn_eq, hopen, hlost, hwaiting, hvendor, hunused, hlen]

/-- An answer leaves as its response message; where nothing was answered none leaves. -/
theorem mctpSend_eq (m : Mctp) (cmd off len : Nat) (t : State) :
    mctpSend m cmd off len t = if t.ans.answered = false then t else setFw t { t.fw with
      mctpOut := mctpResponse m cmd (if cmd = 1 ∧ t.ans.abort = 0#32 then min len (t.ans.total - off) else 0) t.ans } := by
  cases hanswered : t.ans.answered <;> simp [mctpSend, hanswered]

/-! ## The event producer (15 R668) -/

theorem exec_mctpEventAck_accepted {m : Mctp} (seq : BitVec 32) (hopen : pathOpen s (mctpReq m) = true) (hlost : m.lost = false)
    (hwaiting : m.waiting ≠ 4) (hvendor : m.vendor.toNat = oGet s O_MCTP_VENDOR_IANA) (hunused : m.unused = 0#64) :
    let q := pushPos s + (seq.toNat + 2 ^ 32 - pushPos s % 2 ^ 32) % 2 ^ 32
    exec (.mctpEventAck m seq) s = .next (if m.eid.toNat = oGet s O_EVT_MCTP_EID ∧ pushPos s < s.fw.mctpSent ∧ q < s.fw.mctpSent then
      setFw s { s.fw with pos := tabPut s.fw.pos 18 (q + 1), mctpTries := 0 } else s) :=
  congrArg Host.Outcome.next
    ((mctpIn_accepted hopen hlost hwaiting hvendor hunused (by decide) _).trans (if_congr (by simp [pushOpen, and_assoc]) rfl rfl))

theorem exec_eventPushRetry_open (hruns : fwRuns s = true) (heid : oGet s O_EVT_MCTP_EID ≠ 0) (hsent : pushPos s < s.fw.mctpSent) :
    exec .eventPushRetry s = .next (if s.fw.mctpTries < 3 then pushSend s s.fw.mctpSent (s.fw.mctpTries + 1)
      else setFw s { s.fw with
        pos := tabPut s.fw.pos 18 s.fw.mctpSent, mctpTries := 0
        lost := tabPut s.fw.lost 18
          (satAdd (tabGet s.fw.lost 18 0) ((heldFrom18 s).filter fun q => q < s.fw.mctpSent).length 0xFFFFFF) }) :=
  congrArg Host.Outcome.next (if_pos (by simp [hruns, heid, hsent, pushOpen]))

/-! ## Requests on an open and on a closed binding (15 R651) -/

theorem onBinding_open {vdm : Bool} (hopen : bindingOpen s vdm = true) (go : State → State) : onBinding vdm go s = go s :=
  if_pos hopen

theorem onBinding_closed {vdm : Bool} (hclosed : bindingOpen s vdm = false) (go : State → State) : onBinding vdm go s = unanswered s :=
  if_neg (by simp [hclosed])

end Sys2Proof.Machine

namespace Sys2Proof.Proofs
open Sys2Proof.Machine

/-- Settles O44: an object message meets the checks of R653 in order, and the producer's and the bindings' rows follow their one condition. -/
theorem mctpMessages : Obligations.MctpMessages := by
  refine ⟨?objects, ?ack, ?retry, ?control, ?closed⟩
  case objects =>
    intro m index sub off len last data s r go out a
    refine ⟨congrArg Host.Outcome.next ?_, congrArg Host.Outcome.next ?_⟩
    · have haccess : mctpIn m len.toNat (segRead r index.toNat sub.toNat off.toNat len.toNat) s = a := mctpIn_eq ..
      simp only [mctpSend_eq, true_and]
      rw [haccess]
      rfl
    · have haccess := mctpIn_eq m data.length
        (fun s => writtenTotal r index.toNat sub.toNat (segWrite r index.toNat sub.toNat off.toNat last data s)) s
      rw [mctpSend_eq, haccess]
      rfl
  case ack =>
    rintro m seq s q ⟨hopen, hlost, hwaiting⟩ ⟨hvendor, hunused⟩
    exact exec_mctpEventAck_accepted seq hopen hlost hwaiting hvendor hunused
  case retry =>
    rintro s n rs msg ⟨hruns, heid⟩ hsent
    exact exec_eventPushRetry_open hruns heid hsent
  case control =>
    intro vdm eid s hopen
    exact ⟨congrArg Host.Outcome.next (onBinding_open hopen _), congrArg Host.Outcome.next (onBinding_open hopen _),
      congrArg Host.Outcome.next (onBinding_open hopen _), congrArg Host.Outcome.next (onBinding_open hopen _)⟩
  case closed =>
    intro vdm eid s hclosed
    exact ⟨congrArg Host.Outcome.next (onBinding_closed hclosed _), congrArg Host.Outcome.next (onBinding_closed hclosed _),
      congrArg Host.Outcome.next (onBinding_closed hclosed _), congrArg Host.Outcome.next (onBinding_closed hclosed _)⟩

end Sys2Proof.Proofs
end

section
/-! PROOF. The SPDM responder and IDE-KM (15 R660; 11 R498): every row is a request at a stage of the connection. -/
namespace Sys2Proof.Machine

variable {s : State} {v : Via}

/-! ## A request at a stage of the connection (log entry 28) -/

theorem spdm_closed (hclosed : viaOpen s v = false) (n : Nat) (go : State → State) : spdm v n go s = unanswered s :=
  if_pos (by simp [hclosed])

theorem spdm_open (hopen : viaOpen s v = true) (n : Nat) (go : State → State) :
    spdm v n go s = if s.fw.spdm.stage < n then reply s 4 0 0 else go s :=
  if_neg (by simp [hopen])

theorem spdm_early {n : Nat} (hopen : viaOpen s v = true) (hstage : s.fw.spdm.stage < n) (go : State → State) :
    spdm v n go s = reply s 4 0 0 :=
  (spdm_open hopen n go).trans (if_pos hstage)

theorem spdm_reached {n : Nat} (hopen : viaOpen s v = true) (hstage : n ≤ s.fw.spdm.stage) (go : State → State) : spdm v n go s = go s :=
  (spdm_open hopen n go).trans (if_neg (by omega))

/-- A request that needs the identity key: another slot than 0 is refused before a missing key is. -/
theorem spdmKey_reached (hopen : viaOpen s v = true) (hstage : 3 ≤ s.fw.spdm.stage) (slot : BitVec 8) (go : State → State) :
    spdmKey v slot go s = if slot ≠ 0#8 then reply s 1 0 0 else if s.fw.idKey = none then reply s 5 0 0 else go s :=
  (spdm_reached hopen hstage _).trans (if_congr Iff.rfl rfl (if_congr (by simp) rfl rfl))

theorem inSession_reached (hopen : viaOpen s v = true) (hstage : 3 ≤ s.fw.spdm.stage) (go : State → State) :
    inSession v go s = if s.fw.spdm.session ≠ 2 then reply s 4 0 0 else go s :=
  (spdm_reached hopen hstage _).trans (ite_not ..).symm

/-! ## Blocks of measurements -/

/-- A choice among the five block numbers of R660, by the byte itself. -/
theorem match_block_eq_ite {α : Type} (b : BitVec 8) (number fw dig mon all refused : α) :
    (match b.toNat with | 0 => number | 1 => fw | 2 => dig | 3 => mon | 0xFF => all | _ => refused) =
      if b = 0#8 then number else if b = 1#8 then fw else if b = 2#8 then dig else if b = 3#8 then mon else if b = 0xFF#8 then all
      else refused := by
  by_cases hblocks : b = 0#8 ∨ b = 1#8 ∨ b = 2#8 ∨ b = 3#8 ∨ b = 0xFF#8
  · rcases hblocks with rfl | rfl | rfl | rfl | rfl <;> rfl
  · obtain ⟨h0, h1, h2, h3, hall⟩ : b ≠ 0#8 ∧ b ≠ 1#8 ∧ b ≠ 2#8 ∧ b ≠ 3#8 ∧ b ≠ 0xFF#8 := by simpa using hblocks
    rw [if_neg h0, if_neg h1, if_neg h2, if_neg h3, if_neg hall]
    split
    case h_6 => rfl
    all_goals exact absurd ‹b.toNat = _› (by bv_omega)

theorem exec_getMeasurements_reached (hopen : viaOpen s v = true) (hstage : 3 ≤ s.fw.spdm.stage) (b : BitVec 8) :
    let dig := leNat (beBytes 48 s.ld.digest.toNat)
    let fwv := Config.fwVersion % 2 ^ 32
    let mon := Config.monitorVersion % 2 ^ 32
    exec (.getMeasurements v b) s = .next (if b = 0#8 then reply s 0 3 1 else if b = 1#8 then reply s 0 fwv 4
      else if b = 2#8 then reply s 0 dig 48 else if b = 3#8 then reply s 0 mon 4
      else if b = 0xFF#8 then reply s 0 (fwv + 2 ^ 32 * dig + 2 ^ 416 * mon) 56 else reply s 1 0 0) :=
  congrArg Host.Outcome.next ((spdm_reached hopen hstage _).trans (match_block_eq_ite b ..))

end Sys2Proof.Machine

namespace Sys2Proof.Proofs
open Sys2Proof.Machine

/-- Settles O45: each row is one request at its stage, so the stage and the connection decide it before its own effect. -/
theorem spdmRequests : Obligations.SpdmRequests := by
  refine ⟨?negotiation, ?certificates, ?measurements, ?keyed, ?session, ?ide, ?early, ?closed⟩
  case negotiation =>
    intro v ok s hopen
    exact ⟨congrArg Host.Outcome.next (spdm_reached hopen (Nat.zero_le _) _), congrArg Host.Outcome.next (spdm_open hopen 1 _),
      congrArg Host.Outcome.next (spdm_open hopen 2 _)⟩
  case certificates =>
    intro v slot off len s l hopen hstage
    exact ⟨congrArg Host.Outcome.next (spdm_reached hopen hstage _), congrArg Host.Outcome.next (spdm_reached hopen hstage _)⟩
  case measurements =>
    exact fun v b s hopen hstage => exec_getMeasurements_reached hopen hstage b
  case keyed =>
    intro v slot s no hopen hstage
    exact ⟨congrArg Host.Outcome.next (spdmKey_reached hopen hstage slot _), congrArg Host.Outcome.next (spdmKey_reached hopen hstage slot _)⟩
  case session =>
    intro v s u hopen hstage
    exact ⟨congrArg Host.Outcome.next (spdm_reached hopen hstage _), congrArg Host.Outcome.next (spdm_reached hopen hstage _),
      congrArg Host.Outcome.next (inSession_reached hopen hstage _), congrArg Host.Outcome.next (inSession_reached hopen hstage _)⟩
  case ide =>
    rintro p s x hopen ⟨hstage, hsession⟩
    have hreached (go : State → State) : inSession (.doe p) go s = go s :=
      (inSession_reached hopen hstage go).trans (if_neg (by simp [hsession]))
    exact ⟨congrArg Host.Outcome.next (hreached _), congrArg Host.Outcome.next (hreached _)⟩
  case early =>
    intro v p ok slot off len s hopen hstage
    have hearly (go : State → State) : (.next (spdm v 3 go s) : Res) = .next (reply s 4 0 0) :=
      congrArg Host.Outcome.next (spdm_early hopen hstage go)
    refine ⟨hearly _, hearly _, hearly _, hearly _, hearly _, hearly _, hearly _, hearly _, ?_⟩
    rintro rfl
    exact hearly _
  case closed =>
    intro v p ok slot off len s hclosed
    have hunanswered (n : Nat) (go : State → State) : (.next (spdm v n go s) : Res) = .next (unanswered s) :=
      congrArg Host.Outcome.next (spdm_closed hclosed n go)
    refine ⟨hunanswered .., hunanswered .., hunanswered .., hunanswered .., hunanswered .., hunanswered .., hunanswered .., hunanswered ..,
      hunanswered .., hunanswered .., hunanswered .., ?_⟩
    rintro rfl
    exact hunanswered ..

end Sys2Proof.Proofs
end

section
/-! PROOF. CAN FD, segments, the scheduler, PPS, stored parameters and tokens (15 R649 to R675; 16 R687; 17 R728, R729). -/
namespace Sys2Proof.Machine

variable {s : State}

/-! ## CAN FD (15 R649, R650, R668) -/

/-- One session per client: a request about another object than the open session's is answered 0x0800_0022 (log entry 69). -/
theorem usdo_open {node : BitVec 8} (hopen : pathOpen s (canReq node) = true) (ix sub : Nat) (go : State → State) :
    usdo node ix sub go s =
      if usdoOpen s node ((devKey (canReq node) ix sub).map (·.2)) = true then answer s 0x08000022#32 else go s :=
  if_neg (by simp [hopen])

section Can
variable (hcan : canOn s = true)
include hcan

theorem exec_nmtResetCommunication_on : exec .nmtResetCommunication s = .next
    (oSet (setFw s { s.fw with xfers := s.fw.xfers.filter (fun x => x.2.r.path != .can), canRestarts := s.fw.canRestarts + 1 })
      O_CAN_STATUS 0) :=
  congrArg Host.Outcome.next (if_pos hcan)

theorem exec_canHeartbeatTick_on (htime : oGet s O_HEARTBEAT_TIME ≠ 0) :
    exec .canHeartbeatTick s = .next (setFw s { s.fw with heartbeats := s.fw.heartbeats + 1 }) :=
  congrArg Host.Outcome.next (if_pos (by simp [hcan, htime]))

theorem exec_canBusOff_on (tec : BitVec 16) :
    exec (.canBusOff tec) s = .next (logEv (oSet s O_CAN_STATUS 2) 0x1001 sevErr tec.toNat) :=
  congrArg Host.Outcome.next (if_pos hcan)

theorem exec_canErrorPassive_on (r t : BitVec 8) :
    exec (.canErrorPassive r t) s = .next (logEv (oSet s O_CAN_STATUS 1) 0x1002 sevWarn (r.toNat * 256 + t.toNat)) :=
  congrArg Host.Outcome.next (if_pos hcan)

end Can

theorem exec_canBusOffRecovery_off (hruns : fwRuns s = true) (hpins : canPins s = true) (hoff : oGet s O_CAN_STATUS = 2) :
    exec .canBusOffRecovery s = .next (oSet s O_CAN_STATUS 0) :=
  congrArg Host.Outcome.next (if_pos (by simp [hruns, hpins, hoff]))

/-- The inhibit time restrains the producer only while a last message stands. -/
theorem emcyFree_of_inhibit_over (h : ∀ t, s.fw.emcyAt = some t → t + oGet s O_EMCY_INHIBIT * 100000 ≤ s.fw.dtime) : emcyFree s = true := by
  unfold emcyFree
  cases hat : s.fw.emcyAt with
  | none => rfl
  | some t => exact decide_eq_true (h t hat)

theorem exec_emcySend_next {q : Nat} {e : EventRec} (hcan : canOn s = true) (hfree : emcyFree s = true) (hnext : nextEmcy s = some (q, e)) :
    exec .emcySend s = .next (setFw s { s.fw with
      pos := tabPut s.fw.pos 17 (q + 1), emcy := some e, emcyCode := 0xFF00 + e.sev.toNat, emcyReg := errorRegister s
      emcyAt := some s.fw.dtime, pushed := s.fw.pushed + 1 }) := by
  refine congrArg Host.Outcome.next ((if_pos (by simp [hcan, hfree])).trans ?_)
  simp only [hnext]

/-! ## Segments, scheduler, PPS (15 R656, R674, R675; 16 R687) -/

theorem exec_segmentTimeout_open {index : BitVec 16} {sub : BitVec 8} {k : Nat} {x : Xfer} (hruns : fwRuns s = true)
    (hkey : (devKey internalReq index.toNat sub.toNat).map (·.2) = some k) (hopen : tabFind s.fw.xfers k = some x) :
    exec (.segmentTimeout index sub) s = .next (answer (setFw s { s.fw with xfers := tabDel s.fw.xfers k }) 0x05040000#32) := by
  obtain ⟨⟨r, _⟩, hdev, rfl⟩ := Option.map_eq_some_iff.1 hkey
  refine congrArg Host.Outcome.next ?_
  simp only [hdev]
  exact if_pos (by simp [hruns, hopen])

/-- An entry runs once none below it that falls due at the same time waits. -/
theorem exec_schedDue_first {e : Fin 32} (hruns : fwRuns s = true) (hdue : schedDue s e = true)
    (hfirst : ∀ j, j < e.val → schedDue s j = true → schedTime (schedEntry s j) ≠ schedTime (schedEntry s e)) :
    exec (.schedDue e) s = .next (schedRun s e) := by
  have hbefore : ((List.range e.val).any fun j => schedDue s j && schedTime (schedEntry s j) == schedTime (schedEntry s e)) = false := by
    simpa using hfirst
  exact congrArg Host.Outcome.next (if_pos (by simp [hruns, hdue, hbefore]))

theorem exec_schedLateEntry_late {e : Fin 32} (hruns : fwRuns s = true) (hlate : s.fw.late.getLsbD e = true)
    (hvalid : schedValid (schedEntry s e) = true) :
    let d := e.val * 65536 + min (lateness s e / 1000000) 0xFFFF
    exec (.schedLateEntry e) s = .next (if schedSkip (schedEntry s e) = true then schedAfter (logEv s 0x2F03 sevWarn d) e
      else schedRun (logEv (oSet s (O_SCHED_LATENESS e) (lateness s e)) 0x2F02 sevWarn d) e) :=
  congrArg Host.Outcome.next (if_pos (by simp [hruns, hlate, hvalid]))

theorem exec_ppsPulse_applied (happlied : mioApplied s = true) (hlocked : s.clk.locked = true) :
    exec .ppsPulse s = .next (setFw s { s.fw with pps := some (s.fw.dtime / 10 ^ 9 * 10 ^ 9) }) :=
  congrArg Host.Outcome.next (if_pos (by simp [happlied, hlocked]))

/-! ## Stored parameters (15 R662, R664) -/

theorem exec_paramStoreDone_block {count : Nat} {entries : List (BitVec 8)} {f : FlashInfo} {o size : Nat} (bad : List (Nat × BitVec 8))
    (hstore : s.fw.store = some (count, entries)) (hblock : paramBlock s = some (f, o, size)) :
    let at_ := idleHalf f o size
    let img := halfBytes s.ld.active.toNat (((activeHalf f o size).map (·.2)).getD 0 + 1) count entries
    let f1 := flawed (flashWrite (flashErase f at_ (size / 2)) at_ img) at_ (bad.filter fun b => b.1 < size / 2)
    let s1 := setLd (setFw s { s.fw with store := none }) { s.ld with flash := some f1 }
    exec (.paramStoreDone bad) s = .next (if flashBytes f1 at_ img.length = img then logEv (oSet s1 O_STORE_STATE 3) 0x1004 sevInfo count
      else logEv (oSet s1 O_STORE_STATE 4) 0x1005 sevErr 4) := by
  intro at_ img f1 s1
  refine congrArg Host.Outcome.next ?_
  simp only [hstore, hblock]
  rfl

theorem exec_paramEraseDone_block {f : FlashInfo} {o size : Nat} (hblock : paramBlock s = some (f, o, size))
    (herasing : oGet s O_STORE_STATE = 2) :
    exec .paramEraseDone s = .next (oSet (setLd s { s.ld with flash := some (flashErase f o size) }) O_STORE_STATE 3) := by
  refine congrArg Host.Outcome.next ?_
  simp only [hblock]
  exact if_pos herasing

/-! ## Tokens (17 R728, R729) -/

/-- The tenant that a token's event concerns is that of its scope, 0 for a token of the whole device. -/
theorem tokenEvent_tokenOf (t : State) (b : List (BitVec 8)) (code data : Nat) :
    tokenEvent t (tokenOf s b) code data = logEvT t code sevInfo data (if leAt b 0 1 = 0 then 0 else leAt b 0 1 - 0x10) 0xFFFF := by
  simp only [tokenEvent, tokenOf]
  split <;> rfl

theorem exec_dbgTokenVerified_held {v : BitVec 1664} (hruns : fwRuns s = true) (hheld : s.dbg.verifying = some v) :
    let b := leBytes 208 v.toNat
    let s0 := setDbg s { s.dbg with verifying := none }
    let ten := if leAt b 0 1 = 0 then 0 else leAt b 0 1 - 0x10
    let s1 := logEvT (setDbg s0 { s0.dbg with token := some (tokenOf s b) }) 0x2E01 sevInfo (leAt b 0 1 + leAt b 1 1 * 256) ten 0xFFFF
    exec .dbgTokenVerified s = .next (if tokenReason s b ≠ 0 then logEv s0 0x2E02 sevWarn (tokenReason s b)
      else if wideAuth s1 = true then s1 else endAttach s1) := by
  intro b s0 ten s1
  refine congrArg Host.Outcome.next ?_
  simp only [hheld]
  refine (if_neg (by simp [hruns])).trans ?_
  rw [tokenEvent_tokenOf]

theorem exec_dbgTokenExpiry_expired {t : Token} (hforce : s.dbg.token = some t) (hexpiry : t.expiry ≠ 0) (hpassed : t.expiry ≤ s.fw.dtime) :
    exec .dbgTokenExpiry s = .next (endToken s 3) := by
  refine congrArg Host.Outcome.next ?_
  simp only [hforce]
  exact if_pos ⟨hexpiry, hpassed⟩

end Sys2Proof.Machine

namespace Sys2Proof.Proofs
open Sys2Proof.Machine

/-- Settles O46: each row acts under its one condition, and the choice that remains is the row's own. -/
theorem canAndServices : Obligations.CanAndServices := by
  refine ⟨?usdo, ?can, ?recovery, ?emcy, ?segment, ?due, ?late, ?pps, ?store, ?erase, ?verified, ?expiry⟩
  case usdo =>
    intro node index sub off last data s r hopen
    exact ⟨congrArg Host.Outcome.next (usdo_open hopen ..), congrArg Host.Outcome.next (usdo_open hopen ..)⟩
  case can =>
    exact fun tec r t s hcan => ⟨exec_nmtResetCommunication_on hcan, exec_canHeartbeatTick_on hcan, exec_canBusOff_on hcan tec,
      exec_canErrorPassive_on hcan r t⟩
  case recovery => exact fun s ⟨hruns, hpins⟩ hoff => exec_canBusOffRecovery_off hruns hpins hoff
  case emcy => exact fun q e s hcan hover hnext => exec_emcySend_next hcan (emcyFree_of_inhibit_over hover) hnext
  case segment => exact fun index sub k x s hruns ⟨hkey, hopen⟩ => exec_segmentTimeout_open hruns hkey hopen
  case due => exact fun e s ⟨hruns, hdue⟩ hfirst => exec_schedDue_first hruns hdue hfirst
  case late => exact fun e s hruns ⟨hlate, hvalid⟩ => exec_schedLateEntry_late hruns hlate hvalid
  case pps => exact fun s happlied hlocked => exec_ppsPulse_applied happlied hlocked
  case store => exact fun bad count entries f o size s hstore hblock => exec_paramStoreDone_block bad hstore hblock
  case erase => exact fun f o size s hblock herasing => exec_paramEraseDone_block hblock herasing
  case verified => exact fun v s hruns hheld => exec_dbgTokenVerified_held hruns hheld
  case expiry => exact fun t s hforce ⟨hexpiry, hpassed⟩ => exec_dbgTokenExpiry_expired hforce hexpiry hpassed

end Sys2Proof.Proofs
end

section
/-! PROOF. MIO banks, contention, and a conversion of the system monitor (16 R681, R683, R692 to R695). -/
namespace Sys2Proof.Machine

variable {s : State}

/-! ## Banks and pins (16 R681, R683, R692) -/

section Bank
variable {bank : Fin 2} (hvaux : s.pwr.vaux = true)
include hvaux

theorem exec_mioBankDetect_waiting (v33 : Bool) (hstate : bankState s bank = 0 ∨ bankState s bank = 3) :
    let v := if v33 = true then 2 else 1
    let s1 := setPwr s { s.pwr with mioBank := tabPut s.pwr.mioBank bank v, rails := setBit s.pwr.rails (9 + bank) true }
    exec (.mioBankDetect bank v33) s = .next
      (if bankState s bank = 3 ∧ fwRuns s = true then logEv s1 0x2D04 sevInfo (bank * 65536 + v) else s1) := by
  have hrail : ((if v33 then 2 else 1) != 3) = true := by cases v33 <;> rfl
  refine congrArg Host.Outcome.next ((if_pos (by simpa [hvaux] using hstate)).trans ?_)
  simp only [logIf, setBankState, hrail, Bool.and_eq_true, beq_iff_eq]

theorem exec_mioBankFloat_powered (mv : BitVec 16) (hstate : bankState s bank = 1 ∨ bankState s bank = 2) :
    let s1 := setPwr s { s.pwr with mioBank := tabPut s.pwr.mioBank bank 3, rails := setBit s.pwr.rails (9 + bank) false }
    exec (.mioBankFloat bank mv) s = .next (if fwRuns s = true then logEv s1 0x2D03 sevErr (bank * 65536 + mv.toNat) else s1) :=
  congrArg Host.Outcome.next (if_pos (by simpa [hvaux] using hstate))

end Bank

theorem exec_mioContention_watched {pin : Fin 64} (hwatched : pinWatched s pin = true) :
    let off := (oGet s (O_MIO_CFG pin)).testBit 3
    let s1 := oSet s (O_MIO_STATUS pin) (1 + (if off = true then 2 else 0))
    exec (.mioContention pin) s = .next
      (if pinHeld s pin = true then s1 else logEv s1 0x2D01 sevWarn (pin + (if off = true then 256 else 0))) := by
  refine congrArg Host.Outcome.next ((if_pos hwatched).trans ?_)
  cases pinHeld s pin <;> simp [logIf]

/-! ## A conversion (16 R694) -/

section Conversion
variable {ch : Fin 68} (hruns : smRuns s ch = true) (hturn : smTurn s = some ch.val ∨ (64 ≤ ch.val ∧ s.mio.ranged.getLsbD (ch - 64) = true))
include hruns hturn

/-- A temperature or a rail ends its turn; what it tells of a rail stands in RAIL_STATUS first (log entry 104). -/
theorem exec_smConversion_plain (v : BitVec 32) (hplain : ch.val < 64) :
    exec (.smConversion ch v) s =
      .next (roundEnd (smPlain (smRailSeen s ch (signed32 v.toNat)) ch (signed32 v.toNat)) ch) :=
  congrArg Host.Outcome.next ((if_pos (by simpa [hruns] using hturn)).trans (if_pos hplain))

/-- A conversion inserted after a range switch is no turn of the sequence. -/
theorem exec_smConversion_anin (v : BitVec 32) (hanin : 64 ≤ ch.val) :
    exec (.smConversion ch v) s = .next (if s.mio.ranged.getLsbD (ch - 64) = true then smAnin s (ch - 64) v.toNat
      else roundEnd (smAnin s (ch - 64) v.toNat) ch) :=
  congrArg Host.Outcome.next ((if_pos (by simpa [hruns] using hturn)).trans (if_neg (by omega)))

end Conversion

end Sys2Proof.Machine

namespace Sys2Proof.Proofs
open Sys2Proof.Machine

/-- Settles O47: a bank's event is the one of its state, and a conversion that comes in its turn ends it. -/
theorem pinsAndMonitor : Obligations.PinsAndMonitor := by
  refine ⟨?detect, ?float, ?contention, ?conversion⟩
  case detect => exact fun bank v33 s hvaux hstate => exec_mioBankDetect_waiting hvaux v33 hstate
  case float => exact fun bank mv s hvaux hstate => exec_mioBankFloat_powered hvaux mv hstate
  case contention => exact fun pin s hwatched => exec_mioContention_watched hwatched
  case conversion =>
    intro ch v s x bit s1 hruns hturn
    exact ⟨exec_smConversion_plain hruns hturn v, exec_smConversion_anin hruns hturn v⟩

end Sys2Proof.Proofs
end

section
/-! PROOF. The engine monitor's exchange and the test access port (17 R721, R722, R731, R732). -/
namespace Sys2Proof.Machine

variable {s : State}

/-- A monitor that is clocked reads its command byte. -/
theorem monRow_monitor {e : Nat} (hclock : engClocked s e = true) (hmonitor : (engOf s e).state = .monitor) (code : Nat)
    (act : Engine → Engine) :
    monRow s e code act = if monByte (engOf s e) = code then setEng s e (act (engOf s e))
      else if 0x84 ≤ monByte (engOf s e) ∨ monByte (engOf s e) = 0x80 then setEng s e (setMonByte (engOf s e) 0xFF) else s :=
  if_neg (by simp [hclock, hmonitor])

theorem tapSelect_powered (hvaux : s.pwr.vaux = true) (i : TapInstr) : tapSelect s i = setDbg s { s.dbg with tap := i } :=
  if_pos hvaux

/-- An instruction that acts while POR_N is low alone (log entry 31). -/
theorem tapHeld_low (hvaux : s.pwr.vaux = true) (hlow : s.pwr.porN = false) (i : TapInstr) :
    tapHeld s i = setDbg s { s.dbg with tap := i } := by
  simp [tapHeld, hlow, tapSelect_powered hvaux]

theorem tapHeld_high (hvaux : s.pwr.vaux = true) (hhigh : s.pwr.porN = true) (i : TapInstr) :
    tapHeld s i = setDbg s { s.dbg with tap := .bypass } := by
  simp [tapHeld, hhigh, tapSelect_powered hvaux]

end Sys2Proof.Machine

namespace Sys2Proof.Proofs
open Sys2Proof.Machine

/-- Settles O50: the three monitor rows are one reading of the command byte, and every instruction of the port is one selection. -/
theorem monitorAndTap : Obligations.MonitorAndTap := by
  refine ⟨?monitor, ?tap⟩
  case monitor =>
    intro e s g b no hclock hmonitor
    exact ⟨congrArg Host.Outcome.next (monRow_monitor hclock hmonitor ..), congrArg Host.Outcome.next (monRow_monitor hclock hmonitor ..),
      congrArg Host.Outcome.next (monRow_monitor hclock hmonitor ..)⟩
  case tap =>
    intro s t hvaux
    have hselect (i : TapInstr) : (.next (tapSelect s i) : Res) = .next (t i) := congrArg Host.Outcome.next (tapSelect_powered hvaux i)
    refine ⟨hselect _, hselect _, hselect _, hselect _, fun hlow => ?_, fun hhigh => ?_⟩
    · have hheld (i : TapInstr) : (.next (tapHeld s i) : Res) = .next (t i) := congrArg Host.Outcome.next (tapHeld_low hvaux hlow i)
      exact ⟨hheld _, hheld _, hheld _, hheld _, hheld _⟩
    · have hheld (i : TapInstr) : (.next (tapHeld s i) : Res) = .next (t .bypass) := congrArg Host.Outcome.next (tapHeld_high hvaux hhigh i)
      exact ⟨hheld _, hheld _, hheld _, hheld _, hheld _⟩

end Sys2Proof.Proofs
end

section
/-! PROOF. The line of the Goith port, and what an access is answered before it acts (17 R706 to R713, R726). -/
namespace Sys2Proof.Machine

variable {s : State}

/-- What any access is answered before it acts, in the order of R706 to R713 and R726 (log entry 72). -/
theorem exec_registerWrite_goith (g : GAcc) (cls : Fin 4) (rs : Fin 8) (rnw : Bool) (v : BitVec 32) (s : State) :
    let s1 := if s.dbg.hdrLogged = true then s else logEv s 0x2E05 sevWarn 0
    let t := ackWith s .ok
    exec (.registerWrite (.goith g cls rs rnw v)) s = .next (
      if portSilent s = true ∨ s.dbg.line ≠ .ready then ackWith s .none
      else if g.hdrOk = false then setDbg s1 { s1.dbg with ack := .none, line := .dead, hdrLogged := true }
      else if rnw = false ∧ g.dataOk = false then setDbg s { s.dbg with ack := .fault, wdParity := true }
      else if ¬ (cls = 0 ∧ rs < 3) ∧ portError s = true then ackWith s .fault
      else if ¬ (cls = 0 ∧ (rs < 3 ∨ rs = 7)) ∧ fwRuns s = false then ackWith s .wait
      else if classBusy s cls = true then ackWith s .wait
      else if regAuth s cls rs = false then accDenied s
      else if rnw = true then portRead t cls rs else portWrite t cls rs v) := by
  have hcls : cls.val = 0 ↔ cls = 0 := by omega
  have hrs : rs.val < 3 ↔ rs < 3 := Iff.rfl
  have hrs7 : rs.val = 7 ↔ rs = 7 := by omega
  refine congrArg Host.Outcome.next ?_
  refine if_congr (by simp) rfl (if_congr (by simp) rfl (if_congr (by simp) rfl (if_congr ?_ rfl (if_congr ?_ rfl (if_congr Iff.rfl rfl
    (if_congr (by simp) rfl rfl))))))
  · simp [hcls, hrs, imp_iff_not_or]
  · simp [hcls, hrs, hrs7, imp_iff_not_or]

theorem exec_goithLineReset_heard (hheard : portSilent s = false) :
    exec .goithLineReset s = .next (setDbg s { s.dbg with line := .sync, hdrLogged := false }) :=
  congrArg Host.Outcome.next (if_neg (by simp [hheard]))

theorem exec_goithSyncByte_sync (hheard : portSilent s = false) (hline : s.dbg.line = .sync) (b : BitVec 8) :
    exec (.goithSyncByte b) s = .next (setDbg s { s.dbg with line := if b = 0x5A#8 then .ready else .dead }) :=
  congrArg Host.Outcome.next (if_neg (by simp [hheard, hline]))

end Sys2Proof.Machine

namespace Sys2Proof.Proofs
open Sys2Proof.Machine

/-- Settles O48: an access is one chain of conditions, and a write by name is the dictionary's or the engine's own. -/
theorem portLine : Obligations.PortLine := by
  refine ⟨?line, ?access, ?named⟩
  case line => exact fun b s hheard => ⟨exec_goithLineReset_heard hheard, fun hline => exec_goithSyncByte_sync hheard hline b⟩
  case access => exact fun g cls rs rnw v s => exec_registerWrite_goith g cls rs rnw v s
  case named => exact fun r index sub value e off v s => ⟨rfl, rfl⟩

end Sys2Proof.Proofs
end

section
/-! PROOF. Accesses of the Goith port that are carried out (17 R712 to R727). -/
namespace Sys2Proof.Machine

variable {s : State}

/-! ## An access that nothing turns away (17 R711, R713, R726) -/

section Ready
variable {g : GAcc} (hheard : portSilent s = false) (hline : s.dbg.line = .ready) (hhdr : g.hdrOk = true) (hdata : g.dataOk = true)
include hheard hline hhdr hdata

/-- PORT_CMD is written under error bits, without the firmware and without authority. -/
theorem goith_portCmd (v : BitVec 32) : goith g 0 2 false v s = portCmd (ackWith s .ok) v := by
  simp [goith, hheard, hline, hhdr, hdata, classBusy, regAuth, portWrite]

variable (hruns : fwRuns s = true) (hclear : portError s = false)
include hruns hclear

theorem goith_done {cls rs : Nat} (hfree : classBusy s cls = false) (hauth : regAuth s cls rs = true) (rnw : Bool) (v : BitVec 32) :
    goith g cls rs rnw v s = if rnw = true then portRead (ackWith s .ok) cls rs else portWrite (ackWith s .ok) cls rs v := by
  simp [goith, hheard, hline, hhdr, hdata, hruns, hclear, hfree, hauth]

end Ready

/-! ## PORT_CMD and ENG_SEL (17 R714) -/

/-- A code of no command is refused. -/
theorem portCmd_invalid (t : State) {v : BitVec 32} (hcode : fld v 0 8 = 0 ∨ 5 ≤ fld v 0 8) : portCmd t v = accFault t := by
  unfold portCmd
  split
  case h_5 => rfl
  all_goals omega

theorem portAttach_eq (t : State) :
    portAttach t = if wideAuth t = false then accDenied t else if t.dbg.attached = true then t
      else logEv (setDbg t { t.dbg with attached := true }) 0x2E04 sevInfo 1 :=
  if_congr (by simp) rfl rfl

/-! ## The value of MEM_CMD (17 R718) -/

section MemCmd
variable {op : Nat} (hop : op < 256) (adv : Bool) (lanes : BitVec 4)
include hop

theorem toNat_memCmdWord : (memCmdWord op adv lanes).toNat = op + lanes.toNat * 256 + bit01 adv * 4096 := by
  have hadv : bit01 adv ≤ 1 := by cases adv <;> decide
  rw [memCmdWord, BitVec.toNat_ofNat, Nat.mod_eq_of_lt (by omega)]

theorem fld_memCmdWord_op : fld (memCmdWord op adv lanes) 0 8 = op := by
  rw [fld, toNat_memCmdWord hop]
  omega

theorem fld_memCmdWord_lanes : BitVec.ofNat 4 (fld (memCmdWord op adv lanes) 8 4) = lanes := by
  apply BitVec.eq_of_toNat_eq
  rw [fld, toNat_memCmdWord hop, BitVec.toNat_ofNat]
  omega

theorem getLsbD_memCmdWord_adv : (memCmdWord op adv lanes).getLsbD 12 = adv := by
  have hlow : (op + lanes.toNat * 256 + bit01 adv * 4096) / 2 ^ 12 = bit01 adv := by omega
  rw [BitVec.getLsbD, toNat_memCmdWord hop, Nat.testBit_eq_decide_div_mod_eq, hlow]
  cases adv <;> rfl

end MemCmd

/-- A word operation at an address that is no multiple of 4 is refused before it starts. -/
theorem memStart_word (t : State) {op : GMemOp} (hword : memBad t op = (memAddr t % 4 != 0)) :
    memStart t op = if memAddr t % 4 ≠ 0 then accFault t else memStart t op := by
  by_cases haligned : memAddr t % 4 = 0
  · exact (if_neg (not_not.2 haligned)).symm
  · rw [if_pos haligned]
    exact if_pos (by simp [hword, haligned])

section MemOps
variable (t : State) (adv : Bool) (lanes : BitVec 4)

theorem memCmd_readLine : memCmd t (memCmdWord 1 adv 0#4) = memStart t (.readLine adv) := by
  simp only [memCmd, fld_memCmdWord_op (op := 1) (by decide), getLsbD_memCmdWord_adv (op := 1) (by decide)]

theorem memCmd_writeLine : memCmd t (memCmdWord 2 adv 0#4) = memStart t (.writeLine adv) := by
  simp only [memCmd, fld_memCmdWord_op (op := 2) (by decide), getLsbD_memCmdWord_adv (op := 2) (by decide)]

theorem memCmd_readWord : memCmd t (memCmdWord 3 adv 0#4) = if memAddr t % 4 ≠ 0 then accFault t else memStart t (.readWord adv) := by
  rw [← memStart_word t (op := .readWord adv) rfl]
  simp only [memCmd, fld_memCmdWord_op (op := 3) (by decide), getLsbD_memCmdWord_adv (op := 3) (by decide)]

theorem memCmd_writeBytes :
    memCmd t (memCmdWord 4 adv lanes) = if memAddr t % 4 ≠ 0 then accFault t else memStart t (.writeBytes adv lanes) := by
  rw [← memStart_word t (op := .writeBytes adv lanes) rfl]
  simp only [memCmd, fld_memCmdWord_op (op := 4) (by decide), getLsbD_memCmdWord_adv (op := 4) (by decide),
    fld_memCmdWord_lanes (op := 4) (by decide)]

end MemOps

/-! ## Operations that end (17 R718 to R720) -/

theorem exec_goithMemDone_answered {op : GMemOp} {t : Tx} (hheard : portSilent s = false) (hop : s.dbg.memOp = some op)
    (hfound : tabFind (memPush (memIssue (memDrop s) op)).vent.txs (memKey (memPush (memIssue (memDrop s) op))) = some t)
    (hport : isPort t.init = true) :
    let s1 := memPush (memIssue (memDrop s) op)
    exec .goithMemDone s = .next
      (if t.phase = .rsp ∧ t.lost = false ∧ inOrder s1 (memKey s1) t = true then memEnd s1 op t else s1) := by
  refine congrArg Host.Outcome.next ((if_neg (by simp [hheard])).trans ?_)
  simp only [memDone, hop, hfound]
  exact if_congr (by simp [hport, and_assoc]) rfl rfl

theorem exec_goithTunnelDone_running {write : Bool} (hruns : fwRuns s = true) (hop : s.dbg.tunOp = some write) :
    let t := tunRun s write
    let n := if write = true ∨ t.ans.abort ≠ 0#32 then 0 else min (fld s.dbg.tunLen 0 13) (t.ans.total - s.dbg.tunOffset.toNat)
    exec .goithTunnelDone s = .next (setDbg t { t.dbg with
      tunOp := none, tunAbort := t.ans.abort
      tunTotal := if t.ans.abort = 0#32 then BitVec.ofNat 32 t.ans.total else t.dbg.tunTotal
      tunBuf := (List.range n).foldl (fun b k => tabPut b k (BitVec.ofNat 8 (t.ans.value / 2 ^ (8 * k)))) t.dbg.tunBuf }) := by
  refine congrArg Host.Outcome.next ?_
  simp only [tunDone, hop, hruns, Bool.not_true, Bool.false_eq_true, if_false, beq_iff_eq, Bool.or_eq_true, Bool.not_eq_true',
    beq_eq_false_iff_ne]

theorem exec_goithReadbackDone_waiting {a : Nat} (hheard : portSilent s = false) (hwait : s.dbg.rbWait = some a) :
    exec .goithReadbackDone s = .next
      (if rbHeld s a = true then s else setDbg s { s.dbg with rbWait := none, rbFrame := some a, rbBuf := frameContent s a }) := by
  refine congrArg Host.Outcome.next ((if_neg (by simp [hheard])).trans ?_)
  simp only [rbDone, hwait]

end Sys2Proof.Machine

namespace Sys2Proof.Proofs
open Sys2Proof.Machine

/-- Settles O49: every row is an access of its register, and one that nothing turns away is that register's read or write. -/
theorem portAccesses : Obligations.PortAccesses := by
  refine ⟨?rows, ?commands, ?engine, ?memory, ?tunnel, ?readback, ?memDone, ?tunnelDone, ?readbackDone, ?attachTimeout⟩
  case rows =>
    intro g cmd rnw adv lanes v s acc op
    have hop (n : Nat) (l : BitVec 4) : op n l = memCmdWord n adv l := by cases adv <;> rfl
    simp only [hop]
    exact ⟨rfl, rfl, rfl, rfl, rfl, rfl, rfl, rfl, rfl, rfl, rfl, rfl, rfl, rfl, rfl, rfl, rfl, rfl⟩
  case commands =>
    rintro g cmd s t ⟨hheard, hline⟩ ⟨hhdr, hdata⟩
    have hcmd (v : BitVec 32) : (.next (goith g 0 2 false v s) : Res) = .next (portCmd t v) :=
      congrArg Host.Outcome.next (goith_portCmd hheard hline hhdr hdata v)
    refine ⟨(hcmd _).trans (congrArg Host.Outcome.next (portAttach_eq t)), hcmd _, hcmd _, hcmd _, fun hcode => ?_⟩
    have hfld : fld (cmd.setWidth 32) 0 8 = cmd.toNat := by simp [fld]; omega
    refine (hcmd _).trans (congrArg Host.Outcome.next (portCmd_invalid t ?_))
    rw [hfld]
    exact hcode.imp_left (by rintro rfl; rfl)
  case engine =>
    rintro g rnw v s t ⟨hheard, hline, hruns⟩ ⟨hhdr, hdata⟩ ⟨hclear, hauth⟩
    have hdone (rs : Nat) (rnw : Bool) : (.next (goith g 0 rs rnw v s) : Res) =
        .next (if rnw = true then portRead t 0 rs else portWrite t 0 rs v) :=
      congrArg Host.Outcome.next (goith_done hheard hline hhdr hdata hruns hclear rfl (by simp [regAuth, hauth]) rnw v)
    exact ⟨hdone _ _, (hdone _ _).trans (by cases rnw <;> rfl), (hdone _ _).trans (by cases rnw <;> rfl)⟩
  case memory =>
    rintro g adv lanes v s t d ⟨hheard, hline, hruns⟩ ⟨hhdr, hdata⟩ ⟨hclear, hauth, hidle⟩
    have hdone (rs : Nat) (rnw : Bool) (v : BitVec 32) : (.next (goith g 1 rs rnw v s) : Res) =
        .next (if rnw = true then portRead t 1 rs else portWrite t 1 rs v) :=
      congrArg Host.Outcome.next (goith_done hheard hline hhdr hdata hruns hclear (by simp [classBusy, hidle]) (by simp [regAuth, hauth]) rnw v)
    exact ⟨hdone 2 true v, hdone 2 false v, (hdone 4 false _).trans (congrArg Host.Outcome.next (memCmd_readLine t adv)),
      (hdone 4 false _).trans (congrArg Host.Outcome.next (memCmd_writeLine t adv)),
      (hdone 4 false _).trans (congrArg Host.Outcome.next (memCmd_readWord t adv)),
      (hdone 4 false _).trans (congrArg Host.Outcome.next (memCmd_writeBytes t adv lanes))⟩
  case tunnel =>
    rintro g v s t d ⟨hheard, hline, hruns⟩ ⟨hhdr, hdata⟩ ⟨hclear, hidle⟩
    have hdone (rs : Nat) (rnw : Bool) (v : BitVec 32) : (.next (goith g 2 rs rnw v s) : Res) =
        .next (if rnw = true then portRead t 2 rs else portWrite t 2 rs v) :=
      congrArg Host.Outcome.next (goith_done hheard hline hhdr hdata hruns hclear (by simp [classBusy, hidle]) rfl rnw v)
    exact ⟨hdone 4 false _, hdone 4 false _, hdone 3 true v, hdone 3 false v⟩
  case readback =>
    rintro g v s t d ⟨hheard, hline, hruns⟩ ⟨hhdr, hdata⟩ ⟨hclear, hauth, hidle⟩
    have hdone (rs : Nat) (rnw : Bool) (v : BitVec 32) : (.next (goith g 3 rs rnw v s) : Res) =
        .next (if rnw = true then portRead t 3 rs else portWrite t 3 rs v) :=
      congrArg Host.Outcome.next (goith_done hheard hline hhdr hdata hruns hclear (by simp [classBusy, hidle]) (by simp [regAuth, hauth]) rnw v)
    refine ⟨hdone 0 false v, (hdone 2 true _).trans (congrArg Host.Outcome.next ?_)⟩
    exact (if_pos rfl).trans ((if_congr (Q := ¬ rbAllowed t = true) (by simp) rfl rfl).trans (ite_not ..))
  case memDone => exact fun op t s hheard hop ⟨hfound, hport⟩ => exec_goithMemDone_answered hheard hop hfound hport
  case tunnelDone => exact fun write s hruns hop => exec_goithTunnelDone_running hruns hop
  case readbackDone => exact fun a s hheard hwait => exec_goithReadbackDone_waiting hheard hwait
  case attachTimeout => exact fun s => rfl

end Sys2Proof.Proofs
end
